-- ==== Sys2Proof/Word.lean ====
section
/-!
DEFINITION. The word and byte types of the SHP-7100.

00_scope.md, "Numbers and units": registers and scalars are 64-bit words, memory is bytes, multi-byte values are
little-endian everywhere.
-/
namespace Sys2Proof

/-- A 64-bit word: one CSR, one scalar register. -/
abbrev Word := BitVec 64

/-- One byte of memory. -/
abbrev Byte := BitVec 8

end Sys2Proof
end

