-- ==== Sys2Proof/Syntax.lean ====
section
/-!
DEFINITION. The commands the block takes: one constructor of Instr per row of spec/opcode_table.json, with its operands.
-/
namespace Sys2Proof

/-- Who writes a register (Table 19-2): a Ringmaster instance (its cores or a privileged program of its queues;
`false` A, `true` B), the management path, the power core, the Ticket Booth, or the debug port. -/
inductive Writer where
  | rm (b : Bool)
  | mgmt
  | power
  | booth
  | debug
deriving DecidableEq, Repr

/-- An instruction as a rake fetched it (R93, R94): the rake, the fields of the instruction word below the opcode, the
qwords of its extension words (absent ones zero). The opcode is the command. Log entry 6. -/
structure Fetch where
  rake : Fin 256
  mod : BitVec 8
  ra : Fin 32
  rb : Fin 32
  g : Fin 8
  gn : Bool
  xw : Fin 4
  imm : BitVec 32
  op : BitVec 64
  x0 : BitVec 64
  x1 : BitVec 64
  y0 : BitVec 64
  y1 : BitVec 64
deriving DecidableEq, Repr

/-- An NX message (R375, R376, Table 13-1): the fields of its header and the bytes of its units after it. -/
structure Msg where
  code : Nat
  colour : Nat := 0
  mark : Bool := false
  dstPartner : Bool := false
  dstPort : Nat := 0
  dstNode : Nat := 0
  srcPartner : Bool := false
  srcPort : Nat := 0
  srcNode : Nat := 0
  route : Nat := 0
  life : Nat := 0
  tag : Nat := 0
  tagEpoch : Nat := 0
  pan : Nat := 0
  length : Nat := 0
  durWait : Bool := false
  nt : Bool := false
  lent : Bool := false
  status : Nat := 0
  accepted : Bool := false
  gone : Bool := false
  dup : Bool := false
  mirrored : Bool := false
  q2 : Nat := 0
  q3 : Nat := 0
  data : List Nat := []
deriving DecidableEq, Repr

/-- A Carousel (Table 06-5): rake dispatch of a stall, Midway injection of a plane and stop, or the command slots of a DDR5 or
stacked-DRAM channel. -/
inductive Car where
  | rake (k : Fin 16)
  | midway (plane : Fin 2) (stop : Fin 36)
  | ddr (c : Fin 16)
  | stk (c : Fin 32)
deriving DecidableEq, Repr

/-- What a half-line of DRAM, or a row of SRAM, has developed since it was last written (R255, R259): the bits that flip, by pin or lane
and beat (DDR5 pin `p` is DQ `p` mod 4 of device `p` div 4), or by byte and stored bit for SRAM; the address whose word a misdirected
write or read finds there; and whether the memory itself is at fault, so that a fresh code word meets it again. -/
structure Upset where
  half : Bool
  flips : List (Nat × Nat)
  wrote : Option Nat
  hard : Bool
deriving DecidableEq, Repr

/-- An active namespace of an SSD (Table 10-1): its NSID, its capacity in granules, whether it offers 4,096-byte blocks with a 16b Guard
and with a 64b Guard, and whether their protection is of Type 1. -/
structure NvmeSpace where
  nsid : BitVec 21
  cap : BitVec 32
  guard16 : Bool
  guard64 : Bool
  type1 : Bool
deriving DecidableEq, Repr

/-- What enumeration finds at a heap port (R280 to R282, R300): the code of the highest rate that the port shares with its device, whether
the device is an NVMe controller with the NVM command set, its namespaces, its maximum transfer in KiB, its queue pairs and their depth,
and serial number and namespace GUID as one number. -/
structure Drive where
  port : Fin 8
  rate : Fin 8
  nvme : Bool
  spaces : List NvmeSpace
  mdts : Nat
  queues : Nat
  depth : Nat
  label : Nat
deriving DecidableEq, Repr

/-- What the SSD of a heap block answered (R287, R288): the block's number in the page, whether its command failed, the bits of its 4,096
bytes that differ from those written, byte 0 lowest, and the guard, reference tag and application tag it came with. -/
structure BlockReply where
  block : Nat
  err : Bool
  flips : Nat
  guard : Nat
  ref : Nat
  app : Nat
deriving DecidableEq, Repr

/-- What the SSDs return of a block of the durability log area (R297): the pan and the block's place among those flushed of it, whether the
read fails, and the bits of its 4,096 bytes that differ from those written, byte 0 lowest. -/
structure LogRead where
  pan : Fin 64
  index : Nat
  err : Bool
  flips : Nat
deriving DecidableEq, Repr

/-- What the log area reads as at recovery (R297): whether its flush marker checks, and the blocks that do not come back as written. -/
structure AreaRead where
  marker : Bool
  blocks : List LogRead
deriving DecidableEq, Repr

/-- A request of an SPDM requester (R437), as far as it changes the device: any request that only reads, one for measurements with its
nonce and the block it names (all where it names none), a key exchange that opens session `id` with or without mutual authentication, the root its chain ends at and whether the domain test of R442 passes, or
the end of a session. -/
inductive Spdm where
  | other
  | measurements (nonce : BitVec 256) (block : Option Nat)
  | keyExchange (id : Nat) (mutual_ : Bool) (root : Nat) (domain : Bool)
  | endSession (id : Nat)
deriving DecidableEq, Repr

/-- How an owner command arrives (R461, R512): its req_id, the nonce it names, its signature, and OWNCLR_N at its performance. -/
structure Owner where
  id : BitVec 32
  nonce : Nat
  sig : List Nat
  pin : Bool
deriving DecidableEq, Repr

/-- How a management request arrives (R510 to R512): over Ethernet or I3C, in which SPDM session if any, its req_id, whether its
header and body are well formed, and whether its version and op are known. -/
structure Req where
  eth : Bool
  sess : Option Nat
  id : BitVec 32
  good : Bool
  known : Bool
deriving DecidableEq, Repr

/-- A PLL of Table 16-3. -/
inductive Pll where
  | base
  | mid
  | rake (k : Fin 16)
  | ddr (c : Fin 16)
  | stk (k : Fin 2)
  | port (p : Fin 8)
  | pex
deriving DecidableEq, Repr

/-- A fetched image set (R500): its security version, its build identifier, and whether digest and both signatures check. -/
structure Image where
  svn : BitVec 16
  build : BitVec 32
  good : Bool
deriving DecidableEq, Repr

/-- How a boot stage ends (Table 17-5): as it should, or with its failure. FIRMWARE ends with the formats that the firmware reads
and writes (R505) and the process monitors' counts (R526); `heap` is the end of HEAP, which runs beside MEMORY. -/
inductive StageEnd where
  | done
  | heap
  | firmware (lo hi own : BitVec 16) (mhz : List (BitVec 16))
  | noLoader
  | noImage
  | pll
  | ddr
  | stk
  | selfTest
  | bFails
deriving DecidableEq, Repr

/-- A PLDM update (R502): an image set with its size in whole, the activation of the slot written, or a boot loader. -/
inductive Pldm where
  | image (i : Image)
  | activate
  | loader (good : Bool)
deriving DecidableEq, Repr

/-- The core whose failure takes a dump (Table 18-5): the Ticket Booth, the power core, a Ringmaster instance, a stall core. -/
inductive FwCore where
  | booth
  | power
  | rm (b : Bool)
  | stall (k : Fin 16)
deriving DecidableEq, Repr

/-- The commands of the block: one constructor per row of spec/opcode_table.json. The docstring gives the row's
mnemonic, the rule that governs it and the table's summary. -/
inductive Instr where
  /-- REGISTER_WRITE (R2): A write to a register that has no row of its own takes effect field by field according to the access codes, after the claim-gate check of R410. -/
  | registerWrite (w : Writer) (off : Nat) (v : Word)
  /-- EVPOS_CONSUMER_WRITE (R581): A write of EVPOS.consumer is accepted or discarded by the ring-window test. -/
  | evposConsumerWrite (w : Writer) (v : Word)
  /-- ERRLOGPOS_CONSUMER_WRITE (R581): A write of ERRLOGPOS.consumer is accepted or discarded by the ring-window test. -/
  | errlogposConsumerWrite (w : Writer) (v : Word)
  /-- FQPOS_CONSUMER_WRITE (R581): A write of FQPOS[n].consumer is accepted or discarded by the ring-window test. -/
  | fqposConsumerWrite (w : Writer) (n : Fin 64) (v : Word)
  /-- AONLOGPOS_CONSUMER_WRITE (R581): A write of AONLOGPOS.consumer is accepted or discarded by the ring-window test. -/
  | aonlogposConsumerWrite (w : Writer) (v : Word)
  /-- DROP_RECORD_WRITE (R13): Once a full log destination has room again, the event-0xFF record reporting dropped events of a class is written. -/
  | dropRecordWrite (aon : Bool) (c : Fin 256)
  /-- GRANULE_ZEROING_DONE (R33): A fill engine finishes zeroing a granule, and the granule returns from ZEROING to FREE. -/
  | granuleZeroingDone (g : Nat)
  /-- PAN_DRAIN_COMPLETE (R34): The in-flight count of a DRAINING pan reaches zero, and the pan releases its granules, frees its structures and becomes FREE. -/
  | panDrainComplete (n : Fin 64)
  /-- STK_SEG_FLIP_DONE (R43): A stacked-DRAM segment finishes its change of mode, and STK_SEG_FLIPPED is raised. -/
  | stkSegFlipDone (k : Fin 239)
  /-- LEND_OFFER (R383): A lend offer from a partner is checked and fills an EMPTY lent slot as OFFERED. -/
  | lendOffer (p : Fin 8) (m : Msg) (u : Nat) (z : Bool)
  /-- LEND_OFFER_TIMEOUT (R50): An offer not accepted within 1 s is declined, and the slot returns to EMPTY. -/
  | lendOfferTimeout (k : Fin 64)
  /-- LEND_RECALL (R383): A recall from the lender moves an ACTIVE slot to RECALLING and starts migrating its owned granules out. -/
  | lendRecall (p : Fin 8) (m : Msg) (u : Nat) (z : Bool)
  /-- LENT_RECALL_DONE (R50): Every granule of a RECALLING slot has been migrated, dropped or released, so RECALL_DONE is sent and the slot becomes EMPTY. -/
  | lentRecallDone (k : Fin 64)
  /-- LENT_PATH_LOST (R54): A slot whose lender has had no path for 100 ms, or is NODE_DOWN, becomes LOST and its pages are unmapped. -/
  | lentPathLost (k : Fin 64)
  /-- LENT_LOST_CLEARED (R50): All in-flight accesses of a LOST slot have finished, so the slot becomes EMPTY and leaves the owner table. -/
  | lentLostCleared (k : Fin 64)
  /-- ENTRY_ADMIT (R59): Admission reads the next entry of a queue, checks it, resolves its windows into the shadow and tags it with the epoch. -/
  | entryAdmit (q : Fin 524288) (far : List (Nat × Bool))
  /-- ENTRY_DISPATCH (R63): An admitted entry, or a resumed one, is dispatched to a free rake of its home stall and its state is set or restored. -/
  | entryDispatch (r : Fin 256)
  /-- DURABLE_RECORD_WRITE (R80): Once every durable-pan write of an entry is in the log, its DURABLE record with OK_DURABLE is written. -/
  | durableRecordWrite (q : Fin 524288) (pos : Nat)
  /-- RUN_LIMIT_EXPIRE (R87): An entry's running time reaches its run limit, and the entry is stopped ABORTED. -/
  | runLimitExpire (r : Fin 256)
  /-- NOP (R100): NOP does nothing and completes OK. -/
  | nop (f : Fetch)
  /-- BR (R103): BR sets pc to a direct or register target. -/
  | br (f : Fetch)
  /-- LOOP (R104): LOOP steps its counter and index registers and branches while the counter is non-zero. -/
  | loop (f : Fetch)
  /-- FENCE (R72): FENCE STORE or FENCE FULL orders the program's earlier accesses before its later ones. -/
  | fence (f : Fetch)
  /-- SIGNAL (R111): SIGNAL fetch-adds a step to a counter after every earlier access has been performed. -/
  | signal (f : Fetch)
  /-- WAIT (R112): WAIT starts polling a counter until it reaches a target. -/
  | wait (f : Fetch)
  /-- WAIT_SATISFIED (R112): The awaited counter reaches its target, and WAIT writes the value and ends OK. -/
  | waitSatisfied (r : Fin 256)
  /-- WAIT_TIMEOUT (R112): A WAIT's timeout expires, and it ends TIMEOUT or sets its predicate. -/
  | waitTimeout (r : Fin 256)
  /-- ALU (R105): ALU writes the result of its scalar operation to rd. -/
  | alu (f : Fetch)
  /-- LI (R107): LI loads a 64-bit immediate into a scalar register. -/
  | li (f : Fetch)
  /-- CMP (R106): CMP writes a predicate from a comparison. -/
  | cmp (f : Fetch)
  /-- PLOG (R106): PLOG writes a predicate from a logical operation on predicates. -/
  | plog (f : Fetch)
  /-- LDS (R108): LDS loads an aligned scalar from memory. -/
  | lds (f : Fetch)
  /-- STS (R108): STS stores an aligned scalar to memory or, from a Ringmaster program, to a CSR. -/
  | sts (f : Fetch)
  /-- RDSYS (R109): RDSYS reads a system value into a scalar register. -/
  | rdsys (f : Fetch)
  /-- COPY (R114): COPY copies bytes from source to destination. -/
  | copy (f : Fetch)
  /-- FILL (R114): FILL writes a repeated 8-byte pattern. -/
  | fill (f : Fetch)
  /-- GATHER (R114): GATHER collects indexed elements into a contiguous destination. -/
  | gather (f : Fetch)
  /-- SCATTER (R114): SCATTER writes contiguous elements to indexed locations. -/
  | scatter (f : Fetch)
  /-- STRIDE (R114): STRIDE copies rows between strided source and destination. -/
  | stride (f : Fetch)
  /-- TLOAD (R114): TLOAD loads memory into a tile register and zeroes the rest of the tile. -/
  | tload (f : Fetch)
  /-- TSTORE (R114): TSTORE stores a tile register's bytes to memory. -/
  | tstore (f : Fetch)
  /-- AADD (R119): Atomic add. -/
  | aadd (f : Fetch)
  /-- AAND (R119): Atomic AND. -/
  | aand (f : Fetch)
  /-- AOR (R119): Atomic OR. -/
  | aor (f : Fetch)
  /-- AXOR (R119): Atomic XOR. -/
  | axor (f : Fetch)
  /-- AMINU (R119): Atomic unsigned minimum. -/
  | aminu (f : Fetch)
  /-- AMAXU (R119): Atomic unsigned maximum. -/
  | amaxu (f : Fetch)
  /-- AMINS (R119): Atomic signed minimum. -/
  | amins (f : Fetch)
  /-- AMAXS (R119): Atomic signed maximum. -/
  | amaxs (f : Fetch)
  /-- ASWAP (R119): Atomic swap. -/
  | aswap (f : Fetch)
  /-- ACAS (R119): Atomic compare-and-swap that writes a success predicate. -/
  | acas (f : Fetch)
  /-- AFADD (R122): Atomic binary32 add. -/
  | afadd (f : Fetch)
  /-- CRC_INIT (R125): CRC.INIT sets a check pair's kind and seed. -/
  | crcInit (f : Fetch)
  /-- CRC_RUN (R125): CRC.RUN folds memory bytes into a check pair. -/
  | crcRun (f : Fetch)
  /-- CRC_SAVE (R126): CRC.SAVE writes a check pair as a 16-byte check record. -/
  | crcSave (f : Fetch)
  /-- CRC_LOAD (R126): CRC.LOAD reads a check record into a pair. -/
  | crcLoad (f : Fetch)
  /-- CRC_VERIFY (R125): CRC.VERIFY compares the final check value with an expected value. -/
  | crcVerify (f : Fetch)
  /-- CRC_FINAL (R125): CRC.FINAL writes the finalised check value to a register. -/
  | crcFinal (f : Fetch)
  /-- PROMOTE (R127): PROMOTE moves the pages of a range to an earlier tier. -/
  | promote (f : Fetch)
  /-- DEMOTE (R127): DEMOTE moves the pages of a range to a later tier. -/
  | demote (f : Fetch)
  /-- PIN (R130): PIN marks the pages of a range as pinned. -/
  | pin (f : Fetch)
  /-- UNPIN (R130): PIN with unpin = 1 clears the pinned mark. -/
  | unpin (f : Fetch)
  /-- DURABLE_SYNC (R131): DURABLE.SYNC starts a wait until the writes in its scope have reached the durability log. -/
  | durableSync (f : Fetch)
  /-- DURABLE_SYNC_DONE (R131): The writes in scope are in the log, and DURABLE.SYNC completes OK_DURABLE. -/
  | durableSyncDone (r : Fin 256)
  /-- DURABLE_SYNC_TIMEOUT (R131): A DURABLE.SYNC timeout expires, and the instruction ends TIMEOUT. -/
  | durableSyncTimeout (r : Fin 256)
  /-- SUBMIT (R132): SUBMIT writes an entry image into a queue of the pan and advances its tail. -/
  | submit (f : Fetch)
  /-- SUBMIT_SLOT_FREED (R132): A SUBMIT with wait = 1 finds a free slot and submits. -/
  | submitSlotFreed (r : Fin 256)
  /-- NOTIFY (R133): NOTIFY sends a 16-byte notice to a port. -/
  | notify (f : Fetch)
  /-- QSTAT (R134): QSTAT returns the occupied and free slot counts of a queue. -/
  | qstat (f : Fetch)
  /-- CARVE (R136): CARVE writes a pan descriptor into the pan's shadow registers. -/
  | carve (f : Fetch)
  /-- MAP (R136): MAP installs translations, allocating granules when alloc = 1. -/
  | map (f : Fetch)
  /-- UNMAP (R136): UNMAP removes translations, shoots their runs down and may release granules. -/
  | unmap (f : Fetch)
  /-- SHOOTDOWN_DRAIN_DONE (R215): Every instruction that passed its check point before the change has completed, so the changing operation completes. -/
  | shootdownDrainDone (n : Nat)
  /-- PAN_INSTALL (R453): KEYS PAN_INSTALL unwraps and installs a pan's DDR5 and heap keys. -/
  | panInstall (f : Fetch)
  /-- PAN_DESTROY (R453): KEYS PAN_DESTROY destroys a FREE pan's keys. -/
  | panDestroy (f : Fetch)
  /-- PORT_REKEY (R448): KEYS PORT_REKEY starts a rekey of a secured port's transmit direction. -/
  | portRekey (f : Fetch)
  /-- PORT_END (R453): KEYS PORT_END ends a port's SPDM session and takes the link to DISABLED and then SEARCHING. -/
  | portEnd (f : Fetch)
  /-- COMMIT (R406): COMMIT validates every block's shadow and, if all pass, flips EPOCHCUR. -/
  | commit (f : Fetch)
  /-- CLAIM (R411): CLAIM raises CLAIMCUR and latches the new claim at every gate. -/
  | claim (f : Fetch)
  /-- SCRUB (R455): SCRUB, armed with the switch token, zeroes memory and state for a tenant switch. -/
  | scrub (f : Fetch)
  /-- ATTN_QK (R163): ATTN.QK writes FP32 attention scores. -/
  | attnQk (f : Fetch)
  /-- ATTN_SV (R164): ATTN.SV computes weighted value sums from given weights. -/
  | attnSv (f : Fetch)
  /-- ATTN_PART (R162): ATTN.PART writes an attention partial set over a token range. -/
  | attnPart (f : Fetch)
  /-- MERGE_PART (R165): MERGE.PART merges partial sets, optionally normalising them. -/
  | mergePart (f : Fetch)
  /-- KVQ (R166): KVQ quantises source tokens into the cache layout. -/
  | kvq (f : Fetch)
  /-- KVDQ (R167): KVDQ dequantises cache tokens. -/
  | kvdq (f : Fetch)
  /-- TOPK (R168): TOPK writes the k largest entries of each row. -/
  | topk (f : Fetch)
  /-- SCALE (R169): SCALE multiplies elements by a constant. -/
  | scale (f : Fetch)
  /-- CREATE (R182): QCMD CREATE checks a descriptor and creates a STOPPED queue. -/
  | create (w : Writer) (k : Fin 16) (q : Fin 524288)
  /-- ENABLE (R182): QCMD ENABLE starts admission and dispatch. -/
  | enable (w : Writer) (k : Fin 16) (q : Fin 524288)
  /-- PAUSE (R182): QCMD PAUSE stops admission and dispatch. -/
  | pause (w : Writer) (k : Fin 16) (q : Fin 524288)
  /-- STOP (R182): QCMD STOP stops a queue and ends its running, parked, held and admitted entries. -/
  | stop (w : Writer) (k : Fin 16) (q : Fin 524288)
  /-- DESTROY (R182): QCMD DESTROY clears a queue context and makes the queue FREE. -/
  | destroy (w : Writer) (k : Fin 16) (q : Fin 524288)
  /-- MOVE (R185): QCMD MOVE hands a queue's admitted entries and DRR state to a target stall. -/
  | move (w : Writer) (k : Fin 16) (q : Fin 524288) (t : Fin 16)
  /-- QUEUE_MOVE_DONE (R185): The old stall's last running entry of a moving queue ends, so the move completes and QUEUE_MOVED is raised. -/
  | queueMoveDone (q : Fin 524288)
  /-- SETPARAM (R184): QCMD SETPARAM updates a queue's scheduling parameters. -/
  | setparam (w : Writer) (k : Fin 16) (q : Fin 524288)
  /-- READ (R182): QCMD READ copies a queue's descriptor and counts into QDESC and QREAD. -/
  | read (w : Writer) (k : Fin 16) (q : Fin 524288)
  /-- TOKEN_REFILL (R189): Each µs, a queue's token bucket refills, and a queue lifted to 1.0 token rejoins L. -/
  | tokenRefill (q : Fin 524288)
  /-- SLUICE_TICK (R192): Each 80 ns tick refills every Sluice tc and tp bucket. -/
  | sluiceTick
  /-- SLUICE_STOP (R194): A Sluice STOP command refuses every request and doorbell of the named ports and pans. -/
  | sluiceStop (ports : BitVec 8) (n : Fin 64) (all : Bool) (us : BitVec 32)
  /-- SLUICE_THROTTLE (R194): A Sluice THROTTLE command replaces the rates and treats RED as DROP. -/
  | sluiceThrottle (ports : BitVec 8) (n : Fin 64) (all : Bool) (rate : BitVec 32) (us : BitVec 32)
  /-- SLUICE_RELEASE (R194): A Sluice RELEASE ends any command in force. -/
  | sluiceRelease (ports : BitVec 8) (n : Fin 64) (all : Bool)
  /-- SLUICE_COMMAND_EXPIRE (R195): A Sluice command's duration expires, and the committed fields apply again. -/
  | sluiceCommandExpire (p : Fin 8) (n : Fin 64)
  /-- CAROUSEL_ROUND (R196): A Carousel makes one grant decision by class and rank. -/
  | carouselRound (c : Car) (reqs : BitVec 16) (barred : List Nat) (fails : Bool)
  /-- CAROUSEL_PREEMPT (R199): The pre-emptor takes the resource at the next unit boundary. -/
  | carouselPreempt (c : Car) (on : Bool)
  /-- PAGE_WALK_DONE (R210): A page-table walk's reads complete, and the run for the missed page is built. -/
  | pageWalkDone (key : Nat) (va : Nat)
  /-- FAULT_BATCH_CLOSE (R218): A fault batch closes at 256 records or at 20 µs. -/
  | faultBatchClose (n : Fin 64)
  /-- FAULT_BATCH_POST (R219): A closed batch is written to the fault ring when room appears, the producer is advanced and the fault notice is sent. -/
  | faultBatchPost (n : Fin 64)
  /-- FQ_RESUME (R221): A fault-resume message resumes or aborts the fault episode it names. -/
  | fqResume (p : Fin 8) (m : Msg) (u : Nat) (z : Bool)
  /-- FQRESUME_RESUME (R221): A write of FQRESUME with action RESUME resumes an episode. -/
  | fqresumeResume (w : Writer) (n : Fin 64) (q : Fin 524288) (index : BitVec 16) (gen : BitVec 16)
  /-- FQRESUME_ABORT (R221): A write of FQRESUME with action ABORT ends the entry ABORTED. -/
  | fqresumeAbort (w : Writer) (n : Fin 64) (q : Fin 524288) (index : BitVec 16) (gen : BitVec 16)
  /-- XLCTL_FLUSH (R213): XLCTL.flush invalidates all three translation caches. -/
  | xlctlFlush (w : Writer)
  /-- DB_SQ (R181): A submission doorbell is checked under Table 06-2 and may advance the tail. -/
  | dbSq (p : Fin 8) (m : Msg) (u : Nat) (z : Bool)
  /-- DB_CQ (R382): A completion-head doorbell advances the completion-ring consumer count. -/
  | dbCq (p : Fin 8) (m : Msg) (u : Nat) (z : Bool)
  /-- DB_FQ (R382): A fault-head doorbell advances the fault-ring consumer count. -/
  | dbFq (p : Fin 8) (m : Msg) (u : Nat) (z : Bool)
  /-- DDR_TRAIN (R226): DDRCMD TRAIN reads SPD and trains a DDR5 channel. -/
  | ddrTrain (w : Writer) (c : Fin 16)
  /-- DDR_TRAIN_RETRY (R226): After 1 ms of DIMM reset, a failed channel is trained a second time. -/
  | ddrTrainRetry (c : Fin 16)
  /-- DDR_MIGRATE (R243): DDRCMD MIGRATE starts migrating a rank slot to the spare. -/
  | ddrMigrate (w : Writer) (c : Fin 16) (slot : Fin 8)
  /-- DDR_RETRAIN_PAUSE_END (R228): The retrain pause ends, and the command is retried or the channel goes out of service. -/
  | ddrRetrainPauseEnd (c : Fin 16) (ok : Bool)
  /-- DRAM_READ_OVERDUE (R235): A queued read reaches its deadline, and the overdue counter counts it. -/
  | dramReadOverdue (c : Car)
  /-- WRITE_BATCH_IDLE (R237): No read has been queued for idle_ns with enough writes queued, so write batching begins. -/
  | writeBatchIdle (c : Fin 80)
  /-- REFRESH_DUE (R240): A rank's refresh interval expires, and a refresh is issued or postponed. -/
  | refreshDue (c : Car) (rank : Nat) (idle : Bool)
  /-- DDR_PERIODIC_RETRAIN (R241): A channel's staggered 20 ms window opens, and it pauses up to 2 µs for ZQ and DQ re-centring. -/
  | ddrPeriodicRetrain (c : Fin 16)
  /-- MIGRATION_LINE_COPY (R244): One line of a migrating slot is locked, read, corrected and written to the spare. -/
  | migrationLineCopy (c : Fin 16)
  /-- STK_SWEEP_DONE (R248): A pan's sweep of stacked-cache lines finishes with its line count at zero. -/
  | stkSweepDone (n : Fin 64)
  /-- STK_TRAIN_RUN (R250): STKTRNCMD RUN writes and reads test bursts on a held pseudo-channel. -/
  | stkTrainRun (w : Writer)
  /-- STK_TRAIN_RUN_DONE (R250): A training run finishes, and lane errors are added to STKTRNERR. -/
  | stkTrainRunDone (errs : List (Fin 36 × Nat))
  /-- STK_TRAIN_CLEAR (R253): STKTRNCMD clear zeroes STKTRNERR. -/
  | stkTrainClear (w : Writer)
  /-- STK_TRAIN_HOLD_LONG (R251): A pseudo-channel has been held for more than 100 µs, and STK_TRAIN_HOLD is raised. -/
  | stkTrainHoldLong (g : Fin 64)
  /-- PATROL_READ (R265): The patrol scrubber reads, decodes and logs its next line or row. -/
  | patrolRead (st : Fin 18) (found : List Upset)
  /-- RETIRE_GRANULE (R272): RETIRECMD GRANULE retires one granule. -/
  | retireGranule (w : Writer)
  /-- RETIRE_RANK_GRANULES (R272): RETIRECMD RANK_GRANULES retires every granule with a line on a rank slot. -/
  | retireRankGranules (w : Writer) (c : Fin 16) (k : Fin 8)
  /-- RETIRE_ROW (R274): RETIRECMD ROW starts a soft post-package repair of one row. -/
  | retireRow (w : Writer) (c : Fin 16) (k : Fin 8) (sub : Fin 2) (bg : Fin 8) (bank : Fin 4) (row : BitVec 18)
  /-- RETIRE_ROW_DONE (R274): A row repair completes with PPR_DONE or PPR_FAIL. -/
  | retireRowDone (ok : Bool)
  /-- HEAP_ENUMERATE (R282): Heap enumeration indexes the ready SSDs and sets HEAPTOP. -/
  | heapEnumerate (ds : List Drive)
  /-- HEAP_TRANSFER_DONE (R285): A heap page transfer completes, and the mapping is switched. -/
  | heapTransferDone (n : Fin 64) (va : Nat) (rs : List BlockReply)
  /-- AUTO_DEMOTE_SWEEP (R286): A pan above dem_high is swept, and unpinned pages are demoted to the heap. -/
  | autoDemoteSweep (n : Fin 64)
  /-- LOG_BLOCK_CLOSE (R290): A durable pan's open log block closes at 30 lines or close_ns and is written to the ring. -/
  | logBlockClose (n : Fin 64)
  /-- LOG_BLOCK_WRITTEN (R291): A block's ring writes to both halves complete, and its writes become durable. -/
  | logBlockWritten (n : Fin 64)
  /-- CHECKPOINT_ROUND (R292): A checkpoint round starts at ckpt_ms or ckpt_pct and writes dirty blocks to backing. -/
  | checkpointRound (n : Fin 64)
  /-- CHECKPOINT_ROUND_DONE (R292): A round's writes complete, and the ring drops blocks below S. -/
  | checkpointRoundDone (n : Fin 64)
  /-- PWRFAIL_ASSERT (R294): A confirmed PWRFAIL_N starts the power-fail flush of the log rings. -/
  | pwrfailAssert
  /-- DUR_FLUSH_DONE (R294): The last FUA completes, and the flush marker is written. -/
  | durFlushDone
  /-- DUR_FLUSH_LATE (R294): The flush passes 4.0 ms, and DUR_FLUSH_LATE is recorded. -/
  | durFlushLate
  /-- PWRFAIL_RECOVERED (R296): Power stays good 10 ms after PWRFAIL_N deasserts, and a power-up reset follows. -/
  | pwrfailRecovered
  /-- DURABLE_RECOVERY (R297): At stage DURABLE, the catalogue is read and each durable pan is re-carved, mapped and replayed. -/
  | durableRecovery (rs : AreaRead)
  /-- HEAP_CMD_TIMEOUT (R299): An NVMe command exceeds cmd_timeout_ms, and it is aborted or the controller reset. -/
  | heapCmdTimeout (p : Fin 8)
  /-- HEAP_CTRL_NOT_READY (R299): A controller not ready 2 s after reset makes the port FAILED. -/
  | heapCtrlNotReady (p : Fin 8)
  /-- HEAP_LINK_DOWN (R299): A heap link goes down, and the port becomes FAILED. -/
  | heapLinkDown (p : Fin 8)
  /-- HEAP_REFORMAT (R300): HEAPCMD REFORMAT discards the heap label and durable pans and rebuilds the layout. -/
  | heapReformat (w : Writer)
  /-- RD_S (R309): A shared read request is served at the home. -/
  | rdS (p : Fin 8) (m : Msg) (u : Nat) (z : Bool)
  /-- RD_X (R309): An exclusive read request is served at the home. -/
  | rdX (p : Fin 8) (m : Msg) (u : Nat) (z : Bool)
  /-- UPG (R309): An upgrade request is served at the home. -/
  | upg (p : Fin 8) (m : Msg) (u : Nat) (z : Bool)
  /-- RD_NC (R309): A non-caching read is served at the home. -/
  | rdNc (p : Fin 8) (m : Msg) (u : Nat) (z : Bool)
  /-- WR_NC (R309): A non-caching masked write is served at the home. -/
  | wrNc (p : Fin 8) (m : Msg) (u : Nat) (z : Bool)
  /-- WB (R309): A write-back from an owner is served at the home. -/
  | wb (p : Fin 8) (m : Msg) (u : Nat) (z : Bool)
  /-- EVICT (R309): A clean eviction notice removes the holder from the directory. -/
  | evict (p : Fin 8) (m : Msg) (u : Nat) (z : Bool)
  /-- ATOM (R322): A partner atomic runs near at the atomic unit or far in the partner. -/
  | atom (p : Fin 8) (m : Msg) (u : Nat) (z : Bool)
  /-- SNP_ACK (R309): A snoop acknowledgement without data reaches the home. -/
  | snpAck (p : Fin 8) (m : Msg) (u : Nat) (z : Bool)
  /-- SNP_ACK_D (R309): A snoop acknowledgement with data reaches the home. -/
  | snpAckD (p : Fin 8) (m : Msg) (u : Nat) (z : Bool)
  /-- GO_ACK (R307): A requester's GO_ACK frees the busy line at the home. -/
  | goAck (p : Fin 8) (m : Msg) (u : Nat) (z : Bool)
  /-- DATA (R307): A coherence DATA reaches the device as a remote requester. -/
  | data (p : Fin 8) (m : Msg) (u : Nat) (z : Bool)
  /-- GO (R307): A GO reaches the device as a remote requester. -/
  | go (p : Fin 8) (m : Msg) (u : Nat) (z : Bool)
  /-- NAK (R319): A NAK makes a device request back off and retry. -/
  | nak (p : Fin 8) (m : Msg) (u : Nat) (z : Bool)
  /-- WB_ACK (R311): A write-back acknowledgement reaches the device. -/
  | wbAck (p : Fin 8) (m : Msg) (u : Nat) (z : Bool)
  /-- COH_CMP (R309): A coherence CMP completion reaches the device as requester. -/
  | cohCmp (p : Fin 8) (m : Msg) (u : Nat) (z : Bool)
  /-- ATOM_RSP (R322): A near-atomic response reaches the device as requester. -/
  | atomRsp (p : Fin 8) (m : Msg) (u : Nat) (z : Bool)
  /-- NAK_BACKOFF_EXPIRE (R319): A device request's NAK backoff ends, and it is retried or ends RETRY. -/
  | nakBackoffExpire (tag : Nat) (ep : Nat)
  /-- RESV_LAPSE (R320): A reservation not taken up within 4 × nak_max lapses. -/
  | resvLapse (line : Nat)
  /-- SNOOP_TIMEOUT (R326): A snoop or GO_ACK is unanswered for snoop_to_us, and the partner is declared lost and swept. -/
  | snoopTimeout (line : Nat)
  /-- COH_SWEEP_DONE (R326): A lost-agent sweep finishes, and COH_SWEEP_DONE is raised. -/
  | cohSweepDone (n : Fin 1024)
  /-- LINK_ENABLE (R338): Setting PORTCTL.enable takes a DISABLED link to SEARCHING. -/
  | linkEnable (w : Writer) (p : Fin 8)
  /-- LINK_DISABLE (R338): Clearing PORTCTL.enable takes a link to DISABLED. -/
  | linkDisable (w : Writer) (p : Fin 8)
  /-- SEARCH_ATTEMPT (R339): A SEARCHING wait ends, and a 2 ms wake-pattern attempt is made. -/
  | searchAttempt (p : Fin 8)
  /-- SEARCH_NOW (R339): PORTCMD.search_now ends the current SEARCHING wait. -/
  | searchNow (w : Writer) (p : Fin 8)
  /-- PARTNER_SIGNAL_DETECT (R338): A partner signal on lane 0 or 4 takes a searching link to TRAINING. -/
  | partnerSignalDetect (p : Fin 8)
  /-- TRAINING_TIMEOUT (R338): No session 100 ms after first signal returns the link to SEARCHING. -/
  | trainingTimeout (p : Fin 8)
  /-- INIT_SEND (R344): Every 1 µs in training, an INIT flit is sent. -/
  | initSend (p : Fin 8)
  /-- INIT_FLIT (R344): A received INIT is checked and may open the session. -/
  | initFlit (p : Fin 8) (b : List Nat) (fec : Bool) (ser : List Nat) (tx rx : BitVec 8)
  /-- NULL_FLIT (R343): A NULL flit delivers its header fields. -/
  | nullFlit (p : Fin 8) (b : List Nat) (fec : Bool) (ser : List Nat)
  /-- DATA_FLIT (R348): A received DATA flit is accepted in order or triggers a replay request. -/
  | dataFlit (p : Fin 8) (b : List Nat) (fec : Bool) (ser : List Nat)
  /-- CTRL_FLIT (R371): A received CTRL flit delivers one control message. -/
  | ctrlFlit (p : Fin 8) (b : List Nat) (fec : Bool) (ser : List Nat)
  /-- TAG_FLIT (R363): A TAG flit is verified, and its covered flits are accepted or discarded. -/
  | tagFlit (p : Fin 8) (b : List Nat) (fec : Bool) (ser : List Nat)
  /-- REPLAY_REQ (R350): A received REPLAY_REQ starts or restarts a replay. -/
  | replayReq (p : Fin 8) (b : List Nat) (fec : Bool) (ser : List Nat)
  /-- REPLAY_TIMER_EXPIRE (R350): The replay timer expires, and the oldest unacknowledged flit is resent or the link retrains. -/
  | replayTimerExpire (p : Fin 8)
  /-- FLIT_SLOT (R360): In each flit slot the transmitter sends the highest-priority due flit. -/
  | flitSlot (p : Fin 8)
  /-- TAG_TIMER_EXPIRE (R362): 100 ns after the oldest uncovered flit, a TAG becomes due. -/
  | tagTimerExpire (p : Fin 8)
  /-- TX_REKEY_DUE (R448): After 2^34 flits under one generation, the transmit direction rekeys. -/
  | txRekeyDue (p : Fin 8)
  /-- LPI_IDLE_EXPIRE (R340): Idle for lpi_idle_us, an end proposes LPI. -/
  | lpiIdleExpire (p : Fin 8)
  /-- SLEEP_IDLE_EXPIRE (R340): After sleep_idle_ms in LPI, an end proposes SLEEP. -/
  | sleepIdleExpire (p : Fin 8)
  /-- LPI_REQ (R340): A received LPI_REQ is answered or resolved against a crossed request. -/
  | lpiReq (p : Fin 8) (b : List Nat)
  /-- LPI_ACK (R340): An accepting LPI_ACK takes the link into LPI. -/
  | lpiAck (p : Fin 8) (b : List Nat)
  /-- SLEEP_REQ (R340): A received SLEEP_REQ is answered. -/
  | sleepReq (p : Fin 8) (b : List Nat)
  /-- SLEEP_ACK (R340): An accepting SLEEP_ACK takes the link into SLEEP. -/
  | sleepAck (p : Fin 8) (b : List Nat)
  /-- LPI_REQ_TIMEOUT (R340): A request unanswered for 10 µs counts as refused. -/
  | lpiReqTimeout (p : Fin 8)
  /-- WAKE_PATTERN (R338): A wake pattern takes a link from LPI or SLEEP back to ACTIVE. -/
  | wakePattern (p : Fin 8)
  /-- FAST_RETRAIN_FAIL (R338): A failed fast retrain from SLEEP takes the link to TRAINING. -/
  | fastRetrainFail (p : Fin 8)
  /-- SIGNAL_LOSS (R338): Loss of signal or FEC lock for 0.5 µs takes an ACTIVE link to RETRAIN. -/
  | signalLoss (p : Fin 8)
  /-- LASER_LOW (R336): A laser input below threshold for 10 µs fails four lanes and retrains the link. -/
  | laserLow (p : Fin 8) (half : Bool)
  /-- PORTCMD_RETRAIN (R338): PORTCMD.retrain takes the link to RETRAIN. -/
  | portcmdRetrain (w : Writer) (p : Fin 8)
  /-- RETRAIN_DONE (R338): Lanes re-train within retrain_us, and the link returns to ACTIVE. -/
  | retrainDone (p : Fin 8) (tx rx : BitVec 8)
  /-- RETRAIN_EXPIRE (R338): retrain_us expires, and the link goes down to SEARCHING. -/
  | retrainExpire (p : Fin 8)
  /-- FAILOVER_DONE (R368): The handover of retained messages ends. -/
  | failoverDone (p : Fin 8) (lost : List Nat)
  /-- LINK_NOTICE (R367): A LINK_NOTICE control message reports a paired link's state. -/
  | linkNotice (p : Fin 8) (b : List Nat)
  /-- ECHO_TIMER (R344): Every 100 ms in ACTIVE, an ECHO is sent to measure the round trip. -/
  | echoTimer (p : Fin 8)
  /-- ECHO (R344): A received ECHO is answered with ECHO_RSP. -/
  | echo (p : Fin 8) (b : List Nat)
  /-- ECHO_RSP (R344): A received ECHO_RSP updates LINKRTT. -/
  | echoRsp (p : Fin 8) (b : List Nat)
  /-- SLUICE_CMD (R372): A SLUICE_CMD control message applies a Sluice command at this node if allowed. -/
  | sluiceCmd (p : Fin 8) (b : List Nat)
  /-- ENC_START (R445): An ENC_START makes the peer's flits from x0 on encrypted. -/
  | encStart (p : Fin 8) (b : List Nat)
  /-- REKEY (R448): A REKEY makes the receiver derive the next generation. -/
  | rekey (p : Fin 8) (b : List Nat)
  /-- MRD (R379): A memory read request is checked and performed. -/
  | mrd (p : Fin 8) (m : Msg) (u : Nat) (z : Bool)
  /-- MWR (R379): A memory write request is checked and performed. -/
  | mwr (p : Fin 8) (m : Msg) (u : Nat) (z : Bool)
  /-- MIRROR_WR (R400): A mirror write from the twin is performed in arrival order. -/
  | mirrorWr (p : Fin 8) (m : Msg) (u : Nat) (z : Bool)
  /-- RSP (R380): A final response reaches the device for its own request. -/
  | rsp (p : Fin 8) (m : Msg) (u : Nat) (z : Bool)
  /-- RSP_DATA (R380): A data response reaches the device for its own request. -/
  | rspData (p : Fin 8) (m : Msg) (u : Nat) (z : Bool)
  /-- RSP_DUR (R380): A durable response reaches the device for its own write. -/
  | rspDur (p : Fin 8) (m : Msg) (u : Nat) (z : Bool)
  /-- MESSAGE_FORWARD (R391): A lattice node routes a transit message to its next hop, charging its life. -/
  | messageForward (p : Fin 8) (m : Msg) (u : Nat) (z : Bool)
  /-- NX_REQ_TIMEOUT (R385): A device request with no final response within req_to_us ends TIMEOUT. -/
  | nxReqTimeout (tag : Nat) (ep : Nat)
  /-- CC_ENTRY_EXPIRE (R387): A completion-cache entry expires 200 µs after its response. -/
  | ccEntryExpire (key : Nat)
  /-- CC_ENTRY_WAIT_DONE (R388): A request waiting for a completion-cache entry finds one and is performed. -/
  | ccEntryWaitDone
  /-- DRAIN_HOLD (R396): A DRAIN_HOLD message stops injection of new lattice requests. -/
  | drainHold (p : Fin 8) (b : List Nat)
  /-- DRAIN_RELEASE (R396): A DRAIN_RELEASE message ends the hold. -/
  | drainRelease (p : Fin 8) (b : List Nat)
  /-- FABCMD_HOLD (R396): FABCMD op HOLD starts a drain hold. -/
  | fabcmdHold (w : Writer) (id : BitVec 16)
  /-- FABCMD_RELEASE (R396): FABCMD op RELEASE ends a drain hold. -/
  | fabcmdRelease (w : Writer)
  /-- FAB_DRAINED (R396): A held node becomes drained, and DRAIN_STAT is sent. -/
  | fabDrained
  /-- DRAIN_HOLD_TIMEOUT (R396): A hold lasting hold_ms ends by itself. -/
  | drainHoldTimeout
  /-- NODE_STATE (R397): A NODE_STATE message sets or clears a ROUTE down bit. -/
  | nodeState (p : Fin 8) (b : List Nat)
  /-- ROUTE_DOWN_WRITE (R397): A write of ROUTE[n].down applies at once. -/
  | routeDownWrite (w : Writer) (n : Fin 4096) (down : Bool)
  /-- CONGESTION_MAP (R398): Every map_us, a congestion map is written to the telemetry mailbox. -/
  | congestionMap
  /-- SHADOW_COPY_DONE (R405): The copy of the active set into the shadow ends, and the shadow becomes OPEN. -/
  | shadowCopyDone
  /-- EPOCH_DRAIN_DONE (R407): The older epoch's tagged work reaches zero, and the shadow starts COPYING. -/
  | epochDrainDone
  /-- EPOCH_DRAIN_SLOW (R409): The older epoch is still live drain_limit_ms after its commit. -/
  | epochDrainSlow
  /-- SNAPSHOT_START (R415): A control cycle or snap_ms starts a snapshot to the standby. -/
  | snapshotStart
  /-- SNAPSHOT_COMMIT (R417): A snapshot's data writes are acknowledged, and its commit word is written. -/
  | snapshotCommit
  /-- RM_HEARTBEAT (R415): Every 100 µs, the active sends a heartbeat to the standby. -/
  | rmHeartbeat
  /-- RM_HB_TIMEOUT (R418): No heartbeat for hb_timeout_us makes the standby declare the active failed and take over. -/
  | rmHbTimeout
  /-- RM_YIELD (R418): TRPCTL.yield makes the active yield to the standby. -/
  | rmYield (w : Writer)
  /-- RM_MACHINE_CHECK (R418): A Ticket Booth report of a machine check in the active starts a takeover. -/
  | rmMachineCheck
  /-- RM_RELOAD (R421): A failed instance is reloaded by the Ticket Booth and returns in SYNCING. -/
  | rmReload (b : Bool) (ok : Bool)
  /-- STALL_POLL (R422): Every 100 µs, the active polls each stall control core. -/
  | stallPoll (bad : List (Fin 16))
  /-- STALL_FAIL (R422): A failed stall is gated, its channel taken out, its slice reassigned and its queues moved. -/
  | stallFail (k : Fin 16)
  /-- STALL_QUEUES_MOVED (R422): The failed stall's queue moves complete. -/
  | stallQueuesMoved
  /-- TWIN_HELLO (R423): A TWIN_HELLO decides twin roles and may start pairing. -/
  | twinHello (p : Fin 8) (b : List Nat)
  /-- TWIN_HB_SEND (R425): Every 100 µs, the PRIMARY sends TWIN_HB. -/
  | twinHbSend
  /-- TWIN_HB (R425): A received TWIN_HB records the twin's claim and epoch. -/
  | twinHb (p : Fin 8) (b : List Nat)
  /-- TWIN_ALLOC (R428): A TWIN_ALLOC makes the SECONDARY mark or release the same granules. -/
  | twinAlloc (p : Fin 8) (b : List Nat)
  /-- TWIN_ACK (R428): A TWIN_ACK completes a mirrored allocation, or reports MISMATCH. -/
  | twinAck (p : Fin 8) (b : List Nat)
  /-- TWIN_PAN (R425): A TWIN_PAN makes the SECONDARY commit pan images or install a mapping. -/
  | twinPan (p : Fin 8) (b : List Nat)
  /-- TWIN_RESYNC (R429): A TWIN_RESYNC START or DONE message runs a pan's resync. -/
  | twinResync (p : Fin 8) (b : List Nat)
  /-- TWIN_YIELD (R424): A TWIN_YIELD hands the PRIMARY role to the twin. -/
  | twinYield (p : Fin 8) (b : List Nat)
  /-- TWIN_TIMEOUT (R430): No TWIN_HB for twin_to_ms declares the twin lost. -/
  | twinTimeout
  /-- TWIN_TAKEOVER (R430): TWINCMD TAKEOVER, or auto_takeover, makes the SECONDARY claim and become PRIMARY. -/
  | twinTakeover (w : Writer)
  /-- TWINCMD_RESYNC (R429): TWINCMD RESYNC starts a resync of the twin. -/
  | twincmdResync (w : Writer)
  /-- TWINCMD_UNPAIR (R433): TWINCMD UNPAIR ends the pairing. -/
  | twincmdUnpair (w : Writer)
  /-- SPDM_REQUEST (R437): An SPDM request is answered by the Ticket Booth. -/
  | spdmRequest (port : Fin 9) (r : Spdm)
  /-- SPDM_FRAG (R441): An SPDM fragment on a port is reassembled. -/
  | spdmFrag (p : Fin 8) (b : List Nat)
  /-- SPDM_HEARTBEAT_LOSS (R445): An SPDM session's heartbeat is lost, and the session ends. -/
  | spdmHeartbeatLoss (id : Nat)
  /-- SEAL (R440): SEAL performs a tenant switch and enters SEALED under the given policy. -/
  | seal (sess : Nat) (policy : List Nat)
  /-- UNSEAL (R440): UNSEAL ends the tenancy through a tenant switch. -/
  | unseal (sess : Nat)
  /-- RESUME (R440): RESUME takes a SUSPENDED device back to SEALED. -/
  | resume (sess : Nat)
  /-- SWITCH_REQUEST (R455): The active Ringmaster takes a switch request from the mailbox and runs SCRUB. -/
  | switchRequest
  /-- ZERO_DONE (R456): The last DDR5 granule after a switch becomes FREE. -/
  | zeroDone
  /-- OFFER_TENANCY (R434): OFFER_TENANCY names the tenant root and enters OFFERED. -/
  | offerTenancy (o : Owner) (root : Nat)
  /-- WITHDRAW_OFFER (R434): WITHDRAW_OFFER returns to OPEN. -/
  | withdrawOffer (o : Owner)
  /-- OWNER_EVICT (R434): The owner's EVICT ends a tenancy through a tenant switch. -/
  | ownerEvict (o : Owner)
  /-- FLOOR_RAISE (R461): An owner command raises the security-version floor. -/
  | floorRaise (o : Owner) (v : BitVec 16)
  /-- FLOOR_LOWER (R461): An owner command with presence lowers the floor. -/
  | floorLower (o : Owner) (v : BitVec 16)
  /-- FIRMWARE_ROLLBACK (R461): An owner command with presence names an earlier slot for the next boot. -/
  | firmwareRollback (o : Owner) (slot : Fin 2)
  /-- OWNERSHIP_TRANSFER (R461): OWNERSHIP_TRANSFER records a new owner digest. -/
  | ownershipTransfer (o : Owner) (digest : Nat)
  /-- OWNER_CLEAR (R462): OWNER_CLEAR performs a full-zero switch, erases owner and record and makes a new seal key. -/
  | ownerClear (o : Owner)
  /-- DEBUG_UNLOCK (R458): DEBUG_UNLOCK opens the debug port as far as the state allows. -/
  | debugUnlock (o : Owner)
  /-- TAMPER_CLEAR (R461): TAMPER_CLEAR clears tamper_latched. -/
  | tamperClear (o : Owner) (tamper : Bool)
  /-- NONCE (R461): NONCE issues a nonce for one owner command. -/
  | nonce (r : Req)
  /-- PRES_PRESS (R460): A press of PRES_N opens a 60 s presence window. -/
  | presPress (rearmed : Bool)
  /-- PRES_LONG_PRESS (R460): A long press of PRES_N requests recovery boot. -/
  | presLongPress
  /-- PRESENCE_WINDOW_EXPIRE (R460): A presence window closes after 60 s unused. -/
  | presenceWindowExpire
  /-- TAMPER_EVENT (R463): TAMPER_N asserted 100 µs latches tamper and may start a switch. -/
  | tamperEvent
  /-- VAON_LOW (R470): VAON falls below 0.72 V, and the always-on domain switches to VBAT. -/
  | vaonLow
  /-- VAON_RETURN (R470): VAON stays at or above 0.74 V for 1 ms, and the domain returns to main power. -/
  | vaonReturn
  /-- XTAL_MISSING (R471): No AON tick for 1 ms sets xtal_fail. -/
  | xtalMissing
  /-- REF_ABSENT (R472): The reference absent for 10 µs holds the device as in reset. -/
  | refAbsent
  /-- REF_RETURN (R472): The reference present for 1 ms again releases a hard reset. -/
  | refReturn
  /-- PLL_LOCK_TIMEOUT (R472): A PLL not locked within twice its lock time fails its domain. -/
  | pllLockTimeout (p : Pll)
  /-- AON_TICK (R473): Each 32.768 kHz tick advances or refreshes the always-on stamp and the calendar. -/
  | aonTick
  /-- STAMP_CALIBRATE (R474): Once per second, cal is computed from reference cycles over 32,768 ticks. -/
  | stampCalibrate (m : Nat)
  /-- STALL_GATE (R476): A stall idle for gate_idle_us is flushed, isolated and powered off. -/
  | stallGate (k : Fin 16)
  /-- STALL_WAKE (R477): Work needing a gated stall powers it up. -/
  | stallWake (k : Fin 16)
  /-- STALL_WAKE_DONE (R477): A waking stall is ready and runs work. -/
  | stallWakeDone (k : Fin 16)
  /-- DRAM_POWER_DOWN (R479): A DDR5 channel idle for 200 ns enters precharge power-down. -/
  | dramPowerDown (c : Fin 16)
  /-- DEEP_ENTER (R481): After deep_idle_ms of qualifying idleness, DRAM self-refreshes and uncore clocks stop. -/
  | deepEnter
  /-- DEEP_EXIT (R481): A wake trigger ends DEEP and restarts clocks and memory. -/
  | deepExit
  /-- BUDGET_INTERVAL (R483): Every 100 µs, the power core runs budget and sets the point, duty and limits. -/
  | budgetInterval (mw : List (BitVec 20))
  /-- RAKE_CLOCK_CHANGE (R482): VCORE settles after a raise, and the rake clock is changed. -/
  | rakeClockChange
  /-- HL_POWER_CHECK (R486): Every 1 µs, the hard-limit block tests the 10 µs mean and may impose point 0. -/
  | hlPowerCheck (mw : Nat)
  /-- HL_POWER_RELEASE (R486): The mean has stayed 5 W below p_max_w for 1 ms, and hard-limit settings are released. -/
  | hlPowerRelease
  /-- SENSOR_SAMPLE (R524): Every 20 µs, temperature sensors are sampled, checked and compared with limits. -/
  | sensorSample (n : Fin 48) (v : BitVec 12) (bad : Bool)
  /-- TRIP_RESTART (R488): Every sensor below 90 °C for 1 s ends a trip with a hard reset. -/
  | tripRestart
  /-- VMON_SAMPLE (R525): Every 1 µs, a voltage monitor reads its rail and flags out-of-range. -/
  | vmonSample (n : Fin 24) (mv : BitVec 11)
  /-- PMB_ALERT (R569): PMB_ALERT_N from the VCORE regulator is recorded as out of range. -/
  | pmbAlert
  /-- POWER_UP (R494): Main power rising performs a power-up reset and starts boot. -/
  | powerUp (pres : Bool)
  /-- RAIL_ORDER (R492): A later-group rail in range before an earlier one is recorded. -/
  | railOrder (late early : Fin 12)
  /-- STRAP_SAMPLE (R493): Straps are sampled 100 µs after VIO is in range. -/
  | strapSample (topo : Bool) (boot mgmt : BitVec 2)
  /-- PRST_ASSERT (R498): PRST_N asserted 10 µs holds the device in hard reset. -/
  | prstAssert
  /-- PRST_STUCK (R498): PRST_N asserted over 30 s is treated as stuck and the device released. -/
  | prstStuck
  /-- RSTCMD_WARM (R497): RSTCMD WARM with the key performs a warm reset. -/
  | rstcmdWarm (w : Writer) (key : BitVec 8) (recovery : Bool)
  /-- RSTCMD_HARD (R497): RSTCMD HARD with the key performs a hard reset. -/
  | rstcmdHard (w : Writer) (key : BitVec 8) (recovery : Bool)
  /-- WATCHDOG_EXPIRE (R517): A Ticket Booth or power-core watchdog expires after 1 s. -/
  | watchdogExpire (booth : Bool)
  /-- BOOT_STAGE_END (R499): A boot stage ends, and the next begins or the device halts. -/
  | bootStageEnd (e : StageEnd)
  /-- IMAGE_FETCH_DONE (R500): A fetched image set is checked and accepted or refused. -/
  | imageFetchDone (img : Image)
  /-- NET_FETCH_TIMEOUT (R500): After 60 s or net_tries failures, the loader falls back to flash. -/
  | netFetchTimeout
  /-- IMAGE_CONFIRM (R503): An image in SERVICE for confirm_s becomes GOOD. -/
  | imageConfirm
  /-- SETTINGS_COMMIT (R505): BOOTCTL.settings_commit writes the running settings to the other region. -/
  | settingsCommit (w : Writer)
  /-- CSR_READ (R511): A management CSR_READ returns count words. -/
  | csrRead (r : Req) (off : Nat) (count : Nat)
  /-- CSR_WRITE (R513): A management CSR_WRITE is performed or refused. -/
  | csrWrite (r : Req) (off : Nat) (v : Word)
  /-- RESET (R514): A management RESET performs a warm or hard reset. -/
  | reset (r : Req) (kind : Nat) (recovery : Bool)
  /-- SLUICE (R514): A management SLUICE posts a Sluice command in the downward ring. -/
  | sluice (r : Req) (b : List Nat)
  /-- LOG_READ (R511): LOG_READ returns records from a log. -/
  | logRead (r : Req) (log start count : Nat)
  /-- DUMP_READ (R511): DUMP_READ returns bytes of a dump slot. -/
  | dumpRead (r : Req) (slot off len : Nat)
  /-- SUBSCRIBE (R516): SUBSCRIBE sets a Barker subscriber slot. -/
  | subscribe (r : Req) (slot : Nat) (addr : BitVec 128) (port mask : BitVec 16) (maps events : Bool)
  /-- RTC_SET (R529): RTC_SET loads the calendar seconds and sets valid. -/
  | rtcSet (r : Req) (sec : BitVec 48)
  /-- MAP_PUBLISH (R516): Barker sends a congestion map to subscribers. -/
  | mapPublish (k : Fin 4)
  /-- EVENT_BATCH_PUBLISH (R516): Barker sends an event batch at 40 records or 1 ms. -/
  | eventBatchPublish (k : Fin 4)
  /-- EVENT_STAGE_DRAIN (R519): A staged event record enters the event ring. -/
  | eventStageDrain
  /-- TRACE_POINT (R521): An enabled trace point writes a trace record. -/
  | tracePoint (d : Fin 28) (point : BitVec 16) (args : BitVec 128)
  /-- DUMP_TAKE (R522): DUMPCMD.dump, or a core failure, writes a crash dump to DDR5. -/
  | dumpTake (w : Writer) (core : Option FwCore)
  /-- DUMP_MARK_READ (R522): DUMPCMD.mark_read marks a dump slot READ. -/
  | dumpMarkRead (w : Writer) (mask : BitVec 2)
  /-- DUMP_COPY_DONE (R522): A dump is copied to a free flash slot, or discarded. -/
  | dumpCopyDone
  /-- AGE_MEASURE (R527): Every 168 h, the ageing monitors are measured. -/
  | ageMeasure (d : List (BitVec 24))
  /-- MARGIN_REPLAN (R528): Every 720 h, VCORE operating points are re-planned. -/
  | marginReplan
  /-- RTC_TRIM (R530): At each 32-second boundary, trim ticks are added to the calendar. -/
  | rtcTrim
  /-- RTC_SNAPSHOT (R530): Once per second, the stamp and calendar are latched together. -/
  | rtcSnapshot
  /-- ALARM_FIRE (R531): An armed alarm whose time has come fires. -/
  | alarmFire (k : Fin 2)
  /-- MAIN_POWER_LOSS (R295): Main power is lost, with or without a preceding PWRFAIL_N, so the volatile tiers and running work are lost and the always-on copy of the stamp takes over. -/
  | mainPowerLoss
  /-- AON_SUPPLY_LOSS (R475): Both VAON and VBAT are lost, so the always-on domain loses the stamp, the calendar, the seal key and its fields. -/
  | aonSupplyLoss
  /-- PRST_RELEASE (R498): PRST_N is deasserted, which ends the hard-reset hold, samples TEST_MODE and lets the reset and boot proceed, and which re-arms the pin after a stuck release once 100 ms have passed. -/
  | prstRelease (test : Bool)
  /-- DDR_TRAIN_DONE (R226): A DDR5 channel's hardware training ends, so the channel becomes READY or fails with DDR_TRAIN_FAIL, and DDR5TOP is set once all 16 channels are READY. -/
  | ddrTrainDone (c : Fin 16) (ok : Bool)
  /-- PAGE_COPY_DONE (R129): The copy of a page moving between DRAM tiers completes, so the mapping switches, the waiting writes are performed on the new granules and the shootdown begins. -/
  | pageCopyDone (va : Nat) (n : Fin 64)
  /-- MR4_POLL (R227): Every 32 ms the controller polls each DIMM's MR4 temperature read-out and sets the refresh interval from it. -/
  | mr4Poll (c : Fin 16) (ns : Nat)
  /-- PLDM_FIRMWARE_UPDATE (R502): A PLDM firmware-update message over the management path writes the slot that is not GOOD and, on activation, marks it CANDIDATE; in ROM recovery it delivers a boot loader instead. -/
  | pldmFirmwareUpdate (r : Req) (u : Pldm)
  /-- PARTNER_MESSAGE_FORWARD (R389): A VC2 or VC3 message addressed to a partner on one of the node's ports, such as an owner's DATA to a requester, is forwarded by the router slice to that port. -/
  | partnerMessageForward (p : Fin 8) (m : Msg) (u : Nat) (z : Bool)
deriving DecidableEq, Repr

end Sys2Proof
end

