-- ==== Sys2Proof/Config.lean ====
section
/-!
DEFINITION. What one part fixes, and the free values: constants without a body, of which nothing can be proved.

Each is named in a row of notes/assumptions. A statement that holds of the model holds for every value of them.
-/
namespace Sys2Proof.Config

/-- The free value drawn at count `n` of State's `freeCount` (a value the spec leaves open). Log entry 1. -/
opaque freeValue : Nat → Nat

/-- DEVSN.serial, fused at test (R542). Log entry 2. -/
opaque serial : Nat

/-- DEVOPT.lc, fused at test (R542). Log entry 2. -/
opaque optLc : Nat

/-- DEVOPT.ext_temp, fused at test (R542). Log entry 2. -/
opaque optExtTemp : Nat

/-- ERRLOGBASE.base, set at boot (Table 09-10). Log entry 2. -/
opaque errLogBase : Nat

/-- EVBASE.base, set at boot (Table 18-14). Log entry 2. -/
opaque evBase : Nat

/-- TRACEBASE.base, set at boot (Table 18-14). Log entry 2. -/
opaque traceBase : Nat

/-- TRPCTL.b_present, set at boot (Table 14-12). Log entry 2. -/
opaque bPresent : Nat

/-- STKDLY[p][i].dly as training left it, by the register's window offset (Table 08-13). Log entry 2. -/
opaque trainedDelay : Nat → Nat

/-- MIDAGENT[k].kind, by the register's window offset (Table 19-4, "Per stop"). Log entry 2. -/
opaque midAgent : Nat → Nat

/-- The stall whose agents inject at Midway stop `k`, 16 or more for none: where the stalls lie on the mesh (R202, Table 19-4, "Per
stop"). Log entry 2. -/
opaque stopStall : Nat → Nat

/-- The port tile at Midway stop `k`, 8 or more for none. Log entry 2. -/
opaque stopPort : Nat → Nat

/-- The AES-256 block cipher, by key and block. Log entry 10. -/
opaque aes : Nat → Nat → Nat

/-- Its inverse. Log entry 10. -/
opaque aesInverse : Nat → Nat → Nat

/-- HKDF-Expand of RFC 5869 with SHA-384, by secret, info and length in bytes, byte 0 lowest (R436). Log entry 10. -/
opaque hkdfExpand : Nat → List Nat → Nat → Nat

/-- The system heap key in open mode, derived from the seal key: the spec does not say with which info (Table 15-3). Log entry 10. -/
opaque systemHeapKey : Nat → Nat

/-- Whether a signature over a command verifies under a key digest (R461). Log entry 10. -/
opaque signatureOk : Nat → List Nat → Bool

/-- The SHA-384 digest of image 1 to 6 of Table 15-5, by the security version and build of the running image set. Log entry 10. -/
opaque imageDigest : Nat → Nat → Nat → Nat

/-- The ML-DSA-87 signature of a digest by the post-quantum alias key that the identity secret and the digests of blocks 1 to 6 give
(R438, R439). Log entry 10. -/
opaque aliasSign : List Nat → Nat → Nat

/-- SHA-384 of a byte string as a number, byte 0 lowest (R440). Log entry 10. -/
opaque digest : List Nat → Nat

/-- The power in mW that the power core predicts for the DRAM or the heap, of `p` mW now, when its limit goes from one percentage to
another (R483). Log entry 2. -/
opaque cutPred : Nat → Nat → Nat → Nat

/-- A byte of a crash dump (Table 18-8), by the dump's cause, core, stamp and calendar seconds, and its offset. Log entry 2. -/
opaque dumpByte : List Nat → Nat → Nat

/-- The fused minimum of the security-version floor (Table 15-13). Log entry 2. -/
opaque minFloor : BitVec 16

/-- Where the SRAM data space holds structure `k` of Table 09-2 (0 brine line, 1 tile register, 2 line of an instruction cache, 3 run-cache
entry, 4 walk-cache entry, 5 directory-cache set, 6 queue context, 7 flit of a replay or receive buffer, 8 firmware memory), by its index: the
first of its 32-byte rows (R254). Log entry 2. -/
opaque sramRow : Nat → Nat → Nat

/-- Activations of a bank after which the SPD of a channel's DIMMs calls for refresh management, 0 for never (Table 08-3). Log entry 2. -/
opaque rfmLimit : Nat → Nat

end Sys2Proof.Config
end

