-- ==== Sys2Proof/Machine/Bits.lean ====
section
/-!
DEFINITION. Bit fields, wrapping comparisons and little-endian bytes: the helpers of 00_scope.md's pseudocode.
-/
namespace Sys2Proof.Machine

/-- Bits `[lo + w - 1 : lo]` of a number, written `x[hi:lo]` in the spec's pseudocode (00_scope.md). -/
def bitsOf (x lo w : Nat) : Nat := x / 2 ^ lo % 2 ^ w

/-- Bit `i` of a number. -/
def bitOf (x i : Nat) : Bool := x.testBit i

/-- `x` with bits `[lo + w - 1 : lo]` replaced by `v`. -/
def setBits (x lo w v : Nat) : Nat :=
  x / 2 ^ (lo + w) * 2 ^ (lo + w) + v % 2 ^ w * 2 ^ lo + x % 2 ^ lo

/-- `x` with bit `i` set to `b`. -/
def setBit (x i : Nat) (b : Bool) : Nat := setBits x i 1 (if b then 1 else 0)

/-- R7, `is_newer`: `a` is later than `b` modulo `2 ^ w`; exactly half way apart, neither is newer. -/
def isNewer (a b w : Nat) : Bool :=
  let d := (a % 2 ^ w + 2 ^ w - b % 2 ^ w) % 2 ^ w
  d != 0 && d < 2 ^ (w - 1)

/-- `(a - b) mod 2 ^ w`. -/
def subMod (a b w : Nat) : Nat := (a % 2 ^ w + 2 ^ w - b % 2 ^ w) % 2 ^ w

/-- The least number of `k`-sized units that hold `n`. -/
def ceilDiv (n k : Nat) : Nat := (n + k - 1) / k

/-- The `n` bytes of a number, least significant first (00_scope.md: little-endian). -/
def leBytes : Nat → Nat → List Nat
  | 0, _ => []
  | n + 1, x => x % 256 :: leBytes n (x / 256)

/-- The number whose little-endian bytes are given. -/
def ofLeBytes : List Nat → Nat
  | [] => 0
  | b :: t => b % 256 + 256 * ofLeBytes t

/-- `w`-bit two's complement of a number. -/
def toSigned (w x : Nat) : Int := if x % 2 ^ w < 2 ^ (w - 1) then (x % 2 ^ w : Nat) else (x % 2 ^ w : Nat) - (2 ^ w : Nat)

/-- The `w`-bit pattern of an integer. -/
def ofSigned (w : Nat) (x : Int) : Nat := (x % ((2 ^ w : Nat) : Int)).toNat

/-- The numbers `a`, `a + 1`, … `a + n - 1`. -/
def rangeFrom (a : Nat) : Nat → List Nat
  | 0 => []
  | n + 1 => a :: rangeFrom (a + 1) n

/-- The lowest number below `n`, from 0, for which `p` holds. -/
def firstBelow (p : Nat → Bool) (n : Nat) : Option Nat := (List.range n).find? p

end Sys2Proof.Machine
end

