-- ==== Sys2Proof/Machine/Codes.lean ====
section
/-!
DEFINITION. The codes of 09_integrity_and_check_values.md: the SRAM byte code, the DRAM line code, and the CRC units.
-/
namespace Sys2Proof.Machine

/-! ### The SRAM byte code (R254 to R256) -/

/-- Parity of the bits of a number of at most `n` bits. -/
def parity : Nat → Nat → Nat
  | 0, _ => 0
  | n + 1, x => (x % 2 + parity n (x / 2)) % 2

/-- Hamming check `c[3:0]` of a data byte (R254). -/
def sramCheck (d : Nat) : Nat :=
  let b (i : Nat) : Nat := d / 2 ^ i % 2
  (b 0 + b 1 + b 3 + b 4 + b 6) % 2
  + 2 * ((b 0 + b 2 + b 3 + b 5 + b 6) % 2)
  + 4 * ((b 1 + b 2 + b 3 + b 7) % 2)
  + 8 * ((b 4 + b 5 + b 6 + b 7) % 2)

/-- The address hash `h` of byte address `b` (R254). -/
def sramHash (b : Nat) : Nat := b * 0x9E3779B97F4A7C15 % 2 ^ 64 / 2 ^ 56

/-- R254: the 13 stored bits of data byte `d` at SRAM byte address `b`. -/
def sramEncode (d b : Nat) : Nat :=
  let c := sramCheck d
  d % 256 + 256 * c + 4096 * ((parity 8 ((d % 256) ^^^ sramHash b) + parity 4 c) % 2)

/-- R256: the byte stored poisoned, with all four check bits inverted. -/
def sramPoison (d b : Nat) : Nat := (sramEncode d b) ^^^ 0xF00

/-- Classes of Table 09-1. -/
inductive SramClass where
  | clean | corrected | uncorrectable | poison | parity
deriving DecidableEq, Repr

/-- The data bit at code position `s`, if that position holds one (R254: d0 to d7 at 3, 5, 6, 7, 9, 10, 11, 12). -/
def sramBitAt (s : Nat) : Option Nat :=
  match s with
  | 3 => some 0 | 5 => some 1 | 6 => some 2 | 7 => some 3
  | 9 => some 4 | 10 => some 5 | 11 => some 6 | 12 => some 7
  | _ => none

/-- R255: class and data of 13 stored bits read for SRAM byte address `b`. -/
def sramDecode (x b : Nat) : SramClass × Nat :=
  let d := x % 256
  let c := x / 256 % 16
  let s := (sramCheck d) ^^^ c
  let q := (x / 4096 % 2 + parity 8 d + parity 4 c + parity 8 (sramHash b)) % 2
  if s = 0 then (if q = 0 then (.clean, d) else (.parity, d))
  else if s = 15 then ((if q = 0 then .poison else .uncorrectable), 0)
  else if s ≤ 12 ∧ q = 1 then
    (.corrected, match sramBitAt s with
      | some i => d ^^^ 2 ^ i
      | none => d)
  else (.uncorrectable, 0)

/-- R255, row rule: two or more PARITY bytes in one row make the row an ADDRESS error; one alone counts as correctable
only while every other byte is CLEAN or CORRECTED. -/
def sramRowAddress (cls : List SramClass) : Bool :=
  let p := (cls.filter (· == .parity)).length
  decide (2 ≤ p) || (p == 1 && cls.any (fun c => c == .uncorrectable || c == .poison))

/-! ### The DRAM line code (R258 to R262) -/

/-- Product in GF(2^16) over x^16 + x^12 + x^3 + x + 1 (R258), shift and add over the bits of `b`. -/
def gfMul : Nat → Nat → Nat → Nat
  | 0, _, _ => 0
  | n + 1, a, b =>
    let r := gfMul n ((if a / 2 ^ 15 % 2 = 1 then (a * 2) ^^^ 0x1100B else a * 2)) (b / 2)
    if b % 2 = 1 then r ^^^ a else r

/-- The powers of α = 2. -/
def gfPow : Nat → Nat
  | 0 => 1
  | n + 1 => gfMul 16 (gfPow n) 2

/-- Multiplies a polynomial (lowest coefficient first) by x - c. -/
def polyMulLin (p : List Nat) (c : Nat) : List Nat :=
  (List.range (p.length + 1)).map (fun i =>
    (if i = 0 then 0 else p.getD (i - 1) 0) ^^^ gfMul 16 (p.getD i 0) c)

/-- R258: g(x), the product of x - α^j for j = 1 to r. -/
def rsGen : Nat → List Nat
  | 0 => [1]
  | r + 1 => polyMulLin (rsGen r) (gfPow (r + 1))

/-- One step of the division by g(x): the next message symbol enters from the top. -/
def rsStep (g : List Nat) (rem : List Nat) (sym : Nat) : List Nat :=
  let f := sym ^^^ rem.getLastD 0
  (List.range rem.length).map (fun i => (if i = 0 then 0 else rem.getD (i - 1) 0) ^^^ gfMul 16 f (g.getD i 0))

/-- The three virtual symbols that fold node-local address `a` (R258). -/
def rsVirtual (a : Nat) : List Nat :=
  let v := (a / 64 % 2 ^ 46 + 1) * 0xD6E8FEB86659FD93 % 2 ^ 64
  [v % 2 ^ 16, v / 2 ^ 16 % 2 ^ 16, v / 2 ^ 32 % 2 ^ 16]

/-- R258: the `r` check symbols of a half-line's 32 data symbols at address `a`, lowest first. -/
def rsCheck (r : Nat) (syms : List Nat) (a : Nat) : List Nat :=
  let g := rsGen r
  (syms ++ rsVirtual a).reverse.foldl (rsStep g) (List.replicate r 0)

/-- The 32 data symbols of 64 bytes (R258). -/
def symbolsOf : List Nat → List Nat
  | a :: b :: t => (a + 256 * b) :: symbolsOf t
  | _ => []

/-- R261: the check symbols of a half-line stored poisoned. -/
def rsPoison (chk : List Nat) : List Nat := chk.map (· ^^^ 0x9C3A)

/-- Outcomes of Table 09-3. -/
inductive Outcome9 where
  | clean | corrected | device | poison | address | uncorrectable
deriving DecidableEq, Repr

/-- R259: the x4 device of a DDR5 subchannel that holds stored symbol `i` (0-31 data, 32-39 check). -/
def devOfSym (i : Nat) : Nat := i / 4

/-- R259: the stored symbol and the bit of it that a DDR5 pin (device pin div 4, DQ pin mod 4) carries at a beat. -/
def ddrBitAt (pin beat : Nat) : Nat × Nat := (pin / 4 * 4 + beat / 4, 4 * (beat % 4) + pin % 4)

/-- R259: the stored symbol and the bit of it that a lane of a pseudo-channel carries at a beat of the two bursts. -/
def stkBitAt (lane beat : Nat) : Nat × Nat := (lane, beat)

/-- The code position of stored symbol `i` (0-31 data, then the check symbols), for `r` check symbols (R258). -/
def codePos (r i : Nat) : Nat := if i < 32 then r + i else i - 32

/-- The stored symbol at a code position, `none` at a virtual one. -/
def symAt (r p : Nat) : Option Nat := if p < r then some (32 + p) else if p < r + 32 then some (p - r) else none

/-- Symbols XORed with the differences listed by index. -/
def xorAt (w : List Nat) (errs : List (Nat × Nat)) : List Nat :=
  w.zipIdx.map (fun x => (errs.filter (fun e => e.1 == x.2)).foldl (fun v e => v ^^^ e.2) x.1)

/-- What the memory holds of a half-line whose bytes are `bs`, written for address `wrote`: the check symbols, poisoned or not (R261),
then the data symbols, by code position, with the stored symbols that have gone wrong. -/
def storedWord (r : Nat) (bs : List Nat) (wrote : Nat) (poisoned : Bool) (errs : List (Nat × Nat)) : List Nat :=
  let d := symbolsOf bs
  let c := rsCheck r d wrote
  xorAt ((if poisoned then rsPoison c else c) ++ d) (errs.map (fun e => (codePos r e.1, e.2)))

/-! Polynomials over GF(2^16), lowest coefficient first. -/

/-- The value of a polynomial at `x`. -/
def polyAt (p : List Nat) (x : Nat) : Nat := p.foldr (fun c v => c ^^^ gfMul 16 v x) 0

/-- A polynomial without leading zeros. -/
def polyTrim (p : List Nat) : List Nat := (p.reverse.dropWhile (· == 0)).reverse

/-- Sum of polynomials. -/
def polyAdd (p q : List Nat) : List Nat := (List.range (max p.length q.length)).map (fun i => p.getD i 0 ^^^ q.getD i 0)

/-- A polynomial times `c` x^`k`. -/
def polyShift (p : List Nat) (c k : Nat) : List Nat := List.replicate k 0 ++ p.map (gfMul 16 · c)

/-- Product of polynomials. -/
def polyMul (p q : List Nat) : List Nat := (p.zipIdx.map (fun x => polyShift q x.1 x.2)).foldl polyAdd []

/-- The powers `a`^(2^i) for i = 1 to `n`, multiplied. -/
def gfSquares : Nat → Nat → Nat
  | 0, _ => 1
  | n + 1, a => let q := gfMul 16 a a; gfMul 16 q (gfSquares n q)

/-- The inverse in GF(2^16): a^(2^16 - 2). -/
def gfInv (a : Nat) : Nat := gfSquares 15 a

/-- Steps of the long division of `a` by `b`: quotient and remainder. -/
def polyDiv : Nat → List Nat → List Nat → List Nat × List Nat
  | 0, a, _ => ([], a)
  | n + 1, a, b =>
    let a := polyTrim a
    if a.length < b.length ∨ b = [] then ([], a)
    else
      let c := gfMul 16 (a.getLastD 0) (gfInv (b.getLastD 0))
      let k := a.length - b.length
      let (q, r) := polyDiv n (polyAdd a (polyShift b c k)) b
      (polyAdd q (polyShift [1] c k), r)

/-- Euclid's algorithm on `a` and `b` until the remainder has at most `m` coefficients: that remainder and the factor of `b`. -/
def polyEuclid : Nat → Nat → List Nat × List Nat → List Nat × List Nat → List Nat × List Nat
  | 0, _, _, b => b
  | n + 1, m, a, b =>
    let b1 := polyTrim b.1
    if b1.length ≤ m then (b1, b.2)
    else
      let (q, r) := polyDiv 40 a.1 b1
      polyEuclid n m (b1, b.2) (r, polyAdd a.2 (polyMul q b.2))

/-- The syndromes S_1 to S_r of a code word by position. -/
def rsSyndromes (r : Nat) (w : List Nat) : List Nat := (rangeFrom 1 r).map (fun j => polyAt w (gfPow j))

/-- The formal derivative. -/
def polyDeriv (p : List Nat) : List Nat := (p.drop 1).zipIdx.map (fun x => if x.2 % 2 = 0 then x.1 else 0)

/-- R260, R262: the errors that the syndromes locate among `r` + 35 code positions, with the positions `er` as erasures: (position,
difference) pairs, or none when no pattern within the code's capability gives them. -/
def rsLocate (r : Nat) (syn er : List Nat) : Option (List (Nat × Nat)) :=
  let g := er.foldl (fun p i => polyMul p [1, gfPow i]) [1]
  let mod (p : List Nat) : List Nat := p.take r
  let (_, lam) := polyEuclid (r + 1) ((r + er.length) / 2) (List.replicate r 0 ++ [1], []) (mod (polyMul syn g), [1])
  let psi := polyTrim (polyMul lam g)
  let om := mod (polyMul syn psi)
  let at_ := (List.range (r + 35)).filter (fun i => polyAt psi (gfInv (gfPow i)) == 0)
  let found := at_.map (fun i => let x := gfInv (gfPow i); (i, gfMul 16 (polyAt om x) (gfInv (polyAt (polyDeriv psi) x))))
  let found := found.filter (fun e => e.2 != 0)
  if psi = [] ∨ at_.length + 1 ≠ psi.length then none
  else if rsSyndromes r (xorAt (List.replicate (r + 35) 0) found) = syn then some found
  else none

/-- R260 to R262: the outcome of reading, for address `a`, a word stored at the code positions below `r` + 32, and what the decoder
changes: (stored symbol, difference) pairs. `r` is 8 for DDR5 and 4 for stacked DRAM, `erased` a device in erasure mode. -/
def rsDecode (r : Nat) (w : List Nat) (a : Nat) (erased : Option Nat) : Outcome9 × List (Nat × Nat) :=
  let syn := rsSyndromes r (w ++ rsVirtual a)
  if syn.all (· == 0) then (.clean, [])
  else if syn = rsSyndromes r (rsPoison (List.replicate r 0)) then (.poison, [])
  else
    let er := match erased with
      | some d => (rangeFrom (4 * d) 4).map (codePos r)
      | none => []
    match rsLocate r syn er with
    | none => (.uncorrectable, [])
    | some es =>
      let syms := es.map (fun e => ((symAt r e.1).getD 0, e.2))
      if (es.filter (fun e => !er.contains e.1)).length > (if er = [] then r / 2 else 2) then (.uncorrectable, [])
      else if es.any (fun e => (symAt r e.1).isNone) then (.address, [])
      else if r = 8 ∧ syms.all (fun e => devOfSym e.1 == devOfSym (syms.headD (0, 0)).1) then (.device, syms)
      else (.corrected, syms)

/-- The bits of 64 bytes, as one number, that (stored symbol, difference) pairs change. -/
def symMask (es : List (Nat × Nat)) : Nat := es.foldl (fun m e => if e.1 < 32 then m ^^^ e.2 * 2 ^ (16 * e.1) else m) 0

/-! ### Check units (R275, R276) -/

/-- Width in bits of check kind 1 to 3 (Table 09-6). -/
def crcWidth (kind : Nat) : Nat := if kind = 1 then 32 else if kind = 2 then 64 else 16

/-- Initial raw value, Table 09-6. -/
def crcInit (kind : Nat) : Nat := if kind = 1 then 0xFFFFFFFF else if kind = 2 then 0xFFFFFFFFFFFFFFFF else 0

/-- R276, `crc_final`: raw XOR the final XOR value of Table 09-6. -/
def crcFinal (kind raw : Nat) : Nat := raw ^^^ crcInit kind

/-- The reflected polynomials of kinds 1 and 2 (Table 09-6). -/
def crcRpoly (kind : Nat) : Nat := if kind = 1 then 0x82F63B78 else 0x9A6C9329AC4BC9B5

/-- `n` shift steps of a reflected CRC (R276). -/
def crcShiftR (poly : Nat) : Nat → Nat → Nat
  | 0, raw => raw
  | n + 1, raw => crcShiftR poly n (if raw % 2 = 1 then (raw / 2) ^^^ poly else raw / 2)

/-- `n` shift steps of the non-reflected CRC-16 (R276). -/
def crcShiftL : Nat → Nat → Nat
  | 0, raw => raw
  | n + 1, raw => crcShiftL n (if raw / 2 ^ 15 % 2 = 1 then (raw * 2 % 2 ^ 16) ^^^ 0x8BB7 else raw * 2 % 2 ^ 16)

/-- R276, `crc_update` for one byte. -/
def crcByte (kind raw x : Nat) : Nat :=
  if kind = 3 then crcShiftL 8 (raw ^^^ (x % 256 * 256)) else crcShiftR (crcRpoly kind) 8 (raw ^^^ (x % 256))

/-- R276, `crc_update`. -/
def crcUpdate (kind raw : Nat) (bytes : List Nat) : Nat := bytes.foldl (crcByte kind) raw

/-- R276, `crc_seed`: the fold value, if any, folded first as eight little-endian bytes. -/
def crcSeed (kind init : Nat) (fv : Option Nat) : Nat :=
  match fv with
  | none => init
  | some v => crcUpdate kind init (leBytes 8 v)

end Sys2Proof.Machine
end

