-- ==== Sys2Proof/Machine/Cipher.lean ====
section
/-!
DEFINITION. The ciphers of chapters 10 and 15 over the two primitives that the standards give (the AES-256 block and HKDF-Expand, which
Config holds without a body): XTS (IEEE 1619), counter mode and GHASH of GCM, and what the spec derives with them (R287, R446, R447,
R453).

A key, a tweak and a block are numbers, byte 0 lowest.
-/
namespace Sys2Proof.Machine

/-! ### XTS (R287, R449) -/

/-- A tweak times alpha, as IEEE 1619 multiplies. -/
def xtsDouble (t : Nat) : Nat := (t * 2 % 2 ^ 128) ^^^ (if t / 2 ^ 127 % 2 = 1 then 0x87 else 0)

/-- `n` blocks of a data unit, each through `f` between two exclusive ors with its tweak. -/
def xtsBlocks (f : Nat → Nat) : Nat → Nat → Nat → List Nat
  | 0, _, _ => []
  | n + 1, t, x => leBytes 16 (f ((x % 2 ^ 128) ^^^ t) ^^^ t) ++ xtsBlocks f n (xtsDouble t) (x / 2 ^ 128)

/-- XTS-AES-256 of a data unit of whole blocks: the low half of the key is for the data, the high half for the tweak. -/
def xts (f : Nat → Nat → Nat) (key tweak : Nat) (bs : List Nat) : List Nat :=
  xtsBlocks (f (key % 2 ^ 256)) (bs.length / 16) (Config.aes (key / 2 ^ 256) tweak % 2 ^ 128) (ofLeBytes bs)

/-- XTS encryption. -/
def xtsEncrypt : Nat → Nat → List Nat → List Nat := xts Config.aes

/-- XTS decryption. -/
def xtsDecrypt : Nat → Nat → List Nat → List Nat := xts Config.aesInverse

/-- What stands for the plaintext `bs` after the bits `m` of its ciphertext have changed, as a difference from `bs`. -/
def xtsChanged (key tweak : Nat) (bs : List Nat) (m : Nat) : Nat :=
  if m = 0 then 0
  else
    let n := bs.length
    ofLeBytes (xtsDecrypt key tweak (leBytes n (ofLeBytes (xtsEncrypt key tweak bs) ^^^ m))) ^^^ ofLeBytes bs

/-! ### GCM (R447, R453) -/

/-- The bytes of a number, the highest first. -/
def beBytes (n x : Nat) : List Nat := (leBytes n x).reverse

/-- A number from its bytes, the highest first. -/
def ofBeBytes (bs : List Nat) : Nat := ofLeBytes bs.reverse

/-- AES-256 of a block given as bytes. -/
def aesBytes (key : Nat) (bs : List Nat) : List Nat := leBytes 16 (Config.aes key (ofLeBytes bs))

/-- GCM's product in GF(2^128), over the bits of `x` from the lowest exponent on; blocks are numbers with their first byte highest. -/
def gcmMul (x : Nat) : Nat → Nat → Nat
  | 0, _ => 0
  | n + 1, v => (if bitOf x n then v else 0) ^^^ gcmMul x n (v / 2 ^^^ (if v % 2 = 1 then 0xE1 * 2 ^ 120 else 0))

/-- Bytes filled up with zeros to whole blocks, as blocks. -/
def gcmBlocks (bs : List Nat) : List Nat :=
  (List.range ((bs.length + 15) / 16)).map (fun i => ofBeBytes (leBytes 16 (ofLeBytes ((bs.drop (16 * i)).take 16))))

/-- GHASH over additional data and ciphertext, with the length block. -/
def ghash (h : Nat) (a c : List Nat) : Nat :=
  (gcmBlocks a ++ gcmBlocks c ++ [8 * a.length * 2 ^ 64 + 8 * c.length]).foldl (fun y b => gcmMul (y ^^^ b) 128 h) 0

/-- Counter block `i` of a 12-byte IV: J0 is block 1. -/
def ctrBlock (iv : List Nat) (i : Nat) : List Nat := iv ++ beBytes 4 i

/-- Counter mode from counter block 2 on: encryption and decryption alike. -/
def ctrCrypt (key : Nat) (iv bs : List Nat) : List Nat :=
  let ks := (List.range ((bs.length + 15) / 16)).flatMap (fun i => aesBytes key (ctrBlock iv (i + 2)))
  bs.zipWith (fun x k => x % 256 ^^^ k) ks

/-- The 16 bytes of a GCM tag, with the IV of the counter block that masks it. -/
def gcmTag (key : Nat) (iv a c : List Nat) : List Nat :=
  let h := ofBeBytes (aesBytes key (leBytes 16 0))
  beBytes 16 (ghash h a c ^^^ ofBeBytes (aesBytes key (ctrBlock iv 1)))

/-! ### What is derived from a secret (R446, R453) -/

/-- The ASCII bytes of a label. -/
def label (t : String) : List Nat := t.toList.map Char.toNat

/-- R446: the export master secret of generation `g`. -/
def emsOf (ems : Nat) : Nat → Nat
  | 0 => ems
  | g + 1 => Config.hkdfExpand (emsOf ems g) (label "ndeny next") 48

/-- R446: what a flit key or IV base is expanded with: the nonces of the end that sends and of its peer, and the generation. -/
def flitInfo (t : String) (nx ny g : Nat) : List Nat := label t ++ leBytes 4 nx ++ leBytes 4 ny ++ [g % 256]

/-- R446: K_X. -/
def flitKey (ems nx ny g : Nat) : Nat := Config.hkdfExpand (emsOf ems g) (flitInfo "ndeny flit key" nx ny g) 32

/-- R446: IV_X. -/
def flitIvBase (ems nx ny g : Nat) : Nat := Config.hkdfExpand (emsOf ems g) (flitInfo "ndeny flit iv" nx ny g) 12

/-- R447: the IV of the flit with extended sequence number `x`. -/
def flitIv (base x : Nat) : List Nat := (leBytes 12 base).zipWith (· ^^^ ·) ([0, 0, 0, 0] ++ beBytes 8 x)

/-- R447: the tag of a TAG whose covered flits have these extended numbers, VCs and ciphertexts. -/
def flitTag (key base : Nat) (fs : List (Nat × Nat × List Nat)) : List Nat :=
  gcmTag key (flitIv base ((fs.head?.map (·.1)).getD 0)) (fs.flatMap (fun f => beBytes 8 f.1 ++ f.2.1 :: List.replicate 7 0))
    (fs.flatMap (·.2.2))

/-- R453: the wrap key of a seal key or of a session's export master secret. -/
def wrapKey (secret : Nat) : Nat := Config.hkdfExpand secret (label "pan wrap") 32

/-- R453: the bytes 127:0 that a key blob of Table 15-11 holds: a DDR5 and a heap key; none where its tag fails. -/
def blobOpen (key : Nat) (b : List Nat) : Option (Nat × Nat) :=
  let part (i n : Nat) : List Nat := (b.drop i).take n
  if gcmTag key (part 16 12) (part 0 32) (part 32 128) = part 160 16 then
    let ks := ctrCrypt key (part 16 12) (part 32 128)
    some (ofLeBytes (ks.take 64), ofLeBytes (ks.drop 64))
  else none

/-! ### Heap blocks (R287) -/

/-- The tweak of the heap block at node-local address `a` of pan `n`, or of the carve-out. -/
def heapTweak (n a : Nat) (carve : Bool) : Nat := bitsOf a 12 40 + (if carve then 2 ^ 46 else n % 64 * 2 ^ 40)

/-- The guard over a ciphertext: the NVMe CRC-64, or the T10-DIF CRC-16 of a 16b Guard namespace (Table 09-6). -/
def heapGuard (g16 : Bool) (ct : List Nat) : Nat :=
  let k := if g16 then 3 else 2
  crcFinal k (crcUpdate k (crcInit k) ct)

/-- The reference tag of a block: its LBA. -/
def heapRef (g16 : Bool) (lba : Nat) : Nat := lba % 2 ^ (if g16 then 32 else 48)

/-- The application tag of a block. -/
def heapApp (n : Nat) (carve : Bool) : Nat := if carve then 0x40 else n

end Sys2Proof.Machine
end

