-- ==== Sys2Proof/Machine/Csr.lean ====
section
/-!
DEFINITION. The CSR window of 19_register_map.md: every field of every register, and the table of registers by offset.

One field is one cell of State's register file, so that writing one field leaves every other as it is. An RWS field has
two cells, one per register set (R404). Each `Csr.<REGISTER>_<field>` is that field, with the indices of the register's
instances as arguments; Carousel fields take the base address of the instance, ECC fields the number of the store
(0-15 the DDR5 channels, 16 the stacked DRAM).
-/
namespace Sys2Proof.Machine

/-- Access codes, Table 00-4 (R2). -/
inductive Access where
  | ro | rw | rws | w1c | w1s | wo | rc
deriving DecidableEq, Repr

/-- One field of one register: its window offset, place, width, reset value and whether it is RWS. -/
structure Fld where
  off : Nat
  lo : Nat
  w : Nat
  rst : Nat
  rws : Bool
deriving DecidableEq, Repr

/-- The key of a field's cell in the register file, in register set `set` (0 A, 1 B). -/
def Fld.cell (f : Fld) (set : Nat) : Nat := (f.off * 64 + f.lo) * 2 + (if f.rws then set % 2 else 0)

/-- One field in the table of registers; its reset value may depend on the register's offset. -/
structure FieldRow where
  name : String
  lo : Nat
  w : Nat
  acc : Access
  rst : Nat → Nat

/-- One register, or an array of registers, of the table. -/
structure RegRow where
  name : String
  base : Nat
  dims : List (Nat × Nat)
  fields : List FieldRow

/-- The field of register offset `o` that a row of the table names. -/
def FieldRow.fld (o : Nat) (r : FieldRow) : Fld := ⟨o, r.lo, r.w, r.rst o, r.acc == .rws⟩

namespace Csr

/-- Offset of integrity register `i` of store `st` (Table 09-9): 0 ECCCTL, 1 ECCSTAT, 2 PATROLPOS, 3 PATROLLAST,
4-7 the counters. Stores 0-15 are the DDR5 channels, 16 the stacked DRAM. -/
def eccOff (st i : Nat) : Nat :=
  if st < 16 then 0x2800000 + 0x20000 * st + (if i = 0 then 0x400 else 0x410 + 8 * i)
  else 0x2A00400 + 8 * i

/-- ECCCTL.patrol_hours after reset: 24 for DDR5, 4 for the stacked DRAM (Table 09-10). -/
def patrolHours (o : Nat) : Nat := if o < 0x2A00000 then 24 else 4

/-- Which kind of Carousel lies at `o`: 0 rake dispatch, 1 Midway injection, 2 DRAM command slot (R202, R234). -/
def carKind (o : Nat) : Nat :=
  if o < 0x2400000 then 0 else if o < 0x2800000 then 1 else 2

/-- The number of requesters of Midway stop `k`: its highest named agent of MIDAGENT[k] (R543). -/
def midNreq (a : Nat) : Nat :=
  ((List.range 16).filter (fun r => a / 16 ^ r % 16 != 0)).foldl (fun m r => max m (r + 1)) 0

/-- The Midway stop whose Carousel lies at offset `o` (R543). -/
def midStop (o : Nat) : Nat := (o - 0x2410000) / 0x100 % 36

/-- CARINFO.nreq: rake dispatch 3 (Table 06-5), DRAM 16 (R234), Midway as MIDAGENT names its stop's agents. -/
def carNreq (o : Nat) : Nat :=
  if carKind o = 0 then 3 else if carKind o = 1 then midNreq (Config.midAgent (0x2400100 + 8 * midStop o)) else 16

/-- CARINFO.pre_idx: rake dispatch 2, DRAM 15, Midway the last index, which is the debug port (Table 06-5, R543). -/
def carPreIdx (o : Nat) : Nat := if carKind o = 0 then 2 else if carKind o = 1 then carNreq o - 1 else 15

/-- CARPRI after reset: Table 06-5 for rake dispatch and Midway (class 2, class 0 for demoted requesters), R234 for
the DRAM command slots. -/
def carClass (o : Nat) : Nat :=
  if carKind o = 0 then 0x6
  else if carKind o = 1 then
    let a := Config.midAgent (0x2400100 + 8 * midStop o)
    ((List.range (carNreq o)).map (fun r => (if a / 16 ^ r % 16 = 7 then 0 else 2) * 4 ^ r)).sum
  else 0x95555

/-- The four 16-bit read targets of Table 08-4 in word `i`, in units of 10 ns (Table 08-10). -/
def latWord (i : Nat) : Nat :=
  match i with
  | 0 => 0x0028_0028_0028_0028
  | 1 => 0x0028_0028_0028_0028
  | 2 => 0x03E8_00C8_001E_003C
  | _ => 0x0000_0000_03E8_0190

/-- DDRLAT[i] after reset. -/
def ddrLat (o : Nat) : Nat := latWord ((o - 0x2800038) % 0x20000 / 8)

/-- STKLAT[i] after reset (R253: as DDRLAT). -/
def stkLat (o : Nat) : Nat := latWord ((o - 0x2A00018) / 8)

/-- VCOREOP[j].code at the beginning of life, in 2.5 mV (Table 16-6, R528). -/
def vcoreCode (o : Nat) : Nat := 300 + 10 * ((o - 0x200068) / 8)

/-- VCOREOP[j].mhz = 1,000 + 50 j (Table 16-10). -/
def vcoreMhz (o : Nat) : Nat := 1000 + 50 * ((o - 0x200068) / 8)

/-- The static limits of Table 21-2 in mV, by voltage monitor of Table 18-9 (R525, R565). -/
def vmonRange (i : Nat) : Nat × Nat :=
  if i < 8 then (740, 760) else if i < 12 then (728, 772) else if i < 14 then (825, 875)
  else if i < 16 then (1067, 1133)
  else match i with
    | 16 => (1710, 1890)
    | 17 => (1067, 1133)
    | 18 => (380, 420)
    | 19 => (882, 918)
    | 20 => (1176, 1224)
    | 21 => (873, 927)
    | 22 => (1710, 1890)
    | _ => (760, 840)

/-- VMON[i].low_mv after reset. -/
def vmonLow (o : Nat) : Nat := (vmonRange ((o - 0x3200280) / 8)).1

/-- VMON[i].high_mv after reset. -/
def vmonHigh (o : Nat) : Nat := (vmonRange ((o - 0x3200280) / 8)).2

/-- DEVID.vendor, Table 19-3 (R542). -/
def DEVID_vendor : Fld := ⟨0, 0, 16, 0x7A5E, false⟩
/-- DEVID.part, Table 19-3 (R542). -/
def DEVID_part : Fld := ⟨0, 16, 16, 0x7100, false⟩
/-- DEVID.family, Table 19-3 (R542). -/
def DEVID_family : Fld := ⟨0, 32, 8, 0x01, false⟩
/-- DEVREV.major, Table 19-3 (R542). -/
def DEVREV_major : Fld := ⟨8, 0, 4, 1, false⟩
/-- DEVREV.minor, Table 19-3 (R542). -/
def DEVREV_minor : Fld := ⟨8, 4, 4, 0, false⟩
/-- DEVREV.rom, Table 19-3 (R542). -/
def DEVREV_rom : Fld := ⟨8, 8, 16, 0x0B00, false⟩
/-- DEVCAP.stalls, Table 19-3 (R542). -/
def DEVCAP_stalls : Fld := ⟨0x10, 0, 5, 16, false⟩
/-- DEVCAP.rakes, Table 19-3 (R542). -/
def DEVCAP_rakes : Fld := ⟨0x10, 5, 9, 256, false⟩
/-- DEVCAP.ports, Table 19-3 (R542). -/
def DEVCAP_ports : Fld := ⟨0x10, 14, 4, 8, false⟩
/-- DEVCAP.pans, Table 19-3 (R542). -/
def DEVCAP_pans : Fld := ⟨0x10, 18, 7, 64, false⟩
/-- DEVCAP.qid_bits, Table 19-3 (R542). -/
def DEVCAP_qid_bits : Fld := ⟨0x10, 25, 5, 19, false⟩
/-- DEVCAP.ddr_channels, Table 19-3 (R542). -/
def DEVCAP_ddr_channels : Fld := ⟨0x10, 30, 5, 16, false⟩
/-- DEVCAP.stacks, Table 19-3 (R542). -/
def DEVCAP_stacks : Fld := ⟨0x10, 35, 2, 2, false⟩
/-- DEVCAP.heap_ports, Table 19-3 (R542). -/
def DEVCAP_heap_ports : Fld := ⟨0x10, 37, 4, 8, false⟩
/-- DEVSN.serial, Table 19-3 (R542). -/
def DEVSN_serial : Fld := ⟨0x18, 0, 64, Config.serial, false⟩
/-- DEVOPT.lc, Table 19-3 (R542). -/
def DEVOPT_lc : Fld := ⟨0x20, 0, 1, Config.optLc, false⟩
/-- DEVOPT.ext_temp, Table 19-3 (R542). -/
def DEVOPT_ext_temp : Fld := ⟨0x20, 1, 1, Config.optExtTemp, false⟩
/-- NODEID.node_id, Table 02-8 (R25). -/
def NODEID_node_id : Fld := ⟨0x1000, 0, 12, 0x000, true⟩
/-- DDR5TOP.granules, Table 02-9 (R37). -/
def DDR5TOP_granules : Fld := ⟨0x1008, 0, 32, 0, false⟩
/-- HEAPTOP.granules, Table 02-9 (R37). -/
def HEAPTOP_granules : Fld := ⟨0x1010, 0, 32, 0, false⟩
/-- STKSEGMAP.seg, Table 02-10 (R43). -/
def STKSEGMAP_seg (n : Nat) : Fld := ⟨0x1020 + 8 * n, 0, 64, 0, true⟩
/-- STKSEGSTAT.seg, Table 02-10 (R43). -/
def STKSEGSTAT_seg (n : Nat) : Fld := ⟨0x1040 + 8 * n, 0, 64, 0, false⟩
/-- XLCTL.merge_en, Table 07-12 (R222). -/
def XLCTL_merge_en : Fld := ⟨0x2000, 0, 1, 1, true⟩
/-- XLCTL.pan_walks, Table 07-12 (R222). -/
def XLCTL_pan_walks : Fld := ⟨0x2000, 1, 8, 64, true⟩
/-- XLCTL.flush, Table 07-12 (R222). -/
def XLCTL_flush : Fld := ⟨0x2000, 9, 1, 0, false⟩
/-- XLSTAT.cnt_ovf, Table 07-12 (R222). -/
def XLSTAT_cnt_ovf : Fld := ⟨0x2008, 0, 6, 0, false⟩
/-- XLHITCNT.count, Table 07-12 (R222). -/
def XLHITCNT_count : Fld := ⟨0x2010, 0, 48, 0, false⟩
/-- XLMISSCNT.count, Table 07-12 (R222). -/
def XLMISSCNT_count : Fld := ⟨0x2018, 0, 48, 0, false⟩
/-- XLWALKCNT.count, Table 07-12 (R222). -/
def XLWALKCNT_count : Fld := ⟨0x2020, 0, 48, 0, false⟩
/-- XLSHOOTCNT.count, Table 07-12 (R222). -/
def XLSHOOTCNT_count : Fld := ⟨0x2028, 0, 48, 0, false⟩
/-- XLINVALCNT.count, Table 07-12 (R222). -/
def XLINVALCNT_count : Fld := ⟨0x2030, 0, 48, 0, false⟩
/-- XLSTALECNT.count, Table 07-12 (R222). -/
def XLSTALECNT_count : Fld := ⟨0x2038, 0, 48, 0, false⟩
/-- FQRESUME.qid, Table 07-12 (R222). -/
def FQRESUME_qid : Fld := ⟨0x2040, 0, 19, 0, false⟩
/-- FQRESUME.index, Table 07-12 (R222). -/
def FQRESUME_index : Fld := ⟨0x2040, 19, 16, 0, false⟩
/-- FQRESUME.gen, Table 07-12 (R222). -/
def FQRESUME_gen : Fld := ⟨0x2040, 35, 16, 0, false⟩
/-- FQRESUME.pan, Table 07-12 (R222). -/
def FQRESUME_pan : Fld := ⟨0x2040, 51, 6, 0, false⟩
/-- FQRESUME.action, Table 07-12 (R222). -/
def FQRESUME_action : Fld := ⟨0x2040, 57, 1, 0, false⟩
/-- ERRCTL.ce_filter_en, Table 09-10 (R279). -/
def ERRCTL_ce_filter_en : Fld := ⟨0x3000, 0, 1, 1, false⟩
/-- ERRCTL.sram_patrol_en, Table 09-10 (R279). -/
def ERRCTL_sram_patrol_en : Fld := ⟨0x3000, 1, 1, 1, false⟩
/-- ERRCTL.sram_patrol_min, Table 09-10 (R279). -/
def ERRCTL_sram_patrol_min : Fld := ⟨0x3000, 8, 8, 60, false⟩
/-- ERRSTAT.cnt_ovf, Table 09-10 (R279). -/
def ERRSTAT_cnt_ovf : Fld := ⟨0x3008, 0, 4, 0, false⟩
/-- ERRSTAT.log_full, Table 09-10 (R279). -/
def ERRSTAT_log_full : Fld := ⟨0x3008, 4, 1, 0, false⟩
/-- ERRLOGBASE.base, Table 09-10 (R279). -/
def ERRLOGBASE_base : Fld := ⟨0x3010, 0, 52, Config.errLogBase, false⟩
/-- ERRLOGPOS.producer, Table 09-10 (R279). -/
def ERRLOGPOS_producer : Fld := ⟨0x3018, 0, 32, 0, false⟩
/-- ERRLOGPOS.consumer, Table 09-10 (R279). -/
def ERRLOGPOS_consumer : Fld := ⟨0x3018, 32, 32, 0, false⟩
/-- ERRDROPCNT.count, Table 09-10 (R279). -/
def ERRDROPCNT_count : Fld := ⟨0x3020, 0, 48, 0, false⟩
/-- SRAMCECNT.count, Table 09-10 (R279). -/
def SRAMCECNT_count : Fld := ⟨0x3028, 0, 48, 0, false⟩
/-- SRAMUECNT.count, Table 09-10 (R279). -/
def SRAMUECNT_count : Fld := ⟨0x3030, 0, 48, 0, false⟩
/-- SRAMADDRCNT.count, Table 09-10 (R279). -/
def SRAMADDRCNT_count : Fld := ⟨0x3038, 0, 48, 0, false⟩
/-- RETIRECMD.op, Table 09-10 (R279). -/
def RETIRECMD_op : Fld := ⟨0x3040, 0, 4, 0, false⟩
/-- RETIRECMD.store, Table 09-10 (R279). -/
def RETIRECMD_store : Fld := ⟨0x3040, 4, 1, 0, false⟩
/-- RETIRECMD.channel, Table 09-10 (R279). -/
def RETIRECMD_channel : Fld := ⟨0x3040, 5, 4, 0, false⟩
/-- RETIRECMD.slot, Table 09-10 (R279). -/
def RETIRECMD_slot : Fld := ⟨0x3040, 9, 3, 0, false⟩
/-- RETIRECMD.sub, Table 09-10 (R279). -/
def RETIRECMD_sub : Fld := ⟨0x3040, 12, 1, 0, false⟩
/-- RETIRECMD.bg, Table 09-10 (R279). -/
def RETIRECMD_bg : Fld := ⟨0x3040, 13, 3, 0, false⟩
/-- RETIRECMD.bank, Table 09-10 (R279). -/
def RETIRECMD_bank : Fld := ⟨0x3040, 16, 2, 0, false⟩
/-- RETIRECMD.row, Table 09-10 (R279). -/
def RETIRECMD_row : Fld := ⟨0x3040, 18, 18, 0, false⟩
/-- RETIREADDR.granule, Table 09-10 (R279). -/
def RETIREADDR_granule : Fld := ⟨0x3048, 21, 31, 0, false⟩
/-- RETIRESTAT.busy, Table 09-10 (R279). -/
def RETIRESTAT_busy : Fld := ⟨0x3050, 0, 1, 0, false⟩
/-- RETIRESTAT.result, Table 09-10 (R279). -/
def RETIRESTAT_result : Fld := ⟨0x3050, 1, 3, 0, false⟩
/-- RETIRESTAT.lost, Table 09-10 (R279). -/
def RETIRESTAT_lost : Fld := ⟨0x3050, 4, 1, 0, false⟩
/-- RETIRESTAT.retired, Table 09-10 (R279). -/
def RETIRESTAT_retired : Fld := ⟨0x3050, 32, 32, 0, false⟩
/-- COHCTL.snoop_to_us, Table 11-10 (R333). -/
def COHCTL_snoop_to_us : Fld := ⟨0x4000, 0, 16, 500, true⟩
/-- COHCTL.nak_base, Table 11-10 (R333). -/
def COHCTL_nak_base : Fld := ⟨0x4000, 16, 12, 100, true⟩
/-- COHCTL.nak_max, Table 11-10 (R333). -/
def COHCTL_nak_max : Fld := ⟨0x4000, 28, 16, 12800, true⟩
/-- COHCTL.nak_limit, Table 11-10 (R333). -/
def COHCTL_nak_limit : Fld := ⟨0x4000, 44, 8, 64, true⟩
/-- COHCTL.resv_after, Table 11-10 (R333). -/
def COHCTL_resv_after : Fld := ⟨0x4000, 52, 4, 4, true⟩
/-- COHSTAT.sweeping, Table 11-10 (R333). -/
def COHSTAT_sweeping : Fld := ⟨0x4008, 0, 1, 0, false⟩
/-- COHSTAT.prot_ovf, Table 11-10 (R333). -/
def COHSTAT_prot_ovf : Fld := ⟨0x4008, 1, 1, 0, false⟩
/-- COHSTAT.lost_ovf, Table 11-10 (R333). -/
def COHSTAT_lost_ovf : Fld := ⟨0x4008, 2, 1, 0, false⟩
/-- COHPROTCNT.count, Table 11-10 (R333). -/
def COHPROTCNT_count : Fld := ⟨0x4010, 0, 48, 0, false⟩
/-- COHLOSTCNT.count, Table 11-10 (R333). -/
def COHLOSTCNT_count : Fld := ⟨0x4018, 0, 48, 0, false⟩
/-- COHGONE.gone, Table 11-10 (R333). -/
def COHGONE_gone (n : Nat) : Fld := ⟨0x4100 + 8 * n, 0, 64, 0, false⟩
/-- FABCTL.fm_port_mask, Table 13-10 (R403). -/
def FABCTL_fm_port_mask : Fld := ⟨0x5000, 0, 8, 0, true⟩
/-- FABCTL.life_init, Table 13-10 (R403). -/
def FABCTL_life_init : Fld := ⟨0x5000, 8, 6, 60, true⟩
/-- FABCTL.req_to_us, Table 13-10 (R403). -/
def FABCTL_req_to_us : Fld := ⟨0x5000, 16, 16, 1000, true⟩
/-- FABCTL.hold_ms, Table 13-10 (R403). -/
def FABCTL_hold_ms : Fld := ⟨0x5000, 32, 16, 100, true⟩
/-- FABCTL.map_us, Table 13-10 (R403). -/
def FABCTL_map_us : Fld := ⟨0x5000, 48, 16, 1000, true⟩
/-- FABDIMS.kx1, Table 13-10 (R403). -/
def FABDIMS_kx1 : Fld := ⟨0x5008, 0, 4, 0xF, true⟩
/-- FABDIMS.ky1, Table 13-10 (R403). -/
def FABDIMS_ky1 : Fld := ⟨0x5008, 4, 4, 0xF, true⟩
/-- FABDIMS.kz1, Table 13-10 (R403). -/
def FABDIMS_kz1 : Fld := ⟨0x5008, 8, 4, 0xF, true⟩
/-- FABE2E.e2e_max, Table 13-10 (R403). -/
def FABE2E_e2e_max : Fld := ⟨0x5010, 0, 14, 1024, true⟩
/-- FABE2E.e2e_min, Table 13-10 (R403). -/
def FABE2E_e2e_min : Fld := ⟨0x5010, 16, 14, 64, true⟩
/-- FABE2E.e2e_hold_us, Table 13-10 (R403). -/
def FABE2E_e2e_hold_us : Fld := ⟨0x5010, 32, 8, 10, true⟩
/-- FABE2E.mark_kib, Table 13-10 (R403). -/
def FABE2E_mark_kib : Fld := ⟨0x5010, 40, 5, 16, true⟩
/-- FABCMD.op, Table 13-10 (R403). -/
def FABCMD_op : Fld := ⟨0x5018, 0, 2, 0, false⟩
/-- FABCMD.drain_id, Table 13-10 (R403). -/
def FABCMD_drain_id : Fld := ⟨0x5018, 16, 16, 0, false⟩
/-- FABSTAT.held, Table 13-10 (R403). -/
def FABSTAT_held : Fld := ⟨0x5020, 0, 1, 0, false⟩
/-- FABSTAT.drained, Table 13-10 (R403). -/
def FABSTAT_drained : Fld := ⟨0x5020, 1, 1, 0, false⟩
/-- FABSTAT.cc_wait, Table 13-10 (R403). -/
def FABSTAT_cc_wait : Fld := ⟨0x5020, 2, 1, 0, false⟩
/-- FABSTAT.drain_id, Table 13-10 (R403). -/
def FABSTAT_drain_id : Fld := ⟨0x5020, 16, 16, 0, false⟩
/-- FABSTAT.cnt_ovf, Table 13-10 (R403). -/
def FABSTAT_cnt_ovf : Fld := ⟨0x5020, 32, 11, 0, false⟩
/-- FABOUT.outstanding, Table 13-10 (R403). -/
def FABOUT_outstanding : Fld := ⟨0x5028, 0, 32, 0, false⟩
/-- FABOUT.queued, Table 13-10 (R403). -/
def FABOUT_queued : Fld := ⟨0x5028, 32, 32, 0, false⟩
/-- NXREQCNT.count, Table 13-10 (R403). -/
def NXREQCNT_count : Fld := ⟨0x5100, 0, 48, 0, false⟩
/-- NXTRANSCNT.count, Table 13-10 (R403). -/
def NXTRANSCNT_count : Fld := ⟨0x5108, 0, 48, 0, false⟩
/-- DUPCNT.count, Table 13-10 (R403). -/
def DUPCNT_count : Fld := ⟨0x5110, 0, 48, 0, false⟩
/-- CCWAITCNT.count, Table 13-10 (R403). -/
def CCWAITCNT_count : Fld := ⟨0x5118, 0, 48, 0, false⟩
/-- EXPIRECNT.count, Table 13-10 (R403). -/
def EXPIRECNT_count : Fld := ⟨0x5120, 0, 48, 0, false⟩
/-- NOPATHCNT.count, Table 13-10 (R403). -/
def NOPATHCNT_count : Fld := ⟨0x5128, 0, 48, 0, false⟩
/-- REVCNT.count, Table 13-10 (R403). -/
def REVCNT_count : Fld := ⟨0x5130, 0, 48, 0, false⟩
/-- MARKCNT.count, Table 13-10 (R403). -/
def MARKCNT_count : Fld := ⟨0x5138, 0, 48, 0, false⟩
/-- NXTIMEOUTCNT.count, Table 13-10 (R403). -/
def NXTIMEOUTCNT_count : Fld := ⟨0x5140, 0, 48, 0, false⟩
/-- RSPDISCCNT.count, Table 13-10 (R403). -/
def RSPDISCCNT_count : Fld := ⟨0x5148, 0, 48, 0, false⟩
/-- NXBADCNT.count, Table 13-10 (R403). -/
def NXBADCNT_count : Fld := ⟨0x5150, 0, 48, 0, false⟩
/-- MEMBER.valid, Table 02-11 (R32). -/
def MEMBER_valid (n : Nat) : Fld := ⟨0x10000 + 8 * n, 0, 1, 0, true⟩
/-- MEMBER.rd, Table 02-11 (R32). -/
def MEMBER_rd (n : Nat) : Fld := ⟨0x10000 + 8 * n, 1, 1, 0, true⟩
/-- MEMBER.wr, Table 02-11 (R32). -/
def MEMBER_wr (n : Nat) : Fld := ⟨0x10000 + 8 * n, 2, 1, 0, true⟩
/-- MEMBER.submit, Table 02-11 (R32). -/
def MEMBER_submit (n : Nat) : Fld := ⟨0x10000 + 8 * n, 3, 1, 0, true⟩
/-- MEMBER.lend, Table 02-11 (R32). -/
def MEMBER_lend (n : Nat) : Fld := ⟨0x10000 + 8 * n, 4, 1, 0, true⟩
/-- MEMBER.pan, Table 02-11 (R32). -/
def MEMBER_pan (n : Nat) : Fld := ⟨0x10000 + 8 * n, 5, 6, 0, true⟩
/-- MEMBER.src_node, Table 02-11 (R32). -/
def MEMBER_src_node (n : Nat) : Fld := ⟨0x10000 + 8 * n, 16, 12, 0, true⟩
/-- MEMBER.src_port, Table 02-11 (R32). -/
def MEMBER_src_port (n : Nat) : Fld := ⟨0x10000 + 8 * n, 28, 3, 0, true⟩
/-- PANCTL.enable, Table 02-13 (R34). -/
def PANCTL_enable (n : Nat) : Fld := ⟨0x20000 + 0x100 * n, 0, 1, 0, true⟩
/-- PANCTL.mirrored, Table 02-13 (R34). -/
def PANCTL_mirrored (n : Nat) : Fld := ⟨0x20000 + 0x100 * n, 1, 1, 0, true⟩
/-- PANCTL.durable, Table 02-13 (R34). -/
def PANCTL_durable (n : Nat) : Fld := ⟨0x20000 + 0x100 * n, 2, 1, 0, true⟩
/-- PANCTL.coh_msi, Table 02-13 (R34). -/
def PANCTL_coh_msi (n : Nat) : Fld := ⟨0x20000 + 0x100 * n, 3, 1, 0, true⟩
/-- PANCTL.home_tier, Table 02-13 (R34). -/
def PANCTL_home_tier (n : Nat) : Fld := ⟨0x20000 + 0x100 * n, 4, 2, 1, true⟩
/-- PANCTL.stk_mode, Table 02-13 (R34). -/
def PANCTL_stk_mode (n : Nat) : Fld := ⟨0x20000 + 0x100 * n, 6, 2, 0, true⟩
/-- PANCTL.placement, Table 02-13 (R34). -/
def PANCTL_placement (n : Nat) : Fld := ⟨0x20000 + 0x100 * n, 8, 1, 0, true⟩
/-- PANCTL.lent_allowed, Table 02-13 (R34). -/
def PANCTL_lent_allowed (n : Nat) : Fld := ⟨0x20000 + 0x100 * n, 9, 1, 0, true⟩
/-- PANCTL.stall_mask, Table 02-13 (R34). -/
def PANCTL_stall_mask (n : Nat) : Fld := ⟨0x20000 + 0x100 * n, 16, 16, 0xFFFF, true⟩
/-- PANCTL.cache_cap, Table 02-13 (R34). -/
def PANCTL_cache_cap (n : Nat) : Fld := ⟨0x20000 + 0x100 * n, 32, 8, 0xFF, true⟩
/-- PANQUOTA.soft, Table 02-14 (R54). -/
def PANQUOTA_soft (n m : Nat) : Fld := ⟨0x20010 + 0x100 * n + 8 * m, 0, 32, 0, true⟩
/-- PANQUOTA.hard, Table 02-14 (R54). -/
def PANQUOTA_hard (n m : Nat) : Fld := ⟨0x20010 + 0x100 * n + 8 * m, 32, 32, 0, true⟩
/-- PANUSE.used, Table 02-14 (R54). -/
def PANUSE_used (n m : Nat) : Fld := ⟨0x20030 + 0x100 * n + 8 * m, 0, 32, 0, false⟩
/-- PANUSE.peak, Table 02-14 (R54). -/
def PANUSE_peak (n m : Nat) : Fld := ⟨0x20030 + 0x100 * n + 8 * m, 32, 32, 0, false⟩
/-- PANSPILL.spill_budget, Table 02-14 (R54). -/
def PANSPILL_spill_budget (n : Nat) : Fld := ⟨0x20050 + 0x100 * n, 0, 32, 0, true⟩
/-- PANSPILL.spill_used, Table 02-14 (R54). -/
def PANSPILL_spill_used (n : Nat) : Fld := ⟨0x20050 + 0x100 * n, 32, 32, 0, false⟩
/-- PANDUR.dur_log_units, Table 02-15 (R54). -/
def PANDUR_dur_log_units (n : Nat) : Fld := ⟨0x20058 + 0x100 * n, 0, 16, 0, true⟩
/-- PANSTAT.over_soft, Table 02-15 (R54). -/
def PANSTAT_over_soft (n : Nat) : Fld := ⟨0x20060 + 0x100 * n, 0, 4, 0, false⟩
/-- PANSTAT.over_hard, Table 02-15 (R54). -/
def PANSTAT_over_hard (n : Nat) : Fld := ⟨0x20060 + 0x100 * n, 4, 4, 0, false⟩
/-- PANSTAT.spill_exhausted, Table 02-15 (R54). -/
def PANSTAT_spill_exhausted (n : Nat) : Fld := ⟨0x20060 + 0x100 * n, 8, 1, 0, false⟩
/-- PANSTAT.mirror_degraded, Table 02-15 (R54). -/
def PANSTAT_mirror_degraded (n : Nat) : Fld := ⟨0x20060 + 0x100 * n, 9, 1, 0, false⟩
/-- PANSTAT.spill_cnt_ovf, Table 02-15 (R54). -/
def PANSTAT_spill_cnt_ovf (n : Nat) : Fld := ⟨0x20060 + 0x100 * n, 10, 1, 0, false⟩
/-- PANSTAT.quota_cnt_ovf, Table 02-15 (R54). -/
def PANSTAT_quota_cnt_ovf (n : Nat) : Fld := ⟨0x20060 + 0x100 * n, 11, 1, 0, false⟩
/-- PANSTAT.state, Table 02-15 (R54). -/
def PANSTAT_state (n : Nat) : Fld := ⟨0x20060 + 0x100 * n, 16, 2, 0, false⟩
/-- PANSPILLCNT.count, Table 02-15 (R54). -/
def PANSPILLCNT_count (n : Nat) : Fld := ⟨0x20068 + 0x100 * n, 0, 48, 0, false⟩
/-- PANQREFCNT.count, Table 02-15 (R54). -/
def PANQREFCNT_count (n : Nat) : Fld := ⟨0x20070 + 0x100 * n, 0, 48, 0, false⟩
/-- PANSCHED.park_slots, Table 06-11 (R204). -/
def PANSCHED_park_slots (n : Nat) : Fld := ⟨0x20080 + 0x100 * n, 0, 16, 16, true⟩
/-- PANSCHED.park_alloc, Table 06-11 (R204). -/
def PANSCHED_park_alloc (n : Nat) : Fld := ⟨0x20080 + 0x100 * n, 16, 16, 0, false⟩
/-- PANPTROOT.root, Table 07-12 (R222). -/
def PANPTROOT_root (n : Nat) : Fld := ⟨0x20088 + 0x100 * n, 12, 40, 0, false⟩
/-- FQBASE.base, Table 07-12 (R222). -/
def FQBASE_base (n : Nat) : Fld := ⟨0x20090 + 0x100 * n, 12, 40, 0, false⟩
/-- FQNOTE.notify_en, Table 07-12 (R222). -/
def FQNOTE_notify_en (n : Nat) : Fld := ⟨0x20098 + 0x100 * n, 0, 1, 0, true⟩
/-- FQNOTE.notify_port, Table 07-12 (R222). -/
def FQNOTE_notify_port (n : Nat) : Fld := ⟨0x20098 + 0x100 * n, 1, 3, 0, true⟩
/-- FQNOTE.notify_node, Table 07-12 (R222). -/
def FQNOTE_notify_node (n : Nat) : Fld := ⟨0x20098 + 0x100 * n, 4, 12, 0, true⟩
/-- FQPOS.producer, Table 07-12 (R222). -/
def FQPOS_producer (n : Nat) : Fld := ⟨0x200a0 + 0x100 * n, 0, 32, 0, false⟩
/-- FQPOS.consumer, Table 07-12 (R222). -/
def FQPOS_consumer (n : Nat) : Fld := ⟨0x200a0 + 0x100 * n, 32, 32, 0, false⟩
/-- FQSTAT.pending, Table 07-12 (R222). -/
def FQSTAT_pending (n : Nat) : Fld := ⟨0x200a8 + 0x100 * n, 0, 32, 0, false⟩
/-- FQSTAT.full, Table 07-12 (R222). -/
def FQSTAT_full (n : Nat) : Fld := ⟨0x200a8 + 0x100 * n, 32, 1, 0, false⟩
/-- FQSTAT.fault_ovf, Table 07-12 (R222). -/
def FQSTAT_fault_ovf (n : Nat) : Fld := ⟨0x200a8 + 0x100 * n, 33, 1, 0, false⟩
/-- FAULTCNT.count, Table 07-12 (R222). -/
def FAULTCNT_count (n : Nat) : Fld := ⟨0x200b0 + 0x100 * n, 0, 48, 0, false⟩
/-- PANHEAP.auto_demote, Table 10-6 (R302). -/
def PANHEAP_auto_demote (n : Nat) : Fld := ⟨0x200b8 + 0x100 * n, 0, 1, 0, true⟩
/-- PANHEAP.auto_promote, Table 10-6 (R302). -/
def PANHEAP_auto_promote (n : Nat) : Fld := ⟨0x200b8 + 0x100 * n, 1, 1, 0, true⟩
/-- PANHEAP.dur_degraded, Table 10-6 (R302). -/
def PANHEAP_dur_degraded (n : Nat) : Fld := ⟨0x200b8 + 0x100 * n, 2, 1, 0, false⟩
/-- PANHEAP.dur_lost, Table 10-6 (R302). -/
def PANHEAP_dur_lost (n : Nat) : Fld := ⟨0x200b8 + 0x100 * n, 3, 1, 0, false⟩
/-- PANHEAP.dem_high, Table 10-6 (R302). -/
def PANHEAP_dem_high (n : Nat) : Fld := ⟨0x200b8 + 0x100 * n, 8, 24, 0, true⟩
/-- PANHEAP.dem_low, Table 10-6 (R302). -/
def PANHEAP_dem_low (n : Nat) : Fld := ⟨0x200b8 + 0x100 * n, 32, 24, 0, true⟩
/-- DURPOS.head, Table 10-6 (R302). -/
def DURPOS_head (n : Nat) : Fld := ⟨0x200c0 + 0x100 * n, 0, 32, 0, false⟩
/-- DURPOS.tail, Table 10-6 (R302). -/
def DURPOS_tail (n : Nat) : Fld := ⟨0x200c0 + 0x100 * n, 32, 32, 0, false⟩
/-- LENTSRC.lender_base, Table 02-16 (R54). -/
def LENTSRC_lender_base (n : Nat) : Fld := ⟨0x30000 + 0x20 * n, 0, 48, 0, false⟩
/-- LENTSRC.lender_node, Table 02-16 (R54). -/
def LENTSRC_lender_node (n : Nat) : Fld := ⟨0x30000 + 0x20 * n, 48, 12, 0, false⟩
/-- LENTSRC.lender_port, Table 02-16 (R54). -/
def LENTSRC_lender_port (n : Nat) : Fld := ⟨0x30000 + 0x20 * n, 60, 3, 0, false⟩
/-- LENTCTL.size_granules, Table 02-16 (R54). -/
def LENTCTL_size_granules (n : Nat) : Fld := ⟨0x30008 + 0x20 * n, 0, 23, 0, true⟩
/-- LENTCTL.lend_pan, Table 02-16 (R54). -/
def LENTCTL_lend_pan (n : Nat) : Fld := ⟨0x30008 + 0x20 * n, 24, 6, 0, true⟩
/-- LENTCTL.lend_any, Table 02-16 (R54). -/
def LENTCTL_lend_any (n : Nat) : Fld := ⟨0x30008 + 0x20 * n, 30, 1, 0, true⟩
/-- LENTCTL.enable, Table 02-16 (R54). -/
def LENTCTL_enable (n : Nat) : Fld := ⟨0x30008 + 0x20 * n, 31, 1, 0, true⟩
/-- LENTSTAT.state, Table 02-16 (R54). -/
def LENTSTAT_state (n : Nat) : Fld := ⟨0x30010 + 0x20 * n, 0, 3, 0, false⟩
/-- LENTSTAT.offered_granules, Table 02-16 (R54). -/
def LENTSTAT_offered_granules (n : Nat) : Fld := ⟨0x30010 + 0x20 * n, 3, 23, 0, false⟩
/-- LENTSTAT.owned_granules, Table 02-16 (R54). -/
def LENTSTAT_owned_granules (n : Nat) : Fld := ⟨0x30010 + 0x20 * n, 32, 23, 0, false⟩
/-- LENTSTAT.pages_dropped, Table 02-16 (R54). -/
def LENTSTAT_pages_dropped (n : Nat) : Fld := ⟨0x30010 + 0x20 * n, 63, 1, 0, false⟩
/-- ROUTE.order, Table 13-10 (R403). -/
def ROUTE_order (n : Nat) : Fld := ⟨0x40000 + 8 * n, 0, 3, 0, true⟩
/-- ROUTE.xdir, Table 13-10 (R403). -/
def ROUTE_xdir (n : Nat) : Fld := ⟨0x40000 + 8 * n, 3, 2, 0, true⟩
/-- ROUTE.ydir, Table 13-10 (R403). -/
def ROUTE_ydir (n : Nat) : Fld := ⟨0x40000 + 8 * n, 5, 2, 0, true⟩
/-- ROUTE.zdir, Table 13-10 (R403). -/
def ROUTE_zdir (n : Nat) : Fld := ⟨0x40000 + 8 * n, 7, 2, 0, true⟩
/-- ROUTE.down, Table 13-10 (R403). -/
def ROUTE_down (n : Nat) : Fld := ⟨0x40000 + 8 * n, 9, 1, 0, false⟩
/-- RTCSEC.seconds, Table 18-14 (R535). -/
def RTCSEC_seconds : Fld := ⟨0x100000, 0, 48, 0, false⟩
/-- RTCSEC.valid, Table 18-14 (R535). -/
def RTCSEC_valid : Fld := ⟨0x100000, 48, 1, 0, false⟩
/-- RTCSUB.ticks, Table 18-14 (R535). -/
def RTCSUB_ticks : Fld := ⟨0x100008, 0, 15, 0, false⟩
/-- RTCTRIM.trim, Table 18-14 (R535). -/
def RTCTRIM_trim : Fld := ⟨0x100010, 0, 8, 0, false⟩
/-- RTCSNAPSTAMP.stamp, Table 18-14 (R535). -/
def RTCSNAPSTAMP_stamp : Fld := ⟨0x100018, 0, 64, 0, false⟩
/-- RTCSNAPSEC.seconds, Table 18-14 (R535). -/
def RTCSNAPSEC_seconds : Fld := ⟨0x100020, 0, 48, 0, false⟩
/-- RTCSNAPSEC.ticks, Table 18-14 (R535). -/
def RTCSNAPSEC_ticks : Fld := ⟨0x100020, 48, 15, 0, false⟩
/-- ALARM.at_sec, Table 18-14 (R535). -/
def ALARM_at_sec (n : Nat) : Fld := ⟨0x100030 + 8 * n, 0, 48, 0, false⟩
/-- ALARM.en, Table 18-14 (R535). -/
def ALARM_en (n : Nat) : Fld := ⟨0x100030 + 8 * n, 48, 1, 0, false⟩
/-- ALARM.pin, Table 18-14 (R535). -/
def ALARM_pin (n : Nat) : Fld := ⟨0x100030 + 8 * n, 49, 1, 0, false⟩
/-- ALARMSTAT.fired, Table 18-14 (R535). -/
def ALARMSTAT_fired : Fld := ⟨0x100040, 0, 2, 0, false⟩
/-- ALARMSTAT.pin_asserted, Table 18-14 (R535). -/
def ALARMSTAT_pin_asserted : Fld := ⟨0x100040, 2, 1, 0, false⟩
/-- MISSED.alarm_sec, Table 18-14 (R535). -/
def MISSED_alarm_sec : Fld := ⟨0x100048, 0, 48, 0, false⟩
/-- MISSED.which, Table 18-14 (R535). -/
def MISSED_which : Fld := ⟨0x100048, 48, 1, 0, false⟩
/-- MISSED.count, Table 18-14 (R535). -/
def MISSED_count : Fld := ⟨0x100048, 50, 8, 0, false⟩
/-- MISSED.valid, Table 18-14 (R535). -/
def MISSED_valid : Fld := ⟨0x100048, 63, 1, 0, false⟩
/-- MISSEDLAST.last_sec, Table 18-14 (R535). -/
def MISSEDLAST_last_sec : Fld := ⟨0x100050, 0, 48, 0, false⟩
/-- TAMPERREC.rtc_sec, Table 18-14 (R535). -/
def TAMPERREC_rtc_sec : Fld := ⟨0x100058, 0, 48, 0, false⟩
/-- TAMPERREC.on_vbat, Table 18-14 (R535). -/
def TAMPERREC_on_vbat : Fld := ⟨0x100058, 48, 1, 0, false⟩
/-- TAMPERREC.key_wiped, Table 18-14 (R535). -/
def TAMPERREC_key_wiped : Fld := ⟨0x100058, 49, 1, 0, false⟩
/-- TAMPERREC.valid, Table 18-14 (R535). -/
def TAMPERREC_valid : Fld := ⟨0x100058, 63, 1, 0, false⟩
/-- TAMPERSTAMP.stamp, Table 18-14 (R535). -/
def TAMPERSTAMP_stamp : Fld := ⟨0x100060, 0, 64, 0, false⟩
/-- AONLOGPOS.producer, Table 18-14 (R535). -/
def AONLOGPOS_producer : Fld := ⟨0x100068, 0, 16, 0, false⟩
/-- AONLOGPOS.consumer, Table 18-14 (R535). -/
def AONLOGPOS_consumer : Fld := ⟨0x100068, 16, 16, 0, false⟩
/-- AONLOGPOS.copied, Table 18-14 (R535). -/
def AONLOGPOS_copied : Fld := ⟨0x100068, 32, 16, 0, false⟩
/-- AONLOGPOS.reserve, Table 18-14 (R535). -/
def AONLOGPOS_reserve : Fld := ⟨0x100068, 48, 1, 0, false⟩
/-- RMSTAT.cores_up, Table 14-12 (R433). -/
def RMSTAT_cores_up (n : Nat) : Fld := ⟨0x400000 + 0x80000 * n, 0, 4, 0, false⟩
/-- RMSTAT.buf0_valid, Table 14-12 (R433). -/
def RMSTAT_buf0_valid (n : Nat) : Fld := ⟨0x400000 + 0x80000 * n, 4, 1, 0, false⟩
/-- RMSTAT.buf1_valid, Table 14-12 (R433). -/
def RMSTAT_buf1_valid (n : Nat) : Fld := ⟨0x400000 + 0x80000 * n, 5, 1, 0, false⟩
/-- RMJRNL.producer, Table 14-12 (R433). -/
def RMJRNL_producer (n : Nat) : Fld := ⟨0x400008 + 0x80000 * n, 0, 14, 0, false⟩
/-- RMJRNL.snapped, Table 14-12 (R433). -/
def RMJRNL_snapped (n : Nat) : Fld := ⟨0x400008 + 0x80000 * n, 16, 14, 0, false⟩
/-- PWRSTAT.state, Table 16-10 (R490). -/
def PWRSTAT_state : Fld := ⟨0x200000, 0, 3, 0, false⟩
/-- PWRSTAT.point, Table 16-10 (R490). -/
def PWRSTAT_point : Fld := ⟨0x200000, 3, 3, 0, false⟩
/-- PWRSTAT.duty, Table 16-10 (R490). -/
def PWRSTAT_duty : Fld := ⟨0x200000, 6, 5, 16, false⟩
/-- PWRSTAT.boost, Table 16-10 (R490). -/
def PWRSTAT_boost : Fld := ⟨0x200000, 11, 1, 0, false⟩
/-- PWRSTAT.hl_power, Table 16-10 (R490). -/
def PWRSTAT_hl_power : Fld := ⟨0x200000, 12, 1, 0, false⟩
/-- PWRSTAT.hl_thermal, Table 16-10 (R490). -/
def PWRSTAT_hl_thermal : Fld := ⟨0x200000, 13, 1, 0, false⟩
/-- PWRSTAT.throttled, Table 16-10 (R490). -/
def PWRSTAT_throttled : Fld := ⟨0x200000, 14, 1, 0, false⟩
/-- PWRSTAT.mem_pct, Table 16-10 (R490). -/
def PWRSTAT_mem_pct : Fld := ⟨0x200000, 16, 7, 100, false⟩
/-- PWRSTAT.heap_pct, Table 16-10 (R490). -/
def PWRSTAT_heap_pct : Fld := ⟨0x200000, 23, 7, 100, false⟩
/-- PWRSTAT.cnt_ovf, Table 16-10 (R490). -/
def PWRSTAT_cnt_ovf : Fld := ⟨0x200000, 30, 4, 0, false⟩
/-- PWRCAP.p_cap_w, Table 16-10 (R490). -/
def PWRCAP_p_cap_w : Fld := ⟨0x200008, 0, 8, 150, true⟩
/-- PWRCAP.guard_w, Table 16-10 (R490). -/
def PWRCAP_guard_w : Fld := ⟨0x200008, 8, 8, 5, true⟩
/-- PWRCAP.min_duty, Table 16-10 (R490). -/
def PWRCAP_min_duty : Fld := ⟨0x200008, 16, 5, 4, true⟩
/-- PWRCAP.boost_en, Table 16-10 (R490). -/
def PWRCAP_boost_en : Fld := ⟨0x200008, 21, 1, 1, true⟩
/-- PWRCAP.mem_floor_pct, Table 16-10 (R490). -/
def PWRCAP_mem_floor_pct : Fld := ⟨0x200008, 24, 7, 50, true⟩
/-- PWRMCAP.mgmt_cap_w, Table 16-10 (R490). -/
def PWRMCAP_mgmt_cap_w : Fld := ⟨0x200010, 0, 8, 150, false⟩
/-- PWRPOL.gate_idle_us, Table 16-10 (R490). -/
def PWRPOL_gate_idle_us : Fld := ⟨0x200018, 0, 16, 50, true⟩
/-- PWRPOL.deep_idle_ms, Table 16-10 (R490). -/
def PWRPOL_deep_idle_ms : Fld := ⟨0x200018, 16, 16, 100, true⟩
/-- PWRPOL.deep_en, Table 16-10 (R490). -/
def PWRPOL_deep_en : Fld := ⟨0x200018, 32, 1, 1, true⟩
/-- PWRPOL.link_policy, Table 16-10 (R490). -/
def PWRPOL_link_policy : Fld := ⟨0x200018, 33, 2, 0, true⟩
/-- PWRPOL.t_target, Table 16-10 (R490). -/
def PWRPOL_t_target : Fld := ⟨0x200018, 36, 7, 95, true⟩
/-- PWRTOT.avg_mw, Table 16-10 (R490). -/
def PWRTOT_avg_mw : Fld := ⟨0x200020, 0, 20, 0, false⟩
/-- PWRTOT.peak_mw, Table 16-10 (R490). -/
def PWRTOT_peak_mw : Fld := ⟨0x200020, 20, 20, 0, false⟩
/-- PWRMEAS.mw, Table 16-10 (R490). -/
def PWRMEAS_mw (n : Nat) : Fld := ⟨0x200028 + 8 * n, 0, 20, 0, false⟩
/-- VCOREOP.code, Table 16-10 (R490). -/
def VCOREOP_code (n : Nat) : Fld := ⟨0x200068 + 8 * n, 0, 9, vcoreCode (0x200068 + 8 * n), false⟩
/-- VCOREOP.mhz, Table 16-10 (R490). -/
def VCOREOP_mhz (n : Nat) : Fld := ⟨0x200068 + 8 * n, 16, 11, vcoreMhz (0x200068 + 8 * n), false⟩
/-- HLFUSE.p_max_w, Table 16-10 (R490). -/
def HLFUSE_p_max_w : Fld := ⟨0x200090, 0, 8, 150, false⟩
/-- HLFUSE.f_rake_max_mhz, Table 16-10 (R490). -/
def HLFUSE_f_rake_max_mhz : Fld := ⟨0x200090, 8, 11, 1200, false⟩
/-- HLFUSE.vcore_max, Table 16-10 (R490). -/
def HLFUSE_vcore_max : Fld := ⟨0x200090, 19, 9, 340, false⟩
/-- HLFUSE.vcore_min, Table 16-10 (R490). -/
def HLFUSE_vcore_min : Fld := ⟨0x200090, 28, 9, 280, false⟩
/-- HLFUSE.t_throttle, Table 16-10 (R490). -/
def HLFUSE_t_throttle : Fld := ⟨0x200090, 37, 7, 100, false⟩
/-- HLFUSE.t_trip, Table 16-10 (R490). -/
def HLFUSE_t_trip : Fld := ⟨0x200090, 44, 7, 105, false⟩
/-- HLSTAT.power_active, Table 16-10 (R490). -/
def HLSTAT_power_active : Fld := ⟨0x200098, 0, 1, 0, false⟩
/-- HLSTAT.thermal_active, Table 16-10 (R490). -/
def HLSTAT_thermal_active : Fld := ⟨0x200098, 1, 1, 0, false⟩
/-- HLSTAT.trip_seen, Table 16-10 (R490). -/
def HLSTAT_trip_seen : Fld := ⟨0x200098, 2, 1, 0, false⟩
/-- HLSTAT.hot_sensor, Table 16-10 (R490). -/
def HLSTAT_hot_sensor : Fld := ⟨0x200098, 3, 6, 0, false⟩
/-- HLSTAT.hot_c, Table 16-10 (R490). -/
def HLSTAT_hot_c : Fld := ⟨0x200098, 9, 7, 0, false⟩
/-- CLKSTAT.base_lock, Table 16-10 (R490). -/
def CLKSTAT_base_lock : Fld := ⟨0x2000a0, 0, 1, 0, false⟩
/-- CLKSTAT.mid_lock, Table 16-10 (R490). -/
def CLKSTAT_mid_lock : Fld := ⟨0x2000a0, 1, 1, 0, false⟩
/-- CLKSTAT.rake_lock, Table 16-10 (R490). -/
def CLKSTAT_rake_lock : Fld := ⟨0x2000a0, 2, 16, 0, false⟩
/-- CLKSTAT.ddr_lock, Table 16-10 (R490). -/
def CLKSTAT_ddr_lock : Fld := ⟨0x2000a0, 18, 16, 0, false⟩
/-- CLKSTAT.stk_lock, Table 16-10 (R490). -/
def CLKSTAT_stk_lock : Fld := ⟨0x2000a0, 34, 2, 0, false⟩
/-- CLKSTAT.port_lock, Table 16-10 (R490). -/
def CLKSTAT_port_lock : Fld := ⟨0x2000a0, 36, 8, 0, false⟩
/-- CLKSTAT.pex_lock, Table 16-10 (R490). -/
def CLKSTAT_pex_lock : Fld := ⟨0x2000a0, 44, 1, 0, false⟩
/-- CLKSTAT.ref_present, Table 16-10 (R490). -/
def CLKSTAT_ref_present : Fld := ⟨0x2000a0, 45, 1, 0, false⟩
/-- STALLPWR.gated, Table 16-10 (R490). -/
def STALLPWR_gated : Fld := ⟨0x2000a8, 0, 16, 0, false⟩
/-- STALLPWR.waking, Table 16-10 (R490). -/
def STALLPWR_waking : Fld := ⟨0x2000a8, 16, 16, 0, false⟩
/-- STAMPCAL.cal, Table 16-10 (R490). -/
def STAMPCAL_cal : Fld := ⟨0x2000b0, 0, 8, 0, false⟩
/-- STAMPSTAT.on_vbat, Table 16-10 (R490). -/
def STAMPSTAT_on_vbat : Fld := ⟨0x2000b8, 0, 1, 0, false⟩
/-- STAMPSTAT.xtal_fail, Table 16-10 (R490). -/
def STAMPSTAT_xtal_fail : Fld := ⟨0x2000b8, 1, 1, 0, false⟩
/-- STAMPSTAT.restarted, Table 16-10 (R490). -/
def STAMPSTAT_restarted : Fld := ⟨0x2000b8, 2, 1, 0, false⟩
/-- GATECNT.count, Table 16-10 (R490). -/
def GATECNT_count : Fld := ⟨0x200100, 0, 48, 0, false⟩
/-- WAKECNT.count, Table 16-10 (R490). -/
def WAKECNT_count : Fld := ⟨0x200108, 0, 48, 0, false⟩
/-- THROTCNT.count, Table 16-10 (R490). -/
def THROTCNT_count : Fld := ⟨0x200110, 0, 48, 0, false⟩
/-- HLCNT.count, Table 16-10 (R490). -/
def HLCNT_count : Fld := ⟨0x200118, 0, 48, 0, false⟩
/-- RSTCMD.op, Table 17-12 (R509). -/
def RSTCMD_op : Fld := ⟨0x200200, 0, 2, 0, false⟩
/-- RSTCMD.key, Table 17-12 (R509). -/
def RSTCMD_key : Fld := ⟨0x200200, 8, 8, 0, false⟩
/-- RSTCMD.recovery, Table 17-12 (R509). -/
def RSTCMD_recovery : Fld := ⟨0x200200, 16, 1, 0, false⟩
/-- RSTCAUSE.cause, Table 17-12 (R509). -/
def RSTCAUSE_cause : Fld := ⟨0x200208, 0, 4, 0, false⟩
/-- RSTCAUSE.prst_stuck, Table 17-12 (R509). -/
def RSTCAUSE_prst_stuck : Fld := ⟨0x200208, 8, 1, 0, false⟩
/-- RSTCAUSE.recovery_req, Table 17-12 (R509). -/
def RSTCAUSE_recovery_req : Fld := ⟨0x200208, 9, 1, 0, false⟩
/-- BOOTSTAT.stage, Table 17-12 (R509). -/
def BOOTSTAT_stage : Fld := ⟨0x200210, 0, 4, 0, false⟩
/-- BOOTSTAT.halt_reason, Table 17-12 (R509). -/
def BOOTSTAT_halt_reason : Fld := ⟨0x200210, 4, 4, 0, false⟩
/-- BOOTSTAT.source, Table 17-12 (R509). -/
def BOOTSTAT_source : Fld := ⟨0x200210, 8, 2, 0, false⟩
/-- BOOTSTAT.slot, Table 17-12 (R509). -/
def BOOTSTAT_slot : Fld := ⟨0x200210, 10, 1, 0, false⟩
/-- BOOTSTAT.settings_unreadable, Table 17-12 (R509). -/
def BOOTSTAT_settings_unreadable : Fld := ⟨0x200210, 11, 1, 0, false⟩
/-- BOOTSTAT.unread_boots, Table 17-12 (R509). -/
def BOOTSTAT_unread_boots : Fld := ⟨0x200210, 12, 2, 0, false⟩
/-- BOOTSTAT.fallback, Table 17-12 (R509). -/
def BOOTSTAT_fallback : Fld := ⟨0x200210, 14, 1, 0, false⟩
/-- BOOTSTAT.b_fail, Table 17-12 (R509). -/
def BOOTSTAT_b_fail : Fld := ⟨0x200210, 15, 1, 0, false⟩
/-- BOOTSTAT.rail_order, Table 17-12 (R509). -/
def BOOTSTAT_rail_order : Fld := ⟨0x200210, 16, 1, 0, false⟩
/-- BOOTSTAT.cnt_ovf, Table 17-12 (R509). -/
def BOOTSTAT_cnt_ovf : Fld := ⟨0x200210, 17, 2, 0, false⟩
/-- BOOTSTAT.service_ms, Table 17-12 (R509). -/
def BOOTSTAT_service_ms : Fld := ⟨0x200210, 32, 32, 0, false⟩
/-- STRAPS.topo, Table 17-12 (R509). -/
def STRAPS_topo : Fld := ⟨0x200218, 0, 1, 0, false⟩
/-- STRAPS.boot, Table 17-12 (R509). -/
def STRAPS_boot : Fld := ⟨0x200218, 1, 2, 0, false⟩
/-- STRAPS.mgmt, Table 17-12 (R509). -/
def STRAPS_mgmt : Fld := ⟨0x200218, 3, 2, 0, false⟩
/-- IMGSLOT.state, Table 17-12 (R509). -/
def IMGSLOT_state (n : Nat) : Fld := ⟨0x200220 + 8 * n, 0, 3, 0, false⟩
/-- IMGSLOT.tries, Table 17-12 (R509). -/
def IMGSLOT_tries (n : Nat) : Fld := ⟨0x200220 + 8 * n, 3, 2, 0, false⟩
/-- IMGSLOT.svn, Table 17-12 (R509). -/
def IMGSLOT_svn (n : Nat) : Fld := ⟨0x200220 + 8 * n, 16, 16, 0, false⟩
/-- IMGSLOT.build, Table 17-12 (R509). -/
def IMGSLOT_build (n : Nat) : Fld := ⟨0x200220 + 8 * n, 32, 32, 0, false⟩
/-- SETSTAT.fmt_found, Table 17-12 (R509). -/
def SETSTAT_fmt_found : Fld := ⟨0x200230, 0, 16, 0, false⟩
/-- SETSTAT.fmt_own, Table 17-12 (R509). -/
def SETSTAT_fmt_own : Fld := ⟨0x200230, 16, 16, 0, false⟩
/-- SETSTAT.region, Table 17-12 (R509). -/
def SETSTAT_region : Fld := ⟨0x200230, 32, 1, 0, false⟩
/-- SETSTAT.empty, Table 17-12 (R509). -/
def SETSTAT_empty : Fld := ⟨0x200230, 33, 1, 0, false⟩
/-- SETSTAT.committed, Table 17-12 (R509). -/
def SETSTAT_committed : Fld := ⟨0x200230, 34, 1, 0, false⟩
/-- BOOTCTL.confirm_s, Table 17-12 (R509). -/
def BOOTCTL_confirm_s : Fld := ⟨0x200238, 0, 16, 600, false⟩
/-- BOOTCTL.net_tries, Table 17-12 (R509). -/
def BOOTCTL_net_tries : Fld := ⟨0x200238, 16, 4, 3, false⟩
/-- BOOTCTL.settings_commit, Table 17-12 (R509). -/
def BOOTCTL_settings_commit : Fld := ⟨0x200238, 20, 1, 0, false⟩
/-- WARMCNT.count, Table 17-12 (R509). -/
def WARMCNT_count : Fld := ⟨0x200240, 0, 48, 0, false⟩
/-- HARDCNT.count, Table 17-12 (R509). -/
def HARDCNT_count : Fld := ⟨0x200248, 0, 48, 0, false⟩
/-- TRPCTL.hb_timeout_us, Table 14-12 (R433). -/
def TRPCTL_hb_timeout_us : Fld := ⟨0x500000, 0, 16, 1000, false⟩
/-- TRPCTL.snap_ms, Table 14-12 (R433). -/
def TRPCTL_snap_ms : Fld := ⟨0x500000, 16, 16, 1000, false⟩
/-- TRPCTL.test, Table 14-12 (R433). -/
def TRPCTL_test : Fld := ⟨0x500000, 32, 1, 0, false⟩
/-- TRPCTL.yield, Table 14-12 (R433). -/
def TRPCTL_yield : Fld := ⟨0x500000, 33, 1, 0, false⟩
/-- TRPCTL.b_present, Table 14-12 (R433). -/
def TRPCTL_b_present : Fld := ⟨0x500000, 34, 1, Config.bPresent, false⟩
/-- TRPSTAT.holder, Table 14-12 (R433). -/
def TRPSTAT_holder : Fld := ⟨0x500008, 0, 1, 0, false⟩
/-- TRPSTAT.a_state, Table 14-12 (R433). -/
def TRPSTAT_a_state : Fld := ⟨0x500008, 1, 3, 1, false⟩
/-- TRPSTAT.b_state, Table 14-12 (R433). -/
def TRPSTAT_b_state : Fld := ⟨0x500008, 4, 3, 0, false⟩
/-- TRPSTAT.mode, Table 14-12 (R433). -/
def TRPSTAT_mode : Fld := ⟨0x500008, 7, 1, 1, false⟩
/-- TRPSTAT.recovering, Table 14-12 (R433). -/
def TRPSTAT_recovering : Fld := ⟨0x500008, 8, 1, 0, false⟩
/-- TRPSTAT.snap_seq, Table 14-12 (R433). -/
def TRPSTAT_snap_seq : Fld := ⟨0x500008, 32, 32, 0, false⟩
/-- CLAIMCUR.claim, Table 14-12 (R433). -/
def CLAIMCUR_claim : Fld := ⟨0x500010, 0, 32, 1, false⟩
/-- CLAIMCUR.holder, Table 14-12 (R433). -/
def CLAIMCUR_holder : Fld := ⟨0x500010, 32, 1, 0, false⟩
/-- CLAIMA.claim, Table 14-12 (R433). -/
def CLAIMA_claim : Fld := ⟨0x500018, 0, 32, 1, false⟩
/-- CLAIMB.claim, Table 14-12 (R433). -/
def CLAIMB_claim : Fld := ⟨0x500020, 0, 32, 0, false⟩
/-- EPOCHCUR.counter, Table 14-12 (R433). -/
def EPOCHCUR_counter : Fld := ⟨0x500028, 0, 16, 0x0001, false⟩
/-- EPOCHCUR.set, Table 14-12 (R433). -/
def EPOCHCUR_set : Fld := ⟨0x500028, 16, 1, 0, false⟩
/-- EPOCHSTAT.shadow, Table 14-12 (R433). -/
def EPOCHSTAT_shadow : Fld := ⟨0x500030, 0, 2, 2, false⟩
/-- EPOCHSTAT.dirty, Table 14-12 (R433). -/
def EPOCHSTAT_dirty : Fld := ⟨0x500030, 2, 1, 0, false⟩
/-- EPOCHINFL.current, Table 14-12 (R433). -/
def EPOCHINFL_current : Fld := ⟨0x500038, 0, 32, 0, false⟩
/-- EPOCHINFL.previous, Table 14-12 (R433). -/
def EPOCHINFL_previous : Fld := ⟨0x500038, 32, 32, 0, false⟩
/-- EPOCHCTL.drain_limit_ms, Table 14-12 (R433). -/
def EPOCHCTL_drain_limit_ms : Fld := ⟨0x500040, 0, 16, 100, false⟩
/-- COMMITSTAT.result, Table 14-12 (R433). -/
def COMMITSTAT_result : Fld := ⟨0x500048, 0, 2, 0, false⟩
/-- COMMITSTAT.block, Table 14-12 (R433). -/
def COMMITSTAT_block : Fld := ⟨0x500048, 8, 6, 0, false⟩
/-- COMMITSTAT.reason, Table 14-12 (R433). -/
def COMMITSTAT_reason : Fld := ⟨0x500048, 16, 8, 0, false⟩
/-- COMMITSTAT.epoch, Table 14-12 (R433). -/
def COMMITSTAT_epoch : Fld := ⟨0x500048, 32, 17, 0, false⟩
/-- RMCNTSTAT.cnt_ovf, Table 14-12 (R433). -/
def RMCNTSTAT_cnt_ovf : Fld := ⟨0x500050, 0, 2, 0, false⟩
/-- GATEREFCNT.count, Table 14-12 (R433). -/
def GATEREFCNT_count : Fld := ⟨0x500058, 0, 48, 0, false⟩
/-- TAKEOVERCNT.count, Table 14-12 (R433). -/
def TAKEOVERCNT_count : Fld := ⟨0x500060, 0, 48, 0, false⟩
/-- TWINCTL.enable, Table 14-12 (R433). -/
def TWINCTL_enable : Fld := ⟨0x500100, 0, 1, 0, true⟩
/-- TWINCTL.port, Table 14-12 (R433). -/
def TWINCTL_port : Fld := ⟨0x500100, 1, 3, 0, true⟩
/-- TWINCTL.auto_takeover, Table 14-12 (R433). -/
def TWINCTL_auto_takeover : Fld := ⟨0x500100, 4, 1, 0, true⟩
/-- TWINCTL.prefer_primary, Table 14-12 (R433). -/
def TWINCTL_prefer_primary : Fld := ⟨0x500100, 5, 1, 0, true⟩
/-- TWINCTL.twin_to_ms, Table 14-12 (R433). -/
def TWINCTL_twin_to_ms : Fld := ⟨0x500100, 8, 8, 5, true⟩
/-- TWINCTL.resync_gbps, Table 14-12 (R433). -/
def TWINCTL_resync_gbps : Fld := ⟨0x500100, 16, 8, 50, true⟩
/-- TWINMW.mw_base, Table 14-12 (R433). -/
def TWINMW_mw_base : Fld := ⟨0x500108, 0, 22, 0, true⟩
/-- TWINMW.mw_granules, Table 14-12 (R433). -/
def TWINMW_mw_granules : Fld := ⟨0x500108, 32, 22, 0, true⟩
/-- TWINSTAT.state, Table 14-12 (R433). -/
def TWINSTAT_state : Fld := ⟨0x500110, 0, 3, 0, false⟩
/-- TWINSTAT.role, Table 14-12 (R433). -/
def TWINSTAT_role : Fld := ⟨0x500110, 3, 1, 0, false⟩
/-- TWINSTAT.peer_node, Table 14-12 (R433). -/
def TWINSTAT_peer_node : Fld := ⟨0x500110, 4, 12, 0, false⟩
/-- TWINSTAT.peer_claim, Table 14-12 (R433). -/
def TWINSTAT_peer_claim : Fld := ⟨0x500110, 32, 32, 0, false⟩
/-- TWINCMD.op, Table 14-12 (R433). -/
def TWINCMD_op : Fld := ⟨0x500118, 0, 2, 0, false⟩
/-- STALLSVC.in_service, Table 14-12 (R433). -/
def STALLSVC_in_service : Fld := ⟨0x500200, 0, 16, 0xFFFF, false⟩
/-- STALLSVC.failed, Table 14-12 (R433). -/
def STALLSVC_failed : Fld := ⟨0x500200, 16, 16, 0, false⟩
/-- SLICEMAP.stall, Table 14-12 (R433). -/
def SLICEMAP_stall : Fld := ⟨0x500208, 0, 64, 0xFEDCBA9876543210, false⟩
/-- BLKCOMMIT.set, Table 14-12 (R433). -/
def BLKCOMMIT_set (n : Nat) : Fld := ⟨0x501000 + 8 * n, 0, 1, 0, false⟩
/-- BLKCOMMIT.dirty, Table 14-12 (R433). -/
def BLKCOMMIT_dirty (n : Nat) : Fld := ⟨0x501000 + 8 * n, 1, 1, 0, false⟩
/-- BLKCOMMIT.refuse, Table 14-12 (R433). -/
def BLKCOMMIT_refuse (n : Nat) : Fld := ⟨0x501000 + 8 * n, 8, 8, 0, false⟩
/-- PROGCTL.icache_en, Table 03-12 (R91). -/
def PROGCTL_icache_en (n : Nat) : Fld := ⟨0x1004000 + 0x100000 * n, 0, 1, 1, false⟩
/-- PROGCTL.prefetch_en, Table 03-12 (R91). -/
def PROGCTL_prefetch_en (n : Nat) : Fld := ⟨0x1004000 + 0x100000 * n, 1, 1, 1, false⟩
/-- PROGCTL.icache_flush, Table 03-12 (R91). -/
def PROGCTL_icache_flush (n : Nat) : Fld := ⟨0x1004000 + 0x100000 * n, 2, 1, 0, false⟩
/-- PROGSTAT.ichit_ovf, Table 03-12 (R91). -/
def PROGSTAT_ichit_ovf (n : Nat) : Fld := ⟨0x1004008 + 0x100000 * n, 0, 1, 0, false⟩
/-- PROGSTAT.icmiss_ovf, Table 03-12 (R91). -/
def PROGSTAT_icmiss_ovf (n : Nat) : Fld := ⟨0x1004008 + 0x100000 * n, 1, 1, 0, false⟩
/-- PROGSTAT.park_ovf, Table 03-12 (R91). -/
def PROGSTAT_park_ovf (n : Nat) : Fld := ⟨0x1004008 + 0x100000 * n, 2, 1, 0, false⟩
/-- PROGSTAT.abort_ovf, Table 03-12 (R91). -/
def PROGSTAT_abort_ovf (n : Nat) : Fld := ⟨0x1004008 + 0x100000 * n, 3, 1, 0, false⟩
/-- ICHITCNT.count, Table 03-11 (R92). -/
def ICHITCNT_count (n : Nat) : Fld := ⟨0x1004010 + 0x100000 * n, 0, 48, 0, false⟩
/-- ICMISSCNT.count, Table 03-11 (R92). -/
def ICMISSCNT_count (n : Nat) : Fld := ⟨0x1004018 + 0x100000 * n, 0, 48, 0, false⟩
/-- PARKCNT.count, Table 03-11 (R92). -/
def PARKCNT_count (n : Nat) : Fld := ⟨0x1004020 + 0x100000 * n, 0, 48, 0, false⟩
/-- ABORTCNT.count, Table 03-11 (R92). -/
def ABORTCNT_count (n : Nat) : Fld := ⟨0x1004028 + 0x100000 * n, 0, 48, 0, false⟩
/-- RAKESTAT.state, Table 03-12 (R91). -/
def RAKESTAT_state (n m : Nat) : Fld := ⟨0x1004100 + 0x100000 * n + 8 * m, 0, 2, 0, false⟩
/-- RAKESTAT.stopping, Table 03-12 (R91). -/
def RAKESTAT_stopping (n m : Nat) : Fld := ⟨0x1004100 + 0x100000 * n + 8 * m, 2, 1, 0, false⟩
/-- RAKESTAT.pan, Table 03-12 (R91). -/
def RAKESTAT_pan (n m : Nat) : Fld := ⟨0x1004100 + 0x100000 * n + 8 * m, 8, 6, 0, false⟩
/-- RAKESTAT.qid, Table 03-12 (R91). -/
def RAKESTAT_qid (n m : Nat) : Fld := ⟨0x1004100 + 0x100000 * n + 8 * m, 16, 19, 0, false⟩
/-- RAKESTAT.pc, Table 03-12 (R91). -/
def RAKESTAT_pc (n m : Nat) : Fld := ⟨0x1004100 + 0x100000 * n + 8 * m, 48, 16, 0, false⟩
/-- CMCTL.max_helpers, Table 05-13 (R174). -/
def CMCTL_max_helpers (n : Nat) : Fld := ⟨0x1005000 + 0x100000 * n, 0, 8, 0xFF, false⟩
/-- CMCTL.helpers_en, Table 05-13 (R174). -/
def CMCTL_helpers_en (n : Nat) : Fld := ⟨0x1005000 + 0x100000 * n, 8, 1, 1, false⟩
/-- CMSTAT.attn_ovf, Table 05-13 (R174). -/
def CMSTAT_attn_ovf (n : Nat) : Fld := ⟨0x1005008 + 0x100000 * n, 0, 1, 0, false⟩
/-- CMSTAT.chunk_ovf, Table 05-13 (R174). -/
def CMSTAT_chunk_ovf (n : Nat) : Fld := ⟨0x1005008 + 0x100000 * n, 1, 1, 0, false⟩
/-- CMSTAT.pass_ovf, Table 05-13 (R174). -/
def CMSTAT_pass_ovf (n : Nat) : Fld := ⟨0x1005008 + 0x100000 * n, 2, 1, 0, false⟩
/-- CMSTAT.nonfin_ovf, Table 05-13 (R174). -/
def CMSTAT_nonfin_ovf (n : Nat) : Fld := ⟨0x1005008 + 0x100000 * n, 3, 1, 0, false⟩
/-- CMSTAT.nohelp_ovf, Table 05-13 (R174). -/
def CMSTAT_nohelp_ovf (n : Nat) : Fld := ⟨0x1005008 + 0x100000 * n, 4, 1, 0, false⟩
/-- CMSTAT.byte_ovf, Table 05-13 (R174). -/
def CMSTAT_byte_ovf (n : Nat) : Fld := ⟨0x1005008 + 0x100000 * n, 5, 1, 0, false⟩
/-- CMATTNCNT.count, Table 05-14 (R175). -/
def CMATTNCNT_count (n : Nat) : Fld := ⟨0x1005010 + 0x100000 * n, 0, 48, 0, false⟩
/-- CMCHUNKCNT.count, Table 05-14 (R175). -/
def CMCHUNKCNT_count (n : Nat) : Fld := ⟨0x1005018 + 0x100000 * n, 0, 48, 0, false⟩
/-- CMPASSCNT.count, Table 05-14 (R175). -/
def CMPASSCNT_count (n : Nat) : Fld := ⟨0x1005020 + 0x100000 * n, 0, 48, 0, false⟩
/-- CMNONFINCNT.count, Table 05-14 (R175). -/
def CMNONFINCNT_count (n : Nat) : Fld := ⟨0x1005028 + 0x100000 * n, 0, 48, 0, false⟩
/-- CMNOHELPCNT.count, Table 05-14 (R175). -/
def CMNOHELPCNT_count (n : Nat) : Fld := ⟨0x1005030 + 0x100000 * n, 0, 48, 0, false⟩
/-- CMBYTECNT.count, Table 05-14 (R175). -/
def CMBYTECNT_count (n : Nat) : Fld := ⟨0x1005038 + 0x100000 * n, 0, 48, 0, false⟩
/-- QCMD.op, Table 06-8 (R203). -/
def QCMD_op (n : Nat) : Fld := ⟨0x1006000 + 0x100000 * n, 0, 4, 0, false⟩
/-- QCMD.qid, Table 06-8 (R203). -/
def QCMD_qid (n : Nat) : Fld := ⟨0x1006000 + 0x100000 * n, 4, 19, 0, false⟩
/-- QCMD.target, Table 06-8 (R203). -/
def QCMD_target (n : Nat) : Fld := ⟨0x1006000 + 0x100000 * n, 24, 4, 0, false⟩
/-- QCMDSTAT.busy, Table 06-8 (R203). -/
def QCMDSTAT_busy (n : Nat) : Fld := ⟨0x1006008 + 0x100000 * n, 0, 1, 0, false⟩
/-- QCMDSTAT.result, Table 06-8 (R203). -/
def QCMDSTAT_result (n : Nat) : Fld := ⟨0x1006008 + 0x100000 * n, 1, 3, 0, false⟩
/-- QCMDSTAT.lost, Table 06-8 (R203). -/
def QCMDSTAT_lost (n : Nat) : Fld := ⟨0x1006008 + 0x100000 * n, 4, 1, 0, false⟩
/-- SCHSTAT.db_ovf, Table 06-8 (R203). -/
def SCHSTAT_db_ovf (n : Nat) : Fld := ⟨0x1006010 + 0x100000 * n, 0, 1, 0, false⟩
/-- SCHSTAT.dbref_ovf, Table 06-8 (R203). -/
def SCHSTAT_dbref_ovf (n : Nat) : Fld := ⟨0x1006010 + 0x100000 * n, 1, 1, 0, false⟩
/-- SCHSTAT.disp_ovf, Table 06-8 (R203). -/
def SCHSTAT_disp_ovf (n : Nat) : Fld := ⟨0x1006010 + 0x100000 * n, 2, 1, 0, false⟩
/-- SCHSTAT.tbwait_ovf, Table 06-8 (R203). -/
def SCHSTAT_tbwait_ovf (n : Nat) : Fld := ⟨0x1006010 + 0x100000 * n, 3, 1, 0, false⟩
/-- DBCNT.count, Table 06-7 (R204). -/
def DBCNT_count (n : Nat) : Fld := ⟨0x1006018 + 0x100000 * n, 0, 48, 0, false⟩
/-- DBREFCNT.count, Table 06-7 (R204). -/
def DBREFCNT_count (n : Nat) : Fld := ⟨0x1006020 + 0x100000 * n, 0, 48, 0, false⟩
/-- DISPCNT.count, Table 06-7 (R204). -/
def DISPCNT_count (n : Nat) : Fld := ⟨0x1006028 + 0x100000 * n, 0, 48, 0, false⟩
/-- TBWAITCNT.count, Table 06-7 (R204). -/
def TBWAITCNT_count (n : Nat) : Fld := ⟨0x1006030 + 0x100000 * n, 0, 48, 0, false⟩
/-- QDESC0.body_base, Table 06-1 (R178). -/
def QDESC0_body_base (n : Nat) : Fld := ⟨0x1006040 + 0x100000 * n, 0, 52, 0, false⟩
/-- QDESC0.depth_log2, Table 06-1 (R178). -/
def QDESC0_depth_log2 (n : Nat) : Fld := ⟨0x1006040 + 0x100000 * n, 52, 4, 0, false⟩
/-- QDESC0.pan, Table 06-1 (R178). -/
def QDESC0_pan (n : Nat) : Fld := ⟨0x1006040 + 0x100000 * n, 56, 6, 0, false⟩
/-- QDESC1.cq_base, Table 06-1 (R178). -/
def QDESC1_cq_base (n : Nat) : Fld := ⟨0x1006048 + 0x100000 * n, 0, 52, 0, false⟩
/-- QDESC1.cq_log2, Table 06-1 (R178). -/
def QDESC1_cq_log2 (n : Nat) : Fld := ⟨0x1006048 + 0x100000 * n, 52, 5, 0, false⟩
/-- QDESC2.shadow_base, Table 06-1 (R178). -/
def QDESC2_shadow_base (n : Nat) : Fld := ⟨0x1006050 + 0x100000 * n, 0, 52, 0, false⟩
/-- QDESC2.shadow_pages, Table 06-1 (R178). -/
def QDESC2_shadow_pages (n : Nat) : Fld := ⟨0x1006050 + 0x100000 * n, 52, 12, 0, false⟩
/-- QDESC3.owner_node, Table 06-1 (R178). -/
def QDESC3_owner_node (n : Nat) : Fld := ⟨0x1006058 + 0x100000 * n, 0, 12, 0, false⟩
/-- QDESC3.owner_port, Table 06-1 (R178). -/
def QDESC3_owner_port (n : Nat) : Fld := ⟨0x1006058 + 0x100000 * n, 12, 3, 0, false⟩
/-- QDESC3.concurrency, Table 06-1 (R178). -/
def QDESC3_concurrency (n : Nat) : Fld := ⟨0x1006058 + 0x100000 * n, 16, 5, 0, false⟩
/-- QDESC3.run_limit_us, Table 06-1 (R178). -/
def QDESC3_run_limit_us (n : Nat) : Fld := ⟨0x1006058 + 0x100000 * n, 32, 32, 0, false⟩
/-- QDESC4.quantum, Table 06-1 (R178). -/
def QDESC4_quantum (n : Nat) : Fld := ⟨0x1006060 + 0x100000 * n, 0, 32, 0, false⟩
/-- QDESC5.tb_rate, Table 06-1 (R178). -/
def QDESC5_tb_rate (n : Nat) : Fld := ⟨0x1006068 + 0x100000 * n, 0, 32, 0, false⟩
/-- QDESC5.tb_burst, Table 06-1 (R178). -/
def QDESC5_tb_burst (n : Nat) : Fld := ⟨0x1006068 + 0x100000 * n, 32, 16, 0, false⟩
/-- QREAD0.head, Table 06-8 (R203). -/
def QREAD0_head (n : Nat) : Fld := ⟨0x1006080 + 0x100000 * n, 0, 32, 0, false⟩
/-- QREAD0.tail, Table 06-8 (R203). -/
def QREAD0_tail (n : Nat) : Fld := ⟨0x1006080 + 0x100000 * n, 32, 32, 0, false⟩
/-- QREAD1.admit, Table 06-8 (R203). -/
def QREAD1_admit (n : Nat) : Fld := ⟨0x1006088 + 0x100000 * n, 0, 32, 0, false⟩
/-- QREAD1.running, Table 06-8 (R203). -/
def QREAD1_running (n : Nat) : Fld := ⟨0x1006088 + 0x100000 * n, 32, 5, 0, false⟩
/-- QREAD1.state, Table 06-8 (R203). -/
def QREAD1_state (n : Nat) : Fld := ⟨0x1006088 + 0x100000 * n, 40, 2, 0, false⟩
/-- QREAD1.moving, Table 06-8 (R203). -/
def QREAD1_moving (n : Nat) : Fld := ⟨0x1006088 + 0x100000 * n, 42, 1, 0, false⟩
/-- QREAD1.home, Table 06-8 (R203). -/
def QREAD1_home (n : Nat) : Fld := ⟨0x1006088 + 0x100000 * n, 44, 4, 0, false⟩
/-- QREAD1.tokens, Table 06-8 (R203). -/
def QREAD1_tokens (n : Nat) : Fld := ⟨0x1006088 + 0x100000 * n, 48, 16, 0, false⟩
/-- QREAD2.deficit, Table 06-8 (R203). -/
def QREAD2_deficit (n : Nat) : Fld := ⟨0x1006090 + 0x100000 * n, 0, 40, 0, false⟩
/-- COHPRED.thresh, Table 11-10 (R333). -/
def COHPRED_thresh (n : Nat) : Fld := ⟨0x1008000 + 0x100000 * n, 0, 4, 8, false⟩
/-- COHPRED.inc_far, Table 11-10 (R333). -/
def COHPRED_inc_far (n : Nat) : Fld := ⟨0x1008000 + 0x100000 * n, 4, 4, 4, false⟩
/-- COHPRED.inc_near, Table 11-10 (R333). -/
def COHPRED_inc_near (n : Nat) : Fld := ⟨0x1008000 + 0x100000 * n, 8, 4, 1, false⟩
/-- COHPRED.dec, Table 11-10 (R333). -/
def COHPRED_dec (n : Nat) : Fld := ⟨0x1008000 + 0x100000 * n, 12, 4, 1, false⟩
/-- COHPRED.clear, Table 11-10 (R333). -/
def COHPRED_clear (n : Nat) : Fld := ⟨0x1008000 + 0x100000 * n, 16, 1, 0, false⟩
/-- COHSLSTAT.cnt_ovf, Table 11-10 (R333). -/
def COHSLSTAT_cnt_ovf (n : Nat) : Fld := ⟨0x1008008 + 0x100000 * n, 0, 8, 0, false⟩
/-- COHSLSTAT.resv_used, Table 11-10 (R333). -/
def COHSLSTAT_resv_used (n : Nat) : Fld := ⟨0x1008008 + 0x100000 * n, 8, 7, 0, false⟩
/-- DIRHITCNT.count, Table 11-10 (R333). -/
def DIRHITCNT_count (n : Nat) : Fld := ⟨0x1008100 + 0x100000 * n, 0, 48, 0, false⟩
/-- DIRMISSCNT.count, Table 11-10 (R333). -/
def DIRMISSCNT_count (n : Nat) : Fld := ⟨0x1008108 + 0x100000 * n, 0, 48, 0, false⟩
/-- DIREVICTCNT.count, Table 11-10 (R333). -/
def DIREVICTCNT_count (n : Nat) : Fld := ⟨0x1008110 + 0x100000 * n, 0, 48, 0, false⟩
/-- NAKCNT.count, Table 11-10 (R333). -/
def NAKCNT_count (n : Nat) : Fld := ⟨0x1008118 + 0x100000 * n, 0, 48, 0, false⟩
/-- RESVFULLCNT.count, Table 11-10 (R333). -/
def RESVFULLCNT_count (n : Nat) : Fld := ⟨0x1008120 + 0x100000 * n, 0, 48, 0, false⟩
/-- NEARCNT.count, Table 11-10 (R333). -/
def NEARCNT_count (n : Nat) : Fld := ⟨0x1008128 + 0x100000 * n, 0, 48, 0, false⟩
/-- FARCNT.count, Table 11-10 (R333). -/
def FARCNT_count (n : Nat) : Fld := ⟨0x1008130 + 0x100000 * n, 0, 48, 0, false⟩
/-- FWDCNT.count, Table 11-10 (R333). -/
def FWDCNT_count (n : Nat) : Fld := ⟨0x1008138 + 0x100000 * n, 0, 48, 0, false⟩
/-- PORTCTL.enable, Table 12-17 (R374). -/
def PORTCTL_enable (n : Nat) : Fld := ⟨0x2000000 + 0x80000 * n, 0, 1, 1, false⟩
/-- PORTCTL.pair, Table 12-17 (R374). -/
def PORTCTL_pair (n : Nat) : Fld := ⟨0x2000000 + 0x80000 * n, 1, 1, 0, true⟩
/-- PORTCTL.role, Table 12-17 (R374). -/
def PORTCTL_role (n : Nat) : Fld := ⟨0x2000000 + 0x80000 * n, 2, 2, 0, true⟩
/-- PORTCTL.enc_req, Table 12-17 (R374). -/
def PORTCTL_enc_req (n : Nat) : Fld := ⟨0x2000000 + 0x80000 * n, 4, 1, 0, true⟩
/-- PORTCTL.sluice_cmd_en, Table 12-17 (R374). -/
def PORTCTL_sluice_cmd_en (n : Nat) : Fld := ⟨0x2000000 + 0x80000 * n, 5, 1, 1, true⟩
/-- PORTCTL.narrow_ok, Table 12-17 (R374). -/
def PORTCTL_narrow_ok (n : Nat) : Fld := ⟨0x2000000 + 0x80000 * n, 6, 1, 1, false⟩
/-- PORTSTAT.state, Table 12-17 (R374). -/
def PORTSTAT_state (n : Nat) : Fld := ⟨0x2000008 + 0x80000 * n, 0, 3, 0, false⟩
/-- PORTSTAT.narrow, Table 12-17 (R374). -/
def PORTSTAT_narrow (n : Nat) : Fld := ⟨0x2000008 + 0x80000 * n, 3, 1, 0, false⟩
/-- PORTSTAT.half, Table 12-17 (R374). -/
def PORTSTAT_half (n : Nat) : Fld := ⟨0x2000008 + 0x80000 * n, 4, 1, 0, false⟩
/-- PORTSTAT.secured, Table 12-17 (R374). -/
def PORTSTAT_secured (n : Nat) : Fld := ⟨0x2000008 + 0x80000 * n, 5, 1, 0, false⟩
/-- PORTSTAT.peer_mismatch, Table 12-17 (R374). -/
def PORTSTAT_peer_mismatch (n : Nat) : Fld := ⟨0x2000008 + 0x80000 * n, 6, 1, 0, false⟩
/-- PORTSTAT.failover, Table 12-17 (R374). -/
def PORTSTAT_failover (n : Nat) : Fld := ⟨0x2000008 + 0x80000 * n, 7, 1, 0, false⟩
/-- PORTSTAT.stalled, Table 12-17 (R374). -/
def PORTSTAT_stalled (n : Nat) : Fld := ⟨0x2000008 + 0x80000 * n, 8, 1, 0, false⟩
/-- PORTSTAT.rx_xoff, Table 12-17 (R374). -/
def PORTSTAT_rx_xoff (n : Nat) : Fld := ⟨0x2000008 + 0x80000 * n, 9, 3, 0, false⟩
/-- PORTSTAT.tx_xoff, Table 12-17 (R374). -/
def PORTSTAT_tx_xoff (n : Nat) : Fld := ⟨0x2000008 + 0x80000 * n, 12, 3, 0, false⟩
/-- PORTSTAT.cnt_ovf, Table 12-17 (R374). -/
def PORTSTAT_cnt_ovf (n : Nat) : Fld := ⟨0x2000008 + 0x80000 * n, 16, 10, 0, false⟩
/-- PORTSTAT.laser_a_low, Table 12-17 (R374). -/
def PORTSTAT_laser_a_low (n : Nat) : Fld := ⟨0x2000008 + 0x80000 * n, 26, 1, 0, false⟩
/-- PORTSTAT.laser_b_low, Table 12-17 (R374). -/
def PORTSTAT_laser_b_low (n : Nat) : Fld := ⟨0x2000008 + 0x80000 * n, 27, 1, 0, false⟩
/-- PORTSTAT.sess, Table 12-17 (R374). -/
def PORTSTAT_sess (n : Nat) : Fld := ⟨0x2000008 + 0x80000 * n, 28, 4, 0, false⟩
/-- PORTCMD.retrain, Table 12-17 (R374). -/
def PORTCMD_retrain (n : Nat) : Fld := ⟨0x2000010 + 0x80000 * n, 0, 1, 0, false⟩
/-- PORTCMD.search_now, Table 12-17 (R374). -/
def PORTCMD_search_now (n : Nat) : Fld := ⟨0x2000010 + 0x80000 * n, 1, 1, 0, false⟩
/-- LINKTMR.replay_us, Table 12-17 (R374). -/
def LINKTMR_replay_us (n : Nat) : Fld := ⟨0x2000018 + 0x80000 * n, 0, 10, 8, false⟩
/-- LINKTMR.rr_hold_ns, Table 12-17 (R374). -/
def LINKTMR_rr_hold_ns (n : Nat) : Fld := ⟨0x2000018 + 0x80000 * n, 10, 14, 2000, false⟩
/-- LINKTMR.replay_limit, Table 12-17 (R374). -/
def LINKTMR_replay_limit (n : Nat) : Fld := ⟨0x2000018 + 0x80000 * n, 24, 4, 8, false⟩
/-- LINKTMR.retrain_us, Table 12-17 (R374). -/
def LINKTMR_retrain_us (n : Nat) : Fld := ⟨0x2000018 + 0x80000 * n, 28, 12, 1000, false⟩
/-- LINKPWR.lpi_en, Table 12-17 (R374). -/
def LINKPWR_lpi_en (n : Nat) : Fld := ⟨0x2000020 + 0x80000 * n, 0, 1, 1, false⟩
/-- LINKPWR.sleep_en, Table 12-17 (R374). -/
def LINKPWR_sleep_en (n : Nat) : Fld := ⟨0x2000020 + 0x80000 * n, 1, 1, 1, false⟩
/-- LINKPWR.lpi_idle_us, Table 12-17 (R374). -/
def LINKPWR_lpi_idle_us (n : Nat) : Fld := ⟨0x2000020 + 0x80000 * n, 2, 16, 20, false⟩
/-- LINKPWR.sleep_idle_ms, Table 12-17 (R374). -/
def LINKPWR_sleep_idle_ms (n : Nat) : Fld := ⟨0x2000020 + 0x80000 * n, 18, 16, 50, false⟩
/-- RXCAP.min, Table 12-17 (R374). -/
def RXCAP_min (n m : Nat) : Fld := ⟨0x2000028 + 0x80000 * n + 8 * m, 0, 13, 1024, true⟩
/-- RXCAP.max, Table 12-17 (R374). -/
def RXCAP_max (n m : Nat) : Fld := ⟨0x2000028 + 0x80000 * n + 8 * m, 16, 13, 4096, true⟩
/-- RXCAP.xon_hyst, Table 12-17 (R374). -/
def RXCAP_xon_hyst (n m : Nat) : Fld := ⟨0x2000028 + 0x80000 * n + 8 * m, 32, 8, 64, true⟩
/-- RXCAP.occ, Table 12-17 (R374). -/
def RXCAP_occ (n m : Nat) : Fld := ⟨0x2000028 + 0x80000 * n + 8 * m, 48, 13, 0, false⟩
/-- PEERINFO.node, Table 12-17 (R374). -/
def PEERINFO_node (n : Nat) : Fld := ⟨0x2000040 + 0x80000 * n, 0, 12, 0, false⟩
/-- PEERINFO.port, Table 12-17 (R374). -/
def PEERINFO_port (n : Nat) : Fld := ⟨0x2000040 + 0x80000 * n, 12, 3, 0, false⟩
/-- PEERINFO.valid, Table 12-17 (R374). -/
def PEERINFO_valid (n : Nat) : Fld := ⟨0x2000040 + 0x80000 * n, 15, 1, 0, false⟩
/-- PEERINFO.version, Table 12-17 (R374). -/
def PEERINFO_version (n : Nat) : Fld := ⟨0x2000040 + 0x80000 * n, 16, 8, 0, false⟩
/-- PEERINFO.flags, Table 12-17 (R374). -/
def PEERINFO_flags (n : Nat) : Fld := ⟨0x2000040 + 0x80000 * n, 24, 3, 0, false⟩
/-- PEERINFO.vc0_slots, Table 12-17 (R374). -/
def PEERINFO_vc0_slots (n : Nat) : Fld := ⟨0x2000040 + 0x80000 * n, 32, 16, 0, false⟩
/-- LINKRTT.rtt_ns, Table 12-17 (R374). -/
def LINKRTT_rtt_ns (n : Nat) : Fld := ⟨0x2000048 + 0x80000 * n, 0, 32, 0, false⟩
/-- LANESTAT.tx_ok, Table 12-17 (R374). -/
def LANESTAT_tx_ok (n : Nat) : Fld := ⟨0x2000050 + 0x80000 * n, 0, 8, 0, false⟩
/-- LANESTAT.rx_ok, Table 12-17 (R374). -/
def LANESTAT_rx_ok (n : Nat) : Fld := ⟨0x2000050 + 0x80000 * n, 8, 8, 0, false⟩
/-- LANESTAT.ser_ovf, Table 12-17 (R374). -/
def LANESTAT_ser_ovf (n : Nat) : Fld := ⟨0x2000050 + 0x80000 * n, 16, 8, 0, false⟩
/-- RETAINSTAT.unacked, Table 12-17 (R374). -/
def RETAINSTAT_unacked (n : Nat) : Fld := ⟨0x2000058 + 0x80000 * n, 0, 12, 0, false⟩
/-- RETAINSTAT.retained, Table 12-17 (R374). -/
def RETAINSTAT_retained (n : Nat) : Fld := ⟨0x2000058 + 0x80000 * n, 12, 17, 0, false⟩
/-- RETAINSTAT.spilled, Table 12-17 (R374). -/
def RETAINSTAT_spilled (n : Nat) : Fld := ⟨0x2000058 + 0x80000 * n, 29, 17, 0, false⟩
/-- SEARCHSTAT.attempts, Table 12-17 (R374). -/
def SEARCHSTAT_attempts (n : Nat) : Fld := ⟨0x2000060 + 0x80000 * n, 0, 32, 0, false⟩
/-- SEARCHSTAT.next_ms, Table 12-17 (R374). -/
def SEARCHSTAT_next_ms (n : Nat) : Fld := ⟨0x2000060 + 0x80000 * n, 32, 16, 0, false⟩
/-- FLITTXCNT.count, Table 12-17 (R374). -/
def FLITTXCNT_count (n : Nat) : Fld := ⟨0x2000100 + 0x80000 * n, 0, 48, 0, false⟩
/-- FLITRXCNT.count, Table 12-17 (R374). -/
def FLITRXCNT_count (n : Nat) : Fld := ⟨0x2000108 + 0x80000 * n, 0, 48, 0, false⟩
/-- CRCERRCNT.count, Table 12-17 (R374). -/
def CRCERRCNT_count (n : Nat) : Fld := ⟨0x2000110 + 0x80000 * n, 0, 48, 0, false⟩
/-- REPLAYCNT.count, Table 12-17 (R374). -/
def REPLAYCNT_count (n : Nat) : Fld := ⟨0x2000118 + 0x80000 * n, 0, 48, 0, false⟩
/-- RPLREQCNT.count, Table 12-17 (R374). -/
def RPLREQCNT_count (n : Nat) : Fld := ⟨0x2000120 + 0x80000 * n, 0, 48, 0, false⟩
/-- FECUNCCNT.count, Table 12-17 (R374). -/
def FECUNCCNT_count (n : Nat) : Fld := ⟨0x2000128 + 0x80000 * n, 0, 48, 0, false⟩
/-- SPILLCNT.count, Table 12-17 (R374). -/
def SPILLCNT_count (n : Nat) : Fld := ⟨0x2000130 + 0x80000 * n, 0, 48, 0, false⟩
/-- OVERRUNCNT.count, Table 12-17 (R374). -/
def OVERRUNCNT_count (n : Nat) : Fld := ⟨0x2000138 + 0x80000 * n, 0, 48, 0, false⟩
/-- TAGFAILCNT.count, Table 12-17 (R374). -/
def TAGFAILCNT_count (n : Nat) : Fld := ⟨0x2000140 + 0x80000 * n, 0, 48, 0, false⟩
/-- DOWNCNT.count, Table 12-17 (R374). -/
def DOWNCNT_count (n : Nat) : Fld := ⟨0x2000148 + 0x80000 * n, 0, 48, 0, false⟩
/-- LANESERCNT.count, Table 12-17 (R374). -/
def LANESERCNT_count (n m : Nat) : Fld := ⟨0x2000200 + 0x80000 * n + 8 * m, 0, 48, 0, false⟩
/-- SLRATE.cir, Table 06-11 (R204). -/
def SLRATE_cir (n m : Nat) : Fld := ⟨0x2040000 + 0x80000 * n + 0x40 * m, 0, 32, 0, true⟩
/-- SLRATE.pir, Table 06-11 (R204). -/
def SLRATE_pir (n m : Nat) : Fld := ⟨0x2040000 + 0x80000 * n + 0x40 * m, 32, 32, 0, true⟩
/-- SLBURST.cbs, Table 06-11 (R204). -/
def SLBURST_cbs (n m : Nat) : Fld := ⟨0x2040008 + 0x80000 * n + 0x40 * m, 0, 32, 0, true⟩
/-- SLBURST.pbs, Table 06-11 (R204). -/
def SLBURST_pbs (n m : Nat) : Fld := ⟨0x2040008 + 0x80000 * n + 0x40 * m, 32, 32, 0, true⟩
/-- SLPOL.en, Table 06-11 (R204). -/
def SLPOL_en (n m : Nat) : Fld := ⟨0x2040010 + 0x80000 * n + 0x40 * m, 0, 1, 0, true⟩
/-- SLPOL.aware, Table 06-11 (R204). -/
def SLPOL_aware (n m : Nat) : Fld := ⟨0x2040010 + 0x80000 * n + 0x40 * m, 1, 1, 0, true⟩
/-- SLPOL.yellow, Table 06-11 (R204). -/
def SLPOL_yellow (n m : Nat) : Fld := ⟨0x2040010 + 0x80000 * n + 0x40 * m, 2, 2, 0, true⟩
/-- SLPOL.red, Table 06-11 (R204). -/
def SLPOL_red (n m : Nat) : Fld := ⟨0x2040010 + 0x80000 * n + 0x40 * m, 4, 2, 0, true⟩
/-- SLSTAT.cmd, Table 06-11 (R204). -/
def SLSTAT_cmd (n m : Nat) : Fld := ⟨0x2040018 + 0x80000 * n + 0x40 * m, 0, 2, 0, false⟩
/-- SLSTAT.cmd_src, Table 06-11 (R204). -/
def SLSTAT_cmd_src (n m : Nat) : Fld := ⟨0x2040018 + 0x80000 * n + 0x40 * m, 2, 1, 0, false⟩
/-- SLSTAT.cnt_ovf, Table 06-11 (R204). -/
def SLSTAT_cnt_ovf (n m : Nat) : Fld := ⟨0x2040018 + 0x80000 * n + 0x40 * m, 3, 4, 0, false⟩
/-- SLSTAT.cmd_left_us, Table 06-11 (R204). -/
def SLSTAT_cmd_left_us (n m : Nat) : Fld := ⟨0x2040018 + 0x80000 * n + 0x40 * m, 32, 32, 0, false⟩
/-- SLGRNCNT.count, Table 06-11 (R204). -/
def SLGRNCNT_count (n m : Nat) : Fld := ⟨0x2040020 + 0x80000 * n + 0x40 * m, 0, 48, 0, false⟩
/-- SLYELCNT.count, Table 06-11 (R204). -/
def SLYELCNT_count (n m : Nat) : Fld := ⟨0x2040028 + 0x80000 * n + 0x40 * m, 0, 48, 0, false⟩
/-- SLREDCNT.count, Table 06-11 (R204). -/
def SLREDCNT_count (n m : Nat) : Fld := ⟨0x2040030 + 0x80000 * n + 0x40 * m, 0, 48, 0, false⟩
/-- SLDROPCNT.count, Table 06-11 (R204). -/
def SLDROPCNT_count (n m : Nat) : Fld := ⟨0x2040038 + 0x80000 * n + 0x40 * m, 0, 48, 0, false⟩
/-- MIDINFO.cols, Table 19-4 (R543). -/
def MIDINFO_cols : Fld := ⟨0x2400000, 0, 4, 6, false⟩
/-- MIDINFO.rows, Table 19-4 (R543). -/
def MIDINFO_rows : Fld := ⟨0x2400000, 4, 4, 6, false⟩
/-- MIDINFO.planes, Table 19-4 (R543). -/
def MIDINFO_planes : Fld := ⟨0x2400000, 8, 2, 2, false⟩
/-- MIDINFO.link_bits, Table 19-4 (R543). -/
def MIDINFO_link_bits : Fld := ⟨0x2400000, 12, 11, 1024, false⟩
/-- MIDINFO.mhz, Table 19-4 (R543). -/
def MIDINFO_mhz : Fld := ⟨0x2400000, 24, 16, 1600, false⟩
/-- MIDAGENT.kind, Table 19-4 (R543). -/
def MIDAGENT_kind (n : Nat) : Fld := ⟨0x2400100 + 8 * n, 0, 64, Config.midAgent (0x2400100 + 8 * n), false⟩
/-- DDRCFG.speed, Table 08-10 (R252). -/
def DDRCFG_speed (n : Nat) : Fld := ⟨0x2800000 + 0x20000 * n, 0, 1, 0, false⟩
/-- DDRCFG.dpc, Table 08-10 (R252). -/
def DDRCFG_dpc (n : Nat) : Fld := ⟨0x2800000 + 0x20000 * n, 1, 1, 0, false⟩
/-- DDRCFG.mrdimm, Table 08-10 (R252). -/
def DDRCFG_mrdimm (n : Nat) : Fld := ⟨0x2800000 + 0x20000 * n, 2, 1, 0, false⟩
/-- DDRCFG.density, Table 08-10 (R252). -/
def DDRCFG_density (n : Nat) : Fld := ⟨0x2800000 + 0x20000 * n, 3, 2, 0, false⟩
/-- DDRCFG.dies, Table 08-10 (R252). -/
def DDRCFG_dies (n : Nat) : Fld := ⟨0x2800000 + 0x20000 * n, 5, 2, 0, false⟩
/-- DDRCFG.ranks, Table 08-10 (R252). -/
def DDRCFG_ranks (n : Nat) : Fld := ⟨0x2800000 + 0x20000 * n, 7, 1, 0, false⟩
/-- DDRCFG.spare_en, Table 08-10 (R252). -/
def DDRCFG_spare_en (n : Nat) : Fld := ⟨0x2800000 + 0x20000 * n, 8, 1, 0, false⟩
/-- DDRCFG.ref_mode, Table 08-10 (R252). -/
def DDRCFG_ref_mode (n : Nat) : Fld := ⟨0x2800000 + 0x20000 * n, 9, 1, 0, false⟩
/-- DDRCFG.ref_postpone, Table 08-10 (R252). -/
def DDRCFG_ref_postpone (n : Nat) : Fld := ⟨0x2800000 + 0x20000 * n, 10, 3, 4, false⟩
/-- DDRGEO.data_ranks, Table 08-10 (R252). -/
def DDRGEO_data_ranks (n : Nat) : Fld := ⟨0x2800008 + 0x20000 * n, 0, 4, 0, false⟩
/-- DDRGEO.rows, Table 08-10 (R252). -/
def DDRGEO_rows (n : Nat) : Fld := ⟨0x2800008 + 0x20000 * n, 4, 18, 0, false⟩
/-- DDRGEO.chan_gib, Table 08-10 (R252). -/
def DDRGEO_chan_gib (n : Nat) : Fld := ⟨0x2800008 + 0x20000 * n, 22, 10, 0, false⟩
/-- DDRCMD.op, Table 08-10 (R252). -/
def DDRCMD_op (n : Nat) : Fld := ⟨0x2800010 + 0x20000 * n, 0, 4, 0, false⟩
/-- DDRCMD.slot, Table 08-10 (R252). -/
def DDRCMD_slot (n : Nat) : Fld := ⟨0x2800010 + 0x20000 * n, 4, 3, 0, false⟩
/-- DDRSTAT.state, Table 08-10 (R252). -/
def DDRSTAT_state (n : Nat) : Fld := ⟨0x2800018 + 0x20000 * n, 0, 3, 0, false⟩
/-- DDRSTAT.train_fail, Table 08-10 (R252). -/
def DDRSTAT_train_fail (n : Nat) : Fld := ⟨0x2800018 + 0x20000 * n, 3, 1, 0, false⟩
/-- DDRSTAT.spare_used, Table 08-10 (R252). -/
def DDRSTAT_spare_used (n : Nat) : Fld := ⟨0x2800018 + 0x20000 * n, 4, 1, 0, false⟩
/-- DDRSTAT.batching, Table 08-10 (R252). -/
def DDRSTAT_batching (n : Nat) : Fld := ⟨0x2800018 + 0x20000 * n, 5, 1, 0, false⟩
/-- DDRSTAT.paused, Table 08-10 (R252). -/
def DDRSTAT_paused (n : Nat) : Fld := ⟨0x2800018 + 0x20000 * n, 6, 1, 0, false⟩
/-- DDRSTAT.mig_slot, Table 08-10 (R252). -/
def DDRSTAT_mig_slot (n : Nat) : Fld := ⟨0x2800018 + 0x20000 * n, 7, 3, 0, false⟩
/-- DDRSTAT.cnt_ovf, Table 08-10 (R252). -/
def DDRSTAT_cnt_ovf (n : Nat) : Fld := ⟨0x2800018 + 0x20000 * n, 16, 8, 0, false⟩
/-- RANKMAP.slot, Table 08-10 (R252). -/
def RANKMAP_slot (n : Nat) : Fld := ⟨0x2800020 + 0x20000 * n, 0, 32, 0x76543210, false⟩
/-- DDRSPARE.spare_phys, Table 08-10 (R252). -/
def DDRSPARE_spare_phys (n : Nat) : Fld := ⟨0x2800028 + 0x20000 * n, 0, 4, 0, false⟩
/-- DDRSPARE.mig_ptr, Table 08-10 (R252). -/
def DDRSPARE_mig_ptr (n : Nat) : Fld := ⟨0x2800028 + 0x20000 * n, 8, 29, 0, false⟩
/-- DDRWM.wq_high, Table 08-10 (R252). -/
def DDRWM_wq_high (n : Nat) : Fld := ⟨0x2800030 + 0x20000 * n, 0, 8, 96, true⟩
/-- DDRWM.wq_low, Table 08-10 (R252). -/
def DDRWM_wq_low (n : Nat) : Fld := ⟨0x2800030 + 0x20000 * n, 8, 8, 32, true⟩
/-- DDRWM.wq_idle, Table 08-10 (R252). -/
def DDRWM_wq_idle (n : Nat) : Fld := ⟨0x2800030 + 0x20000 * n, 16, 8, 16, true⟩
/-- DDRWM.idle_ns, Table 08-10 (R252). -/
def DDRWM_idle_ns (n : Nat) : Fld := ⟨0x2800030 + 0x20000 * n, 24, 16, 500, true⟩
/-- DDRLAT.target, Table 08-10 (R252). -/
def DDRLAT_target (n m : Nat) : Fld := ⟨0x2800038 + 0x20000 * n + 8 * m, 0, 64, ddrLat (0x2800038 + 0x20000 * n + 8 * m), true⟩
/-- DDRURG.thr1, Table 08-10 (R252). -/
def DDRURG_thr1 (n : Nat) : Fld := ⟨0x2800058 + 0x20000 * n, 0, 8, 128, true⟩
/-- DDRURG.thr2, Table 08-10 (R252). -/
def DDRURG_thr2 (n : Nat) : Fld := ⟨0x2800058 + 0x20000 * n, 8, 8, 32, true⟩
/-- DDRTRN.en, Table 08-10 (R252). -/
def DDRTRN_en (n : Nat) : Fld := ⟨0x2800060 + 0x20000 * n, 0, 1, 1, false⟩
/-- DDRTRN.period_ms, Table 08-10 (R252). -/
def DDRTRN_period_ms (n : Nat) : Fld := ⟨0x2800060 + 0x20000 * n, 8, 8, 20, false⟩
/-- DDRTRN.pause_ns, Table 08-10 (R252). -/
def DDRTRN_pause_ns (n : Nat) : Fld := ⟨0x2800060 + 0x20000 * n, 16, 16, 2000, false⟩
/-- DDRTRNLAST.stamp, Table 08-10 (R252). -/
def DDRTRNLAST_stamp (n : Nat) : Fld := ⟨0x2800068 + 0x20000 * n, 0, 64, 0, false⟩
/-- DDRRDCNT.count, Table 08-11 (R252). -/
def DDRRDCNT_count (n : Nat) : Fld := ⟨0x2800100 + 0x20000 * n, 0, 48, 0, false⟩
/-- DDRWRCNT.count, Table 08-11 (R252). -/
def DDRWRCNT_count (n : Nat) : Fld := ⟨0x2800108 + 0x20000 * n, 0, 48, 0, false⟩
/-- DDRMRGCNT.count, Table 08-11 (R252). -/
def DDRMRGCNT_count (n : Nat) : Fld := ⟨0x2800110 + 0x20000 * n, 0, 48, 0, false⟩
/-- DDRFWDCNT.count, Table 08-11 (R252). -/
def DDRFWDCNT_count (n : Nat) : Fld := ⟨0x2800118 + 0x20000 * n, 0, 48, 0, false⟩
/-- DDRBATCHCNT.count, Table 08-11 (R252). -/
def DDRBATCHCNT_count (n : Nat) : Fld := ⟨0x2800120 + 0x20000 * n, 0, 48, 0, false⟩
/-- DDROVERDUECNT.count, Table 08-11 (R252). -/
def DDROVERDUECNT_count (n : Nat) : Fld := ⟨0x2800128 + 0x20000 * n, 0, 48, 0, false⟩
/-- DDRTRNCNT.count, Table 08-11 (R252). -/
def DDRTRNCNT_count (n : Nat) : Fld := ⟨0x2800130 + 0x20000 * n, 0, 48, 0, false⟩
/-- DDRMIGCNT.count, Table 08-11 (R252). -/
def DDRMIGCNT_count (n : Nat) : Fld := ⟨0x2800138 + 0x20000 * n, 0, 48, 0, false⟩
/-- ECCCTL.patrol_en, Table 09-10 (R279). -/
def ECCCTL_patrol_en (st : Nat) : Fld := ⟨eccOff st 0, 0, 1, 1, false⟩
/-- ECCCTL.patrol_hours, Table 09-10 (R279). -/
def ECCCTL_patrol_hours (st : Nat) : Fld := ⟨eccOff st 0, 8, 8, patrolHours (eccOff st 0), false⟩
/-- ECCERASE.erase, Table 09-10 (R279). -/
def ECCERASE_erase (n m : Nat) : Fld := ⟨0x2800408 + 0x20000 * n + 8 * m, 0, 40, 0, false⟩
/-- ECCSTAT.cnt_ovf, Table 09-10 (R279). -/
def ECCSTAT_cnt_ovf (st : Nat) : Fld := ⟨eccOff st 1, 0, 4, 0, false⟩
/-- PATROLPOS.line, Table 09-10 (R279). -/
def PATROLPOS_line (st : Nat) : Fld := ⟨eccOff st 2, 0, 32, 0, false⟩
/-- PATROLLAST.stamp, Table 09-10 (R279). -/
def PATROLLAST_stamp (st : Nat) : Fld := ⟨eccOff st 3, 0, 64, 0, false⟩
/-- ECCCECNT.count, Table 09-10 (R279). -/
def ECCCECNT_count (st : Nat) : Fld := ⟨eccOff st 4, 0, 48, 0, false⟩
/-- ECCUECNT.count, Table 09-10 (R279). -/
def ECCUECNT_count (st : Nat) : Fld := ⟨eccOff st 5, 0, 48, 0, false⟩
/-- ECCADDRCNT.count, Table 09-10 (R279). -/
def ECCADDRCNT_count (st : Nat) : Fld := ⟨eccOff st 6, 0, 48, 0, false⟩
/-- ECCPSNCNT.count, Table 09-10 (R279). -/
def ECCPSNCNT_count (st : Nat) : Fld := ⟨eccOff st 7, 0, 48, 0, false⟩
/-- STKCFG.fill_en, Table 08-13 (R253). -/
def STKCFG_fill_en : Fld := ⟨0x2a00000, 0, 1, 1, true⟩
/-- STKCFG.ref_postpone, Table 08-13 (R253). -/
def STKCFG_ref_postpone : Fld := ⟨0x2a00000, 1, 3, 4, true⟩
/-- STKSTAT.sweeping, Table 08-13 (R253). -/
def STKSTAT_sweeping : Fld := ⟨0x2a00008, 0, 1, 0, false⟩
/-- STKSTAT.cnt_ovf, Table 08-13 (R253). -/
def STKSTAT_cnt_ovf : Fld := ⟨0x2a00008, 8, 8, 0, false⟩
/-- STKWM.wq_high, Table 08-13 (R253). -/
def STKWM_wq_high : Fld := ⟨0x2a00010, 0, 8, 24, true⟩
/-- STKWM.wq_low, Table 08-13 (R253). -/
def STKWM_wq_low : Fld := ⟨0x2a00010, 8, 8, 8, true⟩
/-- STKWM.wq_idle, Table 08-13 (R253). -/
def STKWM_wq_idle : Fld := ⟨0x2a00010, 16, 8, 4, true⟩
/-- STKWM.idle_ns, Table 08-13 (R253). -/
def STKWM_idle_ns : Fld := ⟨0x2a00010, 24, 16, 500, true⟩
/-- STKLAT.target, Table 08-13 (R253). -/
def STKLAT_target (n : Nat) : Fld := ⟨0x2a00018 + 8 * n, 0, 64, stkLat (0x2a00018 + 8 * n), true⟩
/-- STKURG.thr1, Table 08-13 (R253). -/
def STKURG_thr1 : Fld := ⟨0x2a00038, 0, 8, 128, true⟩
/-- STKURG.thr2, Table 08-13 (R253). -/
def STKURG_thr2 : Fld := ⟨0x2a00038, 8, 8, 32, true⟩
/-- STKTRNSEL.pc, Table 08-13 (R253). -/
def STKTRNSEL_pc : Fld := ⟨0x2a00100, 0, 6, 0, false⟩
/-- STKTRNSEL.hold, Table 08-13 (R253). -/
def STKTRNSEL_hold : Fld := ⟨0x2a00100, 6, 1, 0, false⟩
/-- STKTRNSEL.mode, Table 08-13 (R253). -/
def STKTRNSEL_mode : Fld := ⟨0x2a00100, 7, 1, 0, false⟩
/-- STKTRNSEL.bank, Table 08-13 (R253). -/
def STKTRNSEL_bank : Fld := ⟨0x2a00100, 8, 4, 0, false⟩
/-- STKTRNSEL.row, Table 08-13 (R253). -/
def STKTRNSEL_row : Fld := ⟨0x2a00100, 12, 15, 0, false⟩
/-- STKTRNSEL.bursts, Table 08-13 (R253). -/
def STKTRNSEL_bursts : Fld := ⟨0x2a00100, 27, 9, 0, false⟩
/-- STKTRNPAT.pattern, Table 08-13 (R253). -/
def STKTRNPAT_pattern : Fld := ⟨0x2a00108, 0, 64, 0, false⟩
/-- STKTRNCMD.run, Table 08-13 (R253). -/
def STKTRNCMD_run : Fld := ⟨0x2a00110, 0, 1, 0, false⟩
/-- STKTRNCMD.clear, Table 08-13 (R253). -/
def STKTRNCMD_clear : Fld := ⟨0x2a00110, 1, 1, 0, false⟩
/-- STKTRNSTAT.busy, Table 08-13 (R253). -/
def STKTRNSTAT_busy : Fld := ⟨0x2a00118, 0, 1, 0, false⟩
/-- STKTRNSTAT.error, Table 08-13 (R253). -/
def STKTRNSTAT_error : Fld := ⟨0x2a00118, 1, 1, 0, false⟩
/-- STKTRNERR.errs, Table 08-13 (R253). -/
def STKTRNERR_errs (n : Nat) : Fld := ⟨0x2a00120 + 8 * n, 0, 64, 0, false⟩
/-- STKHITCNT.count, Table 08-14 (R253). -/
def STKHITCNT_count : Fld := ⟨0x2a00200, 0, 48, 0, false⟩
/-- STKMISSCNT.count, Table 08-14 (R253). -/
def STKMISSCNT_count : Fld := ⟨0x2a00208, 0, 48, 0, false⟩
/-- STKFILLCNT.count, Table 08-14 (R253). -/
def STKFILLCNT_count : Fld := ⟨0x2a00210, 0, 48, 0, false⟩
/-- STKWBCNT.count, Table 08-14 (R253). -/
def STKWBCNT_count : Fld := ⟨0x2a00218, 0, 48, 0, false⟩
/-- STKBYPCNT.count, Table 08-14 (R253). -/
def STKBYPCNT_count : Fld := ⟨0x2a00220, 0, 48, 0, false⟩
/-- STKRDCNT.count, Table 08-14 (R253). -/
def STKRDCNT_count : Fld := ⟨0x2a00228, 0, 48, 0, false⟩
/-- STKWRCNT.count, Table 08-14 (R253). -/
def STKWRCNT_count : Fld := ⟨0x2a00230, 0, 48, 0, false⟩
/-- STKOVERDUECNT.count, Table 08-14 (R253). -/
def STKOVERDUECNT_count : Fld := ⟨0x2a00238, 0, 48, 0, false⟩
/-- STKPANLINES.lines, Table 08-13 (R253). -/
def STKPANLINES_lines (n : Nat) : Fld := ⟨0x2a01000 + 8 * n, 0, 32, 0, false⟩
/-- STKPANLINES.cap, Table 08-13 (R253). -/
def STKPANLINES_cap (n : Nat) : Fld := ⟨0x2a01000 + 8 * n, 32, 32, 0, false⟩
/-- STKCHSTAT.hold, Table 08-13 (R253). -/
def STKCHSTAT_hold (n : Nat) : Fld := ⟨0x2a10000 + 0x1000 * n, 0, 2, 0, false⟩
/-- STKCHSTAT.batching, Table 08-13 (R253). -/
def STKCHSTAT_batching (n : Nat) : Fld := ⟨0x2a10000 + 0x1000 * n, 2, 1, 0, false⟩
/-- STKDLY.dly, Table 08-13 (R253). -/
def STKDLY_dly (n m k : Nat) : Fld := ⟨0x2a10100 + 0x1000 * n + 0x48 * m + 8 * k, 0, 64, Config.trainedDelay (0x2a10100 + 0x1000 * n + 0x48 * m + 8 * k), false⟩
/-- HEAPCFG.en_mask, Table 10-6 (R302). -/
def HEAPCFG_en_mask : Fld := ⟨0x2c00000, 0, 8, 0xFF, false⟩
/-- HEAPCFG.plp_mask, Table 10-6 (R302). -/
def HEAPCFG_plp_mask : Fld := ⟨0x2c00000, 8, 8, 0, true⟩
/-- HEAPCFG.flush_gbps, Table 10-6 (R302). -/
def HEAPCFG_flush_gbps : Fld := ⟨0x2c00000, 16, 8, 0, true⟩
/-- HEAPCFG.cmd_timeout_ms, Table 10-6 (R302). -/
def HEAPCFG_cmd_timeout_ms : Fld := ⟨0x2c00000, 24, 16, 100, false⟩
/-- HEAPSTAT.state, Table 10-6 (R302). -/
def HEAPSTAT_state : Fld := ⟨0x2c00008, 0, 2, 0, false⟩
/-- HEAPSTAT.ndrives, Table 10-6 (R302). -/
def HEAPSTAT_ndrives : Fld := ⟨0x2c00008, 2, 4, 0, false⟩
/-- HEAPSTAT.log_limit, Table 10-6 (R302). -/
def HEAPSTAT_log_limit : Fld := ⟨0x2c00008, 6, 11, 0, false⟩
/-- HEAPSTAT.cnt_ovf, Table 10-6 (R302). -/
def HEAPSTAT_cnt_ovf : Fld := ⟨0x2c00008, 17, 6, 0, false⟩
/-- HEAPCMD.op, Table 10-6 (R302). -/
def HEAPCMD_op : Fld := ⟨0x2c00010, 0, 4, 0, false⟩
/-- DURCTL.ckpt_ms, Table 10-6 (R302). -/
def DURCTL_ckpt_ms : Fld := ⟨0x2c00018, 0, 16, 100, true⟩
/-- DURCTL.close_ns, Table 10-6 (R302). -/
def DURCTL_close_ns : Fld := ⟨0x2c00018, 16, 16, 2000, true⟩
/-- DURCTL.ckpt_pct, Table 10-6 (R302). -/
def DURCTL_ckpt_pct : Fld := ⟨0x2c00018, 32, 7, 50, true⟩
/-- DURSTAT.last_flush, Table 10-6 (R302). -/
def DURSTAT_last_flush : Fld := ⟨0x2c00020, 0, 2, 0, false⟩
/-- DURSTAT.recovering, Table 10-6 (R302). -/
def DURSTAT_recovering : Fld := ⟨0x2c00020, 2, 1, 0, false⟩
/-- HEAPPORT.state, Table 10-6 (R302). -/
def HEAPPORT_state (n : Nat) : Fld := ⟨0x2c00100 + 8 * n, 0, 3, 0, false⟩
/-- HEAPPORT.index, Table 10-6 (R302). -/
def HEAPPORT_index (n : Nat) : Fld := ⟨0x2c00100 + 8 * n, 3, 3, 0, false⟩
/-- HEAPPORT.pi, Table 10-6 (R302). -/
def HEAPPORT_pi (n : Nat) : Fld := ⟨0x2c00100 + 8 * n, 6, 2, 0, false⟩
/-- HEAPPORT.rate, Table 10-6 (R302). -/
def HEAPPORT_rate (n : Nat) : Fld := ⟨0x2c00100 + 8 * n, 8, 3, 0, false⟩
/-- HEAPPORT.nsid, Table 10-6 (R302). -/
def HEAPPORT_nsid (n : Nat) : Fld := ⟨0x2c00100 + 8 * n, 11, 21, 1, false⟩
/-- HEAPPORT.cap, Table 10-6 (R302). -/
def HEAPPORT_cap (n : Nat) : Fld := ⟨0x2c00100 + 8 * n, 32, 32, 0, false⟩
/-- HEAPRDCNT.count, Table 10-7 (R302). -/
def HEAPRDCNT_count : Fld := ⟨0x2c00200, 0, 48, 0, false⟩
/-- HEAPWRCNT.count, Table 10-7 (R302). -/
def HEAPWRCNT_count : Fld := ⟨0x2c00208, 0, 48, 0, false⟩
/-- HEAPERRCNT.count, Table 10-7 (R302). -/
def HEAPERRCNT_count : Fld := ⟨0x2c00210, 0, 48, 0, false⟩
/-- DURLINECNT.count, Table 10-7 (R302). -/
def DURLINECNT_count : Fld := ⟨0x2c00218, 0, 48, 0, false⟩
/-- DURCKPTCNT.count, Table 10-7 (R302). -/
def DURCKPTCNT_count : Fld := ⟨0x2c00220, 0, 48, 0, false⟩
/-- DURFULLCNT.count, Table 10-7 (R302). -/
def DURFULLCNT_count : Fld := ⟨0x2c00228, 0, 48, 0, false⟩
/-- SECSTAT.state, Table 15-16 (R466). -/
def SECSTAT_state : Fld := ⟨0x3000000, 0, 3, 0, false⟩
/-- SECSTAT.tamper_latched, Table 15-16 (R466). -/
def SECSTAT_tamper_latched : Fld := ⟨0x3000000, 3, 1, 0, false⟩
/-- SECSTAT.debug_unlocked, Table 15-16 (R466). -/
def SECSTAT_debug_unlocked : Fld := ⟨0x3000000, 4, 1, 0, false⟩
/-- SECSTAT.owner_set, Table 15-16 (R466). -/
def SECSTAT_owner_set : Fld := ⟨0x3000000, 5, 1, 0, false⟩
/-- SECSTAT.pres_window, Table 15-16 (R466). -/
def SECSTAT_pres_window : Fld := ⟨0x3000000, 6, 1, 0, false⟩
/-- SECSTAT.pres_stuck, Table 15-16 (R466). -/
def SECSTAT_pres_stuck : Fld := ⟨0x3000000, 7, 1, 0, false⟩
/-- SECSTAT.ownclr, Table 15-16 (R466). -/
def SECSTAT_ownclr : Fld := ⟨0x3000000, 8, 1, 0, false⟩
/-- SECSTAT.seal_valid, Table 15-16 (R466). -/
def SECSTAT_seal_valid : Fld := ⟨0x3000000, 9, 1, 1, false⟩
/-- SECPOLICY.policy, Table 15-16 (R466). -/
def SECPOLICY_policy : Fld := ⟨0x3000008, 0, 64, 0, false⟩
/-- SECPOLDIG.digest, Table 15-16 (R466). -/
def SECPOLDIG_digest (n : Nat) : Fld := ⟨0x3000010 + 8 * n, 0, 64, 0, false⟩
/-- TENANTDIG.digest, Table 15-16 (R466). -/
def TENANTDIG_digest (n : Nat) : Fld := ⟨0x3000040 + 8 * n, 0, 64, 0, false⟩
/-- SECVER.floor, Table 15-16 (R466). -/
def SECVER_floor : Fld := ⟨0x3000070, 0, 16, 0, false⟩
/-- SECVER.running, Table 15-16 (R466). -/
def SECVER_running : Fld := ⟨0x3000070, 16, 16, 0, false⟩
/-- SECVER.rollback_pending, Table 15-16 (R466). -/
def SECVER_rollback_pending : Fld := ⟨0x3000070, 32, 1, 0, false⟩
/-- PRESSTAT.window_s, Table 15-16 (R466). -/
def PRESSTAT_window_s : Fld := ⟨0x3000078, 0, 6, 0, false⟩
/-- PRESSTAT.long_press, Table 15-16 (R466). -/
def PRESSTAT_long_press : Fld := ⟨0x3000078, 6, 1, 0, false⟩
/-- PRESSTAT.presses, Table 15-16 (R466). -/
def PRESSTAT_presses : Fld := ⟨0x3000078, 16, 16, 0, false⟩
/-- SWITCHSTAT.zeroing, Table 15-16 (R466). -/
def SWITCHSTAT_zeroing : Fld := ⟨0x3000080, 0, 1, 0, false⟩
/-- SWITCHSTAT.full_zero, Table 15-16 (R466). -/
def SWITCHSTAT_full_zero : Fld := ⟨0x3000080, 1, 1, 0, false⟩
/-- SWITCHSTAT.last_us, Table 15-16 (R466). -/
def SWITCHSTAT_last_us : Fld := ⟨0x3000080, 32, 32, 0, false⟩
/-- PANKEY.valid, Table 15-16 (R466). -/
def PANKEY_valid (n : Nat) : Fld := ⟨0x3000100 + 8 * n, 0, 1, 0, false⟩
/-- PANKEY.source, Table 15-16 (R466). -/
def PANKEY_source (n : Nat) : Fld := ⟨0x3000100 + 8 * n, 1, 2, 0, false⟩
/-- PANKEY.key_id, Table 15-16 (R466). -/
def PANKEY_key_id (n : Nat) : Fld := ⟨0x3000100 + 8 * n, 32, 32, 0, false⟩
/-- PORTSEC.spdm, Table 15-16 (R466). -/
def PORTSEC_spdm (n : Nat) : Fld := ⟨0x3000300 + 8 * n, 0, 2, 0, false⟩
/-- PORTSEC.secured, Table 15-16 (R466). -/
def PORTSEC_secured (n : Nat) : Fld := ⟨0x3000300 + 8 * n, 2, 1, 0, false⟩
/-- PORTSEC.domain, Table 15-16 (R466). -/
def PORTSEC_domain (n : Nat) : Fld := ⟨0x3000300 + 8 * n, 3, 1, 0, false⟩
/-- PORTSEC.generation, Table 15-16 (R466). -/
def PORTSEC_generation (n : Nat) : Fld := ⟨0x3000300 + 8 * n, 4, 8, 0, false⟩
/-- PORTSEC.tx_seq_hi, Table 15-16 (R466). -/
def PORTSEC_tx_seq_hi (n : Nat) : Fld := ⟨0x3000300 + 8 * n, 16, 48, 0, false⟩
/-- SPDMREQCNT.count, Table 15-16 (R466). -/
def SPDMREQCNT_count : Fld := ⟨0x3000400, 0, 48, 0, false⟩
/-- SEALDENYCNT.count, Table 15-16 (R466). -/
def SEALDENYCNT_count : Fld := ⟨0x3000408, 0, 48, 0, false⟩
/-- KEYSCNT.count, Table 15-16 (R466). -/
def KEYSCNT_count : Fld := ⟨0x3000410, 0, 48, 0, false⟩
/-- PRESREFCNT.count, Table 15-16 (R466). -/
def PRESREFCNT_count : Fld := ⟨0x3000418, 0, 48, 0, false⟩
/-- SECCNTSTAT.cnt_ovf, Table 15-16 (R466). -/
def SECCNTSTAT_cnt_ovf : Fld := ⟨0x3000420, 0, 4, 0, false⟩
/-- MGMTCTL.eth_en, Table 18-14 (R535). -/
def MGMTCTL_eth_en : Fld := ⟨0x3100000, 0, 1, 1, false⟩
/-- MGMTCTL.i3c_en, Table 18-14 (R535). -/
def MGMTCTL_i3c_en : Fld := ⟨0x3100000, 1, 1, 1, false⟩
/-- MGMTCTL.udp_port, Table 18-14 (R535). -/
def MGMTCTL_udp_port : Fld := ⟨0x3100000, 16, 16, 48620, false⟩
/-- MGMTSTAT.eth_link, Table 18-14 (R535). -/
def MGMTSTAT_eth_link : Fld := ⟨0x3100008, 0, 1, 0, false⟩
/-- MGMTSTAT.i3c_addr, Table 18-14 (R535). -/
def MGMTSTAT_i3c_addr : Fld := ⟨0x3100008, 1, 7, 0, false⟩
/-- MGMTSTAT.sessions, Table 18-14 (R535). -/
def MGMTSTAT_sessions : Fld := ⟨0x3100008, 8, 3, 0, false⟩
/-- MGMTSTAT.subscribers, Table 18-14 (R535). -/
def MGMTSTAT_subscribers : Fld := ⟨0x3100008, 11, 4, 0, false⟩
/-- MGMTSTAT.cnt_ovf, Table 18-14 (R535). -/
def MGMTSTAT_cnt_ovf : Fld := ⟨0x3100008, 15, 3, 0, false⟩
/-- EVBASE.base, Table 18-14 (R535). -/
def EVBASE_base : Fld := ⟨0x3100010, 0, 52, Config.evBase, false⟩
/-- EVPOS.producer, Table 18-14 (R535). -/
def EVPOS_producer : Fld := ⟨0x3100018, 0, 32, 0, false⟩
/-- EVPOS.consumer, Table 18-14 (R535). -/
def EVPOS_consumer : Fld := ⟨0x3100018, 32, 32, 0, false⟩
/-- TRACECTL.en, Table 18-14 (R535). -/
def TRACECTL_en : Fld := ⟨0x3100020, 0, 1, 0, false⟩
/-- TRACECTL.stop_on_full, Table 18-14 (R535). -/
def TRACECTL_stop_on_full : Fld := ⟨0x3100020, 1, 1, 0, false⟩
/-- TRACECTL.stopped, Table 18-14 (R535). -/
def TRACECTL_stopped : Fld := ⟨0x3100020, 2, 1, 0, false⟩
/-- TRACEBASE.base, Table 18-14 (R535). -/
def TRACEBASE_base : Fld := ⟨0x3100028, 0, 52, Config.traceBase, false⟩
/-- TRACEPOS.producer, Table 18-14 (R535). -/
def TRACEPOS_producer : Fld := ⟨0x3100030, 0, 64, 0, false⟩
/-- DUMPCMD.dump, Table 18-14 (R535). -/
def DUMPCMD_dump : Fld := ⟨0x3100038, 0, 1, 0, false⟩
/-- DUMPCMD.mark_read, Table 18-14 (R535). -/
def DUMPCMD_mark_read : Fld := ⟨0x3100038, 1, 2, 0, false⟩
/-- DUMPSTAT.slot0, Table 18-14 (R535). -/
def DUMPSTAT_slot0 : Fld := ⟨0x3100040, 0, 2, 0, false⟩
/-- DUMPSTAT.slot1, Table 18-14 (R535). -/
def DUMPSTAT_slot1 : Fld := ⟨0x3100040, 2, 2, 0, false⟩
/-- DUMPSTAT.pending, Table 18-14 (R535). -/
def DUMPSTAT_pending : Fld := ⟨0x3100040, 4, 1, 0, false⟩
/-- DUMPSTAT.lost, Table 18-14 (R535). -/
def DUMPSTAT_lost : Fld := ⟨0x3100040, 16, 8, 0, false⟩
/-- TRACEEN.groups, Table 18-14 (R535). -/
def TRACEEN_groups (n : Nat) : Fld := ⟨0x3100100 + 8 * n, 0, 64, 0, false⟩
/-- MGMTREQCNT.count, Table 18-14 (R535). -/
def MGMTREQCNT_count : Fld := ⟨0x3100200, 0, 48, 0, false⟩
/-- MGMTERRCNT.count, Table 18-14 (R535). -/
def MGMTERRCNT_count : Fld := ⟨0x3100208, 0, 48, 0, false⟩
/-- PUBCNT.count, Table 18-14 (R535). -/
def PUBCNT_count : Fld := ⟨0x3100210, 0, 48, 0, false⟩
/-- MONCTL.t_warn, Table 18-14 (R535). -/
def MONCTL_t_warn : Fld := ⟨0x3200000, 0, 7, 90, false⟩
/-- MONCTL.age_period_h, Table 18-14 (R535). -/
def MONCTL_age_period_h : Fld := ⟨0x3200000, 8, 16, 168, false⟩
/-- MONCTL.plan_period_h, Table 18-14 (R535). -/
def MONCTL_plan_period_h : Fld := ⟨0x3200000, 24, 16, 720, false⟩
/-- AGEPLAN.steps, Table 18-14 (R535). -/
def AGEPLAN_steps : Fld := ⟨0x3200008, 0, 6, 0, false⟩
/-- AGEPLAN.points_ok, Table 18-14 (R535). -/
def AGEPLAN_points_ok : Fld := ⟨0x3200008, 6, 5, 0x1F, false⟩
/-- AGEPLAN.limit, Table 18-14 (R535). -/
def AGEPLAN_limit : Fld := ⟨0x3200008, 11, 1, 0, false⟩
/-- AGEPLAN.d_max, Table 18-14 (R535). -/
def AGEPLAN_d_max : Fld := ⟨0x3200008, 32, 32, 0, false⟩
/-- AGELAST.stamp, Table 18-14 (R535). -/
def AGELAST_stamp : Fld := ⟨0x3200010, 0, 64, 0, false⟩
/-- TEMP.reading, Table 18-14 (R535). -/
def TEMP_reading (n : Nat) : Fld := ⟨0x3200100 + 8 * n, 0, 12, 0, false⟩
/-- TEMP.fail, Table 18-14 (R535). -/
def TEMP_fail (n : Nat) : Fld := ⟨0x3200100 + 8 * n, 12, 1, 0, false⟩
/-- TEMP.max_c, Table 18-14 (R535). -/
def TEMP_max_c (n : Nat) : Fld := ⟨0x3200100 + 8 * n, 16, 8, 0, false⟩
/-- VMON.mv, Table 18-14 (R535). -/
def VMON_mv (n : Nat) : Fld := ⟨0x3200280 + 8 * n, 0, 11, 0, false⟩
/-- VMON.low_mv, Table 18-14 (R535). -/
def VMON_low_mv (n : Nat) : Fld := ⟨0x3200280 + 8 * n, 16, 11, vmonLow (0x3200280 + 8 * n), false⟩
/-- VMON.high_mv, Table 18-14 (R535). -/
def VMON_high_mv (n : Nat) : Fld := ⟨0x3200280 + 8 * n, 32, 11, vmonHigh (0x3200280 + 8 * n), false⟩
/-- VMON.out, Table 18-14 (R535). -/
def VMON_out (n : Nat) : Fld := ⟨0x3200280 + 8 * n, 48, 1, 0, false⟩
/-- PMON.mhz, Table 18-14 (R535). -/
def PMON_mhz (n : Nat) : Fld := ⟨0x3200340 + 8 * n, 0, 16, 0, false⟩
/-- AGE.d_ppm, Table 18-14 (R535). -/
def AGE_d_ppm (n : Nat) : Fld := ⟨0x3200540 + 8 * n, 0, 24, 0, false⟩
/-- CARINFO.nreq, Table 06-10 (R204). -/
def CARINFO_nreq (b : Nat) : Fld := ⟨b, 0, 5, carNreq (b), false⟩
/-- CARINFO.pre_idx, Table 06-10 (R204). -/
def CARINFO_pre_idx (b : Nat) : Fld := ⟨b, 8, 4, carPreIdx (b), false⟩
/-- CARINFO.kind, Table 06-10 (R204). -/
def CARINFO_kind (b : Nat) : Fld := ⟨b, 12, 2, carKind (b), false⟩
/-- CARPRI.class, Table 06-10 (R204). -/
def CARPRI_class (b : Nat) : Fld := ⟨b + 8, 0, 32, carClass (b + 8), true⟩
/-- CARSTATE.masked, Table 06-10 (R204). -/
def CARSTATE_masked (b : Nat) : Fld := ⟨b + 0x10, 0, 16, 0, false⟩
/-- CARSTATE.owner, Table 06-10 (R204). -/
def CARSTATE_owner (b : Nat) : Fld := ⟨b + 0x10, 16, 4, 0, false⟩
/-- CARSTATE.parked, Table 06-10 (R204). -/
def CARSTATE_parked (b : Nat) : Fld := ⟨b + 0x10, 20, 1, 0, false⟩
/-- CARSTATE.preempted, Table 06-10 (R204). -/
def CARSTATE_preempted (b : Nat) : Fld := ⟨b + 0x10, 21, 1, 0, false⟩
/-- CARTHR.starve_thresh, Table 06-10 (R204). -/
def CARTHR_starve_thresh (b : Nat) : Fld := ⟨b + 0x18, 0, 32, 0x00010000, false⟩
/-- CARPRECNT.count, Table 06-10 (R204). -/
def CARPRECNT_count (b : Nat) : Fld := ⟨b + 0x20, 0, 48, 0, false⟩
/-- CARSTAT.pre_ovf, Table 06-10 (R204). -/
def CARSTAT_pre_ovf (b : Nat) : Fld := ⟨b + 0x28, 0, 1, 0, false⟩
/-- CARSTAT.starve, Table 06-10 (R204). -/
def CARSTAT_starve (b : Nat) : Fld := ⟨b + 0x28, 16, 16, 0, false⟩
/-- CARWAIT.cur_wait, Table 06-10 (R204). -/
def CARWAIT_cur_wait (b r : Nat) : Fld := ⟨b + 0x40 + 8 * r, 0, 32, 0, false⟩
/-- CARWAIT.max_wait, Table 06-10 (R204). -/
def CARWAIT_max_wait (b r : Nat) : Fld := ⟨b + 0x40 + 8 * r, 32, 32, 0, false⟩

/-- Registers of the window, part 1 (Tables 19-6 to 19-15 and the field tables of each chapter). -/
def table0 : List RegRow :=
  [⟨"DEVID", 0, [], [⟨"vendor", 0, 16, .ro, fun _ => 0x7A5E⟩, ⟨"part", 16, 16, .ro, fun _ => 0x7100⟩, ⟨"family", 32, 8, .ro, fun _ => 0x01⟩]⟩,
   ⟨"DEVREV", 8, [], [⟨"major", 0, 4, .ro, fun _ => 1⟩, ⟨"minor", 4, 4, .ro, fun _ => 0⟩, ⟨"rom", 8, 16, .ro, fun _ => 0x0B00⟩]⟩,
   ⟨"DEVCAP", 0x10, [], [⟨"stalls", 0, 5, .ro, fun _ => 16⟩, ⟨"rakes", 5, 9, .ro, fun _ => 256⟩, ⟨"ports", 14, 4, .ro, fun _ => 8⟩, ⟨"pans", 18, 7, .ro, fun _ => 64⟩, ⟨"qid_bits", 25, 5, .ro, fun _ => 19⟩, ⟨"ddr_channels", 30, 5, .ro, fun _ => 16⟩, ⟨"stacks", 35, 2, .ro, fun _ => 2⟩, ⟨"heap_ports", 37, 4, .ro, fun _ => 8⟩]⟩,
   ⟨"DEVSN", 0x18, [], [⟨"serial", 0, 64, .ro, fun _ => Config.serial⟩]⟩,
   ⟨"DEVOPT", 0x20, [], [⟨"lc", 0, 1, .ro, fun _ => Config.optLc⟩, ⟨"ext_temp", 1, 1, .ro, fun _ => Config.optExtTemp⟩]⟩,
   ⟨"NODEID", 0x1000, [], [⟨"node_id", 0, 12, .rws, fun _ => 0x000⟩]⟩,
   ⟨"DDR5TOP", 0x1008, [], [⟨"granules", 0, 32, .ro, fun _ => 0⟩]⟩,
   ⟨"HEAPTOP", 0x1010, [], [⟨"granules", 0, 32, .ro, fun _ => 0⟩]⟩,
   ⟨"STKSEGMAP", 0x1020, [(8, 4)], [⟨"seg", 0, 64, .rws, fun _ => 0⟩]⟩,
   ⟨"STKSEGSTAT", 0x1040, [(8, 4)], [⟨"seg", 0, 64, .ro, fun _ => 0⟩]⟩,
   ⟨"XLCTL", 0x2000, [], [⟨"merge_en", 0, 1, .rws, fun _ => 1⟩, ⟨"pan_walks", 1, 8, .rws, fun _ => 64⟩, ⟨"flush", 9, 1, .wo, fun _ => 0⟩]⟩,
   ⟨"XLSTAT", 0x2008, [], [⟨"cnt_ovf", 0, 6, .w1c, fun _ => 0⟩]⟩,
   ⟨"XLHITCNT", 0x2010, [], [⟨"count", 0, 48, .rw, fun _ => 0⟩]⟩,
   ⟨"XLMISSCNT", 0x2018, [], [⟨"count", 0, 48, .rw, fun _ => 0⟩]⟩,
   ⟨"XLWALKCNT", 0x2020, [], [⟨"count", 0, 48, .rw, fun _ => 0⟩]⟩,
   ⟨"XLSHOOTCNT", 0x2028, [], [⟨"count", 0, 48, .rw, fun _ => 0⟩]⟩,
   ⟨"XLINVALCNT", 0x2030, [], [⟨"count", 0, 48, .rw, fun _ => 0⟩]⟩,
   ⟨"XLSTALECNT", 0x2038, [], [⟨"count", 0, 48, .rw, fun _ => 0⟩]⟩,
   ⟨"FQRESUME", 0x2040, [], [⟨"qid", 0, 19, .wo, fun _ => 0⟩, ⟨"index", 19, 16, .wo, fun _ => 0⟩, ⟨"gen", 35, 16, .wo, fun _ => 0⟩, ⟨"pan", 51, 6, .wo, fun _ => 0⟩, ⟨"action", 57, 1, .wo, fun _ => 0⟩]⟩,
   ⟨"ERRCTL", 0x3000, [], [⟨"ce_filter_en", 0, 1, .rw, fun _ => 1⟩, ⟨"sram_patrol_en", 1, 1, .rw, fun _ => 1⟩, ⟨"sram_patrol_min", 8, 8, .rw, fun _ => 60⟩]⟩,
   ⟨"ERRSTAT", 0x3008, [], [⟨"cnt_ovf", 0, 4, .w1c, fun _ => 0⟩, ⟨"log_full", 4, 1, .ro, fun _ => 0⟩]⟩,
   ⟨"ERRLOGBASE", 0x3010, [], [⟨"base", 0, 52, .ro, fun _ => Config.errLogBase⟩]⟩,
   ⟨"ERRLOGPOS", 0x3018, [], [⟨"producer", 0, 32, .ro, fun _ => 0⟩, ⟨"consumer", 32, 32, .rw, fun _ => 0⟩]⟩,
   ⟨"ERRDROPCNT", 0x3020, [], [⟨"count", 0, 48, .rw, fun _ => 0⟩]⟩,
   ⟨"SRAMCECNT", 0x3028, [], [⟨"count", 0, 48, .rw, fun _ => 0⟩]⟩,
   ⟨"SRAMUECNT", 0x3030, [], [⟨"count", 0, 48, .rw, fun _ => 0⟩]⟩,
   ⟨"SRAMADDRCNT", 0x3038, [], [⟨"count", 0, 48, .rw, fun _ => 0⟩]⟩,
   ⟨"RETIRECMD", 0x3040, [], [⟨"op", 0, 4, .wo, fun _ => 0⟩, ⟨"store", 4, 1, .wo, fun _ => 0⟩, ⟨"channel", 5, 4, .wo, fun _ => 0⟩, ⟨"slot", 9, 3, .wo, fun _ => 0⟩, ⟨"sub", 12, 1, .wo, fun _ => 0⟩, ⟨"bg", 13, 3, .wo, fun _ => 0⟩, ⟨"bank", 16, 2, .wo, fun _ => 0⟩, ⟨"row", 18, 18, .wo, fun _ => 0⟩]⟩,
   ⟨"RETIREADDR", 0x3048, [], [⟨"granule", 21, 31, .rw, fun _ => 0⟩]⟩,
   ⟨"RETIRESTAT", 0x3050, [], [⟨"busy", 0, 1, .ro, fun _ => 0⟩, ⟨"result", 1, 3, .ro, fun _ => 0⟩, ⟨"lost", 4, 1, .w1c, fun _ => 0⟩, ⟨"retired", 32, 32, .ro, fun _ => 0⟩]⟩,
   ⟨"COHCTL", 0x4000, [], [⟨"snoop_to_us", 0, 16, .rws, fun _ => 500⟩, ⟨"nak_base", 16, 12, .rws, fun _ => 100⟩, ⟨"nak_max", 28, 16, .rws, fun _ => 12800⟩, ⟨"nak_limit", 44, 8, .rws, fun _ => 64⟩, ⟨"resv_after", 52, 4, .rws, fun _ => 4⟩]⟩,
   ⟨"COHSTAT", 0x4008, [], [⟨"sweeping", 0, 1, .ro, fun _ => 0⟩, ⟨"prot_ovf", 1, 1, .w1c, fun _ => 0⟩, ⟨"lost_ovf", 2, 1, .w1c, fun _ => 0⟩]⟩,
   ⟨"COHPROTCNT", 0x4010, [], [⟨"count", 0, 48, .rw, fun _ => 0⟩]⟩,
   ⟨"COHLOSTCNT", 0x4018, [], [⟨"count", 0, 48, .rw, fun _ => 0⟩]⟩,
   ⟨"COHGONE", 0x4100, [(8, 16)], [⟨"gone", 0, 64, .ro, fun _ => 0⟩]⟩,
   ⟨"FABCTL", 0x5000, [], [⟨"fm_port_mask", 0, 8, .rws, fun _ => 0⟩, ⟨"life_init", 8, 6, .rws, fun _ => 60⟩, ⟨"req_to_us", 16, 16, .rws, fun _ => 1000⟩, ⟨"hold_ms", 32, 16, .rws, fun _ => 100⟩, ⟨"map_us", 48, 16, .rws, fun _ => 1000⟩]⟩,
   ⟨"FABDIMS", 0x5008, [], [⟨"kx1", 0, 4, .rws, fun _ => 0xF⟩, ⟨"ky1", 4, 4, .rws, fun _ => 0xF⟩, ⟨"kz1", 8, 4, .rws, fun _ => 0xF⟩]⟩,
   ⟨"FABE2E", 0x5010, [], [⟨"e2e_max", 0, 14, .rws, fun _ => 1024⟩, ⟨"e2e_min", 16, 14, .rws, fun _ => 64⟩, ⟨"e2e_hold_us", 32, 8, .rws, fun _ => 10⟩, ⟨"mark_kib", 40, 5, .rws, fun _ => 16⟩]⟩,
   ⟨"FABCMD", 0x5018, [], [⟨"op", 0, 2, .wo, fun _ => 0⟩, ⟨"drain_id", 16, 16, .wo, fun _ => 0⟩]⟩,
   ⟨"FABSTAT", 0x5020, [], [⟨"held", 0, 1, .ro, fun _ => 0⟩, ⟨"drained", 1, 1, .ro, fun _ => 0⟩, ⟨"cc_wait", 2, 1, .ro, fun _ => 0⟩, ⟨"drain_id", 16, 16, .ro, fun _ => 0⟩, ⟨"cnt_ovf", 32, 11, .w1c, fun _ => 0⟩]⟩]

/-- Registers of the window, part 2 (Tables 19-6 to 19-15 and the field tables of each chapter). -/
def table1 : List RegRow :=
  [⟨"FABOUT", 0x5028, [], [⟨"outstanding", 0, 32, .ro, fun _ => 0⟩, ⟨"queued", 32, 32, .ro, fun _ => 0⟩]⟩,
   ⟨"NXREQCNT", 0x5100, [], [⟨"count", 0, 48, .rw, fun _ => 0⟩]⟩,
   ⟨"NXTRANSCNT", 0x5108, [], [⟨"count", 0, 48, .rw, fun _ => 0⟩]⟩,
   ⟨"DUPCNT", 0x5110, [], [⟨"count", 0, 48, .rw, fun _ => 0⟩]⟩,
   ⟨"CCWAITCNT", 0x5118, [], [⟨"count", 0, 48, .rw, fun _ => 0⟩]⟩,
   ⟨"EXPIRECNT", 0x5120, [], [⟨"count", 0, 48, .rw, fun _ => 0⟩]⟩,
   ⟨"NOPATHCNT", 0x5128, [], [⟨"count", 0, 48, .rw, fun _ => 0⟩]⟩,
   ⟨"REVCNT", 0x5130, [], [⟨"count", 0, 48, .rw, fun _ => 0⟩]⟩,
   ⟨"MARKCNT", 0x5138, [], [⟨"count", 0, 48, .rw, fun _ => 0⟩]⟩,
   ⟨"NXTIMEOUTCNT", 0x5140, [], [⟨"count", 0, 48, .rw, fun _ => 0⟩]⟩,
   ⟨"RSPDISCCNT", 0x5148, [], [⟨"count", 0, 48, .rw, fun _ => 0⟩]⟩,
   ⟨"NXBADCNT", 0x5150, [], [⟨"count", 0, 48, .rw, fun _ => 0⟩]⟩,
   ⟨"MEMBER", 0x10000, [(8, 1024)], [⟨"valid", 0, 1, .rws, fun _ => 0⟩, ⟨"rd", 1, 1, .rws, fun _ => 0⟩, ⟨"wr", 2, 1, .rws, fun _ => 0⟩, ⟨"submit", 3, 1, .rws, fun _ => 0⟩, ⟨"lend", 4, 1, .rws, fun _ => 0⟩, ⟨"pan", 5, 6, .rws, fun _ => 0⟩, ⟨"src_node", 16, 12, .rws, fun _ => 0⟩, ⟨"src_port", 28, 3, .rws, fun _ => 0⟩]⟩,
   ⟨"PANCTL", 0x20000, [(0x100, 64)], [⟨"enable", 0, 1, .rws, fun _ => 0⟩, ⟨"mirrored", 1, 1, .rws, fun _ => 0⟩, ⟨"durable", 2, 1, .rws, fun _ => 0⟩, ⟨"coh_msi", 3, 1, .rws, fun _ => 0⟩, ⟨"home_tier", 4, 2, .rws, fun _ => 1⟩, ⟨"stk_mode", 6, 2, .rws, fun _ => 0⟩, ⟨"placement", 8, 1, .rws, fun _ => 0⟩, ⟨"lent_allowed", 9, 1, .rws, fun _ => 0⟩, ⟨"stall_mask", 16, 16, .rws, fun _ => 0xFFFF⟩, ⟨"cache_cap", 32, 8, .rws, fun _ => 0xFF⟩]⟩,
   ⟨"PANQUOTA", 0x20010, [(0x100, 64), (8, 4)], [⟨"soft", 0, 32, .rws, fun _ => 0⟩, ⟨"hard", 32, 32, .rws, fun _ => 0⟩]⟩,
   ⟨"PANUSE", 0x20030, [(0x100, 64), (8, 4)], [⟨"used", 0, 32, .ro, fun _ => 0⟩, ⟨"peak", 32, 32, .rc, fun _ => 0⟩]⟩,
   ⟨"PANSPILL", 0x20050, [(0x100, 64)], [⟨"spill_budget", 0, 32, .rws, fun _ => 0⟩, ⟨"spill_used", 32, 32, .ro, fun _ => 0⟩]⟩,
   ⟨"PANDUR", 0x20058, [(0x100, 64)], [⟨"dur_log_units", 0, 16, .rws, fun _ => 0⟩]⟩,
   ⟨"PANSTAT", 0x20060, [(0x100, 64)], [⟨"over_soft", 0, 4, .ro, fun _ => 0⟩, ⟨"over_hard", 4, 4, .ro, fun _ => 0⟩, ⟨"spill_exhausted", 8, 1, .ro, fun _ => 0⟩, ⟨"mirror_degraded", 9, 1, .ro, fun _ => 0⟩, ⟨"spill_cnt_ovf", 10, 1, .w1c, fun _ => 0⟩, ⟨"quota_cnt_ovf", 11, 1, .w1c, fun _ => 0⟩, ⟨"state", 16, 2, .ro, fun _ => 0⟩]⟩,
   ⟨"PANSPILLCNT", 0x20068, [(0x100, 64)], [⟨"count", 0, 48, .rw, fun _ => 0⟩]⟩,
   ⟨"PANQREFCNT", 0x20070, [(0x100, 64)], [⟨"count", 0, 48, .rw, fun _ => 0⟩]⟩,
   ⟨"PANSCHED", 0x20080, [(0x100, 64)], [⟨"park_slots", 0, 16, .rws, fun _ => 16⟩, ⟨"park_alloc", 16, 16, .ro, fun _ => 0⟩]⟩,
   ⟨"PANPTROOT", 0x20088, [(0x100, 64)], [⟨"root", 12, 40, .ro, fun _ => 0⟩]⟩,
   ⟨"FQBASE", 0x20090, [(0x100, 64)], [⟨"base", 12, 40, .ro, fun _ => 0⟩]⟩,
   ⟨"FQNOTE", 0x20098, [(0x100, 64)], [⟨"notify_en", 0, 1, .rws, fun _ => 0⟩, ⟨"notify_port", 1, 3, .rws, fun _ => 0⟩, ⟨"notify_node", 4, 12, .rws, fun _ => 0⟩]⟩,
   ⟨"FQPOS", 0x200a0, [(0x100, 64)], [⟨"producer", 0, 32, .ro, fun _ => 0⟩, ⟨"consumer", 32, 32, .rw, fun _ => 0⟩]⟩,
   ⟨"FQSTAT", 0x200a8, [(0x100, 64)], [⟨"pending", 0, 32, .ro, fun _ => 0⟩, ⟨"full", 32, 1, .ro, fun _ => 0⟩, ⟨"fault_ovf", 33, 1, .w1c, fun _ => 0⟩]⟩,
   ⟨"FAULTCNT", 0x200b0, [(0x100, 64)], [⟨"count", 0, 48, .rw, fun _ => 0⟩]⟩,
   ⟨"PANHEAP", 0x200b8, [(0x100, 64)], [⟨"auto_demote", 0, 1, .rws, fun _ => 0⟩, ⟨"auto_promote", 1, 1, .rws, fun _ => 0⟩, ⟨"dur_degraded", 2, 1, .ro, fun _ => 0⟩, ⟨"dur_lost", 3, 1, .w1c, fun _ => 0⟩, ⟨"dem_high", 8, 24, .rws, fun _ => 0⟩, ⟨"dem_low", 32, 24, .rws, fun _ => 0⟩]⟩,
   ⟨"DURPOS", 0x200c0, [(0x100, 64)], [⟨"head", 0, 32, .ro, fun _ => 0⟩, ⟨"tail", 32, 32, .ro, fun _ => 0⟩]⟩,
   ⟨"LENTSRC", 0x30000, [(0x20, 64)], [⟨"lender_base", 0, 48, .ro, fun _ => 0⟩, ⟨"lender_node", 48, 12, .ro, fun _ => 0⟩, ⟨"lender_port", 60, 3, .ro, fun _ => 0⟩]⟩,
   ⟨"LENTCTL", 0x30008, [(0x20, 64)], [⟨"size_granules", 0, 23, .rws, fun _ => 0⟩, ⟨"lend_pan", 24, 6, .rws, fun _ => 0⟩, ⟨"lend_any", 30, 1, .rws, fun _ => 0⟩, ⟨"enable", 31, 1, .rws, fun _ => 0⟩]⟩,
   ⟨"LENTSTAT", 0x30010, [(0x20, 64)], [⟨"state", 0, 3, .ro, fun _ => 0⟩, ⟨"offered_granules", 3, 23, .ro, fun _ => 0⟩, ⟨"owned_granules", 32, 23, .ro, fun _ => 0⟩, ⟨"pages_dropped", 63, 1, .w1c, fun _ => 0⟩]⟩,
   ⟨"ROUTE", 0x40000, [(8, 4096)], [⟨"order", 0, 3, .rws, fun _ => 0⟩, ⟨"xdir", 3, 2, .rws, fun _ => 0⟩, ⟨"ydir", 5, 2, .rws, fun _ => 0⟩, ⟨"zdir", 7, 2, .rws, fun _ => 0⟩, ⟨"down", 9, 1, .rw, fun _ => 0⟩]⟩,
   ⟨"RTCSEC", 0x100000, [], [⟨"seconds", 0, 48, .ro, fun _ => 0⟩, ⟨"valid", 48, 1, .ro, fun _ => 0⟩]⟩,
   ⟨"RTCSUB", 0x100008, [], [⟨"ticks", 0, 15, .ro, fun _ => 0⟩]⟩,
   ⟨"RTCTRIM", 0x100010, [], [⟨"trim", 0, 8, .ro, fun _ => 0⟩]⟩,
   ⟨"RTCSNAPSTAMP", 0x100018, [], [⟨"stamp", 0, 64, .ro, fun _ => 0⟩]⟩,
   ⟨"RTCSNAPSEC", 0x100020, [], [⟨"seconds", 0, 48, .ro, fun _ => 0⟩, ⟨"ticks", 48, 15, .ro, fun _ => 0⟩]⟩,
   ⟨"ALARM", 0x100030, [(8, 2)], [⟨"at_sec", 0, 48, .rw, fun _ => 0⟩, ⟨"en", 48, 1, .rw, fun _ => 0⟩, ⟨"pin", 49, 1, .rw, fun _ => 0⟩]⟩]

/-- Registers of the window, part 3 (Tables 19-6 to 19-15 and the field tables of each chapter). -/
def table2 : List RegRow :=
  [⟨"ALARMSTAT", 0x100040, [], [⟨"fired", 0, 2, .w1c, fun _ => 0⟩, ⟨"pin_asserted", 2, 1, .ro, fun _ => 0⟩]⟩,
   ⟨"MISSED", 0x100048, [], [⟨"alarm_sec", 0, 48, .ro, fun _ => 0⟩, ⟨"which", 48, 1, .ro, fun _ => 0⟩, ⟨"count", 50, 8, .ro, fun _ => 0⟩, ⟨"valid", 63, 1, .w1c, fun _ => 0⟩]⟩,
   ⟨"MISSEDLAST", 0x100050, [], [⟨"last_sec", 0, 48, .ro, fun _ => 0⟩]⟩,
   ⟨"TAMPERREC", 0x100058, [], [⟨"rtc_sec", 0, 48, .ro, fun _ => 0⟩, ⟨"on_vbat", 48, 1, .ro, fun _ => 0⟩, ⟨"key_wiped", 49, 1, .ro, fun _ => 0⟩, ⟨"valid", 63, 1, .w1c, fun _ => 0⟩]⟩,
   ⟨"TAMPERSTAMP", 0x100060, [], [⟨"stamp", 0, 64, .ro, fun _ => 0⟩]⟩,
   ⟨"AONLOGPOS", 0x100068, [], [⟨"producer", 0, 16, .ro, fun _ => 0⟩, ⟨"consumer", 16, 16, .rw, fun _ => 0⟩, ⟨"copied", 32, 16, .ro, fun _ => 0⟩, ⟨"reserve", 48, 1, .ro, fun _ => 0⟩]⟩,
   ⟨"RMSTAT", 0x400000, [(0x80000, 2)], [⟨"cores_up", 0, 4, .ro, fun _ => 0⟩, ⟨"buf0_valid", 4, 1, .ro, fun _ => 0⟩, ⟨"buf1_valid", 5, 1, .ro, fun _ => 0⟩]⟩,
   ⟨"RMJRNL", 0x400008, [(0x80000, 2)], [⟨"producer", 0, 14, .ro, fun _ => 0⟩, ⟨"snapped", 16, 14, .ro, fun _ => 0⟩]⟩,
   ⟨"PWRSTAT", 0x200000, [], [⟨"state", 0, 3, .ro, fun _ => 0⟩, ⟨"point", 3, 3, .ro, fun _ => 0⟩, ⟨"duty", 6, 5, .ro, fun _ => 16⟩, ⟨"boost", 11, 1, .ro, fun _ => 0⟩, ⟨"hl_power", 12, 1, .ro, fun _ => 0⟩, ⟨"hl_thermal", 13, 1, .ro, fun _ => 0⟩, ⟨"throttled", 14, 1, .ro, fun _ => 0⟩, ⟨"mem_pct", 16, 7, .ro, fun _ => 100⟩, ⟨"heap_pct", 23, 7, .ro, fun _ => 100⟩, ⟨"cnt_ovf", 30, 4, .w1c, fun _ => 0⟩]⟩,
   ⟨"PWRCAP", 0x200008, [], [⟨"p_cap_w", 0, 8, .rws, fun _ => 150⟩, ⟨"guard_w", 8, 8, .rws, fun _ => 5⟩, ⟨"min_duty", 16, 5, .rws, fun _ => 4⟩, ⟨"boost_en", 21, 1, .rws, fun _ => 1⟩, ⟨"mem_floor_pct", 24, 7, .rws, fun _ => 50⟩]⟩,
   ⟨"PWRMCAP", 0x200010, [], [⟨"mgmt_cap_w", 0, 8, .rw, fun _ => 150⟩]⟩,
   ⟨"PWRPOL", 0x200018, [], [⟨"gate_idle_us", 0, 16, .rws, fun _ => 50⟩, ⟨"deep_idle_ms", 16, 16, .rws, fun _ => 100⟩, ⟨"deep_en", 32, 1, .rws, fun _ => 1⟩, ⟨"link_policy", 33, 2, .rws, fun _ => 0⟩, ⟨"t_target", 36, 7, .rws, fun _ => 95⟩]⟩,
   ⟨"PWRTOT", 0x200020, [], [⟨"avg_mw", 0, 20, .ro, fun _ => 0⟩, ⟨"peak_mw", 20, 20, .rc, fun _ => 0⟩]⟩,
   ⟨"PWRMEAS", 0x200028, [(8, 8)], [⟨"mw", 0, 20, .ro, fun _ => 0⟩]⟩,
   ⟨"VCOREOP", 0x200068, [(8, 5)], [⟨"code", 0, 9, .ro, vcoreCode⟩, ⟨"mhz", 16, 11, .ro, vcoreMhz⟩]⟩,
   ⟨"HLFUSE", 0x200090, [], [⟨"p_max_w", 0, 8, .ro, fun _ => 150⟩, ⟨"f_rake_max_mhz", 8, 11, .ro, fun _ => 1200⟩, ⟨"vcore_max", 19, 9, .ro, fun _ => 340⟩, ⟨"vcore_min", 28, 9, .ro, fun _ => 280⟩, ⟨"t_throttle", 37, 7, .ro, fun _ => 100⟩, ⟨"t_trip", 44, 7, .ro, fun _ => 105⟩]⟩,
   ⟨"HLSTAT", 0x200098, [], [⟨"power_active", 0, 1, .ro, fun _ => 0⟩, ⟨"thermal_active", 1, 1, .ro, fun _ => 0⟩, ⟨"trip_seen", 2, 1, .w1c, fun _ => 0⟩, ⟨"hot_sensor", 3, 6, .ro, fun _ => 0⟩, ⟨"hot_c", 9, 7, .ro, fun _ => 0⟩]⟩,
   ⟨"CLKSTAT", 0x2000a0, [], [⟨"base_lock", 0, 1, .ro, fun _ => 0⟩, ⟨"mid_lock", 1, 1, .ro, fun _ => 0⟩, ⟨"rake_lock", 2, 16, .ro, fun _ => 0⟩, ⟨"ddr_lock", 18, 16, .ro, fun _ => 0⟩, ⟨"stk_lock", 34, 2, .ro, fun _ => 0⟩, ⟨"port_lock", 36, 8, .ro, fun _ => 0⟩, ⟨"pex_lock", 44, 1, .ro, fun _ => 0⟩, ⟨"ref_present", 45, 1, .ro, fun _ => 0⟩]⟩,
   ⟨"STALLPWR", 0x2000a8, [], [⟨"gated", 0, 16, .ro, fun _ => 0⟩, ⟨"waking", 16, 16, .ro, fun _ => 0⟩]⟩,
   ⟨"STAMPCAL", 0x2000b0, [], [⟨"cal", 0, 8, .ro, fun _ => 0⟩]⟩,
   ⟨"STAMPSTAT", 0x2000b8, [], [⟨"on_vbat", 0, 1, .ro, fun _ => 0⟩, ⟨"xtal_fail", 1, 1, .ro, fun _ => 0⟩, ⟨"restarted", 2, 1, .w1c, fun _ => 0⟩]⟩,
   ⟨"GATECNT", 0x200100, [], [⟨"count", 0, 48, .rw, fun _ => 0⟩]⟩,
   ⟨"WAKECNT", 0x200108, [], [⟨"count", 0, 48, .rw, fun _ => 0⟩]⟩,
   ⟨"THROTCNT", 0x200110, [], [⟨"count", 0, 48, .rw, fun _ => 0⟩]⟩,
   ⟨"HLCNT", 0x200118, [], [⟨"count", 0, 48, .rw, fun _ => 0⟩]⟩,
   ⟨"RSTCMD", 0x200200, [], [⟨"op", 0, 2, .wo, fun _ => 0⟩, ⟨"key", 8, 8, .wo, fun _ => 0⟩, ⟨"recovery", 16, 1, .wo, fun _ => 0⟩]⟩,
   ⟨"RSTCAUSE", 0x200208, [], [⟨"cause", 0, 4, .ro, fun _ => 0⟩, ⟨"prst_stuck", 8, 1, .w1c, fun _ => 0⟩, ⟨"recovery_req", 9, 1, .ro, fun _ => 0⟩]⟩,
   ⟨"BOOTSTAT", 0x200210, [], [⟨"stage", 0, 4, .ro, fun _ => 0⟩, ⟨"halt_reason", 4, 4, .ro, fun _ => 0⟩, ⟨"source", 8, 2, .ro, fun _ => 0⟩, ⟨"slot", 10, 1, .ro, fun _ => 0⟩, ⟨"settings_unreadable", 11, 1, .ro, fun _ => 0⟩, ⟨"unread_boots", 12, 2, .ro, fun _ => 0⟩, ⟨"fallback", 14, 1, .ro, fun _ => 0⟩, ⟨"b_fail", 15, 1, .ro, fun _ => 0⟩, ⟨"rail_order", 16, 1, .ro, fun _ => 0⟩, ⟨"cnt_ovf", 17, 2, .w1c, fun _ => 0⟩, ⟨"service_ms", 32, 32, .ro, fun _ => 0⟩]⟩,
   ⟨"STRAPS", 0x200218, [], [⟨"topo", 0, 1, .ro, fun _ => 0⟩, ⟨"boot", 1, 2, .ro, fun _ => 0⟩, ⟨"mgmt", 3, 2, .ro, fun _ => 0⟩]⟩,
   ⟨"IMGSLOT", 0x200220, [(8, 2)], [⟨"state", 0, 3, .ro, fun _ => 0⟩, ⟨"tries", 3, 2, .ro, fun _ => 0⟩, ⟨"svn", 16, 16, .ro, fun _ => 0⟩, ⟨"build", 32, 32, .ro, fun _ => 0⟩]⟩,
   ⟨"SETSTAT", 0x200230, [], [⟨"fmt_found", 0, 16, .ro, fun _ => 0⟩, ⟨"fmt_own", 16, 16, .ro, fun _ => 0⟩, ⟨"region", 32, 1, .ro, fun _ => 0⟩, ⟨"empty", 33, 1, .ro, fun _ => 0⟩, ⟨"committed", 34, 1, .ro, fun _ => 0⟩]⟩,
   ⟨"BOOTCTL", 0x200238, [], [⟨"confirm_s", 0, 16, .rw, fun _ => 600⟩, ⟨"net_tries", 16, 4, .rw, fun _ => 3⟩, ⟨"settings_commit", 20, 1, .wo, fun _ => 0⟩]⟩,
   ⟨"WARMCNT", 0x200240, [], [⟨"count", 0, 48, .rw, fun _ => 0⟩]⟩,
   ⟨"HARDCNT", 0x200248, [], [⟨"count", 0, 48, .rw, fun _ => 0⟩]⟩,
   ⟨"TRPCTL", 0x500000, [], [⟨"hb_timeout_us", 0, 16, .rw, fun _ => 1000⟩, ⟨"snap_ms", 16, 16, .rw, fun _ => 1000⟩, ⟨"test", 32, 1, .rw, fun _ => 0⟩, ⟨"yield", 33, 1, .wo, fun _ => 0⟩, ⟨"b_present", 34, 1, .ro, fun _ => Config.bPresent⟩]⟩,
   ⟨"TRPSTAT", 0x500008, [], [⟨"holder", 0, 1, .ro, fun _ => 0⟩, ⟨"a_state", 1, 3, .ro, fun _ => 1⟩, ⟨"b_state", 4, 3, .ro, fun _ => 0⟩, ⟨"mode", 7, 1, .ro, fun _ => 1⟩, ⟨"recovering", 8, 1, .ro, fun _ => 0⟩, ⟨"snap_seq", 32, 32, .ro, fun _ => 0⟩]⟩,
   ⟨"CLAIMCUR", 0x500010, [], [⟨"claim", 0, 32, .ro, fun _ => 1⟩, ⟨"holder", 32, 1, .ro, fun _ => 0⟩]⟩,
   ⟨"CLAIMA", 0x500018, [], [⟨"claim", 0, 32, .ro, fun _ => 1⟩]⟩,
   ⟨"CLAIMB", 0x500020, [], [⟨"claim", 0, 32, .ro, fun _ => 0⟩]⟩,
   ⟨"EPOCHCUR", 0x500028, [], [⟨"counter", 0, 16, .ro, fun _ => 0x0001⟩, ⟨"set", 16, 1, .ro, fun _ => 0⟩]⟩]

/-- Registers of the window, part 4 (Tables 19-6 to 19-15 and the field tables of each chapter). -/
def table3 : List RegRow :=
  [⟨"EPOCHSTAT", 0x500030, [], [⟨"shadow", 0, 2, .ro, fun _ => 2⟩, ⟨"dirty", 2, 1, .ro, fun _ => 0⟩]⟩,
   ⟨"EPOCHINFL", 0x500038, [], [⟨"current", 0, 32, .ro, fun _ => 0⟩, ⟨"previous", 32, 32, .ro, fun _ => 0⟩]⟩,
   ⟨"EPOCHCTL", 0x500040, [], [⟨"drain_limit_ms", 0, 16, .rw, fun _ => 100⟩]⟩,
   ⟨"COMMITSTAT", 0x500048, [], [⟨"result", 0, 2, .ro, fun _ => 0⟩, ⟨"block", 8, 6, .ro, fun _ => 0⟩, ⟨"reason", 16, 8, .ro, fun _ => 0⟩, ⟨"epoch", 32, 17, .ro, fun _ => 0⟩]⟩,
   ⟨"RMCNTSTAT", 0x500050, [], [⟨"cnt_ovf", 0, 2, .w1c, fun _ => 0⟩]⟩,
   ⟨"GATEREFCNT", 0x500058, [], [⟨"count", 0, 48, .rw, fun _ => 0⟩]⟩,
   ⟨"TAKEOVERCNT", 0x500060, [], [⟨"count", 0, 48, .rw, fun _ => 0⟩]⟩,
   ⟨"TWINCTL", 0x500100, [], [⟨"enable", 0, 1, .rws, fun _ => 0⟩, ⟨"port", 1, 3, .rws, fun _ => 0⟩, ⟨"auto_takeover", 4, 1, .rws, fun _ => 0⟩, ⟨"prefer_primary", 5, 1, .rws, fun _ => 0⟩, ⟨"twin_to_ms", 8, 8, .rws, fun _ => 5⟩, ⟨"resync_gbps", 16, 8, .rws, fun _ => 50⟩]⟩,
   ⟨"TWINMW", 0x500108, [], [⟨"mw_base", 0, 22, .rws, fun _ => 0⟩, ⟨"mw_granules", 32, 22, .rws, fun _ => 0⟩]⟩,
   ⟨"TWINSTAT", 0x500110, [], [⟨"state", 0, 3, .ro, fun _ => 0⟩, ⟨"role", 3, 1, .ro, fun _ => 0⟩, ⟨"peer_node", 4, 12, .ro, fun _ => 0⟩, ⟨"peer_claim", 32, 32, .ro, fun _ => 0⟩]⟩,
   ⟨"TWINCMD", 0x500118, [], [⟨"op", 0, 2, .wo, fun _ => 0⟩]⟩,
   ⟨"STALLSVC", 0x500200, [], [⟨"in_service", 0, 16, .ro, fun _ => 0xFFFF⟩, ⟨"failed", 16, 16, .ro, fun _ => 0⟩]⟩,
   ⟨"SLICEMAP", 0x500208, [], [⟨"stall", 0, 64, .ro, fun _ => 0xFEDCBA9876543210⟩]⟩,
   ⟨"BLKCOMMIT", 0x501000, [(8, 50)], [⟨"set", 0, 1, .ro, fun _ => 0⟩, ⟨"dirty", 1, 1, .ro, fun _ => 0⟩, ⟨"refuse", 8, 8, .ro, fun _ => 0⟩]⟩,
   ⟨"PROGCTL", 0x1004000, [(0x100000, 16)], [⟨"icache_en", 0, 1, .rw, fun _ => 1⟩, ⟨"prefetch_en", 1, 1, .rw, fun _ => 1⟩, ⟨"icache_flush", 2, 1, .wo, fun _ => 0⟩]⟩,
   ⟨"PROGSTAT", 0x1004008, [(0x100000, 16)], [⟨"ichit_ovf", 0, 1, .w1c, fun _ => 0⟩, ⟨"icmiss_ovf", 1, 1, .w1c, fun _ => 0⟩, ⟨"park_ovf", 2, 1, .w1c, fun _ => 0⟩, ⟨"abort_ovf", 3, 1, .w1c, fun _ => 0⟩]⟩,
   ⟨"ICHITCNT", 0x1004010, [(0x100000, 16)], [⟨"count", 0, 48, .rw, fun _ => 0⟩]⟩,
   ⟨"ICMISSCNT", 0x1004018, [(0x100000, 16)], [⟨"count", 0, 48, .rw, fun _ => 0⟩]⟩,
   ⟨"PARKCNT", 0x1004020, [(0x100000, 16)], [⟨"count", 0, 48, .rw, fun _ => 0⟩]⟩,
   ⟨"ABORTCNT", 0x1004028, [(0x100000, 16)], [⟨"count", 0, 48, .rw, fun _ => 0⟩]⟩,
   ⟨"RAKESTAT", 0x1004100, [(0x100000, 16), (8, 16)], [⟨"state", 0, 2, .ro, fun _ => 0⟩, ⟨"stopping", 2, 1, .ro, fun _ => 0⟩, ⟨"pan", 8, 6, .ro, fun _ => 0⟩, ⟨"qid", 16, 19, .ro, fun _ => 0⟩, ⟨"pc", 48, 16, .ro, fun _ => 0⟩]⟩,
   ⟨"CMCTL", 0x1005000, [(0x100000, 16)], [⟨"max_helpers", 0, 8, .rw, fun _ => 0xFF⟩, ⟨"helpers_en", 8, 1, .rw, fun _ => 1⟩]⟩,
   ⟨"CMSTAT", 0x1005008, [(0x100000, 16)], [⟨"attn_ovf", 0, 1, .w1c, fun _ => 0⟩, ⟨"chunk_ovf", 1, 1, .w1c, fun _ => 0⟩, ⟨"pass_ovf", 2, 1, .w1c, fun _ => 0⟩, ⟨"nonfin_ovf", 3, 1, .w1c, fun _ => 0⟩, ⟨"nohelp_ovf", 4, 1, .w1c, fun _ => 0⟩, ⟨"byte_ovf", 5, 1, .w1c, fun _ => 0⟩]⟩,
   ⟨"CMATTNCNT", 0x1005010, [(0x100000, 16)], [⟨"count", 0, 48, .rw, fun _ => 0⟩]⟩,
   ⟨"CMCHUNKCNT", 0x1005018, [(0x100000, 16)], [⟨"count", 0, 48, .rw, fun _ => 0⟩]⟩,
   ⟨"CMPASSCNT", 0x1005020, [(0x100000, 16)], [⟨"count", 0, 48, .rw, fun _ => 0⟩]⟩,
   ⟨"CMNONFINCNT", 0x1005028, [(0x100000, 16)], [⟨"count", 0, 48, .rw, fun _ => 0⟩]⟩,
   ⟨"CMNOHELPCNT", 0x1005030, [(0x100000, 16)], [⟨"count", 0, 48, .rw, fun _ => 0⟩]⟩,
   ⟨"CMBYTECNT", 0x1005038, [(0x100000, 16)], [⟨"count", 0, 48, .rw, fun _ => 0⟩]⟩,
   ⟨"QCMD", 0x1006000, [(0x100000, 16)], [⟨"op", 0, 4, .wo, fun _ => 0⟩, ⟨"qid", 4, 19, .wo, fun _ => 0⟩, ⟨"target", 24, 4, .wo, fun _ => 0⟩]⟩,
   ⟨"QCMDSTAT", 0x1006008, [(0x100000, 16)], [⟨"busy", 0, 1, .ro, fun _ => 0⟩, ⟨"result", 1, 3, .ro, fun _ => 0⟩, ⟨"lost", 4, 1, .w1c, fun _ => 0⟩]⟩,
   ⟨"SCHSTAT", 0x1006010, [(0x100000, 16)], [⟨"db_ovf", 0, 1, .w1c, fun _ => 0⟩, ⟨"dbref_ovf", 1, 1, .w1c, fun _ => 0⟩, ⟨"disp_ovf", 2, 1, .w1c, fun _ => 0⟩, ⟨"tbwait_ovf", 3, 1, .w1c, fun _ => 0⟩]⟩,
   ⟨"DBCNT", 0x1006018, [(0x100000, 16)], [⟨"count", 0, 48, .rw, fun _ => 0⟩]⟩,
   ⟨"DBREFCNT", 0x1006020, [(0x100000, 16)], [⟨"count", 0, 48, .rw, fun _ => 0⟩]⟩,
   ⟨"DISPCNT", 0x1006028, [(0x100000, 16)], [⟨"count", 0, 48, .rw, fun _ => 0⟩]⟩,
   ⟨"TBWAITCNT", 0x1006030, [(0x100000, 16)], [⟨"count", 0, 48, .rw, fun _ => 0⟩]⟩,
   ⟨"QDESC0", 0x1006040, [(0x100000, 16)], [⟨"body_base", 0, 52, .rw, fun _ => 0⟩, ⟨"depth_log2", 52, 4, .rw, fun _ => 0⟩, ⟨"pan", 56, 6, .rw, fun _ => 0⟩]⟩,
   ⟨"QDESC1", 0x1006048, [(0x100000, 16)], [⟨"cq_base", 0, 52, .rw, fun _ => 0⟩, ⟨"cq_log2", 52, 5, .rw, fun _ => 0⟩]⟩,
   ⟨"QDESC2", 0x1006050, [(0x100000, 16)], [⟨"shadow_base", 0, 52, .rw, fun _ => 0⟩, ⟨"shadow_pages", 52, 12, .rw, fun _ => 0⟩]⟩,
   ⟨"QDESC3", 0x1006058, [(0x100000, 16)], [⟨"owner_node", 0, 12, .rw, fun _ => 0⟩, ⟨"owner_port", 12, 3, .rw, fun _ => 0⟩, ⟨"concurrency", 16, 5, .rw, fun _ => 0⟩, ⟨"run_limit_us", 32, 32, .rw, fun _ => 0⟩]⟩]

/-- Registers of the window, part 5 (Tables 19-6 to 19-15 and the field tables of each chapter). -/
def table4 : List RegRow :=
  [⟨"QDESC4", 0x1006060, [(0x100000, 16)], [⟨"quantum", 0, 32, .rw, fun _ => 0⟩]⟩,
   ⟨"QDESC5", 0x1006068, [(0x100000, 16)], [⟨"tb_rate", 0, 32, .rw, fun _ => 0⟩, ⟨"tb_burst", 32, 16, .rw, fun _ => 0⟩]⟩,
   ⟨"QREAD0", 0x1006080, [(0x100000, 16)], [⟨"head", 0, 32, .ro, fun _ => 0⟩, ⟨"tail", 32, 32, .ro, fun _ => 0⟩]⟩,
   ⟨"QREAD1", 0x1006088, [(0x100000, 16)], [⟨"admit", 0, 32, .ro, fun _ => 0⟩, ⟨"running", 32, 5, .ro, fun _ => 0⟩, ⟨"state", 40, 2, .ro, fun _ => 0⟩, ⟨"moving", 42, 1, .ro, fun _ => 0⟩, ⟨"home", 44, 4, .ro, fun _ => 0⟩, ⟨"tokens", 48, 16, .ro, fun _ => 0⟩]⟩,
   ⟨"QREAD2", 0x1006090, [(0x100000, 16)], [⟨"deficit", 0, 40, .ro, fun _ => 0⟩]⟩,
   ⟨"COHPRED", 0x1008000, [(0x100000, 16)], [⟨"thresh", 0, 4, .rw, fun _ => 8⟩, ⟨"inc_far", 4, 4, .rw, fun _ => 4⟩, ⟨"inc_near", 8, 4, .rw, fun _ => 1⟩, ⟨"dec", 12, 4, .rw, fun _ => 1⟩, ⟨"clear", 16, 1, .wo, fun _ => 0⟩]⟩,
   ⟨"COHSLSTAT", 0x1008008, [(0x100000, 16)], [⟨"cnt_ovf", 0, 8, .w1c, fun _ => 0⟩, ⟨"resv_used", 8, 7, .ro, fun _ => 0⟩]⟩,
   ⟨"DIRHITCNT", 0x1008100, [(0x100000, 16)], [⟨"count", 0, 48, .rw, fun _ => 0⟩]⟩,
   ⟨"DIRMISSCNT", 0x1008108, [(0x100000, 16)], [⟨"count", 0, 48, .rw, fun _ => 0⟩]⟩,
   ⟨"DIREVICTCNT", 0x1008110, [(0x100000, 16)], [⟨"count", 0, 48, .rw, fun _ => 0⟩]⟩,
   ⟨"NAKCNT", 0x1008118, [(0x100000, 16)], [⟨"count", 0, 48, .rw, fun _ => 0⟩]⟩,
   ⟨"RESVFULLCNT", 0x1008120, [(0x100000, 16)], [⟨"count", 0, 48, .rw, fun _ => 0⟩]⟩,
   ⟨"NEARCNT", 0x1008128, [(0x100000, 16)], [⟨"count", 0, 48, .rw, fun _ => 0⟩]⟩,
   ⟨"FARCNT", 0x1008130, [(0x100000, 16)], [⟨"count", 0, 48, .rw, fun _ => 0⟩]⟩,
   ⟨"FWDCNT", 0x1008138, [(0x100000, 16)], [⟨"count", 0, 48, .rw, fun _ => 0⟩]⟩,
   ⟨"PORTCTL", 0x2000000, [(0x80000, 8)], [⟨"enable", 0, 1, .rw, fun _ => 1⟩, ⟨"pair", 1, 1, .rws, fun _ => 0⟩, ⟨"role", 2, 2, .rws, fun _ => 0⟩, ⟨"enc_req", 4, 1, .rws, fun _ => 0⟩, ⟨"sluice_cmd_en", 5, 1, .rws, fun _ => 1⟩, ⟨"narrow_ok", 6, 1, .rw, fun _ => 1⟩]⟩,
   ⟨"PORTSTAT", 0x2000008, [(0x80000, 8)], [⟨"state", 0, 3, .ro, fun _ => 0⟩, ⟨"narrow", 3, 1, .ro, fun _ => 0⟩, ⟨"half", 4, 1, .ro, fun _ => 0⟩, ⟨"secured", 5, 1, .ro, fun _ => 0⟩, ⟨"peer_mismatch", 6, 1, .ro, fun _ => 0⟩, ⟨"failover", 7, 1, .ro, fun _ => 0⟩, ⟨"stalled", 8, 1, .ro, fun _ => 0⟩, ⟨"rx_xoff", 9, 3, .ro, fun _ => 0⟩, ⟨"tx_xoff", 12, 3, .ro, fun _ => 0⟩, ⟨"cnt_ovf", 16, 10, .w1c, fun _ => 0⟩, ⟨"laser_a_low", 26, 1, .ro, fun _ => 0⟩, ⟨"laser_b_low", 27, 1, .ro, fun _ => 0⟩, ⟨"sess", 28, 4, .ro, fun _ => 0⟩]⟩,
   ⟨"PORTCMD", 0x2000010, [(0x80000, 8)], [⟨"retrain", 0, 1, .wo, fun _ => 0⟩, ⟨"search_now", 1, 1, .wo, fun _ => 0⟩]⟩,
   ⟨"LINKTMR", 0x2000018, [(0x80000, 8)], [⟨"replay_us", 0, 10, .rw, fun _ => 8⟩, ⟨"rr_hold_ns", 10, 14, .rw, fun _ => 2000⟩, ⟨"replay_limit", 24, 4, .rw, fun _ => 8⟩, ⟨"retrain_us", 28, 12, .rw, fun _ => 1000⟩]⟩,
   ⟨"LINKPWR", 0x2000020, [(0x80000, 8)], [⟨"lpi_en", 0, 1, .rw, fun _ => 1⟩, ⟨"sleep_en", 1, 1, .rw, fun _ => 1⟩, ⟨"lpi_idle_us", 2, 16, .rw, fun _ => 20⟩, ⟨"sleep_idle_ms", 18, 16, .rw, fun _ => 50⟩]⟩,
   ⟨"RXCAP", 0x2000028, [(0x80000, 8), (8, 3)], [⟨"min", 0, 13, .rws, fun _ => 1024⟩, ⟨"max", 16, 13, .rws, fun _ => 4096⟩, ⟨"xon_hyst", 32, 8, .rws, fun _ => 64⟩, ⟨"occ", 48, 13, .ro, fun _ => 0⟩]⟩,
   ⟨"PEERINFO", 0x2000040, [(0x80000, 8)], [⟨"node", 0, 12, .ro, fun _ => 0⟩, ⟨"port", 12, 3, .ro, fun _ => 0⟩, ⟨"valid", 15, 1, .ro, fun _ => 0⟩, ⟨"version", 16, 8, .ro, fun _ => 0⟩, ⟨"flags", 24, 3, .ro, fun _ => 0⟩, ⟨"vc0_slots", 32, 16, .ro, fun _ => 0⟩]⟩,
   ⟨"LINKRTT", 0x2000048, [(0x80000, 8)], [⟨"rtt_ns", 0, 32, .ro, fun _ => 0⟩]⟩,
   ⟨"LANESTAT", 0x2000050, [(0x80000, 8)], [⟨"tx_ok", 0, 8, .ro, fun _ => 0⟩, ⟨"rx_ok", 8, 8, .ro, fun _ => 0⟩, ⟨"ser_ovf", 16, 8, .w1c, fun _ => 0⟩]⟩,
   ⟨"RETAINSTAT", 0x2000058, [(0x80000, 8)], [⟨"unacked", 0, 12, .ro, fun _ => 0⟩, ⟨"retained", 12, 17, .ro, fun _ => 0⟩, ⟨"spilled", 29, 17, .ro, fun _ => 0⟩]⟩,
   ⟨"SEARCHSTAT", 0x2000060, [(0x80000, 8)], [⟨"attempts", 0, 32, .ro, fun _ => 0⟩, ⟨"next_ms", 32, 16, .ro, fun _ => 0⟩]⟩,
   ⟨"FLITTXCNT", 0x2000100, [(0x80000, 8)], [⟨"count", 0, 48, .rw, fun _ => 0⟩]⟩,
   ⟨"FLITRXCNT", 0x2000108, [(0x80000, 8)], [⟨"count", 0, 48, .rw, fun _ => 0⟩]⟩,
   ⟨"CRCERRCNT", 0x2000110, [(0x80000, 8)], [⟨"count", 0, 48, .rw, fun _ => 0⟩]⟩,
   ⟨"REPLAYCNT", 0x2000118, [(0x80000, 8)], [⟨"count", 0, 48, .rw, fun _ => 0⟩]⟩,
   ⟨"RPLREQCNT", 0x2000120, [(0x80000, 8)], [⟨"count", 0, 48, .rw, fun _ => 0⟩]⟩,
   ⟨"FECUNCCNT", 0x2000128, [(0x80000, 8)], [⟨"count", 0, 48, .rw, fun _ => 0⟩]⟩,
   ⟨"SPILLCNT", 0x2000130, [(0x80000, 8)], [⟨"count", 0, 48, .rw, fun _ => 0⟩]⟩,
   ⟨"OVERRUNCNT", 0x2000138, [(0x80000, 8)], [⟨"count", 0, 48, .rw, fun _ => 0⟩]⟩,
   ⟨"TAGFAILCNT", 0x2000140, [(0x80000, 8)], [⟨"count", 0, 48, .rw, fun _ => 0⟩]⟩,
   ⟨"DOWNCNT", 0x2000148, [(0x80000, 8)], [⟨"count", 0, 48, .rw, fun _ => 0⟩]⟩,
   ⟨"LANESERCNT", 0x2000200, [(0x80000, 8), (8, 8)], [⟨"count", 0, 48, .rw, fun _ => 0⟩]⟩,
   ⟨"SLRATE", 0x2040000, [(0x80000, 8), (0x40, 64)], [⟨"cir", 0, 32, .rws, fun _ => 0⟩, ⟨"pir", 32, 32, .rws, fun _ => 0⟩]⟩,
   ⟨"SLBURST", 0x2040008, [(0x80000, 8), (0x40, 64)], [⟨"cbs", 0, 32, .rws, fun _ => 0⟩, ⟨"pbs", 32, 32, .rws, fun _ => 0⟩]⟩,
   ⟨"SLPOL", 0x2040010, [(0x80000, 8), (0x40, 64)], [⟨"en", 0, 1, .rws, fun _ => 0⟩, ⟨"aware", 1, 1, .rws, fun _ => 0⟩, ⟨"yellow", 2, 2, .rws, fun _ => 0⟩, ⟨"red", 4, 2, .rws, fun _ => 0⟩]⟩]

/-- Registers of the window, part 6 (Tables 19-6 to 19-15 and the field tables of each chapter). -/
def table5 : List RegRow :=
  [⟨"SLSTAT", 0x2040018, [(0x80000, 8), (0x40, 64)], [⟨"cmd", 0, 2, .ro, fun _ => 0⟩, ⟨"cmd_src", 2, 1, .ro, fun _ => 0⟩, ⟨"cnt_ovf", 3, 4, .w1c, fun _ => 0⟩, ⟨"cmd_left_us", 32, 32, .ro, fun _ => 0⟩]⟩,
   ⟨"SLGRNCNT", 0x2040020, [(0x80000, 8), (0x40, 64)], [⟨"count", 0, 48, .rw, fun _ => 0⟩]⟩,
   ⟨"SLYELCNT", 0x2040028, [(0x80000, 8), (0x40, 64)], [⟨"count", 0, 48, .rw, fun _ => 0⟩]⟩,
   ⟨"SLREDCNT", 0x2040030, [(0x80000, 8), (0x40, 64)], [⟨"count", 0, 48, .rw, fun _ => 0⟩]⟩,
   ⟨"SLDROPCNT", 0x2040038, [(0x80000, 8), (0x40, 64)], [⟨"count", 0, 48, .rw, fun _ => 0⟩]⟩,
   ⟨"MIDINFO", 0x2400000, [], [⟨"cols", 0, 4, .ro, fun _ => 6⟩, ⟨"rows", 4, 4, .ro, fun _ => 6⟩, ⟨"planes", 8, 2, .ro, fun _ => 2⟩, ⟨"link_bits", 12, 11, .ro, fun _ => 1024⟩, ⟨"mhz", 24, 16, .ro, fun _ => 1600⟩]⟩,
   ⟨"MIDAGENT", 0x2400100, [(8, 36)], [⟨"kind", 0, 64, .ro, Config.midAgent⟩]⟩,
   ⟨"DDRCFG", 0x2800000, [(0x20000, 16)], [⟨"speed", 0, 1, .rw, fun _ => 0⟩, ⟨"dpc", 1, 1, .rw, fun _ => 0⟩, ⟨"mrdimm", 2, 1, .rw, fun _ => 0⟩, ⟨"density", 3, 2, .rw, fun _ => 0⟩, ⟨"dies", 5, 2, .rw, fun _ => 0⟩, ⟨"ranks", 7, 1, .rw, fun _ => 0⟩, ⟨"spare_en", 8, 1, .rw, fun _ => 0⟩, ⟨"ref_mode", 9, 1, .rw, fun _ => 0⟩, ⟨"ref_postpone", 10, 3, .rw, fun _ => 4⟩]⟩,
   ⟨"DDRGEO", 0x2800008, [(0x20000, 16)], [⟨"data_ranks", 0, 4, .ro, fun _ => 0⟩, ⟨"rows", 4, 18, .ro, fun _ => 0⟩, ⟨"chan_gib", 22, 10, .ro, fun _ => 0⟩]⟩,
   ⟨"DDRCMD", 0x2800010, [(0x20000, 16)], [⟨"op", 0, 4, .wo, fun _ => 0⟩, ⟨"slot", 4, 3, .wo, fun _ => 0⟩]⟩,
   ⟨"DDRSTAT", 0x2800018, [(0x20000, 16)], [⟨"state", 0, 3, .ro, fun _ => 0⟩, ⟨"train_fail", 3, 1, .ro, fun _ => 0⟩, ⟨"spare_used", 4, 1, .ro, fun _ => 0⟩, ⟨"batching", 5, 1, .ro, fun _ => 0⟩, ⟨"paused", 6, 1, .ro, fun _ => 0⟩, ⟨"mig_slot", 7, 3, .ro, fun _ => 0⟩, ⟨"cnt_ovf", 16, 8, .w1c, fun _ => 0⟩]⟩,
   ⟨"RANKMAP", 0x2800020, [(0x20000, 16)], [⟨"slot", 0, 32, .ro, fun _ => 0x76543210⟩]⟩,
   ⟨"DDRSPARE", 0x2800028, [(0x20000, 16)], [⟨"spare_phys", 0, 4, .ro, fun _ => 0⟩, ⟨"mig_ptr", 8, 29, .ro, fun _ => 0⟩]⟩,
   ⟨"DDRWM", 0x2800030, [(0x20000, 16)], [⟨"wq_high", 0, 8, .rws, fun _ => 96⟩, ⟨"wq_low", 8, 8, .rws, fun _ => 32⟩, ⟨"wq_idle", 16, 8, .rws, fun _ => 16⟩, ⟨"idle_ns", 24, 16, .rws, fun _ => 500⟩]⟩,
   ⟨"DDRLAT", 0x2800038, [(0x20000, 16), (8, 4)], [⟨"target", 0, 64, .rws, ddrLat⟩]⟩,
   ⟨"DDRURG", 0x2800058, [(0x20000, 16)], [⟨"thr1", 0, 8, .rws, fun _ => 128⟩, ⟨"thr2", 8, 8, .rws, fun _ => 32⟩]⟩,
   ⟨"DDRTRN", 0x2800060, [(0x20000, 16)], [⟨"en", 0, 1, .rw, fun _ => 1⟩, ⟨"period_ms", 8, 8, .ro, fun _ => 20⟩, ⟨"pause_ns", 16, 16, .ro, fun _ => 2000⟩]⟩,
   ⟨"DDRTRNLAST", 0x2800068, [(0x20000, 16)], [⟨"stamp", 0, 64, .ro, fun _ => 0⟩]⟩,
   ⟨"DDRRDCNT", 0x2800100, [(0x20000, 16)], [⟨"count", 0, 48, .rw, fun _ => 0⟩]⟩,
   ⟨"DDRWRCNT", 0x2800108, [(0x20000, 16)], [⟨"count", 0, 48, .rw, fun _ => 0⟩]⟩,
   ⟨"DDRMRGCNT", 0x2800110, [(0x20000, 16)], [⟨"count", 0, 48, .rw, fun _ => 0⟩]⟩,
   ⟨"DDRFWDCNT", 0x2800118, [(0x20000, 16)], [⟨"count", 0, 48, .rw, fun _ => 0⟩]⟩,
   ⟨"DDRBATCHCNT", 0x2800120, [(0x20000, 16)], [⟨"count", 0, 48, .rw, fun _ => 0⟩]⟩,
   ⟨"DDROVERDUECNT", 0x2800128, [(0x20000, 16)], [⟨"count", 0, 48, .rw, fun _ => 0⟩]⟩,
   ⟨"DDRTRNCNT", 0x2800130, [(0x20000, 16)], [⟨"count", 0, 48, .rw, fun _ => 0⟩]⟩,
   ⟨"DDRMIGCNT", 0x2800138, [(0x20000, 16)], [⟨"count", 0, 48, .rw, fun _ => 0⟩]⟩,
   ⟨"ECCCTL", 0x2800400, [(0x20000, 16)], [⟨"patrol_en", 0, 1, .rw, fun _ => 1⟩, ⟨"patrol_hours", 8, 8, .rw, patrolHours⟩]⟩,
   ⟨"ECCERASE", 0x2800408, [(0x20000, 16), (8, 2)], [⟨"erase", 0, 40, .rw, fun _ => 0⟩]⟩,
   ⟨"ECCSTAT", 0x2800418, [(0x20000, 16)], [⟨"cnt_ovf", 0, 4, .w1c, fun _ => 0⟩]⟩,
   ⟨"PATROLPOS", 0x2800420, [(0x20000, 16)], [⟨"line", 0, 32, .ro, fun _ => 0⟩]⟩,
   ⟨"PATROLLAST", 0x2800428, [(0x20000, 16)], [⟨"stamp", 0, 64, .ro, fun _ => 0⟩]⟩,
   ⟨"ECCCECNT", 0x2800430, [(0x20000, 16)], [⟨"count", 0, 48, .rw, fun _ => 0⟩]⟩,
   ⟨"ECCUECNT", 0x2800438, [(0x20000, 16)], [⟨"count", 0, 48, .rw, fun _ => 0⟩]⟩,
   ⟨"ECCADDRCNT", 0x2800440, [(0x20000, 16)], [⟨"count", 0, 48, .rw, fun _ => 0⟩]⟩,
   ⟨"ECCPSNCNT", 0x2800448, [(0x20000, 16)], [⟨"count", 0, 48, .rw, fun _ => 0⟩]⟩,
   ⟨"STKCFG", 0x2a00000, [], [⟨"fill_en", 0, 1, .rws, fun _ => 1⟩, ⟨"ref_postpone", 1, 3, .rws, fun _ => 4⟩]⟩,
   ⟨"STKSTAT", 0x2a00008, [], [⟨"sweeping", 0, 1, .ro, fun _ => 0⟩, ⟨"cnt_ovf", 8, 8, .w1c, fun _ => 0⟩]⟩,
   ⟨"STKWM", 0x2a00010, [], [⟨"wq_high", 0, 8, .rws, fun _ => 24⟩, ⟨"wq_low", 8, 8, .rws, fun _ => 8⟩, ⟨"wq_idle", 16, 8, .rws, fun _ => 4⟩, ⟨"idle_ns", 24, 16, .rws, fun _ => 500⟩]⟩,
   ⟨"STKLAT", 0x2a00018, [(8, 4)], [⟨"target", 0, 64, .rws, stkLat⟩]⟩,
   ⟨"STKURG", 0x2a00038, [], [⟨"thr1", 0, 8, .rws, fun _ => 128⟩, ⟨"thr2", 8, 8, .rws, fun _ => 32⟩]⟩]

/-- Registers of the window, part 7 (Tables 19-6 to 19-15 and the field tables of each chapter). -/
def table6 : List RegRow :=
  [⟨"STKTRNSEL", 0x2a00100, [], [⟨"pc", 0, 6, .rw, fun _ => 0⟩, ⟨"hold", 6, 1, .rw, fun _ => 0⟩, ⟨"mode", 7, 1, .rw, fun _ => 0⟩, ⟨"bank", 8, 4, .rw, fun _ => 0⟩, ⟨"row", 12, 15, .rw, fun _ => 0⟩, ⟨"bursts", 27, 9, .rw, fun _ => 0⟩]⟩,
   ⟨"STKTRNPAT", 0x2a00108, [], [⟨"pattern", 0, 64, .rw, fun _ => 0⟩]⟩,
   ⟨"STKTRNCMD", 0x2a00110, [], [⟨"run", 0, 1, .wo, fun _ => 0⟩, ⟨"clear", 1, 1, .wo, fun _ => 0⟩]⟩,
   ⟨"STKTRNSTAT", 0x2a00118, [], [⟨"busy", 0, 1, .ro, fun _ => 0⟩, ⟨"error", 1, 1, .w1c, fun _ => 0⟩]⟩,
   ⟨"STKTRNERR", 0x2a00120, [(8, 5)], [⟨"errs", 0, 64, .ro, fun _ => 0⟩]⟩,
   ⟨"STKHITCNT", 0x2a00200, [], [⟨"count", 0, 48, .rw, fun _ => 0⟩]⟩,
   ⟨"STKMISSCNT", 0x2a00208, [], [⟨"count", 0, 48, .rw, fun _ => 0⟩]⟩,
   ⟨"STKFILLCNT", 0x2a00210, [], [⟨"count", 0, 48, .rw, fun _ => 0⟩]⟩,
   ⟨"STKWBCNT", 0x2a00218, [], [⟨"count", 0, 48, .rw, fun _ => 0⟩]⟩,
   ⟨"STKBYPCNT", 0x2a00220, [], [⟨"count", 0, 48, .rw, fun _ => 0⟩]⟩,
   ⟨"STKRDCNT", 0x2a00228, [], [⟨"count", 0, 48, .rw, fun _ => 0⟩]⟩,
   ⟨"STKWRCNT", 0x2a00230, [], [⟨"count", 0, 48, .rw, fun _ => 0⟩]⟩,
   ⟨"STKOVERDUECNT", 0x2a00238, [], [⟨"count", 0, 48, .rw, fun _ => 0⟩]⟩,
   ⟨"ECCCTL", 0x2a00400, [], [⟨"patrol_en", 0, 1, .rw, fun _ => 1⟩, ⟨"patrol_hours", 8, 8, .rw, patrolHours⟩]⟩,
   ⟨"ECCSTAT", 0x2a00408, [], [⟨"cnt_ovf", 0, 4, .w1c, fun _ => 0⟩]⟩,
   ⟨"PATROLPOS", 0x2a00410, [], [⟨"line", 0, 32, .ro, fun _ => 0⟩]⟩,
   ⟨"PATROLLAST", 0x2a00418, [], [⟨"stamp", 0, 64, .ro, fun _ => 0⟩]⟩,
   ⟨"ECCCECNT", 0x2a00420, [], [⟨"count", 0, 48, .rw, fun _ => 0⟩]⟩,
   ⟨"ECCUECNT", 0x2a00428, [], [⟨"count", 0, 48, .rw, fun _ => 0⟩]⟩,
   ⟨"ECCADDRCNT", 0x2a00430, [], [⟨"count", 0, 48, .rw, fun _ => 0⟩]⟩,
   ⟨"ECCPSNCNT", 0x2a00438, [], [⟨"count", 0, 48, .rw, fun _ => 0⟩]⟩,
   ⟨"STKPANLINES", 0x2a01000, [(8, 64)], [⟨"lines", 0, 32, .ro, fun _ => 0⟩, ⟨"cap", 32, 32, .ro, fun _ => 0⟩]⟩,
   ⟨"STKCHSTAT", 0x2a10000, [(0x1000, 32)], [⟨"hold", 0, 2, .ro, fun _ => 0⟩, ⟨"batching", 2, 1, .ro, fun _ => 0⟩]⟩,
   ⟨"STKDLY", 0x2a10100, [(0x1000, 32), (0x48, 2), (8, 9)], [⟨"dly", 0, 64, .rw, Config.trainedDelay⟩]⟩,
   ⟨"HEAPCFG", 0x2c00000, [], [⟨"en_mask", 0, 8, .rw, fun _ => 0xFF⟩, ⟨"plp_mask", 8, 8, .rws, fun _ => 0⟩, ⟨"flush_gbps", 16, 8, .rws, fun _ => 0⟩, ⟨"cmd_timeout_ms", 24, 16, .rw, fun _ => 100⟩]⟩,
   ⟨"HEAPSTAT", 0x2c00008, [], [⟨"state", 0, 2, .ro, fun _ => 0⟩, ⟨"ndrives", 2, 4, .ro, fun _ => 0⟩, ⟨"log_limit", 6, 11, .ro, fun _ => 0⟩, ⟨"cnt_ovf", 17, 6, .w1c, fun _ => 0⟩]⟩,
   ⟨"HEAPCMD", 0x2c00010, [], [⟨"op", 0, 4, .wo, fun _ => 0⟩]⟩,
   ⟨"DURCTL", 0x2c00018, [], [⟨"ckpt_ms", 0, 16, .rws, fun _ => 100⟩, ⟨"close_ns", 16, 16, .rws, fun _ => 2000⟩, ⟨"ckpt_pct", 32, 7, .rws, fun _ => 50⟩]⟩,
   ⟨"DURSTAT", 0x2c00020, [], [⟨"last_flush", 0, 2, .ro, fun _ => 0⟩, ⟨"recovering", 2, 1, .ro, fun _ => 0⟩]⟩,
   ⟨"HEAPPORT", 0x2c00100, [(8, 8)], [⟨"state", 0, 3, .ro, fun _ => 0⟩, ⟨"index", 3, 3, .ro, fun _ => 0⟩, ⟨"pi", 6, 2, .ro, fun _ => 0⟩, ⟨"rate", 8, 3, .ro, fun _ => 0⟩, ⟨"nsid", 11, 21, .rw, fun _ => 1⟩, ⟨"cap", 32, 32, .ro, fun _ => 0⟩]⟩,
   ⟨"HEAPRDCNT", 0x2c00200, [], [⟨"count", 0, 48, .rw, fun _ => 0⟩]⟩,
   ⟨"HEAPWRCNT", 0x2c00208, [], [⟨"count", 0, 48, .rw, fun _ => 0⟩]⟩,
   ⟨"HEAPERRCNT", 0x2c00210, [], [⟨"count", 0, 48, .rw, fun _ => 0⟩]⟩,
   ⟨"DURLINECNT", 0x2c00218, [], [⟨"count", 0, 48, .rw, fun _ => 0⟩]⟩,
   ⟨"DURCKPTCNT", 0x2c00220, [], [⟨"count", 0, 48, .rw, fun _ => 0⟩]⟩,
   ⟨"DURFULLCNT", 0x2c00228, [], [⟨"count", 0, 48, .rw, fun _ => 0⟩]⟩,
   ⟨"SECSTAT", 0x3000000, [], [⟨"state", 0, 3, .ro, fun _ => 0⟩, ⟨"tamper_latched", 3, 1, .ro, fun _ => 0⟩, ⟨"debug_unlocked", 4, 1, .ro, fun _ => 0⟩, ⟨"owner_set", 5, 1, .ro, fun _ => 0⟩, ⟨"pres_window", 6, 1, .ro, fun _ => 0⟩, ⟨"pres_stuck", 7, 1, .ro, fun _ => 0⟩, ⟨"ownclr", 8, 1, .ro, fun _ => 0⟩, ⟨"seal_valid", 9, 1, .ro, fun _ => 1⟩]⟩,
   ⟨"SECPOLICY", 0x3000008, [], [⟨"policy", 0, 64, .ro, fun _ => 0⟩]⟩,
   ⟨"SECPOLDIG", 0x3000010, [(8, 6)], [⟨"digest", 0, 64, .ro, fun _ => 0⟩]⟩,
   ⟨"TENANTDIG", 0x3000040, [(8, 6)], [⟨"digest", 0, 64, .ro, fun _ => 0⟩]⟩]

/-- Registers of the window, part 8 (Tables 19-6 to 19-15 and the field tables of each chapter). -/
def table7 : List RegRow :=
  [⟨"SECVER", 0x3000070, [], [⟨"floor", 0, 16, .ro, fun _ => 0⟩, ⟨"running", 16, 16, .ro, fun _ => 0⟩, ⟨"rollback_pending", 32, 1, .ro, fun _ => 0⟩]⟩,
   ⟨"PRESSTAT", 0x3000078, [], [⟨"window_s", 0, 6, .ro, fun _ => 0⟩, ⟨"long_press", 6, 1, .w1c, fun _ => 0⟩, ⟨"presses", 16, 16, .ro, fun _ => 0⟩]⟩,
   ⟨"SWITCHSTAT", 0x3000080, [], [⟨"zeroing", 0, 1, .ro, fun _ => 0⟩, ⟨"full_zero", 1, 1, .ro, fun _ => 0⟩, ⟨"last_us", 32, 32, .ro, fun _ => 0⟩]⟩,
   ⟨"PANKEY", 0x3000100, [(8, 64)], [⟨"valid", 0, 1, .ro, fun _ => 0⟩, ⟨"source", 1, 2, .ro, fun _ => 0⟩, ⟨"key_id", 32, 32, .ro, fun _ => 0⟩]⟩,
   ⟨"PORTSEC", 0x3000300, [(8, 8)], [⟨"spdm", 0, 2, .ro, fun _ => 0⟩, ⟨"secured", 2, 1, .ro, fun _ => 0⟩, ⟨"domain", 3, 1, .ro, fun _ => 0⟩, ⟨"generation", 4, 8, .ro, fun _ => 0⟩, ⟨"tx_seq_hi", 16, 48, .ro, fun _ => 0⟩]⟩,
   ⟨"SPDMREQCNT", 0x3000400, [], [⟨"count", 0, 48, .rw, fun _ => 0⟩]⟩,
   ⟨"SEALDENYCNT", 0x3000408, [], [⟨"count", 0, 48, .rw, fun _ => 0⟩]⟩,
   ⟨"KEYSCNT", 0x3000410, [], [⟨"count", 0, 48, .rw, fun _ => 0⟩]⟩,
   ⟨"PRESREFCNT", 0x3000418, [], [⟨"count", 0, 48, .rw, fun _ => 0⟩]⟩,
   ⟨"SECCNTSTAT", 0x3000420, [], [⟨"cnt_ovf", 0, 4, .w1c, fun _ => 0⟩]⟩,
   ⟨"MGMTCTL", 0x3100000, [], [⟨"eth_en", 0, 1, .rw, fun _ => 1⟩, ⟨"i3c_en", 1, 1, .rw, fun _ => 1⟩, ⟨"udp_port", 16, 16, .rw, fun _ => 48620⟩]⟩,
   ⟨"MGMTSTAT", 0x3100008, [], [⟨"eth_link", 0, 1, .ro, fun _ => 0⟩, ⟨"i3c_addr", 1, 7, .ro, fun _ => 0⟩, ⟨"sessions", 8, 3, .ro, fun _ => 0⟩, ⟨"subscribers", 11, 4, .ro, fun _ => 0⟩, ⟨"cnt_ovf", 15, 3, .w1c, fun _ => 0⟩]⟩,
   ⟨"EVBASE", 0x3100010, [], [⟨"base", 0, 52, .ro, fun _ => Config.evBase⟩]⟩,
   ⟨"EVPOS", 0x3100018, [], [⟨"producer", 0, 32, .ro, fun _ => 0⟩, ⟨"consumer", 32, 32, .rw, fun _ => 0⟩]⟩,
   ⟨"TRACECTL", 0x3100020, [], [⟨"en", 0, 1, .rw, fun _ => 0⟩, ⟨"stop_on_full", 1, 1, .rw, fun _ => 0⟩, ⟨"stopped", 2, 1, .w1c, fun _ => 0⟩]⟩,
   ⟨"TRACEBASE", 0x3100028, [], [⟨"base", 0, 52, .ro, fun _ => Config.traceBase⟩]⟩,
   ⟨"TRACEPOS", 0x3100030, [], [⟨"producer", 0, 64, .ro, fun _ => 0⟩]⟩,
   ⟨"DUMPCMD", 0x3100038, [], [⟨"dump", 0, 1, .wo, fun _ => 0⟩, ⟨"mark_read", 1, 2, .wo, fun _ => 0⟩]⟩,
   ⟨"DUMPSTAT", 0x3100040, [], [⟨"slot0", 0, 2, .ro, fun _ => 0⟩, ⟨"slot1", 2, 2, .ro, fun _ => 0⟩, ⟨"pending", 4, 1, .ro, fun _ => 0⟩, ⟨"lost", 16, 8, .ro, fun _ => 0⟩]⟩,
   ⟨"TRACEEN", 0x3100100, [(8, 28)], [⟨"groups", 0, 64, .rw, fun _ => 0⟩]⟩,
   ⟨"MGMTREQCNT", 0x3100200, [], [⟨"count", 0, 48, .rw, fun _ => 0⟩]⟩,
   ⟨"MGMTERRCNT", 0x3100208, [], [⟨"count", 0, 48, .rw, fun _ => 0⟩]⟩,
   ⟨"PUBCNT", 0x3100210, [], [⟨"count", 0, 48, .rw, fun _ => 0⟩]⟩,
   ⟨"MONCTL", 0x3200000, [], [⟨"t_warn", 0, 7, .rw, fun _ => 90⟩, ⟨"age_period_h", 8, 16, .ro, fun _ => 168⟩, ⟨"plan_period_h", 24, 16, .ro, fun _ => 720⟩]⟩,
   ⟨"AGEPLAN", 0x3200008, [], [⟨"steps", 0, 6, .ro, fun _ => 0⟩, ⟨"points_ok", 6, 5, .ro, fun _ => 0x1F⟩, ⟨"limit", 11, 1, .ro, fun _ => 0⟩, ⟨"d_max", 32, 32, .ro, fun _ => 0⟩]⟩,
   ⟨"AGELAST", 0x3200010, [], [⟨"stamp", 0, 64, .ro, fun _ => 0⟩]⟩,
   ⟨"TEMP", 0x3200100, [(8, 48)], [⟨"reading", 0, 12, .ro, fun _ => 0⟩, ⟨"fail", 12, 1, .ro, fun _ => 0⟩, ⟨"max_c", 16, 8, .rc, fun _ => 0⟩]⟩,
   ⟨"VMON", 0x3200280, [(8, 24)], [⟨"mv", 0, 11, .ro, fun _ => 0⟩, ⟨"low_mv", 16, 11, .rw, vmonLow⟩, ⟨"high_mv", 32, 11, .rw, vmonHigh⟩, ⟨"out", 48, 1, .w1c, fun _ => 0⟩]⟩,
   ⟨"PMON", 0x3200340, [(8, 64)], [⟨"mhz", 0, 16, .ro, fun _ => 0⟩]⟩,
   ⟨"AGE", 0x3200540, [(8, 32)], [⟨"d_ppm", 0, 24, .ro, fun _ => 0⟩]⟩,
   ⟨"CARINFO", 0x1007000, [(0x100000, 16)], [⟨"nreq", 0, 5, .ro, carNreq⟩, ⟨"pre_idx", 8, 4, .ro, carPreIdx⟩, ⟨"kind", 12, 2, .ro, carKind⟩]⟩,
   ⟨"CARPRI", 0x1007008, [(0x100000, 16)], [⟨"class", 0, 32, .rws, carClass⟩]⟩,
   ⟨"CARSTATE", 0x1007010, [(0x100000, 16)], [⟨"masked", 0, 16, .ro, fun _ => 0⟩, ⟨"owner", 16, 4, .ro, fun _ => 0⟩, ⟨"parked", 20, 1, .ro, fun _ => 0⟩, ⟨"preempted", 21, 1, .ro, fun _ => 0⟩]⟩,
   ⟨"CARTHR", 0x1007018, [(0x100000, 16)], [⟨"starve_thresh", 0, 32, .rw, fun _ => 0x00010000⟩]⟩,
   ⟨"CARPRECNT", 0x1007020, [(0x100000, 16)], [⟨"count", 0, 48, .rw, fun _ => 0⟩]⟩,
   ⟨"CARSTAT", 0x1007028, [(0x100000, 16)], [⟨"pre_ovf", 0, 1, .w1c, fun _ => 0⟩, ⟨"starve", 16, 16, .w1c, fun _ => 0⟩]⟩,
   ⟨"CARWAIT", 0x1007040, [(0x100000, 16), (8, 16)], [⟨"cur_wait", 0, 32, .ro, fun _ => 0⟩, ⟨"max_wait", 32, 32, .rc, fun _ => 0⟩]⟩,
   ⟨"CARINFO", 0x2410000, [(0x100, 72)], [⟨"nreq", 0, 5, .ro, carNreq⟩, ⟨"pre_idx", 8, 4, .ro, carPreIdx⟩, ⟨"kind", 12, 2, .ro, carKind⟩]⟩,
   ⟨"CARPRI", 0x2410008, [(0x100, 72)], [⟨"class", 0, 32, .rws, carClass⟩]⟩,
   ⟨"CARSTATE", 0x2410010, [(0x100, 72)], [⟨"masked", 0, 16, .ro, fun _ => 0⟩, ⟨"owner", 16, 4, .ro, fun _ => 0⟩, ⟨"parked", 20, 1, .ro, fun _ => 0⟩, ⟨"preempted", 21, 1, .ro, fun _ => 0⟩]⟩]

/-- Registers of the window, part 9 (Tables 19-6 to 19-15 and the field tables of each chapter). -/
def table8 : List RegRow :=
  [⟨"CARTHR", 0x2410018, [(0x100, 72)], [⟨"starve_thresh", 0, 32, .rw, fun _ => 0x00010000⟩]⟩,
   ⟨"CARPRECNT", 0x2410020, [(0x100, 72)], [⟨"count", 0, 48, .rw, fun _ => 0⟩]⟩,
   ⟨"CARSTAT", 0x2410028, [(0x100, 72)], [⟨"pre_ovf", 0, 1, .w1c, fun _ => 0⟩, ⟨"starve", 16, 16, .w1c, fun _ => 0⟩]⟩,
   ⟨"CARWAIT", 0x2410040, [(0x100, 72), (8, 16)], [⟨"cur_wait", 0, 32, .ro, fun _ => 0⟩, ⟨"max_wait", 32, 32, .rc, fun _ => 0⟩]⟩,
   ⟨"CARINFO", 0x2801000, [(0x20000, 16)], [⟨"nreq", 0, 5, .ro, carNreq⟩, ⟨"pre_idx", 8, 4, .ro, carPreIdx⟩, ⟨"kind", 12, 2, .ro, carKind⟩]⟩,
   ⟨"CARPRI", 0x2801008, [(0x20000, 16)], [⟨"class", 0, 32, .rws, carClass⟩]⟩,
   ⟨"CARSTATE", 0x2801010, [(0x20000, 16)], [⟨"masked", 0, 16, .ro, fun _ => 0⟩, ⟨"owner", 16, 4, .ro, fun _ => 0⟩, ⟨"parked", 20, 1, .ro, fun _ => 0⟩, ⟨"preempted", 21, 1, .ro, fun _ => 0⟩]⟩,
   ⟨"CARTHR", 0x2801018, [(0x20000, 16)], [⟨"starve_thresh", 0, 32, .rw, fun _ => 0x00010000⟩]⟩,
   ⟨"CARPRECNT", 0x2801020, [(0x20000, 16)], [⟨"count", 0, 48, .rw, fun _ => 0⟩]⟩,
   ⟨"CARSTAT", 0x2801028, [(0x20000, 16)], [⟨"pre_ovf", 0, 1, .w1c, fun _ => 0⟩, ⟨"starve", 16, 16, .w1c, fun _ => 0⟩]⟩,
   ⟨"CARWAIT", 0x2801040, [(0x20000, 16), (8, 16)], [⟨"cur_wait", 0, 32, .ro, fun _ => 0⟩, ⟨"max_wait", 32, 32, .rc, fun _ => 0⟩]⟩,
   ⟨"CARINFO", 0x2a10800, [(0x1000, 32)], [⟨"nreq", 0, 5, .ro, carNreq⟩, ⟨"pre_idx", 8, 4, .ro, carPreIdx⟩, ⟨"kind", 12, 2, .ro, carKind⟩]⟩,
   ⟨"CARPRI", 0x2a10808, [(0x1000, 32)], [⟨"class", 0, 32, .rws, carClass⟩]⟩,
   ⟨"CARSTATE", 0x2a10810, [(0x1000, 32)], [⟨"masked", 0, 16, .ro, fun _ => 0⟩, ⟨"owner", 16, 4, .ro, fun _ => 0⟩, ⟨"parked", 20, 1, .ro, fun _ => 0⟩, ⟨"preempted", 21, 1, .ro, fun _ => 0⟩]⟩,
   ⟨"CARTHR", 0x2a10818, [(0x1000, 32)], [⟨"starve_thresh", 0, 32, .rw, fun _ => 0x00010000⟩]⟩,
   ⟨"CARPRECNT", 0x2a10820, [(0x1000, 32)], [⟨"count", 0, 48, .rw, fun _ => 0⟩]⟩,
   ⟨"CARSTAT", 0x2a10828, [(0x1000, 32)], [⟨"pre_ovf", 0, 1, .w1c, fun _ => 0⟩, ⟨"starve", 16, 16, .w1c, fun _ => 0⟩]⟩,
   ⟨"CARWAIT", 0x2a10840, [(0x1000, 32), (8, 16)], [⟨"cur_wait", 0, 32, .ro, fun _ => 0⟩, ⟨"max_wait", 32, 32, .rc, fun _ => 0⟩]⟩]

/-- R544: every register of the device. -/
def table : List RegRow := table0 ++ table1 ++ table2 ++ table3 ++ table4 ++ table5 ++ table6 ++ table7 ++ table8

/-- Whether `x` is an offset into an array of the given strides and counts. -/
def inDims : List (Nat × Nat) → Nat → Bool
  | [], x => x = 0
  | (st, c) :: t, x => decide (x / st < c) && inDims t (x % st)

/-- R544: the register at window offset `o`, if there is one; every other offset is reserved (R536). -/
def find (o : Nat) : Option RegRow := table.find? (fun r => r.base ≤ o && inDims r.dims (o - r.base))

end Csr

end Sys2Proof.Machine
end

