-- ==== Sys2Proof/Machine/Events.lean ====
section
/-!
DEFINITION. The event IDs of the device (R12), one constant per row of the chapters' event tables.
-/
namespace Sys2Proof.Machine.Ev

/-- 0x0740, Table 02-5: A tier's over_soft bit in PANSTAT goes from 0 to 1. Either an allocation sets it, or a commit that lowers the soft quota below the usage (R41) does. -/
def PAN_SOFT_EXCEEDED : Nat := 0x0740
/-- 0x0741, Table 02-5: A pan's spill_used goes from zero to non-zero -/
def PAN_SPILL_STARTED : Nat := 0x0741
/-- 0x0742, Table 02-5: An allocation could have spilled but for the spill budget, while the event is armed -/
def PAN_SPILL_EXHAUSTED : Nat := 0x0742
/-- 0x0743, Table 02-5: A pan's first QUOTA refusal since PANQREFCNT was last cleared -/
def PAN_QUOTA_REFUSED : Nat := 0x0743
/-- 0x0744, Table 02-5: A stacked-DRAM segment finishes a change of mode, in either direction -/
def STK_SEG_FLIPPED : Nat := 0x0744
/-- 0x0745, Table 02-5: A lend offer fills a slot -/
def LENT_OFFERED : Nat := 0x0745
/-- 0x0746, Table 02-5: A recall completes -/
def LENT_RECALL_DONE : Nat := 0x0746
/-- 0x0747, Table 02-5: A lent extent becomes LOST -/
def LENT_LOST : Nat := 0x0747
/-- 0x0748, Table 02-5: A recall could not place some pages -/
def LENT_PAGES_DROPPED : Nat := 0x0748
/-- 0x0749, Table 02-5: A mirrored pan loses its twin -/
def PAN_MIRROR_DEGRADED : Nat := 0x0749
/-- 0x074A, Table 02-5: PANSPILLCNT or PANQREFCNT saturates under R6 -/
def PAN_COUNT_OVF : Nat := 0x074A
/-- 0x0920, Table 03-9: Admission meets a wrong phase, once per doorbell -/
def ENTRY_PHASE_STALE : Nat := 0x0920
/-- 0x0921, Table 03-9: An entry ends with MALFORMED at admission -/
def ENTRY_MALFORMED : Nat := 0x0921
/-- 0x0922, Table 03-9: A queue's admission first waits for shadow space, once until it next admits -/
def SHADOW_WAIT : Nat := 0x0922
/-- 0x0923, Table 03-9: An entry is stopped by its run limit -/
def RUN_LIMIT_ABORT : Nat := 0x0923
/-- 0x0924, Table 03-9: A pan's dispatch first waits for a park slot, once until a slot is freed -/
def PARK_SLOTS_EXHAUSTED : Nat := 0x0924
/-- 0x0925, Table 03-9: A completion notice found no path -/
def NOTICE_DROPPED : Nat := 0x0925
/-- 0x0926, Table 03-9: ICHITCNT, ICMISSCNT, PARKCNT or ABORTCNT of a stall saturates under R6 -/
def PROG_COUNT_OVF : Nat := 0x0926
/-- 0x0930, Table 05-15: CMCHUNKCNT or CMPASSCNT -/
def CM_CHUNKED : Nat := 0x0930
/-- 0x0931, Table 05-15: CMNONFINCNT -/
def CM_NONFINITE : Nat := 0x0931
/-- 0x0932, Table 05-15: CMNOHELPCNT -/
def CM_NO_HELPERS : Nat := 0x0932
/-- 0x0933, Table 05-15: Any counter of Table 05-14, at saturation -/
def CM_COUNT_OVF : Nat := 0x0933
/-- 0x0901, Table 06-6: A queue's doorbell is refused THROTTLED under row 6, once until a doorbell of that queue succeeds -/
def DOORBELL_REFUSED : Nat := 0x0901
/-- 0x0902, Table 06-6: A doorbell ends MALFORMED or PERMISSION. The source is the receiving port (src_kind 2). In the data, bytes 18:16 hold the queue ID in bits [18:0] and byte 19 holds the status. -/
def DOORBELL_INVALID : Nat := 0x0902
/-- 0x0903, Table 06-6: Admission waits for completion-ring space under R180 -/
def CQ_WAIT : Nat := 0x0903
/-- 0x0904, Table 06-6: A move completes -/
def QUEUE_MOVED : Nat := 0x0904
/-- 0x0905, Table 06-6: A queue reaches STOPPED: by a STOP command, by the stop of R34 when its pan enters DRAINING, or under R257 -/
def QUEUE_STOPPED : Nat := 0x0905
/-- 0x0906, Table 06-6: A counter of this chapter saturates under R6 -/
def SCHED_COUNT_OVF : Nat := 0x0906
/-- 0x0910, Table 06-6: A pan's first RED at a port since SLREDCNT was last cleared -/
def SLUICE_RED : Nat := 0x0910
/-- 0x0911, Table 06-6: A Sluice command takes effect -/
def SLUICE_CMD : Nat := 0x0911
/-- 0x0912, Table 06-6: A command expires or is released -/
def SLUICE_CMD_END : Nat := 0x0912
/-- 0x0918, Table 06-6: A starvation gauge reaches starve_thresh -/
def CAROUSEL_STARVE : Nat := 0x0918
/-- 0x0A01, Table 07-13: A pan's batch first waits for ring space, once until a batch is posted -/
def FQ_FULL : Nat := 0x0A01
/-- 0x0A02, Table 07-13: A resume is discarded under R221 -/
def RESUME_STALE : Nat := 0x0A02
/-- 0x0A03, Table 07-13: A walk reads a page-table entry with poison -/
def PT_POISON : Nat := 0x0A03
/-- 0x0A04, Table 07-13: A counter of Table 07-12 saturates -/
def XLATE_COUNT_OVF : Nat := 0x0A04
/-- 0x0A05, Table 07-13: A pan's FAULTCNT goes from zero to non-zero -/
def PAN_FIRST_FAULT : Nat := 0x0A05
/-- 0x0340, Table 08-8: A channel fails bring-up under R226 -/
def DDR_TRAIN_FAIL : Nat := 0x0340
/-- 0x0341, Table 08-8: A channel goes out of service under R228 or R17 -/
def DDR_CHANNEL_OOS : Nat := 0x0341
/-- 0x0342, Table 08-8: A retrain pause of R228 begins -/
def DDR_BUS_RETRAIN : Nat := 0x0342
/-- 0x0343, Table 08-8: A migration begins -/
def DDR_SPARE_START : Nat := 0x0343
/-- 0x0344, Table 08-8: A migration completes -/
def DDR_SPARE_DONE : Nat := 0x0344
/-- 0x0345, Table 08-8: An uncorrectable read or a MIGRATE finds no usable spare -/
def DDR_SPARE_NONE : Nat := 0x0345
/-- 0x0346, Table 08-8: A channel's overdue counter goes from zero to non-zero -/
def DRAM_OVERDUE : Nat := 0x0346
/-- 0x0347, Table 08-8: A pseudo-channel has been held for more than 100 µs -/
def STK_TRAIN_HOLD : Nat := 0x0347
/-- 0x0348, Table 08-8: A counter of this chapter saturates under R6 -/
def DRAM_COUNT_OVF : Nat := 0x0348
/-- 0x0301, Table 09-8: A correctable counter of a store goes from zero to non-zero -/
def MEM_CE_FIRST : Nat := 0x0301
/-- 0x0302, Table 09-8: An UNCORRECTABLE outcome is logged, once per record -/
def MEM_UE : Nat := 0x0302
/-- 0x0303, Table 09-8: An ADDRESS outcome or an SRAM row error is logged -/
def MEM_ADDRESS : Nat := 0x0303
/-- 0x0304, Table 09-8: A queue context is lost under R257 -/
def SRAM_STRUCT_LOST : Nat := 0x0304
/-- 0x0305, Table 09-8: A record is dropped under R266 -/
def ERRLOG_FULL : Nat := 0x0305
/-- 0x0306, Table 09-8: A GRANULE or RANK_GRANULES operation completes -/
def RETIRE_DONE : Nat := 0x0306
/-- 0x0307, Table 09-8: A row repair completes -/
def PPR_DONE : Nat := 0x0307
/-- 0x0308, Table 09-8: A row repair ends with PPR_FAIL -/
def PPR_FAIL : Nat := 0x0308
/-- 0x0309, Table 09-8: A patrol pass of a store ends -/
def PATROL_PASS : Nat := 0x0309
/-- 0x030A, Table 09-8: A counter of this chapter saturates under R6 -/
def ECC_COUNT_OVF : Nat := 0x030A
/-- 0x0B01, Table 10-4: A heap port becomes READY -/
def HEAP_PORT_UP : Nat := 0x0B01
/-- 0x0B02, Table 10-4: A heap port becomes FAILED under R299 -/
def HEAP_PORT_FAILED : Nat := 0x0B02
/-- 0x0B03, Table 10-4: A heap block read fails under R288 -/
def HEAP_READ_FAIL : Nat := 0x0B03
/-- 0x0B04, Table 10-4: A heap write fails twice -/
def HEAP_WRITE_FAIL : Nat := 0x0B04
/-- 0x0B05, Table 10-4: A durable pan's ring is first found full -/
def DUR_LOG_FULL : Nat := 0x0B05
/-- 0x0B06, Table 10-4: A durable pan loses a backing SSD -/
def DUR_DEGRADED : Nat := 0x0B06
/-- 0x0B07, Table 10-4: A power-fail flush begins -/
def DUR_FLUSH_START : Nat := 0x0B07
/-- 0x0B08, Table 10-4: The flush marker is written -/
def DUR_FLUSH_DONE : Nat := 0x0B08
/-- 0x0B09, Table 10-4: The flush passes 4.0 ms -/
def DUR_FLUSH_LATE : Nat := 0x0B09
/-- 0x0B0A, Table 10-4: A durable pan completes recovery -/
def DUR_RECOVERED : Nat := 0x0B0A
/-- 0x0B0B, Table 10-4: A pan's replay stops at a gap -/
def DUR_RECOVERY_GAP : Nat := 0x0B0B
/-- 0x0B0C, Table 10-4: R286 first ends a sweep on QUOTA -/
def HEAP_AUTO_DEMOTE : Nat := 0x0B0C
/-- 0x0B0D, Table 10-4: A counter of Table 10-7 saturates -/
def HEAP_COUNT_OVF : Nat := 0x0B0D
/-- 0x0601, Table 11-8: A member is declared lost under R326 -/
def COH_AGENT_LOST : Nat := 0x0601
/-- 0x0602, Table 11-8: A sweep of R326 or R327 ends -/
def COH_SWEEP_DONE : Nat := 0x0602
/-- 0x0603, Table 11-8: A breach under R310, once per line -/
def COH_PROTOCOL : Nat := 0x0603
/-- 0x0604, Table 11-8: A request of this device ends RETRY under R319 -/
def COH_RETRY_EXHAUSTED : Nat := 0x0604
/-- 0x0605, Table 11-8: A slice first finds no reservation entry, once until one is made again -/
def COH_RESV_FULL : Nat := 0x0605
/-- 0x0606, Table 11-8: A counter of Table 11-10 saturates -/
def COH_COUNT_OVF : Nat := 0x0606
/-- 0x0401, Table 12-15: A link opens a session -/
def LINK_UP : Nat := 0x0401
/-- 0x0402, Table 12-15: A link goes down, R338 or R366 -/
def LINK_DOWN : Nat := 0x0402
/-- 0x0403, Table 12-15: A link enters SEARCHING -/
def LINK_SEARCHING : Nat := 0x0403
/-- 0x0404, Table 12-15: A link opens a session at 4 lanes -/
def LINK_NARROW : Nat := 0x0404
/-- 0x0405, Table 12-15: A laser input falls low under R336 -/
def LASER_LOW : Nat := 0x0405
/-- 0x0406, Table 12-15: A link enters RETRAIN -/
def LINK_RETRAIN : Nat := 0x0406
/-- 0x0407, Table 12-15: A handover under R368 begins -/
def FAILOVER_START : Nat := 0x0407
/-- 0x0408, Table 12-15: It ends -/
def FAILOVER_DONE : Nat := 0x0408
/-- 0x0409, Table 12-15: A spilled flit reads back uncorrectable -/
def FAILOVER_LOSS : Nat := 0x0409
/-- 0x040A, Table 12-15: Spill enters STALLED -/
def RETAIN_STALL : Nat := 0x040A
/-- 0x040B, Table 12-15: A flit is discarded under R357 -/
def RX_OVERRUN : Nat := 0x040B
/-- 0x040C, Table 12-15: A TAG fails to verify -/
def TAG_FAIL : Nat := 0x040C
/-- 0x040D, Table 12-15: An INIT fails a check of R344 -/
def PEER_MISMATCH : Nat := 0x040D
/-- 0x040E, Table 12-15: A control message is ignored under R371 or R372 -/
def CTRL_IGNORED : Nat := 0x040E
/-- 0x040F, Table 12-15: A counter of Table 12-17 saturates under R6 -/
def LINK_COUNT_OVF : Nat := 0x040F
/-- 0x0501, Table 13-8: A hold takes effect, R396 -/
def FAB_DRAIN_HELD : Nat := 0x0501
/-- 0x0502, Table 13-8: FABSTAT.drained becomes 1 -/
def FAB_DRAINED : Nat := 0x0502
/-- 0x0503, Table 13-8: A hold ends by release -/
def FAB_DRAIN_RELEASED : Nat := 0x0503
/-- 0x0504, Table 13-8: A hold ends after hold_ms -/
def FAB_DRAIN_TIMEOUT : Nat := 0x0504
/-- 0x0505, Table 13-8: NOPATHCNT goes from zero to non-zero -/
def FAB_NO_PATH : Nat := 0x0505
/-- 0x0506, Table 13-8: EXPIRECNT goes from zero to non-zero -/
def FAB_EXPIRED : Nat := 0x0506
/-- 0x0507, Table 13-8: A request waits for a cache entry, R388 -/
def FAB_CC_FULL : Nat := 0x0507
/-- 0x0508, Table 13-8: A ROUTE down bit changes -/
def FAB_NODE_STATE : Nat := 0x0508
/-- 0x0509, Table 13-8: NXBADCNT goes from zero to non-zero -/
def NX_BAD_MESSAGE : Nat := 0x0509
/-- 0x050A, Table 13-8: The twin is declared lost, R400 -/
def TWIN_LOST : Nat := 0x050A
/-- 0x050B, Table 13-8: A counter of Table 13-10 saturates under R6 -/
def FAB_COUNT_OVF : Nat := 0x050B
/-- 0x0701, Table 14-10: A commit flips EPOCHCUR -/
def EPOCH_COMMIT : Nat := 0x0701
/-- 0x0702, Table 14-10: A commit or dry run is refused -/
def EPOCH_REFUSED : Nat := 0x0702
/-- 0x0703, Table 14-10: R409 -/
def EPOCH_DRAIN_SLOW : Nat := 0x0703
/-- 0x0704, Table 14-10: GATEREFCNT goes from zero to non-zero -/
def GATE_REFUSED : Nat := 0x0704
/-- 0x0705, Table 14-10: A CLAIM completes -/
def CLAIM_RAISED : Nat := 0x0705
/-- 0x0706, Table 14-10: An instance is declared failed, R418 -/
def RM_FAILED : Nat := 0x0706
/-- 0x0707, Table 14-10: A takeover reaches step 6 -/
def RM_TAKEOVER : Nat := 0x0707
/-- 0x0708, Table 14-10: A partial buffer is discarded -/
def RM_SNAPSHOT_DISCARDED : Nat := 0x0708
/-- 0x0709, Table 14-10: Replay ends; the record count is in the event data -/
def RM_JOURNAL_REPLAYED : Nat := 0x0709
/-- 0x070A, Table 14-10: An instance enters STANDBY -/
def RM_STANDBY_READY : Nat := 0x070A
/-- 0x070B, Table 14-10: No instance can take over -/
def RM_NONE : Nat := 0x070B
/-- 0x070C, Table 14-10: R422 step 1 -/
def STALL_FAILED : Nat := 0x070C
/-- 0x070D, Table 14-10: R422 step 4 completes -/
def STALL_QUEUES_MOVED : Nat := 0x070D
/-- 0x070E, Table 14-10: Pairing completes -/
def TWIN_PAIRED : Nat := 0x070E
/-- 0x070F, Table 14-10: R430 -/
def TWIN_TAKEOVER : Nat := 0x070F
/-- 0x0710, Table 14-10: R428 -/
def TWIN_MISMATCH : Nat := 0x0710
/-- 0x0711, Table 14-10: A pan completes R429 -/
def TWIN_RESYNC_DONE : Nat := 0x0711
/-- 0x0712, Table 14-10: A counter of Table 14-12 saturates under R6 -/
def RM_COUNT_OVF : Nat := 0x0712
/-- 0x0801, Table 15-14: A session opens; the port, or 0xFF for MCTP, is in the event data -/
def SPDM_SESSION_UP : Nat := 0x0801
/-- 0x0802, Table 15-14: A session ends -/
def SPDM_SESSION_END : Nat := 0x0802
/-- 0x0803, Table 15-14: OFFERED is entered -/
def TENANCY_OFFERED : Nat := 0x0803
/-- 0x0804, Table 15-14: SEALED is entered -/
def TENANCY_SEALED : Nat := 0x0804
/-- 0x0805, Table 15-14: SWITCHING is entered -/
def SWITCH_START : Nat := 0x0805
/-- 0x0806, Table 15-14: SCRUB completes -/
def SWITCH_DONE : Nat := 0x0806
/-- 0x0807, Table 15-14: R456 -/
def ZERO_DONE : Nat := 0x0807
/-- 0x0808, Table 15-14: SUSPENDED is entered -/
def TENANCY_SUSPENDED : Nat := 0x0808
/-- 0x0809, Table 15-14: SEALDENYCNT goes from zero to non-zero -/
def SEALED_DENIED : Nat := 0x0809
/-- 0x080A, Table 15-14: A window opens -/
def PRESENCE_WINDOW : Nat := 0x080A
/-- 0x080B, Table 15-14: R460 -/
def PRESENCE_STUCK : Nat := 0x080B
/-- 0x080C, Table 15-14: A presence command is performed -/
def PRESENCE_CMD : Nat := 0x080C
/-- 0x080D, Table 15-14: R461 -/
def PRESENCE_REFUSED : Nat := 0x080D
/-- 0x080E, Table 15-14: R463 -/
def TAMPER : Nat := 0x080E
/-- 0x080F, Table 15-14: R458 -/
def DEBUG_UNLOCKED : Nat := 0x080F
/-- 0x0810, Table 15-14: The owner digest changes -/
def OWNER_CHANGED : Nat := 0x0810
/-- 0x0811, Table 15-14: A port changes generation -/
def PORT_REKEY : Nat := 0x0811
/-- 0x0812, Table 15-14: R439 -/
def POLICY_CHANGED : Nat := 0x0812
/-- 0x0813, Table 15-14: A counter of Table 15-16 saturates under R6 -/
def SEC_COUNT_OVF : Nat := 0x0813
/-- 0x0101, Table 16-8: PWRSTAT.state changes; the new state is in the event data -/
def PWR_STATE : Nat := 0x0101
/-- 0x0102, Table 16-8: R484 -/
def PWR_THROTTLE : Nat := 0x0102
/-- 0x0103, Table 16-8: R484 -/
def PWR_THROTTLE_END : Nat := 0x0103
/-- 0x0104, Table 16-8: R486 -/
def HL_POWER : Nat := 0x0104
/-- 0x0105, Table 16-8: R488, throttle -/
def HL_THERMAL : Nat := 0x0105
/-- 0x0106, Table 16-8: R488, trip; in the always-on event log -/
def HL_TRIP : Nat := 0x0106
/-- 0x0107, Table 16-8: R470; in the always-on event log -/
def AON_ON_VBAT : Nat := 0x0107
/-- 0x0108, Table 16-8: R470; in the always-on event log -/
def AON_ON_MAIN : Nat := 0x0108
/-- 0x0109, Table 16-8: R471 or R474 -/
def XTAL_FAIL : Nat := 0x0109
/-- 0x010A, Table 16-8: R472 -/
def PLL_LOCK_FAIL : Nat := 0x010A
/-- 0x010B, Table 16-8: R475 -/
def STAMP_RESTARTED : Nat := 0x010B
/-- 0x010C, Table 16-8: A counter of Table 16-10 saturates under R6 -/
def PWR_COUNT_OVF : Nat := 0x010C
/-- 0x0201, Table 17-10: Stage ROM begins; the cause is in the event data -/
def BOOT_START : Nat := 0x0201
/-- 0x0202, Table 17-10: A stage ends; the stage is in the event data -/
def BOOT_STAGE : Nat := 0x0202
/-- 0x0203, Table 17-10: SERVICE is entered -/
def BOOT_SERVICE : Nat := 0x0203
/-- 0x0204, Table 17-10: HALTED is entered; the reason is in the event data -/
def BOOT_HALTED : Nat := 0x0204
/-- 0x0205, Table 17-10: R500 -/
def IMAGE_REFUSED : Nat := 0x0205
/-- 0x0206, Table 17-10: R500 or R503 -/
def IMAGE_FALLBACK : Nat := 0x0206
/-- 0x0207, Table 17-10: R503 -/
def IMAGE_CONFIRMED : Nat := 0x0207
/-- 0x0208, Table 17-10: R505 -/
def SETTINGS_UNREADABLE : Nat := 0x0208
/-- 0x0209, Table 17-10: R505 -/
def SETTINGS_REVERT : Nat := 0x0209
/-- 0x020A, Table 17-10: R505 -/
def SETTINGS_COMMITTED : Nat := 0x020A
/-- 0x020B, Table 17-10: R498; always-on -/
def PRST_STUCK : Nat := 0x020B
/-- 0x020C, Table 17-10: A warm reset begins -/
def RESET_WARM : Nat := 0x020C
/-- 0x020D, Table 17-10: A hard reset begins; always-on -/
def RESET_HARD : Nat := 0x020D
/-- 0x020E, Table 17-10: R506 -/
def RECOVERY_ENTERED : Nat := 0x020E
/-- 0x020F, Table 17-10: R507 -/
def RM_B_ABSENT : Nat := 0x020F
/-- 0x0210, Table 17-10: R492; always-on -/
def RAIL_ORDER : Nat := 0x0210
/-- 0x0211, Table 17-10: A counter of Table 17-12 saturates under R6 -/
def BOOT_COUNT_OVF : Nat := 0x0211
/-- 0x0C01, Table 18-11: R524 -/
def TEMP_HIGH : Nat := 0x0C01
/-- 0x0C02, Table 18-11: R524 -/
def TEMP_SENSOR_FAIL : Nat := 0x0C02
/-- 0x0C03, Table 18-11: R525 -/
def VOLT_OUT_OF_RANGE : Nat := 0x0C03
/-- 0x0C04, Table 18-11: R527 -/
def AGE_MEASURED : Nat := 0x0C04
/-- 0x0C05, Table 18-11: R528; always-on -/
def MARGIN_PLAN : Nat := 0x0C05
/-- 0x0C06, Table 18-11: R528; always-on -/
def MARGIN_LIMIT : Nat := 0x0C06
/-- 0x0C10, Table 18-11: A firmware core fails; the core is in the event data -/
def CORE_FAULT : Nat := 0x0C10
/-- 0x0C11, Table 18-11: Table 18-5; always-on -/
def TB_FAULT : Nat := 0x0C11
/-- 0x0C12, Table 18-11: A dump is written to the DDR5 buffer -/
def DUMP_TAKEN : Nat := 0x0C12
/-- 0x0C13, Table 18-11: A dump is copied to a flash slot -/
def DUMP_SAVED : Nat := 0x0C13
/-- 0x0C14, Table 18-11: A dump is discarded under R522 -/
def DUMP_LOST : Nat := 0x0C14
/-- 0x0C15, Table 18-11: A management request is answered REFUSED or DENIED -/
def MGMT_REFUSED : Nat := 0x0C15
/-- 0x0C16, Table 18-11: A counter of Table 18-14 saturates under R6 -/
def MGMT_COUNT_OVF : Nat := 0x0C16
/-- 0x0D01, Table 18-12: R529 -/
def RTC_SET : Nat := 0x0D01
/-- 0x0D02, Table 18-12: R529 -/
def RTC_INVALID : Nat := 0x0D02
/-- 0x0D03, Table 18-12: R531 -/
def RTC_ALARM : Nat := 0x0D03
/-- 0x0D04, Table 18-12: R532 -/
def RTC_ALARM_MISSED : Nat := 0x0D04
/-- 0x0D05, Table 18-12: R533 -/
def TAMPER_ON_VBAT : Nat := 0x0D05
/-- 0x0D06, Table 18-12: R520 -/
def AON_LOG_RESERVE : Nat := 0x0D06

/-- The events recorded in the always-on log beside those of classes 0x08 and 0x0D (R518): the ones their tables mark
"always-on", and those of the power-fail sequence (R294). -/
def alwaysOn : List Nat :=
  [HL_TRIP, AON_ON_VBAT, AON_ON_MAIN, PRST_STUCK, RESET_HARD, RAIL_ORDER, MARGIN_PLAN, MARGIN_LIMIT, TB_FAULT,
   DUR_FLUSH_START, DUR_FLUSH_DONE, DUR_FLUSH_LATE]

end Sys2Proof.Machine.Ev
end

