-- ==== Sys2Proof/Machine/SMap.lean ====
section
/-!
DEFINITION. Sparse tables: lists of (key, value) pairs in one canonical form (keys strictly rising, no entry equal to
what an unlisted key reads as), so that equal tables are equal data.
-/
namespace Sys2Proof.Machine

/-- A sparse table from numbers to `β`. -/
abbrev SMap (β : Type) := List (Nat × β)

/-- The value at `k`; `d` is what an unlisted key reads as. -/
def SMap.get {β : Type} (d : β) (k : Nat) : SMap β → β
  | [] => d
  | (j, v) :: t => if j = k then v else SMap.get d k t

/-- `m` without key `k`. -/
def SMap.del {β : Type} (k : Nat) : SMap β → SMap β
  | [] => []
  | (j, v) :: t => if j = k then SMap.del k t else (j, v) :: SMap.del k t

/-- `(k, v)` put before the first larger key. -/
def SMap.ins {β : Type} (k : Nat) (v : β) : SMap β → SMap β
  | [] => [(k, v)]
  | (j, w) :: t => if k < j then (k, v) :: (j, w) :: t else (j, w) :: SMap.ins k v t

/-- Writes `v` at `k`; writing what an unlisted key reads as removes the entry. -/
def SMap.put {β : Type} [DecidableEq β] (d : β) (k : Nat) (v : β) (m : SMap β) : SMap β :=
  if v = d then SMap.del k m else SMap.ins k v (SMap.del k m)

/-- Applies `f` to the value at `k`. -/
def SMap.upd {β : Type} [DecidableEq β] (d : β) (k : Nat) (f : β → β) (m : SMap β) : SMap β :=
  SMap.put d k (f (SMap.get d k m)) m

/-- The canonical form. -/
def SMap.wf {β : Type} [DecidableEq β] (d : β) : SMap β → Bool
  | [] => true
  | [(_, v)] => decide (v ≠ d)
  | (j, v) :: (k, w) :: t => decide (j < k) && decide (v ≠ d) && SMap.wf d ((k, w) :: t)

end Sys2Proof.Machine
end

