-- ==== Sys2Proof/Machine/State.lean ====
section
/-!
DEFINITION. The state of the SHP-7100 as plain data, the reasons a command can stop, and the state after reset.

Registers live in one sparse table of field cells (Machine/Csr.lean); a cell that is not listed holds the field's reset
value. Every other piece of state the chapters name has a field of its own below, each with the rule that names it.
-/
namespace Sys2Proof.Machine

/-- Why a command stops with a fault: none does. The block records its errors in State (statuses, events, counters),
so a run never ends in a fault. -/
inductive Fault where
  /-- Raised by no command. Safe: it cannot hide a behaviour. -/
  | none
deriving DecidableEq, Repr

/-- Why a command is refused. -/
inductive Refusal where
  /-- Raised by an arm of `exec` whose command has no meaning yet. Safe: nothing is claimed of it. -/
  | notModelled (mnemonic : String)
deriving DecidableEq, Repr

/-- An event record of Table 18-6 (R518): `data` is bytes 31:16 as one little-endian number. -/
structure EventRec where
  id : Nat
  srcKind : Nat
  srcIndex : Nat
  seq : Nat
  stamp : Nat
  data : Nat
deriving DecidableEq, Repr

/-- The record an unlisted slot of a log reads as. -/
def EventRec.zero : EventRec := ⟨0, 0, 0, 0, 0, 0⟩

/-- Drops of one event class at one log destination since the last record of event 0xFF (R13). -/
structure DropCount where
  count : Nat
  first : Nat
deriving DecidableEq, Repr

/-- No drop. -/
def DropCount.zero : DropCount := ⟨0, 0⟩

/-- The event ring with its staging queue (R519) and the always-on log (R520). -/
structure EventLog where
  /-- Staging queue, oldest first, at most 2,048 records. -/
  staging : List EventRec
  /-- Ring slots by position modulo 32,768. -/
  ring : SMap EventRec
  /-- Drops of the event ring, by class. -/
  drops : SMap DropCount
  /-- Always-on log slots by position modulo 2,048. -/
  aon : SMap EventRec
  /-- Sequence number of the next always-on record. -/
  aonSeq : Nat
  /-- Drops of the always-on log, by class. -/
  aonDrops : SMap DropCount
  /-- Records in the mailbox's upward ring that the power core has not read, the sequence number of the next, and drops by class (R515). -/
  up : List EventRec
  upSeq : Nat
  upDrops : SMap DropCount
deriving DecidableEq, Repr

/-- Empty logs. -/
def EventLog.empty : EventLog := ⟨[], [], [], [], 0, [], [], 0, []⟩

/-- Granule states of R31. -/
inductive GranState where
  | free | owned | zeroing | system
deriving DecidableEq, Repr

/-- An entry of the granule owner table (R31, R136, R213, R285). -/
structure Granule where
  st : GranState
  owner : Nat
  spilled : Bool
  /-- Leaves that map pages of the granule (R136). -/
  leaves : Nat
  /-- Remap stamp (R213). -/
  remap : Nat
  /-- Heap: pages of the granule that have been written since it was allocated, by 4 KiB page (R285). -/
  written : Nat
  /-- GRANULE retirement waits for the owner's release (R272). -/
  retire : Bool
deriving DecidableEq, Repr

/-- A granule nobody owns. -/
def Granule.fresh : Granule := ⟨.free, 0, false, 0, 0, 0, false⟩

/-- What is wrong with a stored half-line (R258 to R263): the stored symbols in error, each with the bits that differ (0 to 31 data,
then check symbols), the address that the word found there was written for when it is not the half-line's own, and whether the fault
lies in the memory itself, so that a fresh code word meets it again. -/
structure HalfFault where
  errs : List (Nat × Nat)
  wrote : Option Nat
  hard : Bool
deriving DecidableEq, Repr

/-- A sound half-line. -/
def HalfFault.none : HalfFault := ⟨[], Option.none, false⟩

/-- One way of a set of the stacked cache (R245): the 1 KiB set's line 1 to 7 it is, the DDR5 line it holds, whose it is,
and whether it is dirty. A set lists its ways most recently used first. -/
structure Way where
  slot : Nat
  line : Nat
  pan : Nat
  dirty : Bool
deriving DecidableEq, Repr

/-- A line pending in a brine buffer: its line number, the bytes written and the written bytes that are stored poisoned, as
128-bit masks (R239, R256, R267), and which of the 16,384 lines of its channel's buffers holds it (R19). -/
structure BrineLine where
  line : Nat
  mask : Nat
  pois : Nat
  slot : Nat
deriving DecidableEq, Repr

/-- An error record (Table 09-4). -/
structure ErrRec where
  kind : Nat
  store : Nat
  source : Nat
  pan : Option Nat
  half : Nat
  nsym : Nat
  repeats : Nat
  place : Nat
  addr : Nat
  stamp : Nat
deriving DecidableEq, Repr

/-- The record an unlisted slot of the error ring reads as. -/
def ErrRec.zero : ErrRec := ⟨0, 0, 0, none, 0, 0, 0, 0, 0, 0⟩

/-- A key of the correctable-error filter (R264), with the stamp of its last record and its repeat count. -/
structure FilterKey where
  key : Nat
  logged : Nat
  repeats : Nat
deriving DecidableEq, Repr

/-- Refresh bookkeeping of one rank (R227, R240): postponed refreshes, whether they are being repaid, the bank of each group that
the next same-bank refresh serves, the stamp before which no refresh falls due, and activations since refresh management last
ran, by bank. -/
structure RankState where
  postponed : Nat
  repaying : Bool
  bank : Nat
  due : Nat
  acts : SMap Nat
deriving DecidableEq, Repr

/-- A rank with nothing postponed. -/
def RankState.idle : RankState := ⟨0, false, 0, 0, []⟩

/-- A read queued at a DRAM controller (R235): its requester, its line, its deadline and whether it has been counted as overdue. -/
structure ReadReq where
  req : Nat
  line : Nat
  deadline : Nat
  overdue : Bool
deriving DecidableEq, Repr

/-- A DDR5 channel or stacked pseudo-channel as its controller sees it, beside its registers. The two pseudo-channels of a stacked
channel keep their queues and open rows together, in the entry of the even one. -/
structure Channel where
  /-- Lines in the write queue, oldest first (R237, R238). -/
  wq : List Nat
  /-- Reads in the read queue, oldest first (R235). -/
  rq : List ReadReq
  /-- Open rows by bank: the row plus one, and the row hits served since another request to the bank began to wait (R236). -/
  rows : SMap (Nat × Nat)
  /-- Lines locked by a merge, a migration copy, a row repair or a mirror copy (R238). -/
  locked : List Nat
  /-- Refresh state by logical rank (R240). -/
  ranks : SMap RankState
  /-- Failed attempts of the command in hand (R227, R228). -/
  retries : Nat
  /-- TRAIN commands that failed since power-up (R226). -/
  trainFails : Nat
  /-- Refresh interval in ns that MR4 calls for (R227, R240). -/
  trefi : Nat
  /-- In precharge power-down or self-refresh: 0 no, 1 power-down, 2 self-refresh (R479, R249). -/
  low : Nat
  /-- Stamp since which a hold of R250 is in force. -/
  holdSince : Nat
  /-- The hold of R251 has been reported. -/
  holdLong : Bool
  /-- It has been trained since power-up, so its rank map stands; a migration is to go on when it is trained again (R244). -/
  kept : Bool
  mig : Bool
  /-- A stacked pseudo-channel is batching (R237). -/
  batch : Bool
  /-- The pause in progress is a periodic one (R241), and the 20 ms period of the stamp, plus one, of the last one. -/
  periodic : Bool
  period : Nat
deriving DecidableEq, Repr

/-- A channel with nothing queued. -/
def Channel.idle : Channel := ⟨[], [], [], [], [], 0, 0, 0, 0, 0, false, false, false, false, false, 0⟩

/-- Everything of the DRAM tiers that is not a register (chapters 08 and 09). -/
structure Dram where
  /-- Half-lines stored poisoned, by address div 64 (R267). -/
  poison : SMap Bool
  /-- Faults of the places that hold half-lines, by address div 64 (R260): a cache way's by its direct-window address, and those of a
  spare rank's lines by the keys of `spareKey`. -/
  faults : SMap HalfFault
  /-- SRAM bytes whose 13 stored bits differ from what was stored: the bits that differ, by SRAM byte address (R254, R255). -/
  upsets : SMap Nat
  /-- Stacked-cache sets by 131,072 x segment + set (R245). -/
  cache : SMap (List Way)
  /-- Brine buffers, oldest line first (R239, R267). -/
  brine : List BrineLine
  /-- Stripe orders: 0 none, 1 SPREAD, 2 CONTAINED (R229). -/
  stripes : SMap Nat
  /-- Channels 0-15 DDR5, 16 + g stacked pseudo-channel g. -/
  chans : SMap Channel
  /-- Granules with a discarded write on a channel out of service, by 16 x granule + channel (R271). -/
  oosWrites : SMap Bool
  /-- Error ring slots by position modulo 8,192 (R266). -/
  errRing : SMap ErrRec
  /-- ERRLOG_FULL has been raised since a record was last written (R266). -/
  errFull : Bool
  /-- Correctable-error keys by store, most recent first: 0-15 DDR5 channels, 16 stacked, 17 SRAM (R264). -/
  filter : SMap (List FilterKey)
  /-- The row under repair: channel, slot, sub, bank group, bank, row (R274). -/
  repair : Option (List Nat)
  /-- Granules retired since power-up (R273). -/
  retired : List Nat
  /-- Rows recorded for hard repair (R274). -/
  rows : List (List Nat)
  /-- Pans whose stacked-cache lines are being swept (R248). -/
  sweeps : List Nat
  /-- DDR5 granules accessed since the clock hand of an automatic demotion passed them, and the hands by pan (R286). -/
  refs : SMap Bool
  hand : SMap Nat
  /-- Row at which the SRAM patrol goes on (R265). -/
  sramPos : Nat
deriving DecidableEq, Repr

/-- Empty DRAM tiers. -/
def Dram.empty : Dram := ⟨[], [], [], [], [], [], [], [], [], false, [], none, [], [], [], [], [], 0⟩

/-! ### Programs, queues and translation (chapters 03, 06 and 07) -/

/-- A stretch of a window whose physical bytes are contiguous on one node (R62, R211): window offset, length, the global
pool address and the PVA of its first byte; a zero run has no address (R60). -/
structure Run where
  off : Nat
  len : Nat
  addr : Nat
  va : Nat
  zero : Bool
deriving DecidableEq, Repr

/-- A window of an entry (R57), with the runs resolved for it. -/
structure Win where
  kind : Nat
  base : Nat
  rd : Bool
  wr : Bool
  zf : Bool
  len : Nat
  k : Nat
  runs : List Run
deriving DecidableEq, Repr

/-- An unused window. -/
def Win.unused : Win := ⟨0, 0, false, false, false, 0, 0, []⟩

/-- Architectural state of a program (Table 03-5): scalar registers, their poison mask (R84), tile bytes by
4096 x tile + byte, poisoned 128-byte sectors of the tiles (R268), predicates p1 to p7 as a mask, and pc. -/
structure Ctx where
  s : SMap Nat
  sp : Nat
  tiles : SMap Nat
  tp : SMap Bool
  p : Nat
  pc : Nat
deriving DecidableEq, Repr

/-- Where an entry stands: held (R61), admitted, running on a rake, parked (R86), resumed and waiting to run, or cut off by the failure
of its stall, so that its record follows the move of its queue (Table 03-8). -/
inductive EntState where
  | held | admitted | parked | resumed | cut
  | running (rake : Nat)
deriving DecidableEq, Repr

/-- An entry of a queue that admission has taken up (R55 to R62) and whose records are not all written. -/
structure Entry where
  pos : Nat
  st : EntState
  inl : Bool
  ordered : Bool
  notify : Bool
  waitDur : Bool
  codeWords : Nat
  tag : Nat
  runLimit : Nat
  entryWord : Nat
  /-- PVA of the program (PROGRAM form) and the runs of the code window. -/
  prog : Nat
  codeRuns : List Run
  wins : List Win
  args : List Nat
  /-- Stamp at which its resolution began (R211). -/
  r0 : Nat
  /-- Bytes charged to the shadow area (R62). -/
  shadow : Nat
  /-- Configuration set and doorbell port it was admitted under (R59, R81). -/
  set : Nat
  port : Nat
  /-- Worst status so far (R79) and the word offset of the first instruction that ended with it. -/
  worst : Nat
  word : Nat
  /-- Notes of Table 03-6: bits 0 poison, 1 mismatch, 2 zero, 3 parked, 4 run limit, 5 chunked. -/
  notes : Nat
  /-- Running time of closed RUNNING intervals in ns (R87). -/
  ran : Nat
  /-- Run limit in ns in force at its dispatch (R184); 0 is none. -/
  limit : Nat
  /-- Open fault episode (R221). -/
  gen : Option Nat
  ctx : Ctx
  /-- Completion records reserved (R180). -/
  reserved : Nat
  /-- The park slot it holds (R63, R190). -/
  slot : Option Nat
  /-- Resolution in progress of a parked entry that was resumed: r0 and how often it was overtaken (R86, R213). -/
  again : Option (Nat × Nat)
  /-- Its instructions wrote to a durable pan (R80); the number is how many of its remote writes still await an RSP_DUR. -/
  durPos : Option Nat
  /-- Its FINAL or ACCEPTED record is written and it waits for its DURABLE record (R80). -/
  done : Bool
  /-- Result register at its end (Table 03-6). -/
  result : Nat
deriving DecidableEq, Repr

/-- Queue states (R182). -/
inductive QState where
  | free | enabled | paused | stopped
deriving DecidableEq, Repr

/-- A queue context (R177 to R190). -/
structure Queue where
  st : QState
  home : Nat
  body : Nat
  depthLog : Nat
  pan : Nat
  cqBase : Nat
  cqLog : Nat
  shBase : Nat
  shPages : Nat
  ownNode : Nat
  ownPort : Nat
  conc : Nat
  runLimitUs : Nat
  quantum : Nat
  tbRate : Nat
  tbBurst : Nat
  tail : Nat
  admPos : Nat
  head : Nat
  /-- Positions past head whose slots are freed (R179). -/
  freed : List Nat
  cqProd : Nat
  cqCons : Nat
  cqResv : Nat
  shUsed : Nat
  deficit : Int
  fresh : Bool
  /-- Tokens in 16.16 fixed point (R189). -/
  tokens : Nat
  /-- Entries admitted or held whose records are not all written, in ring order. -/
  ents : List Entry
  /-- Positions of resumed entries, first resumed first (R186). -/
  resumeQ : List Nat
  /-- Doorbell port by position up to which it applies, oldest first: (tail, port) (R81). -/
  doors : List (Nat × Nat)
  /-- Admission stopped at a wrong phase (R56). -/
  stale : Bool
  /-- Events raised once: shadow wait, completion-ring wait, doorbell refused (Tables 03-9 and 06-6). -/
  shWait : Bool
  cqWait : Bool
  dbRef : Bool
  /-- Target stall of a move in progress (R185). -/
  moving : Option Nat
  /-- Resolution in progress of the entry at `admPos`: r0 and how often it was overtaken (R213). -/
  resolving : Option (Nat × Nat)
deriving DecidableEq, Repr

/-- A queue that has not been created. -/
def Queue.blank : Queue :=
  ⟨.free, 0, 0, 0, 0, 0, 0, 0, 0, 0, 0, 0, 0, 0, 0, 0, 0, 0, 0, [], 0, 0, 0, 0, 0, false, 0, [], [], [], false, false, false,
   false, none, none⟩

/-- What a rake waits for within one instruction. -/
inductive RakeWait where
  | none
  /-- WAIT polls a counter (R112): the value last read, and its poison. -/
  | counter (last : Option (Nat × Bool))
  /-- DURABLE.SYNC waits for the log (R131): which writes are in scope, and for scope 1 those at earlier positions. -/
  | durable (scope pos : Nat)
  /-- SUBMIT with wait = 1 on a full queue (R132). -/
  | slot
  /-- Its memory accesses wait: an element of State's `waits` names the rake. -/
  | mem
  /-- A page move, MAP, UNMAP or PIN waits for its copies and its drain (R215). -/
  | drain
  /-- COMMIT waits until the shadow is OPEN (R406). -/
  | epoch
  /-- MAP waits for the twin's TWIN_ACK of this sequence number (R428). -/
  | twin (seq : Nat)
  /-- SCRUB with full_zero waits until every data granule is FREE (R456). -/
  | zero
deriving DecidableEq, Repr

/-- A rake (R63 to R66, RAKESTAT): the entry it runs, when it was dispatched, and the instruction that waits. -/
structure Rake where
  busy : Bool
  qid : Nat
  pos : Nat
  since : Nat
  wait : RakeWait
  instr : Option Instr
  /-- Rake cycles since its dispatch or resumption up to the stamp `mark`, at which its clock last changed (Table 04-6). -/
  cycles : Nat
  mark : Nat
  /-- The HELPER rake of an instruction that runs at another rake, plus one (R140). -/
  helps : Nat
deriving DecidableEq, Repr

/-- An idle rake. -/
def Rake.idle : Rake := ⟨false, 0, 0, 0, .none, none, 0, 0, 0⟩

/-- Whose memory accesses wait: a rake's instruction, or a partner's memory request that arrived at a port. -/
inductive WaitWho where
  | rake (r : Nat)
  /-- `port` is the requester of Table 08-4: the port, or 13 for a request that the Sluice demotes (R193). -/
  | msg (port : Nat) (m : Msg)
deriving DecidableEq, Repr

/-- Memory accesses that wait: for home lines that a partner holds or that are busy (R321), or for responses of another
node, a lender or the twin (R85, R380, R400). -/
structure Wait where
  id : Nat
  who : WaitWho
  /-- Lines of this home it waits for, by address div 128; they are blocked for partners (R321). -/
  lines : List Nat
  /-- Lines of this home that an atomic holds from its read to its write (R73, R120). -/
  holds : List Nat
  /-- Bytes that remote reads have delivered, by global address, with their poison. -/
  got : SMap (Nat × Bool)
  /-- An atomic has been sent to its home, or the remote part of its stores has been sent; and what is then still to be stored or logged at
  this node: whether the stores are non-temporal, and the bytes by global address (R85, R99). -/
  asked : Bool
  todo : Bool × List (Nat × List (Nat × Bool))
  /-- Its stores have been performed or sent: it waits for responses only. -/
  sent : Bool
  left : Nat
  /-- Worst status its remote requests brought (R10). -/
  stat : Nat
  /-- What follows when the last response arrives: the status and context of the instruction, or the response to send. -/
  fin : Option (Nat × Ctx)
  rsp : Option Msg
deriving DecidableEq, Repr

/-- A snoop without an answer (R306): the home's tag and tag epoch, the member and the message code. -/
structure Snoop where
  tag : Nat
  epoch : Nat
  member : Nat
  code : Nat
deriving DecidableEq, Repr

/-- Why a line is busy at its home (R307, R318, R321, R327). -/
inductive TxnWho where
  /-- A partner's request, by the index of its member. `port` is the requester of Table 08-4: its port, or 13 for one that the Sluice
  demotes (R193). -/
  | req (port : Nat) (m : Msg) (r : Nat)
  /-- One of the home's own agents recalls it. -/
  | own
  /-- Its way is evicted for a held request. -/
  | evict (port : Nat) (m : Msg) (r : Nat)
  /-- It is recalled from a member whose rights ended. -/
  | revoke (r : Nat)
deriving DecidableEq, Repr

/-- A busy line at its home. -/
structure Txn where
  line : Nat
  who : TxnWho
  /-- Directory entry when the request was taken up (Table 11-6). -/
  ent : Nat
  snoops : List Snoop
  /-- What the owner answered it had (Table 13-3), and whether it was lost (R326). -/
  had : Option Nat
  lost : Bool
  /-- Data that an SNP_ACK_D returned. -/
  back : Option (List (Nat × Bool))
  /-- A lent line's image, and whether its lender's answer is awaited. -/
  mem : Option (List (Nat × Bool))
  fetch : Bool
  /-- The ATOM runs far (R322); the home has sent DATA already. -/
  far : Bool
  dataSent : Bool
  /-- coh_msi of its pan when it was taken up (R313). -/
  msi : Bool
  /-- Responses to send once the lender has answered the write. -/
  out : List Msg
  goAck : Bool
  /-- Configuration set it was taken up under (R407). -/
  tag : Nat
deriving DecidableEq, Repr

/-- A reservation (R320): its line, the reserved request's source key and tag, and the stamp it was made. -/
structure Resv where
  line : Nat
  key : Nat
  made : Nat
deriving DecidableEq, Repr

/-- A sweep of a member (R326, R327): whether it recalls data, and the lines that were busy when it passed them. -/
structure Sweep where
  member : Nat
  revoke : Bool
  left : List Nat
deriving DecidableEq, Repr

/-- Coherence beside its registers and the directory in memory. -/
structure Coh where
  txns : List Txn
  /-- Sets in each slice's directory cache, most recently used first, by 2048 x slice + index (R317). -/
  cache : SMap (List Nat)
  /-- Predictor counters by 4096 x slice + h[11:0] (R315, R323). -/
  pred : SMap Nat
  resv : List Resv
  /-- Rotating counters of R318, by slice. -/
  rot : SMap Nat
  /-- Sweeps in progress. -/
  sweeps : List Sweep
  /-- Lines for which COH_PROTOCOL has been raised (R332). -/
  prot : List Nat
  /-- Slices whose COH_RESV_FULL has been raised since a reservation was last made. -/
  resvFull : List Nat
  /-- The device's own writes, each within a line, that wait for their line (R321), oldest first. -/
  late : List (Nat × List (Nat × Bool))
  /-- Requests that were held for a way that is now free (R318): requester of Table 08-4, message and member. -/
  held : List (Nat × Msg × Nat)
deriving DecidableEq, Repr

/-- No line held by a partner. -/
def Coh.idle : Coh := ⟨[], [], [], [], [], [], [], [], [], []⟩

/-- A run-cache entry (R209): pan, page size code, first PVA, pages, global address of the first page, its rights, mark
and tier. -/
structure RunEnt where
  pan : Nat
  size : Nat
  va : Nat
  n : Nat
  addr : Nat
  rd : Bool
  wr : Bool
  pinned : Bool
  tier : Nat
deriving DecidableEq, Repr

/-- A walk-cache entry (R210): the level-k table pointer that covers `va` div the level's span. -/
structure WalkEnt where
  pan : Nat
  level : Nat
  pfx : Nat
  table : Nat
deriving DecidableEq, Repr

/-- What a walk found for the bytes [lo, hi) of a pan's PVA space (Table 07-4). -/
inductive PageOut where
  | leaf (size lo hi addr : Nat) (rd wr pinned : Bool) (tier : Nat)
  | empty (level lo hi tomb : Nat)
  | poison (level lo hi : Nat)
deriving DecidableEq, Repr

/-- A walk in one of the walk slots, or one that waits for a slot (R210), and what it found once its reads are complete. `key` names its
entry: queue ID x 2^32 + position. -/
structure Walk where
  key : Nat
  pan : Nat
  va : Nat
  found : Option PageOut
  waits : Bool
deriving DecidableEq, Repr

/-- A fault record before its phase bit is known (Table 07-7). -/
structure FaultRec where
  last : Bool
  parked : Bool
  place : Nat
  reason : Nat
  win : Nat
  wr : Bool
  gen : Nat
  qid : Nat
  index : Nat
  npages : Nat
  size : Nat
  pva : Nat
  stamp : Nat
deriving DecidableEq, Repr

/-- A fault batch (R218): its records in order, why it closed (none: still open; 0 COUNT, 1 TIME) and the stamp of its
first record. -/
structure Batch where
  recs : List FaultRec
  close : Option Nat
deriving DecidableEq, Repr

/-- A change of translations in progress: a page move (R129), or an instruction waiting for its drain (R215). -/
structure Shoot where
  /-- The rake whose instruction waits, or none for a change the device makes itself. -/
  rake : Option Nat
  pan : Nat
  /-- Rakes whose instruction passed its check point before the change and has not completed (R215). -/
  before : List Nat
  /-- Granules to release after the drain. -/
  old : List Nat
  /-- Page moves: (PVA, page size code, old address, new address), still to be copied, then switched. -/
  copies : List (Nat × Nat × Nat × Nat)
  switched : List (Nat × Nat × Nat × Nat)
  /-- Entries to resume when an automatic promotion ends (R284): queue and position. -/
  resume : List (Nat × Nat)
  /-- Pages whose bytes have been asked of, or sent to, a lender, by PVA. -/
  sent : List Nat
  /-- The over_soft bits and spill_used that the operation found, and its allocations: whether each was spilled, and whether only the
  budget kept it from being spilled (R42). -/
  began : Option (Nat × Nat × List (Bool × Bool))
deriving DecidableEq, Repr

/-- A line image in a log block (Table 10-2): backing line address, poison of its half-lines, its bytes, and the position
of the write that made it. -/
structure LogLine where
  addr : Nat
  pois : Nat
  data : List Nat
  pos : Nat
deriving DecidableEq, Repr

/-- A closed log block (R290), and whether its ring writes to both halves are complete (R291). -/
structure LogBlock where
  seq : Nat
  lines : List LogLine
  written : Bool
deriving DecidableEq, Repr

/-- On whose behalf a durable pan was written. -/
inductive DurOwner where
  | entry (qid pos : Nat)
  | nx (id : Nat)
  | other
deriving DecidableEq, Repr

/-- A write that is not yet durable (R291): its position in the pan's writes, its backing line, and its owner. -/
structure Undur where
  pos : Nat
  line : Nat
  owner : DurOwner
deriving DecidableEq, Repr

/-- Beside its registers, what a pan keeps (chapters 02, 06, 07 and 10). -/
structure Pan where
  /-- PAN_SPILL_EXHAUSTED is armed (R42). -/
  spillArmed : Bool
  /-- Channel at which CONTAINED placement goes on (R45). -/
  rot : Nat
  /-- 4 KiB structure pages in use: page tables, root and fault ring (R207, R584). -/
  pages : List Nat
  /-- DDR5 granules that hold structure pages; and, plus one, the granule that holds park slots 31 i to 31 i + 30, by i (R190). -/
  ptGrans : List Nat
  parkGrans : SMap Nat
  /-- Fault episodes counter (R221), batches waiting, batch number, and FQ_FULL raised (R218, R219). -/
  gen : Nat
  batches : List Batch
  batchSeq : Nat
  fqFull : Bool
  /-- PARK_SLOTS_EXHAUSTED raised (R90). -/
  parkWait : Bool
  /-- The durable catalogue's pages: PVA, size code and backing address (R289). -/
  durPages : List (Nat × Nat × Nat)
  /-- Backing granule of each granule the pan holds outside the heap (R289). -/
  backing : SMap Nat
  /-- Closed blocks live in the log ring, oldest first, and the lines of the open block (R290). -/
  ring : List LogBlock
  openLines : List LogLine
  /-- Sequence number of the next block (R290) and position of the next logged write. -/
  seq : Nat
  pos : Nat
  /-- Writes not yet durable (R291). -/
  undur : List Undur
  /-- Dirty 4 KiB blocks, by backing address div 4,096 (R292). -/
  dirty : SMap Bool
  /-- The checkpoint round in progress: S, and the blocks it copies with the position at which each was copied (R292). -/
  round : Option (Nat × List (Nat × Nat))
  /-- DUR_LOG_FULL raised (R292); HEAP_AUTO_DEMOTE raised (R286). -/
  logFull : Bool
  demWarn : Bool
deriving DecidableEq, Repr

/-- A pan that holds nothing. -/
def Pan.fresh : Pan :=
  ⟨false, 0, [], [], [], 0, [], 0, false, false, [], [], [], [], 1, 0, [], [], none, false, false⟩

/-- A drive that enumeration found: its port, rate code, protection-information code, capacity in granules and label (R282, R300). -/
structure Found where
  port : Nat
  rate : Nat
  pi : Nat
  cap : Nat
  label : Nat
deriving DecidableEq, Repr

/-- A pan in the durable catalogue (R289): its registers (offset and value), its pages (PVA, size code and backing address), and
the key_id of its heap key. -/
structure CatPan where
  pan : Nat
  regs : List (Nat × Nat)
  pages : List (Nat × Nat × Nat)
  key : Nat
  /-- The heap key, which the catalogue holds wrapped under the seal key in open mode (R453). -/
  heapKey : Nat
deriving DecidableEq, Repr

/-- What the SSDs keep of durability and layout (R283, R289, R294, R300). -/
structure Heap where
  /-- The heap label: the drives' ports and labels by index, and C of R282; none before the first layout. -/
  label : List (Nat × Nat)
  c : Nat
  /-- Drives found at the last enumeration. -/
  found : List Found
  /-- The durable catalogue as it was when power was lost, without the pans recovered from it since. -/
  cat : List CatPan
  /-- The log area: each pan's flushed blocks (R294). -/
  area : List (Nat × List LogBlock)
  /-- DURSTAT.last_flush as it will read. -/
  lastFlush : Nat
deriving DecidableEq, Repr

/-- New drives. -/
def Heap.blank : Heap := ⟨[], 0, [], [], [], 0⟩

/-! ### Fabric (chapter 13) -/

/-- What one of the device's own requests is for. -/
inductive ReqFor where
  /-- Waiting accesses `id`: bytes at a global address; a read delivers them, a write only a status. -/
  | wait (id addr len : Nat) (wr : Bool)
  /-- A MIRROR_WR of the original write `id` (R400). -/
  | mirror (id : Nat)
  /-- A lent line's image fetched from, or written to, its lender for a busy line of this home. -/
  | line (d : Nat) (wr : Bool)
  /-- Bytes of a moving page, at `off` in the page of pan `n` at PVA `va`, read from or written to a lender (R52, R129); or zeros
  written over a released granule (R33). -/
  | move (n va off : Nat)
  /-- A write of an entry that was accepted and whose RSP_DUR is still to come (R80, R380). -/
  | durable (qid pos : Nat)
deriving DecidableEq, Repr

/-- One of the device's own requests with no final response yet (R381, R385). -/
structure OutReq where
  tag : Nat
  epoch : Nat
  node : Nat
  port : Nat
  use : ReqFor
  /-- The request as sent, for a retry after NAK (R319), and its NAKs so far. -/
  msg : Msg
  naks : Nat
  /-- It waits out a NAK backoff, or for its lender's slot to be lost. -/
  hold : Bool
deriving DecidableEq, Repr

/-- A completion-cache entry (R387): source key, tag and tag epoch; the stored response once it is sent. -/
structure CcEntry where
  key : Nat
  rsp : Option Msg
deriving DecidableEq, Repr

/-- An end-to-end window (R393): its size, the unmarked responses since it last rose, and the stamp of its last cut. -/
structure E2e where
  w : Nat
  run : Nat
  cut : Option Nat
  /-- Requests of this node and its local partners outstanding to the node. -/
  out : Nat
deriving DecidableEq, Repr

/-- An original write that waits for its mirror (R47, R400): its response when all is well, and MIRROR_WRs left. -/
structure MirrorWait where
  id : Nat
  left : Nat
  rsp : Option Msg
  /-- The waiting accesses it belongs to, plus one (0 none). -/
  wait : Nat
deriving DecidableEq, Repr

/-- A request that waits for a completion-cache entry (R388): its port, how long it had waited when it was held, when that was, and
whether the Sluice demoted it. -/
structure CcHeld where
  port : Nat
  waited : Nat
  since : Nat
  act : Nat
  msg : Msg
deriving DecidableEq, Repr

/-- A port in a congestion map (Table 13-6): its state, and what the interval's statistics read (bytes 63:2). -/
structure PortMap where
  state : Nat
  stats : Nat
deriving DecidableEq, Repr

/-- A stall in a congestion map (Table 13-6): how busy its rakes and channel were (bytes 1:0), admitted entries waiting, and overdue
DRAM reads. -/
structure StallMap where
  load : Nat
  waiting : Nat
  overdue : Nat
deriving DecidableEq, Repr

/-- A congestion map (Table 13-6) beside the node ID: its number, the start and length of its interval, ports and stalls. -/
structure CongMap where
  seq : Nat
  start : Nat
  len : Nat
  ports : List PortMap
  stalls : List StallMap
deriving DecidableEq, Repr

/-- The fabric beside its registers. -/
structure Fab where
  /-- Requests that arrived and have no final response yet: source key, tag and tag epoch, and the configuration set they were
  tagged with (R407). -/
  live : List (Nat × Nat)
  /-- Tag counter and tag epoch (R381). -/
  tag : Nat
  epoch : Nat
  /-- The device's own requests outstanding, and those that ended on the way: tag, tag epoch and status (R386). -/
  reqs : List OutReq
  failed : List (Nat × Nat × Nat)
  cc : List CcEntry
  /-- Requests waiting for a completion-cache entry (R388), oldest first, and FAB_CC_FULL raised. -/
  ccWait : List CcHeld
  ccFull : Bool
  /-- Transmit queues, or ring queues of lattice ports, by 4 x port + VC, oldest first (R392). -/
  txq : SMap (List Msg)
  /-- Messages that wait to enter a queue: for ring space, a window or a hold, each with the port it came by, or 8 (R392, R393, R396). -/
  waitq : List (Nat × Msg)
  /-- Windows by destination node (R393). -/
  win : SMap E2e
  mirrors : List MirrorWait
  nextId : Nat
  /-- Writes of partners to durable pans waiting for OK_DURABLE: the id of their log records and the response (R380). -/
  durRsps : List (Nat × Msg)
  /-- Congestion maps written (R398): the sequence number of the next, and the map in the mailbox. -/
  mapSeq : Nat
  map : Option CongMap
  /-- Start of the running map interval. -/
  mapStart : Nat
  /-- The port whose DRAIN_HOLD is in force (R396). -/
  drainPort : Option Nat
  /-- Completion notices dropped for want of a path, since reset (R81), and notices of records that wait behind a snoop: the record's
  address, what addresses the notice, and the record; they go when it is written. -/
  lostNotices : Nat
  noteLate : List (Nat × List Nat × List Nat)
  /-- Doorbells that wait at their port tile for a gated home stall: the port, what the Sluice made of it and the message (R181). -/
  doors : List (Nat × Nat × Msg)
  /-- Lent granules in ZEROING whose zeros have been sent to their lender (R33). -/
  zeroing : List Nat
deriving DecidableEq, Repr

/-- A fabric with nothing in flight; the tag epoch after reset is a free value (log entry 1). -/
def Fab.idle : Fab := ⟨[], 0, 0, [], [], [], [], false, [], [], [], [], 0, [], 0, none, 0, none, 0, [], [], []⟩

/-! ### Links (chapter 12) -/

/-- A flit that the transmitter keeps (R345, R351): its extended sequence number, its VC (0 CTRL, 1 to 3 DATA, 4 TAG) and its
number within the VC, the control payload, the NX messages that begin in it, the stamp of its last sending, and what is known
of it. -/
structure TxFlit where
  ext : Nat
  vc : Nat
  nth : Nat
  body : List Nat
  msgs : List Msg
  sent : Nat
  acked : Bool
  delivered : Bool
  /-- It begins with bytes of a message that began in an earlier flit. -/
  cont : Bool
  /-- When it was last resent (R350). -/
  again : Option Nat
deriving DecidableEq, Repr

/-- A flit as it was last put on the lanes (Table 12-4): type, VC, enc, sequence number, ack, xoff, session, delivery count and
its VC, and the control payload and messages it carries. -/
structure FlitOut where
  type : Nat
  vc : Nat
  enc : Bool
  seq : Nat
  ackV : Bool
  ack : Nat
  xoff : Nat
  sess : Nat
  dlvVc : Nat
  dlv : Nat
  body : List Nat
  msgs : List Msg
  /-- Its 256 bytes as they leave. -/
  raw : List Nat
deriving DecidableEq, Repr

/-- A received flit that waits for its TAG (R363), or that was accepted: its sequence number, VC, control payload, how many NX
messages end in it, and whether one goes on into the next flit. -/
structure RxFlit where
  seq : Nat
  vc : Nat
  ctrl : List Nat
  ends : Nat
  more : Bool
deriving DecidableEq, Repr

/-- What a link that went down has still to hand over (R368): the kept flits of the VCs of which some were spilled, each with whether it
lies in the safety net, and by VC the messages that follow them. -/
structure Drain where
  flits : List (Bool × TxFlit)
  waiting : SMap (List Msg)
deriving DecidableEq, Repr

/-- A port's link beside its registers. -/
structure Link where
  /-- Control messages waiting for VC0, oldest first. -/
  ctrlq : List (List Nat)
  /-- Messages handed over from the pair's other link, by VC (R368), and the bytes already sent of the first message, by VC. -/
  hand : SMap (List Msg)
  part : SMap Nat
  /-- Flits kept, oldest first; sequenced flits sent in the session, and of them those of each VC. -/
  kept : List TxFlit
  txNext : Nat
  txVc : SMap Nat
  /-- Where a replay goes on, and the replay count k (R350). -/
  replay : Option Nat
  k : Nat
  /-- The VC served last, and the VC whose delivery count was sent last. -/
  rot : Nat
  dlvRot : Nat
  /-- Flits sent since the last TAG, and that a TAG is due (R362). -/
  uncovered : List Nat
  tagDue : Bool
  last : Option FlitOut
  /-- Flits accepted in order in the session; WAIT_REPLAY, a REPLAY_REQ due, and the stamp of the last (R348). -/
  rxNext : Nat
  rxWait : Bool
  rrDue : Bool
  rrLast : Nat
  /-- Flits held for their TAG, and the first_seq and count of consecutive TAG failures (R363). -/
  held : List RxFlit
  tagFail : Nat × Nat
  /-- Accepted DATA flits not yet delivered, by VC, and the flits of each VC delivered (R351). -/
  buf : SMap (List RxFlit)
  done : SMap Nat
  /-- Of those, flits accepted in earlier sessions: their delivery counts in none (R351, R370). -/
  stale : SMap Nat
  overrun : Bool
  /-- Nonces of the ends, the partner's session number, and of the last INIT received its tx_stamp and when (R344). -/
  nonce : Nat
  peerNonce : Nat
  peerSess : Nat
  init : Nat × Nat
  /-- Requests outstanding (R340). -/
  lpiReq : Bool
  sleepReq : Bool
  /-- The link was woken for SLEEP and waits for its flits to be delivered before it proposes (R340). -/
  sleepWant : Bool
  /-- A session is open and the partner's first flit of it has not come: INIT flits are answered (R344). -/
  greet : Bool
  drain : Drain
  /-- Units still to come of the message in progress, by VC (R375). -/
  rxPart : SMap Nat
  /-- Encryption: ENC_START sent and received with x0, the receive generation, and generations kept for replays (R445, R448). -/
  encTx : Option Nat
  encRx : Option Nat
  rxGen : Nat
  genStart : Nat
  /-- The first flit received under the receive generation (R448). -/
  rxFrom : Nat
  /-- SPDM fragments gathered, by direction (R441). -/
  frag : SMap (List Nat)
deriving DecidableEq, Repr

/-- A link that has opened no session. -/
def Link.idle : Link :=
  ⟨[], [], [], [], 0, [], none, 0, 0, 0, [], false, none, 0, false, false, 0, [], (0, 0), [], [], [], false, 0, 0, 0, (0, 0), false,
   false, false, false, ⟨[], []⟩, [], none, none, 0, 0, 0, []⟩

/-! ### Ringmaster instances (chapter 14) -/

/-- A journal record (Table 14-5) beside its check value. -/
structure JRec where
  seq : Nat
  kind : Nat
  cmd : Nat
  inst : Nat
  status : Nat
  claim : Nat
  epoch : Nat
  ref : Nat
  stamp : Nat
  args : List Nat
deriving DecidableEq, Repr

/-- A committed snapshot buffer (R417): its numbers and the writer's claim and epoch. -/
structure Snap where
  seq : Nat
  jrnl : Nat
  claim : Nat
  epoch : Nat
deriving DecidableEq, Repr

/-- The Ringmaster pair beside its registers. -/
structure Ringmaster where
  /-- Journals of A (0) and B (1): records by slot, modulo 16,384. -/
  jrnl : List (Nat × Nat × JRec)
  /-- Number of the last record of the active term, and the STARTs without a DONE with the rake that runs each. -/
  seq : Nat
  opened : List (Nat × Nat)
  /-- Snapshot buffers of A (0, 1) and B (2, 3) that hold a commit word; the buffer written next, and the snapshot in hand:
  its number, its last journal record and its buffer. -/
  bufs : SMap (Option Snap)
  target : Nat
  writing : Option (Nat × Nat × Nat)
  snapSeq : Nat
  /-- Consecutive FULL snapshots that a standby in SYNCING has committed (R415). -/
  fulls : Nat
  /-- COMMITs that a takeover re-issued and that wait for the shadow: the numbers of their STARTs (R419). -/
  reissue : List Nat
  /-- A recovery of R415 is in progress because a stall failed; the queues still moving. -/
  moving : List Nat
  /-- EPOCH_DRAIN_SLOW has been raised since the last commit (R409). -/
  slow : Bool
  /-- What the last heartbeat carried: claim, epoch and journal number (R415). -/
  beat : Nat × Nat × Nat
deriving DecidableEq, Repr

/-- Nothing recorded. -/
def Ringmaster.idle : Ringmaster := ⟨[], 0, [], [], 0, none, 0, 0, [], [], false, (0, 0, 0)⟩

/-- The twin beside its registers (R423 to R430). -/
structure Twin where
  /-- Messages sent that the twin has not acknowledged, by sequence number: its payload. -/
  wait : List (Nat × List Nat)
  /-- Sequence numbers of the twin's messages acted on (R424). -/
  seen : List Nat
  /-- Pans still to be resynchronised, the one in hand first (R429). -/
  resync : List Nat
  /-- Messages of the twin that wait for the shadow to be OPEN, oldest first (R425). -/
  later : List (List Nat)
  /-- A TWIN_HELLO received before pairing was enabled; and that this node's own has been sent since pairing began or was lost (R423). -/
  hello : Option (List Nat)
  greeted : Bool
  /-- Epoch and journal number that the last TWIN_HB carried (R425). -/
  peerEpoch : Nat
  peerSeq : Nat
deriving DecidableEq, Repr

/-- No twin. -/
def Twin.none : Twin := ⟨[], [], [], [], Option.none, false, 0, 0⟩

/-! ### Sluice (chapter 06) and security (chapter 15) -/

/-- The meter of a port and pan (R192): what its buckets tc and tp lack, in 24.8 fixed point, the rate of a THROTTLE, and the
ticks that a Sluice command in force has left (0 until RELEASE). -/
structure Bucket where
  dc : Nat
  dp : Nat
  rate : Nat
  left : Nat
deriving DecidableEq, Repr

/-- Full buckets and no THROTTLE. -/
def Bucket.full : Bucket := ⟨0, 0, 0, 0⟩

/-- An SPDM session (R437, R440): its ID, its port (8 for MCTP), whether the requester authenticated, and the digest of the root
that its chain ends at. -/
structure Session where
  id : Nat
  port : Nat
  mutual_ : Bool
  root : Nat
  /-- Its export master secret (R446). -/
  ems : Nat
deriving DecidableEq, Repr

/-- The keys of a pan (Table 15-3): DDR5 and heap key. -/
structure PanKeys where
  ddr : Nat
  heap : Nat
deriving DecidableEq, Repr

/-- No keys. -/
def PanKeys.none : PanKeys := ⟨0, 0⟩

/-- The key registers of the cipher engines and the seal-key latch (R436, Table 15-3). -/
structure Keys where
  /-- Seal key; none where it has been wiped. -/
  seal_ : Option Nat
  free : Nat
  sys : Nat
  sysHeap : Nat
  pans : SMap PanKeys
deriving DecidableEq, Repr

/-- No key has been made yet. -/
def Keys.none : Keys := ⟨Option.none, 0, 0, 0, []⟩

/-- An answer to a MEASUREMENTS request (R438): the port it goes to (8 for MCTP) and its blocks, each with its index and bytes. -/
structure Evidence where
  port : Nat
  blocks : List (Nat × List Nat)
deriving DecidableEq, Repr

/-- The Ticket Booth beside its registers. -/
structure Sec where
  /-- The token that SCRUB must carry while it is armed; whether the switch zeroes in full, the state entered after it, and the stamp
  at which it began (R455, R456). -/
  armed : Option Nat
  full : Bool
  after : Nat
  began : Nat
  /-- Steps of SCRUB done: 0 none, 1 all but the full zeroing. -/
  scrubbed : Nat
  /-- Owner digest, offered tenant root, policy of Table 15-6 as a 64-byte number, tenant root, and the tenancy record: its state,
  and that it checks (R435). -/
  owner : Option Nat
  offered : Nat
  policy : Nat
  tenant : Nat
  /-- The key_id of each pan's keys, all 64 bits (R453). -/
  keyIds : SMap Nat
  record : Nat
  recordOk : Bool
  sessions : List Session
  /-- End of the open presence window (R460), nonces issued and unused (R461). -/
  window : Option Nat
  nonces : List Nat
  /-- Image slot that the next boot uses (R461). -/
  rollback : Option Nat
  /-- Keys (Table 15-3), and the measurements sent, oldest first (R438). -/
  keys : Keys
  evidence : List Evidence
deriving DecidableEq, Repr

/-- Nothing recorded. -/
def Sec.idle : Sec := ⟨none, false, 0, 0, 0, none, 0, 0, 0, [], 0, true, [], none, [], none, Keys.none, []⟩

/-! ### Settings, board and management plane (chapters 16 to 18) -/

/-- A record of the general settings section (Table 17-8, R504): its number and format, retired granules, rows awaiting hard
repair, the steps of the VCORE plan (R528), and the registers it keeps: offset and value. -/
structure Settings where
  seq : Nat
  fmt : Nat
  retired : List Nat
  rows : List (List Nat)
  plan : Option Nat
  regs : List (Nat × Nat)
deriving DecidableEq, Repr

/-- What the SPI flash keeps, beside IMGSLOT and DUMPSTAT (R501 to R505). -/
structure Flash where
  /-- Recorded claim (R431) and security-version floor. -/
  claim : Option Nat
  floor : Nat
  /-- The newest record of each region of the general section. -/
  regions : SMap (Option Settings)
  /-- Slots that hold a complete image (R505), and consecutive unreadable boots by slot. -/
  whole : List Nat
  unread : SMap Nat
  /-- Slot booted last (R505). -/
  last : Option Nat
deriving DecidableEq, Repr

/-- A new flash. -/
def Flash.blank : Flash := ⟨none, 0, [], [], [], none⟩

/-- R411, R431: the security section records the claim. -/
def Flash.setClaim (t : Flash) (n : Nat) : Flash := { t with claim := some n }

/-- Reset kinds (R494). -/
inductive ResetKind where
  | warm | hard | powerUp
deriving DecidableEq, Repr

/-- What the power core grants: the rake point, the issue duty in 16ths, and the heap and DRAM limits in % (R483). -/
structure Limits where
  point : Nat
  duty : Nat
  heap : Nat
  mem : Nat
deriving DecidableEq, Repr

/-- Nothing is cut. -/
def Limits.full : Limits := ⟨0, 16, 100, 100⟩

/-- The controller states of IEEE 1149.1 that R563 names. -/
inductive TapState where
  | reset | idle
  | selDr | capDr | shDr | ex1Dr | pauDr | ex2Dr | updDr
  | selIr | capIr | shIr | ex1Ir | pauIr | ex2Ir | updIr
deriving DecidableEq, Repr

/-- The test access port (R563): its controller, the instruction register and its shift stage, the shift stage of the data register that
the instruction selects, and the boundary register's update stage. -/
structure Tap where
  st : TapState
  ir : Nat
  irShift : Nat
  drShift : Nat
  cells : Nat
deriving DecidableEq, Repr

/-- The port in Test-Logic-Reset: IDCODE is in force. -/
def Tap.start : Tap := ⟨.reset, 0x01, 0, 0, 0⟩

/-- Power, clocks and reset beside their registers (chapters 16 and 17). -/
structure Board where
  /-- Supplies present (R470, R475). -/
  main : Bool
  vaon : Bool
  vbat : Bool
  /-- Always-on copy of the stamp, and acc (R473). -/
  aonStamp : Nat
  acc : Nat
  /-- The always-on domain has lost both supplies since the last power-up (R475). -/
  aonLost : Bool
  /-- PRST_N asserted, and since when; released as stuck and not yet re-armed (R498). -/
  prst : Bool
  prstAt : Nat
  prstIgnored : Bool
  /-- RAIL_ORDER recorded; in factory test (R492, R561). -/
  railOrder : Bool
  test : Bool
  /-- A thermal trip holds the device (R488); a reference absent holds it (R472). -/
  trip : Bool
  refGone : Bool
  /-- A power-fail flush: 0 none, 1 confirmed and running, 2 ended (R294). -/
  flush : Nat
  /-- Reset in progress, and the stamp at which it began (R494). -/
  reset : Option ResetKind
  since : Nat
  /-- The image cache in the system carve-out holds the running set (R496). -/
  cache : Bool
  /-- Stages 3 and 4 have ended (R499). -/
  memDone : Bool
  heapDone : Bool
  /-- Images that fetches delivered and that were refused, and failed fetches (R500). -/
  fetches : Nat
  /-- The network image set accepted: its security version and build (R500). -/
  netImage : Option (Nat × Nat)
  /-- Range of formats that the running firmware reads (R505). -/
  reads : Nat × Nat
  /-- Hot intervals in a row (R487). -/
  hot : Nat
  /-- A point raise whose VCORE has not settled (R482). -/
  raising : Option Nat
  /-- Sensors for which TEMP_HIGH has been raised; rails out of range; ports held DISABLED because their optical engine has no sensor
  left, and plus 8 those whose PLL failed (R472, R524, R525). -/
  warm : List Nat
  out : List Nat
  unwatched : List Nat
  /-- Alarms whose fired bit holds ALARM_N (R531). -/
  alarmPin : Nat
  /-- A RTC_SET waiting for the tick edge (R529). -/
  rtcLoad : Option Nat
  /-- Measurement due while in DEEP (R527). -/
  ageDue : Bool
  /-- Ticks that a negative trim still holds the calendar back (R530). -/
  rtcHold : Nat
  /-- The power core's own settings (R483). -/
  own : Limits
  /-- Stacked-DRAM hold of DEEP: whether DRAM is in self-refresh (R479). -/
  selfRefresh : Bool
  /-- The test access port (R563). -/
  tap : Tap
  /-- Since the last power-up the security section has been read (R504), and the straps have been sampled (R493). -/
  loaded : Bool
  strapped : Bool
deriving DecidableEq, Repr

/-- The board at the first power-up: main power, VAON and VBAT present, PRST_N still asserted (R491). -/
def Board.start : Board :=
  ⟨true, true, true, 0, 0, false, true, 0, false, false, false, false, false, 0, some .powerUp, 0, false, false, false, 0, none, (0, 0), 0,
   none, [], [], [], 0, none, false, 0, .full, false, Tap.start, false, false⟩

/-- A management response (Tables 18-1 to 18-3): op, req_id, status and body. -/
structure MgmtRsp where
  op : Nat
  id : Nat
  status : Nat
  body : List Nat
deriving DecidableEq, Repr

/-- A subscriber slot (R516): address, port, class mask, maps and events, the session that subscribed, the next pub_seq, and the
position in the event ring of the first record not yet published. -/
structure Sub where
  addr : Nat
  port : Nat
  mask : Nat
  maps : Bool
  events : Bool
  sess : Nat
  seq : Nat
  next : Nat
deriving DecidableEq, Repr

/-- A Barker publication (Table 18-4): slot, kind, number, stamp, calendar seconds and body: the map, or the records. -/
structure Pub where
  slot : Nat
  kind : Nat
  seq : Nat
  stamp : Nat
  rtc : Nat
  map : Option CongMap
  recs : List EventRec
deriving DecidableEq, Repr

/-- A trace record (Table 18-7). -/
structure TraceRec where
  point : Nat
  type : Nat
  domain : Nat
  seq : Nat
  stamp : Nat
  args : Nat
deriving DecidableEq, Repr

/-- The record an unlisted slot of the trace ring reads as. -/
def TraceRec.zero : TraceRec := ⟨0, 0, 0, 0, 0, 0⟩

/-- A crash dump (R522): its cause, the failed core, its stamp and calendar seconds, and whether it leaves out data (R459). -/
structure Dump where
  cause : Nat
  core : Nat
  stamp : Nat
  rtc : Nat
  blank : Bool
deriving DecidableEq, Repr

/-- The management plane beside its registers. -/
structure Mgmt where
  /-- Messages sent and publications, oldest first. -/
  out : List MgmtRsp
  pubs : List Pub
  subs : SMap (Option Sub)
  /-- Downward ring of the telemetry mailbox (R515): kind, and the command's bytes or the token. -/
  down : List (Nat × List Nat)
  /-- A switch request that waits for a free entry of the ring. -/
  waiting : Option Nat
  /-- Trace (R521): ring by position modulo 2,097,152, staged records, numbers, records lost, and the stamp of the last SLEEP
  plus one while it is asleep, by domain. -/
  ring : SMap TraceRec
  staged : List TraceRec
  seqs : SMap Nat
  lost : SMap Nat
  slept : SMap Nat
  /-- The dump in the DDR5 buffer, and those in the two flash slots (R522). -/
  buffer : Option Dump
  dumps : SMap (Option Dump)
deriving DecidableEq, Repr

/-- Nothing sent. -/
def Mgmt.idle : Mgmt := ⟨[], [], [], [], none, [], [], [], [], [], none, []⟩

/-- The state of the device. -/
structure State where
  /-- Commands that are waiting, first in, first out (the model's own field). -/
  pending : List Instr
  /-- The stamp in ns, modulo 2^64 (00_scope.md Table 00-3; R473). -/
  stamp : Nat
  /-- Free values drawn so far (the model's own field, log entry 1). -/
  freeCount : Nat
  /-- Register fields, by cell (`Fld.cell`); R536 to R544. -/
  regs : SMap Nat
  /-- Bytes of node-local memory (R25 to R29). -/
  mem : List Host.Cell
  /-- Claim latched at gate k (R411); unlisted gates hold claim 1. -/
  gateClaim : SMap Nat
  /-- Event logs (R518 to R520). -/
  log : EventLog
  /-- Granule owner table, by node-local address div 2 MiB (R31); unlisted granules are FREE. -/
  grans : SMap Granule
  /-- Granules in ZEROING, oldest first (R33). -/
  zeroQ : List Nat
  /-- DRAM tiers and error log (chapters 08 and 09). -/
  dram : Dram
  /-- What the SSDs keep. -/
  heap : Heap
  /-- Pans beside their registers. -/
  pans : SMap Pan
  /-- Queue contexts, by queue ID (R177). -/
  queues : SMap Queue
  /-- Active lists L, by stall: queue IDs, head first (R187). -/
  lists : SMap (List Nat)
  /-- Rakes (R63). -/
  rakes : SMap Rake
  /-- QCMD STOP commands that wait for records, by stall: queue ID + 1 (R182, R183). -/
  stopQ : SMap Nat
  /-- Translation caches and walk slots (R209, R210). -/
  runCache : List RunEnt
  walkCache : List WalkEnt
  walks : List Walk
  /-- The pan whose walk was granted a slot last (R210). -/
  walkTurn : Nat
  /-- Instruction caches, by 128 x rake + set: the lines of a set by pan and address div 128, most recently used first (R69). -/
  icache : SMap (List (Nat × Nat))
  /-- Changes of translations that wait for their copies or their drain (R129, R215). -/
  shoots : List Shoot
  /-- Memory accesses that wait, in arrival order, and coherence (chapter 11). -/
  waits : List Wait
  coh : Coh
  /-- Fabric (chapter 13). -/
  fab : Fab
  links : SMap Link
  rm : Ringmaster
  twin : Twin
  /-- Sluice meters by 64 x port + pan (R192); a meter that is not listed is full. -/
  sluice : SMap Bucket
  sec : Sec
  flash : Flash
  /-- Rank orders of the Carousels, best first, by register base; an unlisted one is index order (R196). -/
  cars : SMap (List Nat)
  board : Board
  mgmt : Mgmt
  /-- Debug port: 0 locked, 1 unlocked for reads, 2 unlocked for reads and writes (R458). -/
  debugLevel : Nat
deriving DecidableEq, Repr

/-- The device right after its first power-up reset: nothing recorded, every register at its reset value. -/
def State.reset : State where
  pending := []
  stamp := 0
  freeCount := 0
  regs := []
  mem := []
  gateClaim := []
  log := EventLog.empty
  grans := []
  zeroQ := []
  dram := Dram.empty
  heap := Heap.blank
  pans := []
  queues := []
  lists := []
  rakes := []
  stopQ := []
  runCache := []
  walkCache := []
  walks := []
  walkTurn := 0
  icache := []
  shoots := []
  waits := []
  coh := Coh.idle
  fab := Fab.idle
  links := []
  rm := Ringmaster.idle
  twin := Twin.none
  sluice := []
  sec := Sec.idle
  flash := Flash.blank
  cars := []
  board := Board.start
  mgmt := Mgmt.idle
  debugLevel := 0

end Sys2Proof.Machine
end

