-- ==== Sys2Proof/Machine/Ops.lean ====
section
/-!
DEFINITION. The named operations over registers, counters, events and the claim gates.
-/
namespace Sys2Proof.Machine

/-! ### Registers -/

/-- A field in register set `set` (0 A, 1 B); a field that is not RWS has one value for both. -/
def State.rdSet (s : State) (set : Nat) (f : Fld) : Nat := SMap.get f.rst (f.cell set) s.regs

/-- Writes a field in register set `set`, truncated to the field's width. -/
def State.wrSet (s : State) (set : Nat) (f : Fld) (v : Nat) : State :=
  { s with regs := SMap.put f.rst (f.cell set) (v % 2 ^ f.w) s.regs }

/-- R404: the set that EPOCHCUR names. -/
def State.activeSet (s : State) : Nat := s.rdSet 0 Csr.EPOCHCUR_set

/-- A field as the device uses it now: an RWS field in the active set. -/
def State.rd (s : State) (f : Fld) : Nat := s.rdSet s.activeSet f

/-- A one-bit field, or any field, as a truth value. -/
def State.on (s : State) (f : Fld) : Bool := s.rd f != 0

/-- Writes a field as the hardware does: an RWS field in the active set. -/
def State.wr (s : State) (f : Fld) (v : Nat) : State := s.wrSet s.activeSet f v

/-- R2: an RWS field as software reads it, in the shadow set. -/
def State.rdShadow (s : State) (f : Fld) : Nat := s.rdSet (1 - s.activeSet) f

/-- The registers at offsets for which `p` holds take their reset values, in both sets. -/
def State.dropRegs (s : State) (p : Nat → Bool) : State := { s with regs := s.regs.filter (fun kv => !p (kv.1 / 128)) }

/-- Sets bit `i` of a field. -/
def State.setFld (s : State) (f : Fld) (i : Nat) : State := s.wr f (setBit (s.rd f) i true)

/-- Clears bit `i` of a field. -/
def State.clrFld (s : State) (f : Fld) (i : Nat) : State := s.wr f (setBit (s.rd f) i false)

/-- Bit `i` of a field. -/
def State.bit (s : State) (f : Fld) (i : Nat) : Bool := bitOf (s.rd f) i

/-! ### Epochs (R404, R407) -/

/-- R404: the set of the current epoch: set A goes with odd counters and set B with even ones. -/
def State.liveSet (s : State) : Nat := 1 - s.rd Csr.EPOCHCUR_counter % 2

/-- R407: tagged work reads its configuration from set `t`; `liveSet` is the set to return to. -/
def State.viewSet (s : State) (t : Nat) : State := s.wr Csr.EPOCHCUR_set t

/-- Work enters the count of the current epoch. -/
def State.epochEnter (s : State) : State := s.wr Csr.EPOCHINFL_current (s.rd Csr.EPOCHINFL_current + 1)

/-- Work tagged with set `t` leaves the count of its epoch. -/
def State.epochLeave (s : State) (t : Nat) : State :=
  if t = s.liveSet then s.wr Csr.EPOCHINFL_current (s.rd Csr.EPOCHINFL_current - 1)
  else s.wr Csr.EPOCHINFL_previous (s.rd Csr.EPOCHINFL_previous - 1)

/-! ### Free values -/

/-- Draws a free value below `2 ^ w`: a value that the spec leaves open (log entry 1). -/
def State.drawFree (s : State) (w : Nat) : Nat × State :=
  (Config.freeValue s.freeCount % 2 ^ w, { s with freeCount := s.freeCount + 1 })

/-! ### Events (R12, R13, R518 to R520) -/

/-- Records waiting in the event ring: producer less consumer (R519). -/
def State.evBacklog (s : State) : Nat := subMod (s.rd Csr.EVPOS_producer) (s.rd Csr.EVPOS_consumer) 32

/-- R519: the oldest staged record enters the event ring, if the ring has room. -/
def State.stageDrain (s : State) : State :=
  match s.log.staging with
  | [] => s
  | e :: t =>
    if s.evBacklog < 32768 then
      let p := s.rd Csr.EVPOS_producer
      let s := { s with log := { s.log with staging := t,
                                            ring := SMap.put EventRec.zero (p % 32768) { e with seq := p } s.log.ring } }
      s.wr Csr.EVPOS_producer (p + 1)
    else s

/-- PWRSTAT.state codes used by other blocks: 0 RUN, 1 IDLE, 2 DEEP (Table 16-10). -/
def State.inDeep (s : State) : Bool := s.rd Csr.PWRSTAT_state == 2

/-- One more drop of class `c` in a table of drops (R13). -/
def DropCount.bump (now : Nat) (d : DropCount) : DropCount :=
  if d.count = 0 then ⟨1, now⟩ else ⟨min (d.count + 1) 0xFFFFFFFFFFFF, d.first⟩

/-- R519: a record enters the staging queue; with ring and staging both full, or staging full in DEEP, it is dropped
and counted under R13. -/
def State.pushRing (s : State) (e : EventRec) : State :=
  let s := if s.log.staging.length < 2048 || s.inDeep then s else s.stageDrain
  if s.log.staging.length < 2048 then { s with log := { s.log with staging := s.log.staging ++ [e] } }
  else { s with log := { s.log with drops := SMap.upd DropCount.zero (e.id / 256) (DropCount.bump s.stamp) s.log.drops } }

/-- Records waiting in the always-on log (R520). -/
def State.aonBacklog (s : State) : Nat := subMod (s.rd Csr.AONLOGPOS_producer) (s.rd Csr.AONLOGPOS_consumer) 16

/-- Writes one record into the always-on log. -/
def State.aonWrite (s : State) (e : EventRec) : State :=
  let p := s.rd Csr.AONLOGPOS_producer
  let s := { s with log := { s.log with aon := SMap.put EventRec.zero (p % 2048) { e with seq := s.log.aonSeq } s.log.aon,
                                        aonSeq := (s.log.aonSeq + 1) % 2 ^ 32 } }
  s.wr Csr.AONLOGPOS_producer (p + 1)

/-- R520: whether a record of class `c` may enter the always-on log now. -/
def State.aonAdmits (s : State) (c : Nat) : Bool :=
  let free := 2048 - s.aonBacklog
  decide (64 ≤ free) || (decide (0 < free) && (c == 1 || c == 2 || c == 8 || c == 0xD))

/-- R520: a record for the always-on log; while fewer than 64 records are free only classes 1, 2, 8 and 0xD enter, any
other is dropped, and AONLOGPOS.reserve holds AON_LOG_RESERVE back until 64 are free again. -/
def State.pushAon (s : State) (e : EventRec) : State :=
  let short := decide (2048 - s.aonBacklog < 64)
  let reserve : EventRec := ⟨Ev.AON_LOG_RESERVE, 7, 0, 0, s.stamp, 0⟩
  let first := short && !s.on Csr.AONLOGPOS_reserve
  let s := s.wr Csr.AONLOGPOS_reserve (if short then 1 else 0)
  let s := if first then (let s := s.pushRing reserve; if s.aonAdmits 0xD then s.aonWrite reserve else s) else s
  if s.aonAdmits (e.id / 256) then s.aonWrite e
  else { s with log := { s.log with aonDrops := SMap.upd DropCount.zero (e.id / 256) (DropCount.bump s.stamp) s.log.aonDrops } }

/-- R515: a record enters the mailbox's upward ring of 512 KiB; with it full it is dropped and counted under R13. -/
def State.pushUp (s : State) (e : EventRec) : State :=
  if s.log.up.length < 16384 then
    { s with log := { s.log with up := s.log.up ++ [{ e with seq := s.log.upSeq }], upSeq := (s.log.upSeq + 1) % 2 ^ 32 } }
  else { s with log := { s.log with upDrops := SMap.upd DropCount.zero (e.id / 256) (DropCount.bump s.stamp) s.log.upDrops } }

/-- R13: the record of event 0xFF of class `c`. -/
def dropRecord (c now : Nat) (d : DropCount) : EventRec := ⟨256 * c + 0xFF, 0, 0, 0, now, d.count + d.first * 2 ^ 64⟩

/-- R515: the power core reads the upward ring empty, and the drops it had to make are reported there (R13; log entry 79). -/
def State.upRead (s : State) : State :=
  let ds := s.log.upDrops
  ds.foldl (fun s c => s.pushUp (dropRecord c.1 s.stamp c.2)) { s with log := { s.log with up := [], upDrops := [] } }

/-- R518: an event goes to the event ring and the mailbox (R515), and those of classes 0x08 and 0x0D and the marked ones to the
always-on log too. `kind` and `idx` name the source (Table 18-6). -/
def State.raise (s : State) (id kind idx : Nat) (data : Nat := 0) : State :=
  let e : EventRec := ⟨id, kind, idx, 0, s.stamp, data⟩
  let s := (s.pushUp e).pushRing e
  if id / 256 = 8 ∨ id / 256 = 0xD ∨ id ∈ Ev.alwaysOn then s.pushAon e else s

/-! ### Statistics counters (R6, R523) -/

/-- The value at which a 48-bit counter stays. -/
def cntMax : Nat := 0xFFFFFFFFFFFF

/-- A statistics counter: its count field, the field and bit of its sticky overflow bit, its overflow event and the
event's source. -/
structure Ctr where
  cnt : Fld
  ovf : Fld
  bit : Nat
  ev : Nat
  kind : Nat
  idx : Nat

/-- R6: counts `n`. At the maximum it stays, sets its overflow bit and raises its overflow event once; with only the
bit cleared it stays at the maximum and sets the bit again; with only the count cleared it counts nothing. -/
def State.count (s : State) (c : Ctr) (n : Nat := 1) : State :=
  let v := s.rd c.cnt
  let o := s.bit c.ovf c.bit
  if n = 0 then s
  else if v = cntMax then (if o then s else s.setFld c.ovf c.bit)
  else if o then s
  else if v + n < cntMax then s.wr c.cnt (v + n)
  else ((s.wr c.cnt cntMax).setFld c.ovf c.bit).raise c.ev c.kind c.idx

/-! ### Claim gates (R410, R536 to R541) -/

/-- The configuration block, and so the claim gate, of a window offset (Table 19-1, Table 14-4); the Ringmaster blocks
have none. -/
def gateOf (o : Nat) : Option Nat :=
  if o < 0x100000 then some 0
  else if o < 0x200000 then some 1
  else if o < 0x400000 then some 2
  else if o < 0x500000 then none
  else if o < 0x600000 then some 3
  else if o < 0x1000000 then none
  else if o < 0x2000000 then some (4 + (o - 0x1000000) / 0x100000)
  else if o < 0x2400000 then some (20 + (o - 0x2000000) / 0x80000)
  else if o < 0x2800000 then some 28
  else if o < 0x2A00000 then some (29 + (o - 0x2800000) / 0x20000)
  else if o < 0x2C00000 then some 45
  else if o < 0x3000000 then some 46
  else if o < 0x3100000 then some 47
  else if o < 0x3200000 then some 48
  else if o < 0x3300000 then some 49
  else none

/-- The Ringmaster block an offset lies in: `false` A, `true` B (Table 19-1). -/
def rmBlockOf (o : Nat) : Option Bool :=
  if 0x400000 ≤ o ∧ o < 0x480000 then some false
  else if 0x480000 ≤ o ∧ o < 0x500000 then some true
  else none

/-- The claim that instance `b` holds (R414). -/
def State.claimOf (s : State) (b : Bool) : Nat := s.rd (if b then Csr.CLAIMB_claim else Csr.CLAIMA_claim)

/-- The claim latched at gate `k` (R411). -/
def State.latched (s : State) (k : Nat) : Nat := SMap.get 1 k s.gateClaim

/-- R405: the shadow is OPEN. -/
def State.shadowOpen (s : State) : Bool := s.rd Csr.EPOCHSTAT_shadow == 0

/-- R410, second test: the shadow is OPEN, or the write would change no RWS field of the register. -/
def State.rwsAllowed (s : State) (o : Nat) (r : RegRow) (v : Nat) : Bool :=
  s.shadowOpen ||
  r.fields.all (fun f => f.acc != .rws || s.rdShadow (f.fld o) == bitsOf v f.lo f.w)

/-- What became of a register write: performed, refused at a gate or by path, or not an aligned word of the window. -/
inductive WriteResult where
  | done | refused | malformed
deriving DecidableEq, Repr

/-- GATEREFCNT (R410), with GATE_REFUSED when it leaves zero (Table 14-10). -/
def State.countGateRefusal (s : State) : State :=
  let z := s.rd Csr.GATEREFCNT_count == 0
  let s := s.count ⟨Csr.GATEREFCNT_count, Csr.RMCNTSTAT_cnt_ovf, 0, Ev.RM_COUNT_OVF, 0, 0⟩
  if z && s.rd Csr.GATEREFCNT_count != 0 then s.raise Ev.GATE_REFUSED 0 0 else s

/-- The ring whose consumer count a register holds: the width of the count and the records the ring holds (R581). -/
def ringOf (name : String) : Option (Nat × Nat) :=
  if name = "EVPOS" then some (32, 32768)
  else if name = "ERRLOGPOS" then some (32, 8192)
  else if name = "FQPOS" then some (32, 4096)
  else if name = "AONLOGPOS" then some (16, 2048)
  else none

/-- R581: consumer count `c` is accepted only when (producer - c) mod 2^w is at most N. -/
def consumerOk (w n producer c : Nat) : Bool := decide (subMod producer c w ≤ n)

/-- The producer field beside the consumer field at `o` of a ring position register. -/
def producerOf (r : RegRow) (o : Nat) : Fld :=
  match r.fields.find? (fun f => f.name == "producer") with
  | some f => f.fld o
  | none => ⟨o, 0, 0, 0, false⟩

/-- One field of a register write by its access code (R2); the consumer counts of rings follow R581. -/
def State.writeField (s : State) (r : RegRow) (o v : Nat) (f : FieldRow) : State :=
  let fld := f.fld o
  let x := bitsOf v f.lo f.w
  match f.acc with
  | .rw =>
    match ringOf r.name with
    | some (w, n) =>
      if f.name == "consumer" && !consumerOk w n (s.rd (producerOf r o)) x then s else s.wr fld x
    | none => s.wr fld x
  | .rws => if s.shadowOpen then s.wrSet (1 - s.activeSet) fld x else s
  | .w1c => s.wr fld (s.rd fld ^^^ (s.rd fld &&& x))
  | .w1s => s.wr fld (s.rd fld ||| x)
  | .ro | .rc | .wo => s

/-- EPOCHSTAT.dirty and BLKCOMMIT[k].dirty: a shadow field has been written since OPEN (Table 14-12). -/
def State.markDirty (s : State) (o : Nat) (r : RegRow) : State :=
  if s.shadowOpen && r.fields.any (fun f => f.acc == .rws) then
    let s := s.wr Csr.EPOCHSTAT_dirty 1
    match gateOf o with
    | some k => s.wr (Csr.BLKCOMMIT_dirty k) 1
    | none => s
  else s

/-- The fields of a write that a gate or a plane performs; reserved offsets discard it (R4). -/
def State.writeWord (s : State) (o v : Nat) : State :=
  match Csr.find o with
  | none => s
  | some r => (r.fields.foldl (fun s f => s.writeField r o v f) s).markDirty o r

/-- R410, R537: the write of `v` at window offset `o` by `w`. A gate performs a Ringmaster write that carries the
latched claim and passes the second test, and a debug write while the port is unlocked for writes (R458) that passes
the second test; every other write at a gate has no effect and counts in GATEREFCNT. The management path, the power
core and the Ticket Booth write the blocks of Table 19-2 as their own planes. Through its gate, block 47 accepts only
writes of its counters (Table 19-1). An unaligned offset, or one outside the window, is not performed (R5). -/
def State.regWrite (s : State) (w : Writer) (o v : Nat) : WriteResult × State :=
  if o % 8 ≠ 0 ∨ 0x4000000 ≤ o then (.malformed, s)
  else
    let gated (k : Nat) (claimOk : Bool) : WriteResult × State :=
      let rwsOk := match Csr.find o with
        | some r => s.rwsAllowed o r v
        | none => true
      let blockOk := k != 47 || decide (0x3000400 ≤ o)
      if claimOk && rwsOk && blockOk then (.done, s.writeWord o v) else (.refused, s.countGateRefusal)
    match w with
    | .rm b =>
      match rmBlockOf o with
      | some b' => if b' = b then (.done, s.writeWord o v) else (.refused, s)
      | none =>
        match gateOf o with
        | some k => gated k (s.claimOf b == s.latched k)
        | none => (.done, s)
    | .debug =>
      match gateOf o with
      | some k => if s.debugLevel = 2 ∧ k ≠ 47 then gated k true else (.refused, if s.debugLevel = 0 then s else s.countGateRefusal)
      | none => (.refused, s)
    | .mgmt =>
      match gateOf o with
      | some k =>
        if k = 1 ∨ k = 48 ∨ k = 49 ∨ o = 0x200010 then (.done, s.writeWord o v)
        else if (Csr.find o).isNone then (.done, s)
        else (.refused, s.countGateRefusal)
      | none => (if (Csr.find o).isNone then .done else .refused, s)
    | .power =>
      if gateOf o = some 1 ∨ gateOf o = some 2 ∨ gateOf o = some 48 ∨ gateOf o = some 49 then (.done, s.writeWord o v)
      else (.refused, s)
    | .booth => if gateOf o = some 47 then (.done, s.writeWord o v) else (.refused, s)

/-- The engine of port `p` is dark: DISABLED or SLEEP (Table 16-2). -/
def State.portDark (s : State) (p : Nat) : Bool :=
  let x := s.rd (Csr.PORTSTAT_state p)
  x == 0 || x == 5

/-- The rakes and the control core of stall `k` are powered down, or failed. -/
def State.stallDark (s : State) (k : Nat) : Bool :=
  (s.rd Csr.STALLPWR_gated).testBit k || (s.rd Csr.STALLSVC_failed).testBit k

/-- R198, R422: requester `r` of the Carousel with registers at `b` is in reset or powered down: at a DRAM command slot the reads of a
dark port, or of the rakes when no stall is lit; at a Midway stop the rakes and the core of a dark stall and the requesters of a dark
port. -/
def State.agentOff (s : State) (b r : Nat) : Bool :=
  if 0x2800000 ≤ b then (decide (r < 8) && s.portDark r) || (r == 8 && (List.range 16).all s.stallDark)
  else if 0x2410000 ≤ b then
    let k := Csr.midStop b
    let kind := Config.midAgent (0x2400100 + 8 * k) / 16 ^ r % 16
    ((kind == 1 || kind == 2) && decide (Config.stopStall k < 16) && s.stallDark (Config.stopStall k))
      || (decide (6 ≤ kind) && decide (kind ≤ 8) && decide (Config.stopPort k < 8) && s.portDark (Config.stopPort k))
  else false

/-- R198: requester `r` of a Carousel is masked. -/
def State.carMasked (s : State) (b r : Nat) : Bool := (s.rd (Csr.CARSTATE_masked b)).testBit r || s.agentOff b r

/-- Whether `o` is the offset of a CARSTATE outside the stalls (Table 06-10). -/
def carState (o : Nat) : Bool :=
  (decide (0x2410000 ≤ o) && decide (o < 0x2414800) && o % 0x100 == 0x10)
  || (decide (0x2800000 ≤ o) && decide (o < 0x2A00000) && o % 0x20000 == 0x1010)
  || (decide (0x2A10800 ≤ o) && decide (o < 0x2A30800) && o % 0x1000 == 0x810)

/-- The value of one field as a read returns it (R2): RWS the shadow value, WO zero; CARSTATE shows every masked requester. -/
def State.readField (s : State) (o : Nat) (f : FieldRow) : Nat :=
  match f.acc with
  | .rws => s.rdShadow (f.fld o)
  | .wo => 0
  | _ => if carState o && f.lo == 0 then (((List.range 16).filter (s.carMasked (o - 0x10))).map (2 ^ ·)).sum else s.rd (f.fld o)

/-- What a read leaves of an RC field: PANUSE.peak then equals used (Table 02-14), any other is cleared (R2). -/
def State.clearRc (s : State) (r : RegRow) (o : Nat) (f : FieldRow) : State :=
  if f.acc = .rc then
    s.wr (f.fld o) (if r.name = "PANUSE" then s.rd ⟨o, 0, 32, 0, false⟩ else 0)
  else s

/-- R2, R4, R540: the whole word at an aligned offset, with its RC fields cleared; reserved offsets and fields read
zero. -/
def State.regRead (s : State) (o : Nat) : Nat × State :=
  match Csr.find o with
  | none => (0, s)
  | some r =>
    ((r.fields.map (fun f => s.readField o f * 2 ^ f.lo)).sum,
     r.fields.foldl (fun s f => s.clearRc r o f) s)

/-! ### Bytes of memory -/

/-- One byte of node-local memory; a byte that nothing has written reads zero (log entry 4). -/
def State.byte (s : State) (a : Nat) : Nat := (SMap.get 0 a s.mem).toNat

/-- Writes one byte of node-local memory. -/
def State.setByte (s : State) (a v : Nat) : State := { s with mem := SMap.put 0 a (BitVec.ofNat 8 v) s.mem }

/-- The `n` bytes from address `a`. -/
def State.bytes (s : State) (a n : Nat) : List Nat := (rangeFrom a n).map s.byte

/-- Writes bytes from address `a` on. -/
def State.setBytes (s : State) (a : Nat) : List Nat → State
  | [] => s
  | b :: t => (s.setByte a b).setBytes (a + 1) t

/-- The little-endian number of the `n` bytes at `a`. -/
def State.word (s : State) (a n : Nat) : Nat := ofLeBytes (s.bytes a n)

/-- Writes the little-endian `n` bytes of `v` at `a`. -/
def State.setWord (s : State) (a n v : Nat) : State := s.setBytes a (leBytes n v)

end Sys2Proof.Machine
end

