-- ==== Sys2Proof/Machine/Mem.lean ====
section
/-!
DEFINITION. Node-local memory: regions and granules (chapter 02), the DRAM address orders and the stacked cache
(chapter 08), poison, decode outcomes and the error log (chapter 09), and reads and writes of bytes through all of them.
-/
namespace Sys2Proof.Machine

/-! ### Regions (R25 to R29) -/

/-- Bytes of a granule: 2 MiB (R30). -/
def granSize : Nat := 0x200000

/-- Start of the stacked-DRAM direct window (Table 02-1). -/
def stkBase : Nat := 0x100000000000

/-- Start of the heap (Table 02-1). -/
def heapBase : Nat := 0x1000000000000

/-- Start of the lent extents (Table 02-1). -/
def lentBase : Nat := 0x2000000000000

/-- Bytes of one lent slot: 8 TiB (Table 02-1). -/
def lentSlotSize : Nat := 0x80000000000

/-- Start of the CSR window (Table 02-1). -/
def csrBase : Nat := 0xFF00000000000

/-- What a node-local address names (Table 02-1, R27 to R29). -/
inductive Region where
  | ddr | stk | heap | lent (slot : Nat) | csr | system | hole
deriving DecidableEq, Repr

/-- Granules of the DDR5 system carve-out: the top 4 GiB (R29). -/
def ddrCarve : Nat := 2048

/-- Granules of the heap system carve-out: 1 GiB (R29). -/
def heapCarve : Nat := 512

/-- Granules of lent slot `k`: those accepted, at most those offered (Table 02-6). -/
def State.lentSize (s : State) (k : Nat) : Nat := min (s.rd (Csr.LENTCTL_size_granules k)) (s.rd (Csr.LENTSTAT_offered_granules k))

/-- R26 to R29: what node-local address `a` names; a lent slot is populated while ACTIVE or RECALLING. -/
def State.region (s : State) (a : Nat) : Region :=
  if a < lentSlotSize then
    let top := s.rd Csr.DDR5TOP_granules
    if a / granSize < top - ddrCarve then .ddr else if a / granSize < top then .system else .hole
  else if stkBase ≤ a ∧ a < stkBase + 0x800000000 then
    if a < stkBase + 0x778000000 then .stk else .system
  else if heapBase ≤ a ∧ a < lentBase then
    let top := s.rd Csr.HEAPTOP_granules
    let g := (a - heapBase) / granSize
    if g < top - heapCarve then .heap else if g < top then .system else .hole
  else if lentBase ≤ a ∧ a < 2 * lentBase then
    let n := (a - lentBase) / lentSlotSize
    let st := s.rd (Csr.LENTSTAT_state n)
    if (st = 2 ∨ st = 3) ∧ (a - lentBase) % lentSlotSize / granSize < s.lentSize n
    then .lent n else .hole
  else if csrBase ≤ a ∧ a < csrBase + 0x4000000 then .csr
  else if csrBase + 0x4000000 ≤ a ∧ a < 2 ^ 52 then .system
  else .hole

/-- The tier of a node-local address that pans can own (Table 02-4). -/
def tierOf (a : Nat) : Nat :=
  if a < lentSlotSize then 1 else if a < heapBase then 0 else if a < lentBase then 2 else 3

/-! ### The granule owner table (R31) -/

/-- The owner-table entry of granule `g`. -/
def State.gran (s : State) (g : Nat) : Granule := SMap.get Granule.fresh g s.grans

/-- Changes the owner-table entry of granule `g`. -/
def State.setGran (s : State) (g : Nat) (f : Granule → Granule) : State :=
  { s with grans := SMap.upd Granule.fresh g f s.grans }

/-- R31: granule `g` is OWNED by pan `p`. -/
def State.owns (s : State) (p g : Nat) : Bool := (s.gran g).st == .owned && (s.gran g).owner == p

/-- R31: every granule of the bytes `[a, a + n)` is OWNED by pan `p`. -/
def State.ownsRange (s : State) (p a n : Nat) : Bool :=
  (rangeFrom (a / granSize) ((a + n - 1) / granSize - a / granSize + 1)).all (s.owns p)

/-! ### Address orders (R229 to R233, R245) -/

/-- R229: the order of a stripe; the highest stripe is always CONTAINED (2). -/
def State.stripeOrder (s : State) (p : Nat) : Nat :=
  if p = s.rd Csr.DDR5TOP_granules / 8192 - 1 then 2 else SMap.get 0 p s.dram.stripes

/-- R230, `ddr5_map`: channel and channel-local line of a DDR5 address. -/
def State.ddr5Map (s : State) (a : Nat) : Nat × Nat :=
  let p := bitsOf a 34 9
  let o := bitsOf a 0 34
  if s.stripeOrder p = 1 then
    let x := o / 128
    let ch := (bitsOf x 0 4 ^^^ bitsOf x 4 4) ^^^ (bitsOf x 8 4 ^^^ bitsOf p 0 4)
    (ch, p * 2 ^ 23 + bitsOf x 4 23)
  else (bitsOf o 30 4, p * 2 ^ 23 + bitsOf o 7 23)

/-- Lines of one logical rank (R232). -/
def State.rankLines (s : State) (ch : Nat) : Nat := s.rd (Csr.DDRGEO_rows ch) * 4096

/-- R232, `ddr5_decode`: slot, subchannel, bank group, bank, row and column of a channel-local line. -/
def State.ddr5Decode (s : State) (ch l : Nat) : Nat × Nat × Nat × Nat × Nat × Nat :=
  let rl := s.rankLines ch
  let slot := l / rl
  let u := l % rl
  let row := u / 4096
  (slot, bitsOf u 0 1, bitsOf u 1 3 ^^^ bitsOf row 0 3, bitsOf u 4 2 ^^^ bitsOf row 3 2, row, bitsOf u 6 6)

/-- R233, `stk_map`: stacked channel, pseudo-channel, bank, row, column and byte of a direct-window offset. -/
def stkMap (w : Nat) : Nat × Nat × Nat × Nat × Nat × Nat :=
  let x := bitsOf w 7 28
  let g := bitsOf x 0 6 ^^^ bitsOf x 6 6
  let y := bitsOf x 6 22
  let row := bitsOf y 7 15
  (16 * (g / 32) + bitsOf g 1 4, g % 2, bitsOf y 0 4 ^^^ bitsOf row 0 4, row, bitsOf y 4 3, w % 128)

/-- The pseudo-channel g of R233 that serves a direct-window offset. -/
def stkPc (w : Nat) : Nat := bitsOf w 7 6 ^^^ bitsOf w 13 6

/-- R245, `cache_slot`: segment and set of a DDR5 line D. -/
def cacheSlot (d : Nat) : Nat × Nat :=
  let h := d * 0x9E3779B97F4A7C15 % 2 ^ 64
  (h / 2 ^ 32 * 239 / 2 ^ 32, h % 2 ^ 17)

/-- R231: the address lies in the DDR5 system carve-out. -/
def State.inCarve (s : State) (a : Nat) : Bool :=
  decide (a < lentSlotSize) && decide (s.rd Csr.DDR5TOP_granules - ddrCarve ≤ a / granSize) && decide (a / granSize < s.rd Csr.DDR5TOP_granules)

/-- Offset of the carve-out's secondary half from its primary half: 2 GiB (R231). -/
def mirrorOff : Nat := 0x80000000

/-- R231: the address lies in the secondary half of the carve-out, which holds a copy of the primary half. -/
def State.inMirror (s : State) (a : Nat) : Bool :=
  s.inCarve a && decide (s.rd Csr.DDR5TOP_granules - ddrCarve / 2 ≤ a / granSize)

/-- A channel beside its registers. -/
def State.chan (s : State) (c : Nat) : Channel := SMap.get Channel.idle c s.dram.chans

/-- Changes a channel. -/
def State.setChan (s : State) (c : Nat) (f : Channel → Channel) : State :=
  { s with dram := { s.dram with chans := SMap.upd Channel.idle c f s.dram.chans } }

/-- The entry that keeps the queues of stacked pseudo-channel `g`: that of the even one of its channel. -/
def stkChan (g : Nat) : Nat := 16 + g / 2 * 2

/-- R17, R271: DDR5 channel `c` is out of service (DDRSTAT.state OOS). -/
def State.chanOos (s : State) (c : Nat) : Bool := s.rd (Csr.DDRSTAT_state c) == 4

/-! ### Counters of the channels and stores -/

/-- DDR5 channel counter `i` of Table 08-11. -/
def ddrCtr (c i : Nat) : Ctr :=
  ⟨⟨0x2800100 + 0x20000 * c + 8 * i, 0, 48, 0, false⟩, Csr.DDRSTAT_cnt_ovf c, i, Ev.DRAM_COUNT_OVF, 3, c⟩

/-- Stacked-DRAM counter `i` of Table 08-14. -/
def stkCtr (i : Nat) : Ctr := ⟨⟨0x2A00200 + 8 * i, 0, 48, 0, false⟩, Csr.STKSTAT_cnt_ovf, i, Ev.DRAM_COUNT_OVF, 0, 0⟩

/-- ECC counter `i` (0 correctable, 1 uncorrectable, 2 address, 3 poison) of store `st` (R279). -/
def eccCtr (st i : Nat) : Ctr :=
  ⟨⟨Csr.eccOff st (4 + i), 0, 48, 0, false⟩, Csr.ECCSTAT_cnt_ovf st, i, Ev.ECC_COUNT_OVF,
   if st < 16 then 3 else 0, if st < 16 then st else 0⟩

/-- Integrity counter `i` of block 0: 0 ERRDROPCNT, 1 SRAMCECNT, 2 SRAMUECNT, 3 SRAMADDRCNT (Table 09-9). -/
def sramCtr (i : Nat) : Ctr := ⟨⟨0x3020 + 8 * i, 0, 48, 0, false⟩, Csr.ERRSTAT_cnt_ovf, i, Ev.ECC_COUNT_OVF, 0, 0⟩

/-! ### The error log (R264, R266) -/

/-- ERRSTAT.log_full follows the counts of ERRLOGPOS (Table 09-10, R581). -/
def State.errLogLevel (s : State) : State :=
  s.wr Csr.ERRSTAT_log_full (if subMod (s.rd Csr.ERRLOGPOS_producer) (s.rd Csr.ERRLOGPOS_consumer) 32 = 8192 then 1 else 0)

/-- R266: writes an error record, or drops and counts it while the ring is full. -/
def State.errWrite (s : State) (e : ErrRec) : State :=
  let p := s.rd Csr.ERRLOGPOS_producer
  let back := subMod p (s.rd Csr.ERRLOGPOS_consumer) 32
  if back < 8192 then
    let s := { s with dram := { s.dram with errRing := SMap.put ErrRec.zero (p % 8192) e s.dram.errRing,
                                            errFull := false } }
    (s.wr Csr.ERRLOGPOS_producer (p + 1)).errLogLevel
  else
    let s := s.count (sramCtr 0)
    if s.dram.errFull then s
    else { s with dram := { s.dram with errFull := true } }.raise Ev.ERRLOG_FULL 0 0

/-- The keys of a store's filter. -/
def State.filterKeys (s : State) (st : Nat) : List FilterKey := SMap.get [] st s.dram.filter

/-- Replaces the keys of a store's filter, at most 32 (R264). -/
def State.setFilter (s : State) (st : Nat) (ks : List FilterKey) : State :=
  { s with dram := { s.dram with filter := SMap.put [] st (ks.take 32) s.dram.filter } }

/-- R278: a record of an uncorrectable outcome, and its event, raised once per record that is logged. -/
def State.errRaise (s : State) (e : ErrRec) (ev kind index : Nat) : State :=
  let room := decide (subMod (s.rd Csr.ERRLOGPOS_producer) (s.rd Csr.ERRLOGPOS_consumer) 32 < 8192)
  let s := s.errWrite e
  if room then s.raise ev kind index else s

/-- R264: a correctable outcome at `t` is logged unless its key was logged within [t - 1 s, t): the key then counts it. With
ce_filter_en = 0 every outcome is logged. -/
def State.logCorrectable (s : State) (st key : Nat) (e : ErrRec) : State :=
  let ks := s.filterKeys st
  let rest := ks.filter (fun k => k.key != key)
  match ks.find? (fun k => k.key == key) with
  | some k =>
    let age := subMod s.stamp k.logged 64
    if s.on Csr.ERRCTL_ce_filter_en && decide (0 < age) && decide (age ≤ 1000000000) then
      s.setFilter st (⟨key, k.logged, min (k.repeats + 1) 0xFFFFFFFF⟩ :: rest)
    else (s.errWrite { e with repeats := k.repeats }).setFilter st (⟨key, s.stamp, 0⟩ :: rest)
  | none => (s.errWrite e).setFilter st (⟨key, s.stamp, 0⟩ :: rest)

/-- R244: channel-local line `l` of channel `c` lies below mig_ptr in the slot being migrated, so the spare serves it. -/
def State.fromSpare (s : State) (c l : Nat) : Bool :=
  s.rd (Csr.DDRSTAT_state c) == 3 && l / s.rankLines c == s.rd (Csr.DDRSTAT_mig_slot c)
    && decide (l % s.rankLines c < s.rd (Csr.DDRSPARE_mig_ptr c))

/-- The physical rank that serves channel-local line `l` of channel `c`, coded as in RANKMAP (R232, R244). -/
def State.rankOf (s : State) (c l : Nat) : Nat :=
  if s.fromSpare c l then s.rd (Csr.DDRSPARE_spare_phys c) else bitsOf (s.rd (Csr.RANKMAP_slot c)) (4 * (l / s.rankLines c)) 4

/-- Table 09-4: the place of channel-local line `l` of channel `c` on physical rank `rank`, with the mask of corrected devices. -/
def State.ddrPlace (s : State) (c l rank : Nat) (es : List (Nat × Nat)) : Nat :=
  let (_, sub, bg, bank, row, col) := s.ddr5Decode c l
  let mask := es.foldl (fun m e => m ||| 2 ^ devOfSym e.1) 0
  c + 2 ^ 4 * rank + 2 ^ 8 * sub + 2 ^ 9 * bg + 2 ^ 12 * bank + 2 ^ 14 * row + 2 ^ 32 * col + 2 ^ 40 * mask

/-- Table 09-4: the physical place of a stacked half-line, with the mask of corrected lanes. -/
def stkPlace (w : Nat) (es : List (Nat × Nat)) : Nat :=
  let (ch, pc, bank, row, col, _) := stkMap w
  2 * ch + pc + 2 ^ 6 * bank + 2 ^ 10 * row + 2 ^ 25 * (col % 8) + 2 ^ 28 * (es.foldl (fun m e => m ||| 2 ^ e.1) 0)

/-! ### Rank sparing (R242 to R244) -/

/-- DIMMs per channel, physical ranks per DIMM and dies per stack that DDRCFG names. -/
def State.cfgDims (s : State) (c : Nat) : Nat × Nat × Nat :=
  (s.rd (Csr.DDRCFG_dpc c) + 1, s.rd (Csr.DDRCFG_ranks c) + 1, 2 ^ s.rd (Csr.DDRCFG_dies c))

/-- Physical ranks of a channel in their order, coded as in RANKMAP. -/
def State.physRanks (s : State) (c : Nat) : List Nat :=
  let (d, r, k) := s.cfgDims c
  (List.range d).flatMap (fun i => (List.range r).flatMap (fun j => (List.range k).map (fun x => 8 * i + 4 * j + x)))

/-- R242: channel `c` keeps a spare rank. -/
def State.hasSpare (s : State) (c : Nat) : Bool := s.on (Csr.DDRCFG_spare_en c) && decide (2 ≤ (s.physRanks c).length)

/-- R243: an uncorrectable read on a data rank, or MIGRATE, of slot `k` of channel `c`: migration begins when the spare
is usable, else DDR_SPARE_NONE is raised. -/
def State.startMigration (s : State) (c k : Nat) : State :=
  let usable := s.hasSpare c && s.rd (Csr.DDRSTAT_state c) == 2 && !s.on (Csr.DDRSTAT_spare_used c)
    && decide (k < s.rd (Csr.DDRGEO_data_ranks c))
  if usable then
    (((s.wr (Csr.DDRSTAT_state c) 3).wr (Csr.DDRSTAT_mig_slot c) k).wr (Csr.DDRSPARE_mig_ptr c) 0).raise
      Ev.DDR_SPARE_START 3 c
  else s.raise Ev.DDR_SPARE_NONE 3 c

/-! ### Decoding half-lines (R260, R263) -/

/-- Who reads or writes memory: the pan of the request, the DRAM requester of Table 08-4, the nt flag of R113 and the
source code of Table 09-4. -/
structure Acc where
  pan : Option Nat
  req : Nat
  nt : Bool
  src : Nat
deriving DecidableEq, Repr

/-- Counts correctable outcomes, with MEM_CE_FIRST when the counter leaves zero (Table 09-8). -/
def State.countCe (s : State) (st : Nat) : State :=
  let z := s.rd (eccCtr st 0).cnt == 0
  let s := s.count (eccCtr st 0)
  if z && s.rd (eccCtr st 0).cnt != 0 then s.raise Ev.MEM_CE_FIRST (if st < 16 then 3 else 0) (if st < 16 then st else 0) else s

/-- ECCERASE: the device in erasure mode of a slot of a subchannel (Table 09-10). -/
def State.erased (s : State) (ch sub slot : Nat) : Option Nat :=
  let e := bitsOf (s.rd (Csr.ECCERASE_erase ch sub)) (5 * slot) 5
  if e / 16 = 1 then some (e % 16) else none

/-- Outcomes of Table 09-3 that deliver data with poison. -/
def Outcome9.bad : Outcome9 → Bool
  | .poison | .address | .uncorrectable => true
  | .clean | .corrected | .device => false

/-- Where a half-line is stored, as its decode needs it: its store (0 to 15 a DDR5 channel, 16 the stacked DRAM), the rank slot and
subchannel when it is DDR5's, its fault key and its place in an error record, given what was corrected. -/
structure Spot where
  st : Nat
  slot : Nat
  sub : Nat
  key : Nat
  place : List (Nat × Nat) → Nat

/-- R260 to R266: one decode of the half-line at a place whose code folds address `a` and whose bytes are `bs`; `pois` says that it is
stored poisoned. Counts, logs and, for an uncorrectable read on a data rank, starts the migration of R243. Beside the outcome, the bits
of the delivered bytes that differ from `bs`. -/
def State.decodeAt (s : State) (p : Spot) (a : Nat) (bs : List Nat) (pois : Bool) (acc : Acc) : (Outcome9 × Nat) × State :=
  let f := SMap.get HalfFault.none p.key s.dram.faults
  if f = HalfFault.none then
    if pois then ((.poison, 0), s.count (eccCtr p.st 3)) else ((.clean, 0), s)
  else
    let ddr := decide (p.st < 16)
    let r := if ddr then 8 else 4
    let er := if ddr then s.erased p.st p.sub p.slot else none
    let (o, es) := rsDecode r (storedWord r bs (f.wrote.getD a) pois f.errs) a er
    let m := symMask f.errs ^^^ symMask es
    let quiet := match er with
      | some d => es.all (fun e => devOfSym e.1 == d)
      | none => false
    let k := if ddr then 3 else 0
    let i := if ddr then p.st else 0
    let rec0 : ErrRec := ⟨0, if ddr then 1 else 2, acc.src, acc.pan, a / 64 % 2, 0, 0, p.place [], a / 64 * 64, s.stamp⟩
    let fixed (kind key : Nat) (s : State) : State :=
      if quiet then s
      else s.logCorrectable p.st key { rec0 with kind := kind, nsym := es.length, place := p.place es }
    match o with
    | .clean => ((o, m), s)
    | .corrected => ((o, m), fixed 1 (p.key * 2) (s.countCe p.st))
    | .device => ((o, m), fixed 2 ((p.slot * 32 + p.sub * 16 + devOfSym (es.headD (0, 0)).1) * 2 + 1) (s.countCe p.st))
    | .poison => ((o, 0), s.count (eccCtr p.st 3))
    | .address => ((o, 0), (s.count (eccCtr p.st 2)).errRaise { rec0 with kind := 4 } Ev.MEM_ADDRESS k i)
    | .uncorrectable =>
      let s := (s.count (eccCtr p.st 1)).errRaise { rec0 with kind := 3 } Ev.MEM_UE k i
      ((o, 0), if ddr && decide (p.slot < s.rd (Csr.DDRGEO_data_ranks p.st)) then s.startMigration p.st p.slot else s)

/-- Where half-line `h` (address div 64) of DDR5 is stored. -/
def State.ddrSpot (s : State) (h : Nat) : Spot :=
  let (c, l) := s.ddr5Map (h * 64)
  let dec := s.ddr5Decode c l
  ⟨c, dec.1, dec.2.1, h, s.ddrPlace c l (s.rankOf c l)⟩

/-- Where half-line `h` of the direct window is stored. -/
def stkSpot (h : Nat) : Spot := ⟨16, 0, 0, h, stkPlace (h * 64 - stkBase)⟩

/-- Whether half-line `h` (address div 64) is stored poisoned. -/
def State.halfPoison (s : State) (h : Nat) : Bool := SMap.get false h s.dram.poison

/-- Table 15-9: the tweak of the DDR5 half-line `h`. -/
def State.ddrTweak (s : State) (h : Nat) : Nat :=
  let a := h * 64
  let g := s.gran (a / granSize)
  if s.inCarve a then h % 2 ^ 46 + 2 ^ 52
  else h % 2 ^ 46 + (match g.st with
    | .owned => g.owner % 64 * 2 ^ 46
    | .free | .zeroing => 2 ^ 53
    | _ => 0)

/-- R450: the key of the DDR5 half-line `h`: that of the owner, the system key, or the free key. -/
def State.ddrKey (s : State) (h : Nat) : Nat :=
  let g := s.gran (h * 64 / granSize)
  if s.inCarve (h * 64) then s.sec.keys.sys
  else match g.st with
    | .owned => (SMap.get PanKeys.none g.owner s.sec.keys.pans).ddr
    | .free | .zeroing => s.sec.keys.free
    | _ => s.sec.keys.sys

/-- One decode of DDR5 half-line `h`: its line code covers the ciphertext, and what the decode leaves changed is decrypted (R449). -/
def State.decodeDdr (s : State) (h : Nat) (acc : Acc) : (Outcome9 × Nat) × State :=
  let bs := s.bytes (h * 64) 64
  if SMap.get HalfFault.none h s.dram.faults = HalfFault.none then s.decodeAt (s.ddrSpot h) (h * 64) bs (s.halfPoison h) acc
  else
    let k := s.ddrKey h
    let t := s.ddrTweak h
    let r := s.decodeAt (s.ddrSpot h) (h * 64) (xtsEncrypt k t bs) (s.halfPoison h) acc
    ((r.1.1, xtsChanged k t bs r.1.2), r.2)

/-- One decode of the stacked half-line `k`, which holds the half-line `h`: itself, or a cached one. -/
def State.decodeStk (s : State) (k h : Nat) (acc : Acc) : (Outcome9 × Nat) × State :=
  s.decodeAt (stkSpot k) (h * 64) (s.bytes (h * 64) 64) (s.halfPoison k) acc

/-- R261, R263: a fresh code word, poisoned or not, over the half-line stored at `k`: only a fault of the memory itself stays. -/
def State.recode (s : State) (k : Nat) (p : Bool) : State :=
  let f := SMap.get HalfFault.none k s.dram.faults
  { s with dram := { s.dram with
      poison := SMap.put false k p s.dram.poison,
      faults := SMap.put HalfFault.none k (if f.hard then { f with wrote := none } else HalfFault.none) s.dram.faults } }

/-- Bytes from `a` on changed by the bits of a decode, where the mask of written bytes does not cover them. -/
def State.flipBytes (s : State) (a m mask : Nat) : State :=
  if m = 0 then s
  else (List.range 64).foldl (fun s i => if bitOf mask i then s else s.setByte (a + i) (s.byte (a + i) ^^^ bitsOf m (8 * i) 8)) s

/-- A byte of data with its poison (R268). -/
abbrev PByte := Nat × Bool

/-! ### The SRAM byte code (R254 to R257) -/

/-- R255: 32 bytes of SRAM row `row`, each with whether it is stored poisoned, are read: the mask of those delivered with poison, and
what the row developed. Nothing else happens while the stored bits are as they were written. Counts and logs with source `src`. -/
def State.sramRead (s : State) (row : Nat) (bs : List PByte) (src : Nat) : Nat × State :=
  let asWritten := (List.range 32).foldl (fun m i => if (bs.getD i (0, false)).2 then m + 2 ^ i else m) 0
  if s.dram.upsets.all (fun u => u.1 / 32 != row) then (asWritten, s)
  else
    let cs := (List.range 32).map (fun i =>
      let b := row * 32 + i
      let (d, p) := bs.getD i (0, false)
      (sramDecode ((if p then sramPoison d b else sramEncode d b) ^^^ SMap.get 0 b s.dram.upsets) b).1)
    let mask (c : SramClass) : Nat := ((cs.zipIdx.filter (fun x => x.1 == c)).map (fun x => 2 ^ x.2)).sum
    let num (c : SramClass) : Nat := (cs.filter (· == c)).length
    let rec0 (kind nsym m : Nat) : ErrRec := ⟨kind, 0, src, none, 0, nsym, 0, row * 32 + m * 2 ^ 32, 0, s.stamp⟩
    let ce (s : State) (k : Nat) : State :=
      let z := s.rd Csr.SRAMCECNT_count == 0
      let s := s.count (sramCtr 1) k
      if z && s.rd Csr.SRAMCECNT_count != 0 then s.raise Ev.MEM_CE_FIRST 0 0 else s
    if sramRowAddress cs then (2 ^ 32 - 1, (s.count (sramCtr 3)).errRaise (rec0 4 0 (mask .parity)) Ev.MEM_ADDRESS 0 0)
    else
      let s := if num .corrected = 0 then s else
        (ce s (num .corrected)).logCorrectable 17 (row * 2) (rec0 1 (num .corrected) (mask .corrected))
      let s := if num .parity = 0 then s else (ce s 1).logCorrectable 17 (row * 2 + 1) (rec0 5 1 (mask .parity))
      let s := if num .uncorrectable = 0 then s
        else (s.count (sramCtr 2) (num .uncorrectable)).errRaise (rec0 3 0 (mask .uncorrectable)) Ev.MEM_UE 0 0
      (mask .uncorrectable + mask .poison, s)

/-- The first SRAM row of a brine line of channel `c` (R19). -/
def brineRow (c : Nat) (b : BrineLine) : Nat := Config.sramRow 0 (c * 16384 + b.slot)

/-- Row `i` of the bytes that a brine line holds, each with its poison. -/
def State.brineBytes (s : State) (b : BrineLine) (i : Nat) : List PByte :=
  (List.range 32).map (fun j => (s.byte (b.line * 128 + 32 * i + j), bitOf b.pois (32 * i + j)))

/-- R255: the rows of a brine line that hold bytes of `[a, a + n)` are read: the mask of the line's bytes delivered with poison. -/
def State.brineRead (s : State) (b : BrineLine) (a n : Nat) : Nat × State :=
  if s.dram.upsets = [] then (b.pois, s)
  else
    let c := (s.ddr5Map (b.line * 128)).1
    (rangeFrom (a % 128 / 32) ((a % 128 + n - 1) / 32 - a % 128 / 32 + 1)).foldl (fun (r : Nat × State) i =>
      let (m, s) := r.2.sramRead (brineRow c b + i) (r.2.brineBytes b i) 0
      (r.1 + m * 2 ^ (32 * i), s)) (0, s)

/-- R256: bytes written anew into a brine line take a fresh code. -/
def State.brineFresh (s : State) (c : Nat) (b : BrineLine) (mask : Nat) : State :=
  if s.dram.upsets = [] then s
  else { s with dram := { s.dram with upsets := s.dram.upsets.filter (fun u =>
      decide (u.1 < 32 * brineRow c b) || decide (32 * brineRow c b + 128 ≤ u.1) || !bitOf mask (u.1 - 32 * brineRow c b)) } }

/-! ### The stacked cache (R245 to R248) -/

/-- Segment `k` serves as cache and is not changing mode (R43, R245). -/
def State.segCache (s : State) (k : Nat) : Bool :=
  !s.bit (Csr.STKSEGMAP_seg (k / 64)) (k % 64) && !s.bit (Csr.STKSEGSTAT_seg (k / 64)) (k % 64)

/-- Segments that serve as cache. -/
def State.cacheSegs (s : State) : Nat := ((List.range 239).filter s.segCache).length

/-- R247: the cap in lines of pan `n`, with `segs` segments in use as cache. -/
def State.cacheCap (s : State) (segs n : Nat) : Nat := (s.rd (Csr.PANCTL_cache_cap n) + 1) * (917504 * segs) / 256

/-- R247: the caps are recomputed, at a commit and when a segment changes mode. -/
def State.setCaps (s : State) : State :=
  let k := s.cacheSegs
  (List.range 64).foldl (fun s n => s.wr (Csr.STKPANLINES_cap n) (s.cacheCap k n)) s

/-- stk_mode of pan `n` lets its DDR5 lines be cached: CACHE or BOTH (R44). -/
def State.panCaches (s : State) (n : Nat) : Bool :=
  let m := s.rd (Csr.PANCTL_stk_mode n)
  m == 0 || m == 2

/-- R246: whether a DDR5 access of pan `n` to line `d` looks up the cache. -/
def State.looksUp (s : State) (n d : Nat) : Bool :=
  s.segCache (cacheSlot d).1 && (s.panCaches n || s.rd (Csr.STKPANLINES_lines n) != 0)

/-- Key of the set of line `d`. -/
def setKey (d : Nat) : Nat := (cacheSlot d).1 * 131072 + (cacheSlot d).2

/-- The ways of line `d`'s set. -/
def State.ways (s : State) (d : Nat) : List Way := SMap.get [] (setKey d) s.dram.cache

/-- Replaces the ways of line `d`'s set. -/
def State.setWays (s : State) (d : Nat) (ws : List Way) : State :=
  { s with dram := { s.dram with cache := SMap.put [] (setKey d) ws s.dram.cache } }

/-- STKPANLINES[n].lines plus or minus one. -/
def State.panLines (s : State) (n : Nat) (up : Bool) : State :=
  let f := Csr.STKPANLINES_lines n
  s.wr f (if up then s.rd f + 1 else s.rd f - 1)

/-- The way that holds line `d`. -/
def State.wayOf (s : State) (d : Nat) : Option Way := (s.ways d).find? (fun w => w.line == d)

/-- The direct-window address of a way (R245). -/
def wayAddr (w : Way) : Nat :=
  stkBase + (cacheSlot w.line).1 * 0x8000000 + (cacheSlot w.line).2 * 1024 + w.slot * 128

/-- Half-line `h` is delivered with poison as far as it is stored so: in the way that holds it, in its brine buffer or in memory. -/
def State.poisonAt (s : State) (h : Nat) : Bool :=
  s.dram.brine.any (fun x => x.line == h / 2 && bitsOf x.pois (64 * (h % 2)) 64 != 0) ||
  (match (if h * 64 < lentSlotSize then s.wayOf (h / 2) else none) with
    | some w => s.halfPoison (wayAddr w / 64 + h % 2)
    | none => s.halfPoison h)

/-! ### Queues of the controllers (R235, R237, R238) -/

/-- R235: the target in ns of reads of requester `r` at a DDR5 channel, or at the stacked DRAM. -/
def State.readTarget (s : State) (ddr : Option Nat) (r : Nat) : Nat :=
  let i := if r < 12 then r else r - 1
  let w := match ddr with
    | some k => s.rd (Csr.DDRLAT_target k (i / 4))
    | none => s.rd (Csr.STKLAT_target (i / 4))
  10 * bitsOf w (16 * (i % 4)) 16

/-- R235: a read enters the queue of channel `c` with its deadline, unless the write drain makes it; a full queue of `most` reads
gives up its oldest first. -/
def State.joinRead (s : State) (c : Nat) (mine : Nat → Bool) (most target req line : Nat) : State :=
  if req = 12 then s
  else s.setChan c (fun x =>
    let q := match x.rq.filter (fun y => mine y.line) with
      | y :: t => if t.length + 1 < most then x.rq else x.rq.erase y
      | [] => x.rq
    { x with rq := q ++ [⟨req, line, (s.stamp + target) % 2 ^ 64, false⟩], low := 0 })

/-- A read of DDR5 line `d` enters its channel. -/
def State.joinDdr (s : State) (req d : Nat) : State :=
  let c := (s.ddr5Map (d * 128)).1
  s.joinRead c (fun _ => true) 128 (s.readTarget (some c) req) req d

/-- The pseudo-channel of line `d` of the direct window. -/
def linePc (d : Nat) : Nat := stkPc (d * 128 - stkBase)

/-- R250: the pseudo-channel of line `d` of the direct window is held for training: its requests wait. -/
def State.lineHeld (s : State) (d : Nat) : Bool := s.bit (Csr.STKCHSTAT_hold (linePc d / 2)) (linePc d % 2)

/-- R238, R250, R274: line `d` waits in its DRAM controller: its row is under repair, or a pseudo-channel that the access needs is held:
that of the line, of its set's tags or of the way that holds it. -/
def State.dramHolds (s : State) (d : Nat) : Bool :=
  match tierOf (d * 128) with
  | 0 => s.lineHeld d
  | 1 =>
    let tags := (stkBase + (cacheSlot d).1 * 0x8000000 + (cacheSlot d).2 * 1024) / 128
    (s.chan (s.ddr5Map (d * 128)).1).locked.contains d
      || (s.looksUp (s.gran (d * 128 / granSize)).owner d && s.lineHeld tags)
      || (match s.wayOf d with
          | some w => s.lineHeld (wayAddr w / 128)
          | none => false)
  | _ => false

/-- A read of line `d` of the direct window enters its pseudo-channel. -/
def State.joinStk (s : State) (req d : Nat) : State :=
  let g := linePc d
  s.joinRead (stkChan g) (fun x => linePc x == g) 32 (s.readTarget none req) req d

/-- A line joins its channel's write queue, or is merged into the entry that is there (R238); a full queue gives up its
oldest line to memory first (R237). -/
def State.queueWrite (s : State) (line : Nat) : State :=
  let c := (s.ddr5Map (line * 128)).1
  let q := (s.chan c).wq
  let s := s.setChan c (fun x => { x with low := 0 })
  if q.contains line then s
  else
    let (s, q) := if q.length < 128 then (s, q) else (s.count (ddrCtr c 1), q.drop 1)
    let q := q ++ [line]
    let s := s.setChan c (fun x => { x with wq := q })
    if decide (s.rd (Csr.DDRWM_wq_high c) ≤ q.length) && !s.on (Csr.DDRSTAT_batching c) then
      (s.wr (Csr.DDRSTAT_batching c) 1).count (ddrCtr c 4)
    else s

/-- Stacked pseudo-channel `g` begins or ends a write batch (R237, R253). -/
def State.batchStk (s : State) (g : Nat) (on : Bool) : State :=
  let s := s.setChan (16 + g) (fun x => { x with batch := on })
  s.wr (Csr.STKCHSTAT_batching (g / 2)) (if (s.chan (16 + g / 2 * 2)).batch || (s.chan (16 + g / 2 * 2 + 1)).batch then 1 else 0)

/-- A line of the direct window joins the write queue of its pseudo-channel, of 32 lines (R237, R238). -/
def State.queueStk (s : State) (d : Nat) : State :=
  let g := linePc d
  let c := stkChan g
  let q := (s.chan c).wq
  if q.contains d then s
  else
    let mine := q.filter (fun x => linePc x == g)
    let q := if mine.length < 32 then q else q.erase (mine.headD 0)
    let s := s.setChan c (fun x => { x with wq := q ++ [d] })
    if decide (s.rd Csr.STKWM_wq_high ≤ min 32 (mine.length + 1)) && !(s.chan (16 + g)).batch then s.batchStk g true else s

/-- R271: a write to a channel out of service poisons the half-lines it targets and records their granule. -/
def State.writeOos (s : State) (c a n : Nat) : State :=
  let s := (rangeFrom (a / 64) ((a + n - 1) / 64 - a / 64 + 1)).foldl (fun s h => s.recode h true) s
  { s with dram := { s.dram with oosWrites := SMap.put false (a / granSize * 16 + c) true s.dram.oosWrites } }

/-- R246, R263: a dirty way is written back to DDR5 in full, with the half-lines that do not decode poisoned; on a channel out of
service it is a write of poison (R271). -/
def State.wayBack (s : State) (w : Way) : State :=
  let c := (s.ddr5Map (w.line * 128)).1
  let s := s.count (stkCtr 3)
  if s.chanOos c then s.writeOos c (w.line * 128) 128
  else
    let s := [0, 1].foldl (fun (s : State) h =>
      let ((o, x), s) := s.decodeStk (wayAddr w / 64 + h) (2 * w.line + h) ⟨some w.pan, 12, false, 4⟩
      (s.flipBytes (w.line * 128 + 64 * h) x 0).recode (2 * w.line + h) o.bad) s
    s.queueWrite w.line

/-- A way leaves the cache. -/
def State.dropWay (s : State) (w : Way) : State :=
  let s := s.panLines w.pan false
  if w.dirty then s.wayBack w else s

/-- Way `w` joins the ways `ws` of its set: its line is written there with a fresh code, poisoned in the halves that `pois` names. -/
def State.putWay (s : State) (ws : List Way) (w : Way) (pois : Nat) : State :=
  let k := wayAddr w / 64
  let s := (((s.setWays w.line (w :: ws)).panLines w.pan true).count (stkCtr 2)).count (stkCtr 6)
  ((s.recode k (bitOf pois 0)).recode (k + 1) (bitOf pois 1)).queueStk (wayAddr w / 128)

/-- R247: line `d` is filled for pan `n` into an invalid way, else in place of the least recently used candidate; the
first result says whether it was. -/
def State.fill (s : State) (n d : Nat) (dirty : Bool) (pois : Nat) : Bool × State :=
  let ws := s.ways d
  let atCap := decide (s.rd (Csr.STKPANLINES_cap n) ≤ s.rd (Csr.STKPANLINES_lines n))
  let free := (rangeFrom 1 7).find? (fun i => ws.all (fun w => w.slot != i))
  let cand := if atCap then ws.filter (fun w => w.pan == n) else if free = none then ws else []
  match cand.getLast? with
  | some v => (true, (s.dropWay v).putWay (ws.filter (fun w => w.slot != v.slot)) ⟨v.slot, d, n, dirty⟩ pois)
  | none =>
    if atCap then (false, s.count (stkCtr 4))
    else match free with
      | some i => (true, s.putWay ws ⟨i, d, n, dirty⟩ pois)
      | none => (false, s.count (stkCtr 4))

/-- Whether a read or full-line write of pan `n` may fill (R246). -/
def State.mayFill (s : State) (n : Nat) (nt : Bool) : Bool := s.panCaches n && !nt && s.on Csr.STKCFG_fill_en

/-- R272: the set of line `d` lies in a stacked granule that has been retired, so it takes no fill. -/
def State.setRetired (s : State) (d : Nat) : Bool :=
  s.dram.retired.contains ((stkBase + (cacheSlot d).1 * 0x8000000 + (cacheSlot d).2 * 1024) / granSize)

/-- Moves the way that holds `d` to the front of its set's order, dirty if `dirty` says so. -/
def State.touchWay (s : State) (d : Nat) (dirty : Bool) : State :=
  let ws := s.ways d
  match ws.find? (fun w => w.line == d) with
  | some w => s.setWays d ({ w with dirty := w.dirty || dirty } :: ws.filter (fun x => x.line != d))
  | none => s

/-! ### Reads and writes of bytes -/

/-- The bytes `[a, a + n)` of one line: a byte pending in a brine buffer is delivered from there, poisoned where `bp` says so, the
others as half-line `h` decoded: `got h` is the bits that the decode changes, none with poison. A byte that did not decode reads zero
(R582). -/
def State.lineBytes (s : State) (a n : Nat) (got : Nat → Option Nat) (bp : Nat) : List PByte :=
  let b := s.dram.brine.find? (fun x => x.line == a / 128)
  (rangeFrom a n).map (fun x =>
    if (match b with | some l => bitOf l.mask (x % 128) | none => false) then (if bitOf bp (x % 128) then (0, true) else (s.byte x, false))
    else match got (x / 64) with
      | none => (0, true)
      | some 0 => (s.byte x, false)
      | some m => (s.byte x ^^^ bitsOf m (8 * (x % 64)) 8, false))

/-- Decodes the half-lines that `[a, a + n)` touches with `dec`: each with its outcome and what the decode changes. -/
def State.decodeLine (s : State) (a n : Nat) (dec : Nat → State → (Outcome9 × Nat) × State) : List (Nat × Outcome9 × Nat) × State :=
  (rangeFrom (a / 64) ((a + n - 1) / 64 - a / 64 + 1)).foldl (fun (r : List (Nat × Outcome9 × Nat) × State) h =>
    let (o, s) := dec h r.2
    ((h, o) :: r.1, s)) ([], s)

/-- What the decodes of a line deliver of half-line `h`. -/
def gotOf (os : List (Nat × Outcome9 × Nat)) (h : Nat) : Option Nat :=
  match os.find? (fun o => o.1 == h) with
  | some (_, o, m) => if o.bad then none else some m
  | none => some 0

/-- What the brine line of `a`, if there is one, delivers with poison. -/
def State.brinePois (s : State) (a n : Nat) : Nat × State :=
  match s.dram.brine.find? (fun x => x.line == a / 128) with
  | some b => s.brineRead b a n
  | none => (0, s)

/-- A read of `[a, a + n)`, within one line, at its DDR5 channel (R238, R260, R271). A line with a queued write is answered from the
queue, whose lines are complete. -/
def State.fromDdr (s : State) (acc : Acc) (a n : Nat) : List PByte × State :=
  let ch := (s.ddr5Map a).1
  let d := a / 128
  if s.chanOos ch then (List.replicate n (0, true), s)
  else
    let s := (s.count (ddrCtr ch 0)).joinDdr acc.req d
    let (got, s) := if (s.chan ch).wq.contains d then
        ((fun h => if s.halfPoison h then none else some 0), s.count (ddrCtr ch 3))
      else (let (os, s) := s.decodeLine a n (fun h s => s.decodeDdr h acc); (gotOf os, s))
    let (bp, s) := s.brinePois a n
    (s.lineBytes a n got bp, s)

/-- R17, R231: a read of the carve-out: what its channel does not deliver is served from the secondary copy. -/
def State.fromCarve (s : State) (acc : Acc) (a n : Nat) : List PByte × State :=
  let (x, s) := s.fromDdr acc a n
  if s.inMirror a || x.all (fun b => !b.2) then (x, s)
  else
    let (y, s) := s.fromDdr acc (a + mirrorOff) n
    ((x.zip y).map (fun p => if p.1.2 then p.2 else p.1), s)

/-- Poison of the halves of a line among the bytes from `a` on. -/
def halvesBad (a : Nat) (bs : List PByte) : Nat :=
  (if bs.zipIdx.any (fun x => x.1.2 && (a + x.2) / 64 % 2 == 0) then 1 else 0) + (if bs.zipIdx.any (fun x => x.1.2 && (a + x.2) / 64 % 2 == 1) then 2 else 0)

/-- A read of `[a, a + n)`, within one line of DDR5 (R231, R238, R246, R260, R263, R271). -/
def State.readDdr (s : State) (acc : Acc) (a n : Nat) : List PByte × State :=
  let d := a / 128
  if s.inCarve a then s.fromCarve acc a n
  else if s.chanOos (s.ddr5Map a).1 then (List.replicate n (0, true), s)
  else
    match acc.pan with
    | none => s.fromDdr acc a n
    | some p =>
      if !s.looksUp p d then s.fromDdr acc a n
      else match s.wayOf d with
        | some w =>
          let s := ((s.count (stkCtr 0)).count (stkCtr 5)).joinStk acc.req (wayAddr w / 128)
          let (os, s) := s.decodeLine a n (fun h s => s.decodeStk (wayAddr w / 64 + h % 2) h acc)
          if !w.dirty && os.any (fun o => o.2.1 == .uncorrectable || o.2.1 == .address) then
            ((s.setWays d ((s.ways d).filter (fun x => x.line != d))).panLines w.pan false).fromDdr acc a n
          else
            let (bp, s) := s.brinePois a n
            (s.lineBytes a n (gotOf os) bp, s.touchWay d false)
        | none =>
          let (r, s) := (s.count (stkCtr 1)).fromDdr acc a n
          (r, if s.mayFill p acc.nt && !s.setRetired d then
              (s.fill p d false ((if s.halfPoison (2 * d) then 1 else 0) + (if s.halfPoison (2 * d + 1) then 2 else 0) ||| halvesBad a r)).2 else s)

/-- A read of `[a, a + n)`, within one line of the stacked direct window. -/
def State.readStk (s : State) (acc : Acc) (a n : Nat) : List PByte × State :=
  let s := (s.count (stkCtr 5)).joinStk acc.req (a / 128)
  let (os, s) := if (s.chan (stkChan (linePc (a / 128)))).wq.contains (a / 128) then
      ((rangeFrom (a / 64) ((a + n - 1) / 64 - a / 64 + 1)).map (fun h => (h, if s.halfPoison h then Outcome9.poison else .clean, 0)), s)
    else s.decodeLine a n (fun h s => s.decodeStk h h acc)
  (s.lineBytes a n (gotOf os) 0, s)

/-- A read of bytes within one line of any local tier; a heap page's bytes are those of its buffer. -/
def State.readLine (s : State) (acc : Acc) (a n : Nat) : List PByte × State :=
  match tierOf a with
  | 1 => s.readDdr acc a n
  | 0 => s.readStk acc a n
  | _ => (s.lineBytes a n (fun h => if s.halfPoison h then none else some 0) 0, s)

/-- R58, R70: the bytes `[a, a + n)` of local memory, line by line in ascending order. -/
def State.readMemFuel (acc : Acc) : Nat → Nat → Nat → State → List PByte × State
  | 0, _, _, s => ([], s)
  | fuel + 1, a, n, s =>
    if n = 0 then ([], s)
    else
      let k := min n (128 - a % 128)
      let (x, s) := s.readLine acc a k
      let (y, s) := readMemFuel acc fuel (a + k) (n - k) s
      (x ++ y, s)

/-- R286: an access sets the referenced bits of the DDR5 granules of pans that it touches. -/
def State.referenced (s : State) (a n : Nat) : State :=
  if n = 0 || decide (stkBase ≤ a) then s
  else
    let gs := (rangeFrom (a / granSize) ((a + n - 1) / granSize - a / granSize + 1)).filter (fun g => (s.gran g).st == .owned)
    { s with dram := { s.dram with refs := gs.foldl (fun m g => SMap.put false g true m) s.dram.refs } }

/-- Reads local memory. -/
def State.readMem (s : State) (acc : Acc) (a n : Nat) : List PByte × State :=
  State.readMemFuel acc (n + 1) a n (s.referenced a n)

/-- Stores bytes in memory as plain data, without poison. -/
def State.putBytes (s : State) (a : Nat) : List PByte → State
  | [] => s
  | b :: t => (s.setByte a b.1).putBytes (a + 1) t

/-- The bits of a mask that lie in half `h` (0 or 1) of a line. -/
def halfMask (m h : Nat) : Nat := bitsOf m (64 * h) 64

/-- Mask of the bytes of `[a, a + n)` in their line. -/
def byteMask (a n : Nat) : Nat := (2 ^ n - 1) * 2 ^ (a % 128)

/-- Mask of the poisoned bytes among those written at `a`. -/
def poisMask (a : Nat) : List PByte → Nat
  | [] => 0
  | b :: t => (if b.2 then 2 ^ (a % 128) else 0) + poisMask (a + 1) t

/-- One half-line after bytes `m` (poisoned ones `pois`) are merged into what is stored at `k` (R239, R263, R267, R268): of a line
written `whole` it takes a fresh code without a read; else it is read with `dec`, and one that does not decode is written with poison,
as is one stored poisoned of which a byte is not written again. -/
def State.mergeHalf (s : State) (dec : State → (Outcome9 × Nat) × State) (k a m pois : Nat) (whole : Bool) : State :=
  if m = 0 then s
  else if whole then s.recode k (pois != 0)
  else
    let ((o, x), s) := dec s
    (s.flipBytes a x m).recode k (o == .address || o == .uncorrectable || (o == .poison && m != 2 ^ 64 - 1) || pois != 0)

/-- The half-lines of a line at `a` after bytes `mask` are merged: `dec h` reads half `h`, which is stored at `key + h`. -/
def State.mergeLine (s : State) (dec : Nat → State → (Outcome9 × Nat) × State) (key a mask pois : Nat) : State :=
  let whole := mask == 2 ^ 128 - 1
  let s := s.mergeHalf (dec 0) key a (halfMask mask 0) (halfMask pois 0) whole
  s.mergeHalf (dec 1) (key + 1) (a + 64) (halfMask mask 1) (halfMask pois 1) whole

/-- A merge in a DDR5 line. -/
def State.mergeDdr (s : State) (d mask pois : Nat) (acc : Acc) : State :=
  s.mergeLine (fun h s => s.decodeDdr (2 * d + h) { acc with src := 1 }) (2 * d) (d * 128) mask pois

/-- A merge in a way of the stacked cache, which becomes dirty. -/
def State.mergeWay (s : State) (w : Way) (mask pois : Nat) (acc : Acc) : State :=
  let k := wayAddr w / 64
  let s := (s.count (stkCtr 0)).count (stkCtr 6)
  let s := s.mergeLine (fun h s => s.decodeStk (k + h) (2 * w.line + h) { acc with src := 1 }) k (w.line * 128) mask pois
  (s.touchWay w.line true).queueStk (wayAddr w / 128)

/-- A merge in a line of the direct window. -/
def State.mergeStk (s : State) (d mask pois : Nat) (acc : Acc) : State :=
  s.mergeLine (fun h s => s.decodeStk (2 * d + h) (2 * d + h) { acc with src := 1 }) (2 * d) (d * 128) mask pois

/-- A merge in a page that a buffer holds for the heap: nothing is decoded. -/
def State.mergePlain (s : State) (d mask pois : Nat) : State :=
  s.mergeLine (fun h s => ((if s.halfPoison (2 * d + h) then .poison else .clean, 0), s)) (2 * d) (d * 128) mask pois

/-- A brine line is evicted: it is merged in the way that holds its line, else in DDR5; a full line is written without a read (R239,
R246). -/
def State.evictBrine (s : State) (b : BrineLine) : State :=
  let acc : Acc := ⟨none, 12, false, 1⟩
  let c := (s.ddr5Map (b.line * 128)).1
  let s := { s with dram := { s.dram with brine := s.dram.brine.filter (fun x => x.line != b.line) } }
  let (pois, s) := s.brineRead b (b.line * 128) 128
  let pois := pois &&& b.mask
  match s.wayOf b.line with
  | some w => s.mergeWay w b.mask pois acc
  | none =>
    let s := s.mergeDdr b.line b.mask pois acc
    let s := if b.mask = 2 ^ 128 - 1 then s else s.count (ddrCtr c 2)
    s.queueWrite b.line

/-- R19: the brine buffers of channel `c` hold 16,384 lines: full ones evict their oldest. -/
def State.brineRoom (s : State) (c : Nat) : State :=
  if s.dram.brine.length < 16384 then s
  else match s.dram.brine.filter (fun b => (s.ddr5Map (b.line * 128)).1 == c) with
    | b :: t => if t.length + 1 < 16384 then s else s.evictBrine b
    | [] => s

/-- The lowest line of channel `c`'s brine buffers that holds nothing. -/
def State.brineSlot (s : State) (c : Nat) : Nat :=
  let used := (s.dram.brine.filter (fun b => (s.ddr5Map (b.line * 128)).1 == c)).map (·.slot)
  ((rangeFrom 0 (used.length + 1)).find? (fun i => !used.contains i)).getD 0

/-- The line `b` joins the brine buffers in place of what they hold of it; a line that is full is evicted at once (R239). -/
def State.brineJoin (s : State) (b : BrineLine) (mask : Nat) : State :=
  let s : State := { s with dram := { s.dram with brine := s.dram.brine.filter (fun (x : BrineLine) => x.line != b.line) ++ [b] } }
  let s := s.brineFresh (s.ddr5Map (b.line * 128)).1 b mask
  if b.mask = 2 ^ 128 - 1 then s.evictBrine b else s

/-- Bytes join the brine buffer of their line (R239). -/
def State.brineWrite (s : State) (d mask pois : Nat) : State :=
  let c := (s.ddr5Map (d * 128)).1
  match s.dram.brine.find? (fun x => x.line == d) with
  | some b => s.brineJoin ⟨d, b.mask ||| mask, (b.pois ^^^ (b.pois &&& mask)) ||| pois, b.slot⟩ mask
  | none =>
    let s := s.brineRoom c
    s.brineJoin ⟨d, mask, pois, s.brineSlot c⟩ mask

/-- R231: a write of the carve-out's primary half goes to both halves; a copy whose channel is out of service takes poison (R271). The
secondary half is read-only. -/
def State.writeCarve (s : State) (a : Nat) (bs : List PByte) : Bool × State :=
  let n := bs.length
  let c := (s.ddr5Map a).1
  let c' := (s.ddr5Map (a + mirrorOff)).1
  let put (s : State) (c a : Nat) : State := if s.chanOos c then s.writeOos c a n else s.brineWrite (a / 128) (byteMask a n) (poisMask a bs)
  if s.inMirror a then (false, s)
  else if s.chanOos c && s.chanOos c' then (true, (s.writeOos c a n).writeOos c' (a + mirrorOff) n)
  else (false, put (put ((s.putBytes a bs).putBytes (a + mirrorOff) bs) c a) c' (a + mirrorOff))

/-- A write of bytes within one line of DDR5 (R231, R239, R246, R271). The result says that it was stored as poison on
a channel out of service. -/
def State.writeDdr (s : State) (acc : Acc) (a : Nat) (bs : List PByte) : Bool × State :=
  let n := bs.length
  let ch := (s.ddr5Map a).1
  let d := a / 128
  let mask := byteMask a n
  let pois := poisMask a bs
  if s.inCarve a then s.writeCarve a bs
  else if s.chanOos ch then (true, s.writeOos ch a n)
  else
    let s := s.putBytes a bs
    (false,
      match acc.pan with
      | none => s.brineWrite d mask pois
      | some p =>
        if !s.looksUp p d then s.brineWrite d mask pois
        else match s.wayOf d with
          | some w => s.mergeWay w mask pois acc
          | none =>
            let s := s.count (stkCtr 1)
            if mask = 2 ^ 128 - 1 ∧ (s.mayFill p acc.nt && !s.setRetired d) then
              let (ok, s) := s.fill p d true ((if halfMask pois 0 = 0 then 0 else 1) + (if halfMask pois 1 = 0 then 0 else 2))
              if ok then s else s.brineWrite d mask pois
            else s.brineWrite d mask pois)

/-- A write of bytes within one line of the stacked direct window. -/
def State.writeStk (s : State) (acc : Acc) (a : Nat) (bs : List PByte) : State :=
  (((s.putBytes a bs).mergeStk (a / 128) (byteMask a bs.length) (poisMask a bs) acc).count (stkCtr 6)).queueStk (a / 128)

/-- A write of bytes within one line of any local tier. -/
def State.writeLine (s : State) (acc : Acc) (a : Nat) (bs : List PByte) : Bool × State :=
  match tierOf a with
  | 1 => s.writeDdr acc a bs
  | 0 => (false, s.writeStk acc a bs)
  | _ => (false, (s.putBytes a bs).mergePlain (a / 128) (byteMask a bs.length) (poisMask a bs))

/-- Writes local memory from `a` on, line by line; the result says that some line was stored as poison on a channel
out of service (R271). -/
def State.writeMemFuel (acc : Acc) : Nat → Nat → List PByte → State → Bool × State
  | 0, _, _, s => (false, s)
  | fuel + 1, a, bs, s =>
    if bs = [] then (false, s)
    else
      let k := 128 - a % 128
      let (x, s) := s.writeLine acc a (bs.take k)
      let (y, s) := writeMemFuel acc fuel (a + (bs.take k).length) (bs.drop k) s
      (x || y, s)

/-- Writes local memory. -/
def State.writeMem (s : State) (acc : Acc) (a : Nat) (bs : List PByte) : Bool × State :=
  State.writeMemFuel acc (bs.length + 1) a bs (s.referenced a bs.length)

/-- Bytes without poison. -/
def plain (bs : List Nat) : List PByte := bs.map (fun b => (b, false))

/-- The device's own agents writing system structures or the structures of R36. -/
def Acc.sys : Acc := ⟨none, 9, false, 6⟩

/-- The little-endian value of bytes, and whether any is poisoned. -/
def valueOf (bs : List PByte) : Nat × Bool := (ofLeBytes (bs.map (·.1)), bs.any (·.2))

/-- The device writes an `n`-byte little-endian value into memory. -/
def State.putWord (s : State) (a n v : Nat) : State := (s.writeMem Acc.sys a (plain (leBytes n v))).2

/-- R263: the faults left where the half-lines that `p` names are written anew. -/
def freshFaults (p : Nat → Bool) (m : SMap HalfFault) : SMap HalfFault :=
  m.filterMap (fun c => if !p c.1 then some c else if c.2.hard then some (c.1, { c.2 with wrote := none }) else none)

/-- R33: every byte of granule `g` reads zero; its cached lines go without write-back (R248). A fault of the memory itself stays
(R263). -/
def State.zeroGranule (s : State) (g : Nat) : State :=
  let inG (a : Nat) : Bool := a / granSize == g
  let gone := s.dram.cache.flatMap (fun kv => kv.2.filter (fun w => inG (w.line * 128)))
  let s := gone.foldl (fun s w => s.panLines w.pan false) s
  { s with mem := s.mem.filter (fun c => !inG c.1),
           dram := { s.dram with poison := s.dram.poison.filter (fun c => !inG (c.1 * 64)),
                                 faults := freshFaults (fun h => inG (h * 64)) s.dram.faults,
                                 brine := s.dram.brine.filter (fun b => !inG (b.line * 128)),
                                 cache := (s.dram.cache.map (fun kv =>
                                   (kv.1, kv.2.filter (fun w => !inG (w.line * 128))))).filter (fun kv => kv.2 != []) } }

/-! ### The general settings section (R504, R505) -/

/-- Registers that the general section keeps: lent-slot and twin preferences, and the board's declarations about its SSDs. -/
def settingRegs : List Nat := (List.range 64).map (fun k => 0x30008 + 0x20 * k) ++ [0x500100, 0x500108, 0x2C00000]

/-- The writable fields of a register as the device uses them. -/
def State.setting (s : State) (o : Nat) : Nat :=
  match Csr.find o with
  | some r => ((r.fields.filter (fun f => f.acc == .rw || f.acc == .rws)).map (fun f => s.rd (f.fld o) * 2 ^ f.lo)).sum
  | none => 0

/-- The newest record of the general section and its region. -/
def State.newestSettings (s : State) : Option (Nat × Settings) :=
  match SMap.get none 0 s.flash.regions, SMap.get none 1 s.flash.regions with
  | some a, some b => if isNewer b.seq a.seq 32 then some (1, b) else some (0, a)
  | some a, none => some (0, a)
  | none, some b => some (1, b)
  | none, none => none

/-- A record of the running settings is written to the region that does not hold the newest one. While settings_unreadable is set the
firmware writes only on request (`asked`), and in RECOVERY it writes nothing. -/
def State.saveSettings (s : State) (asked : Bool) : State :=
  if s.rd Csr.BOOTSTAT_stage = 9 ∨ (s.on Csr.BOOTSTAT_settings_unreadable && !asked) then s
  else
    let (k, seq) := match s.newestSettings with
      | some (r, x) => (1 - r, (x.seq + 1) % 2 ^ 32)
      | none => (0, 1)
    let r : Settings := ⟨seq, s.rd Csr.SETSTAT_fmt_own, s.dram.retired, s.dram.rows, some (s.rd Csr.AGEPLAN_steps),
                         settingRegs.map (fun o => (o, s.setting o))⟩
    let s := { s with flash := { s.flash with regions := SMap.put none k (some r) s.flash.regions } }
    let s := (s.wr Csr.SETSTAT_region k).wr Csr.SETSTAT_fmt_found (s.rd Csr.SETSTAT_fmt_own)
    (s.wr Csr.SETSTAT_empty 0).wr Csr.SETSTAT_committed 1

end Sys2Proof.Machine
end

