-- ==== Sys2Proof/Machine/Insn.lean ====
section
/-!
DEFINITION. The instruction word of a rake program: its fields (R93, R94) and the decoding checks of R95, with the
encoding tables of chapters 04, 05, 14 and 15.
-/
namespace Sys2Proof.Machine

/-- The fields of an instruction word and of its extension words, as numbers (R93, R94). -/
structure Insn where
  opc : Nat
  mod : Nat
  ra : Nat
  rb : Nat
  g : Nat
  gn : Bool
  xw : Nat
  imm : Nat
  op : Nat
  x0 : Nat
  x1 : Nat
  y0 : Nat
  y1 : Nat
deriving DecidableEq, Repr

/-- The fields of a fetched instruction of opcode `opc`. -/
def Insn.ofFetch (opc : Nat) (f : Fetch) : Insn :=
  ⟨opc, f.mod.toNat, f.ra, f.rb, f.g, f.gn, f.xw, f.imm.toNat, f.op.toNat, f.x0.toNat, f.x1.toNat, f.y0.toNat, f.y1.toNat⟩

/-- The fields of the instruction at the front of a list of 16-byte code words, absent extension words zero. -/
def Insn.ofWords (ws : List Nat) : Insn :=
  let w := ws.headD 0
  let q := bitsOf w 16 16
  let xw := bitsOf q 14 2
  let x := if 1 ≤ xw then ws.getD 1 0 else 0
  let y := if 2 ≤ xw then ws.getD 2 0 else 0
  ⟨bitsOf w 0 8, bitsOf w 8 8, bitsOf q 0 5, bitsOf q 5 5, bitsOf q 10 3, bitOf q 13, xw, bitsOf w 32 32, bitsOf w 64 64,
   bitsOf x 0 64, bitsOf x 64 64, bitsOf y 0 64, bitsOf y 64 64⟩

/-- Bit `i` of mod. -/
def Insn.m (i : Insn) (n : Nat) : Bool := bitOf i.mod n

/-- Status predicate field (R98). -/
def Insn.sp (i : Insn) : Nat := bitsOf i.mod 5 3

/-- Bits of `x` outside the given (lo, width) fields are zero. -/
def onlyBits (x : Nat) (fs : List (Nat × Nat)) : Bool :=
  (fs.foldl (fun x f => setBits x f.1 f.2 0) x) == 0

/-- Table 03-4: an address operand whose reserved bits, and whose reg without reg_en, are zero. -/
def addrOk (x : Nat) : Bool :=
  onlyBits x [(0, 40), (40, 5), (45, 1), (48, 3)] && (bitOf x 45 || bitsOf x 40 5 == 0)

/-- Number of extension words of each opcode (Table 04-2, Table 05-7); none for a reserved opcode. -/
def xwOf (o : Nat) : Option Nat :=
  if o ≤ 0x0D ∧ o ≠ 0x03 then some 0
  else if o = 0x10 then some 1
  else if o = 0x11 then some 0
  else if o = 0x12 ∨ o = 0x13 ∨ o = 0x14 then some 2
  else if o = 0x18 ∨ o = 0x19 then some 0
  else if 0x30 ≤ o ∧ o ≤ 0x3A then some 0
  else if 0x40 ≤ o ∧ o ≤ 0x45 then some 0
  else if o = 0x50 ∨ o = 0x51 ∨ o = 0x52 then some 2
  else if o = 0x53 then some 1
  else if o = 0x58 ∨ o = 0x59 then some 2
  else if o = 0x5C ∨ o = 0x5D then some 1
  else if 0x70 ≤ o ∧ o ≤ 0x73 then some 0
  else if 0x80 ≤ o ∧ o ≤ 0x82 then some 0
  else if o = 0xC0 then some 0
  else if o = 0xC4 then some 1
  else if o = 0xC5 then some 0
  else if o = 0xD0 ∨ o = 0xE0 ∨ o = 0xE1 ∨ o = 0xF0 then some 0
  else none

/-- R135: an assigned opcode of the privileged group. -/
def privileged (o : Nat) : Bool := decide (0xC0 ≤ o) && (xwOf o).isSome

/-- The shape word of Table 05-6 with the fields an instruction uses; formats 0-6, qfmt 0-2. A reserved code fails to decode, so even under a
false guard and at INLINE admission (DESIGN CHOICE, log entry 77: R161 does not say when it is found). -/
def shapeOk (x : Nat) : Bool :=
  onlyBits x [(0, 19)] && decide (bitsOf x 11 3 ≤ 6) && decide (bitsOf x 14 3 ≤ 6) && decide (bitsOf x 17 2 ≤ 2)

/-- The range of R161 when it is in the instruction. -/
def rangeOk (i : Insn) : Bool := (if i.m 3 then i.y0 == 0 else i.ra == 0) && i.y1 == 0

/-- The encoding tables: every field that the instruction does not use, or uses only under a clear flag, is zero. -/
def fieldsOk (i : Insn) : Bool :=
  let o := i.opc
  let z (x : Nat) : Bool := x == 0
  if o = 0x00 then z i.mod && z i.ra && z i.rb && z i.imm && z i.op
  else if o = 0x01 then
    onlyBits i.mod [(0, 1)] && z i.rb && z i.op && (if i.m 0 then z i.imm else z i.ra && onlyBits i.imm [(0, 16)])
  else if o = 0x02 then z i.mod && onlyBits i.op [(0, 16)]
  else if o = 0x04 then onlyBits i.mod [(0, 1)] && z i.ra && z i.rb && z i.imm && z i.op
  else if o = 0x05 then onlyBits i.mod [(0, 1)] && z i.rb && (if i.m 0 then z i.imm else z i.ra) && addrOk i.op
  else if o = 0x06 then onlyBits i.mod [(5, 3)] && addrOk i.op
  else if o = 0x07 then
    onlyBits i.mod [(0, 6)] && decide (bitsOf i.mod 0 5 ≤ 18) && (if i.m 5 then z i.rb else z i.imm) && onlyBits i.op [(0, 5)]
  else if o = 0x08 then z i.mod && z i.rb && z i.imm
  else if o = 0x09 then
    onlyBits i.mod [(0, 4)] && decide (bitsOf i.mod 0 3 ≤ 5) && (if i.m 3 then z i.rb else z i.imm) && onlyBits i.op [(0, 3)]
  else if o = 0x0A then
    onlyBits i.mod [(0, 3)] && z i.ra && z i.rb && z i.imm && onlyBits i.op [(0, 3), (4, 3), (8, 3)]
  else if o = 0x0B then onlyBits i.mod [(0, 3), (5, 3)] && z i.rb && z i.imm && addrOk i.op
  else if o = 0x0C then onlyBits i.mod [(0, 2)] && z i.rb && z i.imm && addrOk i.op
  else if o = 0x0D then z i.mod && z i.rb && decide (i.imm ≤ 6) && z i.op
  else if o = 0x10 then
    onlyBits i.mod [(0, 4), (5, 3)] && (if i.m 3 then z i.imm else z i.ra) && (i.m 1 || z i.rb) && addrOk i.op && addrOk i.x0 && z i.x1
  else if o = 0x11 then onlyBits i.mod [(2, 2)] && (if i.m 3 then z i.imm else z i.rb) && addrOk i.op
  else if o = 0x12 ∨ o = 0x13 then
    onlyBits i.mod [(0, 3), (5, 3)] && z i.ra && (i.m 1 || z i.rb) && addrOk i.op && addrOk i.x0 && addrOk i.x1
      && onlyBits i.y0 [(0, 33)] && z i.y1
  else if o = 0x14 then
    onlyBits i.mod [(0, 4), (5, 3)] && (if i.m 3 then z i.imm else z i.ra) && (i.m 1 || z i.rb) && addrOk i.op && addrOk i.x0
      && onlyBits i.x1 [(0, 32)]
  else if o = 0x18 then onlyBits i.mod [(0, 3), (5, 3)] && decide (i.ra ≤ 15) && (i.m 1 || z i.rb) && addrOk i.op
  else if o = 0x19 then onlyBits i.mod [(2, 1)] && decide (i.ra ≤ 15) && z i.rb && addrOk i.op
  else if 0x30 ≤ o ∧ o ≤ 0x3A then
    onlyBits i.mod [(0, 2), (5, 3)] && (if o = 0x39 then onlyBits i.imm [(0, 3)] else z i.imm && z i.rb)
      && (o != 0x3A || !i.m 0) && addrOk i.op
  else if o = 0x40 then
    onlyBits i.mod [(0, 4)] && decide (1 ≤ bitsOf i.mod 0 2) && (i.m 2 || z i.rb) && z i.imm && (i.m 3 || z i.op)
  else if o = 0x41 then
    onlyBits i.mod [(0, 1), (3, 1), (5, 3)] && (if i.m 3 then z i.imm else z i.rb) && addrOk i.op
  else if o = 0x42 then z i.mod && z i.rb && z i.imm && addrOk i.op
  else if o = 0x43 then onlyBits i.mod [(5, 3)] && z i.rb && z i.imm && addrOk i.op
  else if o = 0x44 then
    onlyBits i.mod [(3, 1), (5, 3)] && z i.imm && (if i.m 3 then z i.rb && addrOk i.op else z i.op)
  else if o = 0x45 then z i.mod && z i.imm && z i.op
  else if o = 0x50 ∨ o = 0x52 then
    onlyBits i.mod [(0, 1), (2, 2), (5, 3)] && rangeOk i && shapeOk i.imm && addrOk i.op && addrOk i.x0 && addrOk i.x1
  else if o = 0x51 then
    onlyBits i.mod [(0, 4), (5, 3)] && rangeOk i && z i.rb && shapeOk i.imm && z (bitsOf i.imm 17 2) && addrOk i.op && addrOk i.x0
      && addrOk i.x1
  else if o = 0x53 then
    onlyBits i.mod [(0, 2), (5, 3)] && z i.ra && z i.rb && onlyBits i.imm [(0, 11)] && addrOk i.op && addrOk i.x0
      && onlyBits i.x1 [(0, 48)]
  else if o = 0x58 then
    onlyBits i.mod [(3, 1), (5, 3)] && rangeOk i && z i.rb && shapeOk i.imm && z (bitsOf i.imm 7 4) && decide (bitsOf i.imm 17 2 ≤ 1)
      && addrOk i.op && addrOk i.x0 && z i.x1
  else if o = 0x59 then
    onlyBits i.mod [(0, 4), (5, 3)] && rangeOk i && z i.rb && shapeOk i.imm && z (bitsOf i.imm 7 4) && z (bitsOf i.imm 17 2)
      && addrOk i.op && addrOk i.x0 && z i.x1
  else if o = 0x5C then
    onlyBits i.mod [(0, 1), (5, 3)] && z i.ra && z i.rb && onlyBits i.imm [(0, 21)] && addrOk i.op && addrOk i.x0
      && onlyBits i.x1 [(0, 24)]
  else if o = 0x5D then
    onlyBits i.mod [(0, 4), (5, 3)] && (if i.m 3 then z i.imm else z i.ra) && z i.rb && addrOk i.op && addrOk i.x0
      && onlyBits i.x1 [(0, 32)]
  else if o = 0x70 ∨ o = 0x71 then onlyBits i.mod [(0, 2)] && z i.ra && z i.rb && addrOk i.op
  else if o = 0x72 then onlyBits i.mod [(0, 1)] && z i.ra && z i.rb && addrOk i.op
  else if o = 0x73 then onlyBits i.mod [(0, 1)] && z i.ra && z i.rb && z i.op
  else if o = 0x80 then onlyBits i.mod [(0, 1), (5, 3)] && z i.imm && addrOk i.op
  else if o = 0x81 then onlyBits i.mod [(0, 1), (5, 3)] && (i.m 0 || z i.ra) && z i.imm && z i.op
  else if o = 0x82 then z i.mod && z i.imm && z i.op
  else if o = 0xC0 then z i.mod && z i.rb && z i.imm && addrOk i.op
  else if o = 0xC4 then
    onlyBits i.mod [(0, 6)] && (i.m 5 || z (bitsOf i.mod 3 2))
      && (if i.m 2 then z i.op else addrOk i.op) && onlyBits i.x0 [(2, 2)] && z i.x1
  else if o = 0xC5 then onlyBits i.mod [(0, 3)] && z i.op
  else if o = 0xD0 then onlyBits i.mod [(0, 3)] && decide (bitsOf i.mod 0 3 ≤ 3) && z i.rb && z i.imm && addrOk i.op
  else if o = 0xE0 then onlyBits i.mod [(0, 1)] && z i.imm && z i.op
  else if o = 0xE1 then z i.mod && z i.imm && z i.op
  else if o = 0xF0 then onlyBits i.mod [(0, 1)] && z i.rb && z i.imm && z i.op
  else false

/-- R95: whether an instruction word decodes. -/
def Insn.decodes (i : Insn) : Bool := xwOf i.opc == some i.xw && fieldsOk i

/-- R59 step 2: the code words of an INLINE entry, decoded one after another; `priv` lets privileged opcodes stand
(R135). The status is MALFORMED (0x18) before PERMISSION (0x13), or none. -/
def inlineCheck (priv : Bool) : Nat → List Nat → Option Nat
  | 0, _ => none
  | _ + 1, [] => none
  | fuel + 1, w :: t =>
    let i := Insn.ofWords (w :: t)
    if !i.decodes || decide (t.length < i.xw) then some 0x18
    else match inlineCheck priv fuel (t.drop i.xw) with
      | some 0x18 => some 0x18
      | r => if privileged i.opc && !priv then some 0x13 else r

/-- The opcode (Table 04-2) and fetch of a command that is an instruction of a rake. -/
def rakeOp : Instr → Option (Nat × Fetch)
  | .nop f => some (0x00, f)
  | .br f => some (0x01, f)
  | .loop f => some (0x02, f)
  | .fence f => some (0x04, f)
  | .signal f => some (0x05, f)
  | .wait f => some (0x06, f)
  | .alu f => some (0x07, f)
  | .li f => some (0x08, f)
  | .cmp f => some (0x09, f)
  | .plog f => some (0x0A, f)
  | .lds f => some (0x0B, f)
  | .sts f => some (0x0C, f)
  | .rdsys f => some (0x0D, f)
  | .copy f => some (0x10, f)
  | .fill f => some (0x11, f)
  | .gather f => some (0x12, f)
  | .scatter f => some (0x13, f)
  | .stride f => some (0x14, f)
  | .tload f => some (0x18, f)
  | .tstore f => some (0x19, f)
  | .aadd f => some (0x30, f)
  | .aand f => some (0x31, f)
  | .aor f => some (0x32, f)
  | .axor f => some (0x33, f)
  | .aminu f => some (0x34, f)
  | .amaxu f => some (0x35, f)
  | .amins f => some (0x36, f)
  | .amaxs f => some (0x37, f)
  | .aswap f => some (0x38, f)
  | .acas f => some (0x39, f)
  | .afadd f => some (0x3A, f)
  | .crcInit f => some (0x40, f)
  | .crcRun f => some (0x41, f)
  | .crcSave f => some (0x42, f)
  | .crcLoad f => some (0x43, f)
  | .crcVerify f => some (0x44, f)
  | .crcFinal f => some (0x45, f)
  | .attnQk f => some (0x50, f)
  | .attnSv f => some (0x51, f)
  | .attnPart f => some (0x52, f)
  | .mergePart f => some (0x53, f)
  | .kvq f => some (0x58, f)
  | .kvdq f => some (0x59, f)
  | .topk f => some (0x5C, f)
  | .scale f => some (0x5D, f)
  | .promote f => some (0x70, f)
  | .demote f => some (0x71, f)
  | .pin f => some (0x72, f)
  | .unpin f => some (0x72, f)
  | .durableSync f => some (0x73, f)
  | .submit f => some (0x80, f)
  | .notify f => some (0x81, f)
  | .qstat f => some (0x82, f)
  | .carve f => some (0xC0, f)
  | .map f => some (0xC4, f)
  | .unmap f => some (0xC5, f)
  | .panInstall f => some (0xD0, f)
  | .panDestroy f => some (0xD0, f)
  | .portRekey f => some (0xD0, f)
  | .portEnd f => some (0xD0, f)
  | .commit f => some (0xE0, f)
  | .claim f => some (0xE1, f)
  | .scrub f => some (0xF0, f)
  | _ => none

/-- Context-math instructions (opcodes 0x50 to 0x5D), whose check point follows the reading of their inputs (R170). -/
def isMath (i : Instr) : Bool :=
  match rakeOp i with
  | some (o, _) => decide (0x50 ≤ o) && decide (o ≤ 0x5D)
  | none => false

end Sys2Proof.Machine
end

