-- ==== Sys2Proof/Machine/Status.lean ====
section
/-!
DEFINITION. Completion status values of Table 00-5 and the order of R10 among them.
-/
namespace Sys2Proof.Machine.Sts

def ok : Nat := 0x00
def okDurable : Nat := 0x01
def poison : Nat := 0x10
def faultBatched : Nat := 0x11
def quota : Nat := 0x12
def permission : Nat := 0x13
def linkLost : Nat := 0x14
def timeout : Nat := 0x15
def epochStale : Nat := 0x16
def nodeDown : Nat := 0x17
def malformed : Nat := 0x18
def aborted : Nat := 0x19
def retry : Nat := 0x1A
def checkMismatch : Nat := 0x1B
def unmappedZero : Nat := 0x1C
def sealedDeny : Nat := 0x1D
def throttled : Nat := 0x1E

/-- R10: the order in which one of several statuses is reported, first first. -/
def order : List Nat :=
  [malformed, sealedDeny, permission, epochStale, faultBatched, quota, throttled, nodeDown, linkLost, timeout, aborted,
   retry, poison, checkMismatch, unmappedZero, okDurable, ok]

/-- R10: of two statuses, the one that is reported. -/
def first (a b : Nat) : Nat := if order.idxOf a ≤ order.idxOf b then a else b

/-- R84: the program goes on after an instruction that ended with this status. -/
def goesOn (x : Nat) : Bool :=
  x == ok || x == okDurable || x == poison || x == checkMismatch || x == unmappedZero

/-- The status that a message meets where its destination has no path (1), is known to be down (2), or names no node of the lattice (3)
(R390, Table 13-4). -/
def ofPath (x : Nat) : Nat := if x = 1 then linkLost else if x = 3 then malformed else nodeDown

/-- R101, R138: the status that a remote answer gives an instruction. Those of Table 04-3 are its own; of the rest one that says that
nothing was done counts as RETRY, one that says that lines may have been as TIMEOUT, and one that says that all was done as OK (DESIGN
CHOICE, log entry 75). -/
def remote (x : Nat) : Nat :=
  if [ok, okDurable, poison, permission, malformed, nodeDown, linkLost, timeout, retry].contains x then x
  else if x = checkMismatch ∨ x = unmappedZero then ok
  else if x = aborted then timeout
  else retry

end Sys2Proof.Machine.Sts
end

