-- ==== Sys2Proof/Machine/Pans.lean ====
section
/-!
DEFINITION. Pans: quotas, placement and spill (R37 to R42), the release and zeroing of granules (R33), structure pages
(R36, R584) and park slots (R190).
-/
namespace Sys2Proof.Machine

/-- A pan beside its registers. -/
def State.pan (s : State) (n : Nat) : Pan := SMap.get Pan.fresh n s.pans

/-- Changes a pan. -/
def State.setPan (s : State) (n : Nat) (f : Pan → Pan) : State := { s with pans := SMap.upd Pan.fresh n f s.pans }

/-- Changes the keys (R436). -/
def State.setKeys (s : State) (f : Keys → Keys) : State := { s with sec := { s.sec with keys := f s.sec.keys } }

/-- R34: the pan is ACTIVE. -/
def State.panActive (s : State) (n : Nat) : Bool := s.rd (Csr.PANSTAT_state n) == 1

/-- R34: the pan is FREE. -/
def State.panFree (s : State) (n : Nat) : Bool := s.rd (Csr.PANSTAT_state n) == 0

/-- R49: the pan is durable in the active set. -/
def State.panDurable (s : State) (n : Nat) : Bool := s.on (Csr.PANCTL_durable n)

/-! ### Usage and its events (R41, R42) -/

/-- PANSPILLCNT of a pan. -/
def spillCtr (n : Nat) : Ctr := ⟨Csr.PANSPILLCNT_count n, Csr.PANSTAT_spill_cnt_ovf n, 0, Ev.PAN_COUNT_OVF, 5, n⟩

/-- PANQREFCNT of a pan. -/
def qrefCtr (n : Nat) : Ctr := ⟨Csr.PANQREFCNT_count n, Csr.PANSTAT_quota_cnt_ovf n, 0, Ev.PAN_COUNT_OVF, 5, n⟩

/-- The four bits that say in which tiers usage exceeds a quota. -/
def State.overBits (s : State) (n : Nat) (q : Nat → Fld) : Nat :=
  [0, 1, 2, 3].foldl (fun a t => if s.rd (q t) < s.rd (Csr.PANUSE_used n t) then a + 2 ^ t else a) 0

/-- PANSTAT[n] follows the usage, the active quotas and the spill budget (Table 02-15). -/
def State.panLevels (s : State) (n : Nat) : State :=
  let s := s.wr (Csr.PANSTAT_over_soft n) (s.overBits n (Csr.PANQUOTA_soft n))
  let s := s.wr (Csr.PANSTAT_over_hard n) (s.overBits n (Csr.PANQUOTA_hard n))
  s.wr (Csr.PANSTAT_spill_exhausted n)
    (if s.rd (Csr.PANSPILL_spill_budget n) ≤ s.rd (Csr.PANSPILL_spill_used n) then 1 else 0)

/-- R42: PAN_SOFT_EXCEEDED for each tier whose over_soft bit was 0 in `before`. -/
def State.softEvents (s : State) (n before : Nat) : State :=
  [0, 1, 2, 3].foldl (fun s t =>
    if s.bit (Csr.PANSTAT_over_soft n) t && !bitOf before t then s.raise Ev.PAN_SOFT_EXCEEDED 5 n else s) s

/-- Charges `k` granules of tier `t` to pan `n`, `sp` of them spilled. -/
def State.chargeUse (s : State) (n t k sp : Nat) : State :=
  let u := s.rd (Csr.PANUSE_used n t) + k
  let s := s.wr (Csr.PANUSE_used n t) u
  let s := s.wr (Csr.PANUSE_peak n t) (max u (s.rd (Csr.PANUSE_peak n t)))
  (s.wr (Csr.PANSPILL_spill_used n) (s.rd (Csr.PANSPILL_spill_used n) + sp)).panLevels n

/-- Credits one granule of tier `t` to pan `n`, spilled or not. HEAP_AUTO_DEMOTE can be raised again once the usage of DDR5 has fallen to dem_low
(R286). -/
def State.creditUse (s : State) (n t : Nat) (sp : Bool) : State :=
  let s := s.wr (Csr.PANUSE_used n t) (s.rd (Csr.PANUSE_used n t) - 1)
  let s := (s.wr (Csr.PANSPILL_spill_used n) (s.rd (Csr.PANSPILL_spill_used n) - (if sp then 1 else 0))).panLevels n
  if t == 1 && (s.pan n).demWarn && decide (s.rd (Csr.PANUSE_used n 1) ≤ s.rd (Csr.PANHEAP_dem_low n)) then
    s.setPan n (fun p => { p with demWarn := false })
  else s

/-- R42: an operation of the pan ends QUOTA: PANQREFCNT counts it, and the first since it was cleared is raised. -/
def State.quotaRefused (s : State) (n : Nat) : State :=
  let z := s.rd (Csr.PANQREFCNT_count n) == 0
  let s := s.count (qrefCtr n)
  if z && s.rd (Csr.PANQREFCNT_count n) != 0 then s.raise Ev.PAN_QUOTA_REFUSED 5 n else s

/-! ### Placement (R38, R39, R45, R229) -/

/-- First granule of each tier. -/
def tierBase (t : Nat) : Nat :=
  (if t = 0 then stkBase else if t = 1 then 0 else if t = 2 then heapBase else lentBase) / granSize

/-- Segment `k` is DIRECT in the active set and not changing mode (R43). -/
def State.segDirect (s : State) (k : Nat) : Bool :=
  s.bit (Csr.STKSEGMAP_seg (k / 64)) (k % 64) && !s.bit (Csr.STKSEGSTAT_seg (k / 64)) (k % 64)

/-- The root port of heap index `i` (R282). -/
def State.heapPortOf (s : State) (i : Nat) : Nat :=
  ((List.range 8).find? (fun p =>
    let st := s.rd (Csr.HEAPPORT_state p)
    (st == 2 || st == 3) && s.rd (Csr.HEAPPORT_index p) == i)).getD 8

/-- R293: the log limit that a declared write rate gives. -/
def logLimit (gbps : Nat) : Nat := min 1024 (gbps * 3400000 / 65536)

/-- R299, R300: heap granule `g` lies on an SSD whose port is FAILED. -/
def State.heapFailed (s : State) (g : Nat) : Bool :=
  let n := s.rd Csr.HEAPSTAT_ndrives
  if n = 0 then true else
    let p := s.heapPortOf ((g - tierBase 2) % n)
    decide (p = 8) || s.rd (Csr.HEAPPORT_state p) == 3

/-- R51: lent slot `k` is ACTIVE and open to pan `n`. -/
def State.slotOpen (s : State) (n k : Nat) : Bool :=
  s.rd (Csr.LENTSTAT_state k) == 2 && (s.on (Csr.LENTCTL_lend_any k) || s.rd (Csr.LENTCTL_lend_pan k) == n)

/-- R427: granule `g` lies in the mirror window. -/
def State.inWindow (s : State) (g : Nat) : Bool :=
  decide (s.rd Csr.TWINMW_mw_base ≤ g) && decide (g < s.rd Csr.TWINMW_mw_base + s.rd Csr.TWINMW_mw_granules)

/-- R47: pan `n` is mirrored in the active set. -/
def State.panMirrored (s : State) (n : Nat) : Bool := s.on (Csr.PANCTL_mirrored n)

/-- Which DDR5 granules placement `contained`, on channel `ch` if CONTAINED, may take (R45, R229). -/
def State.ddrOpen (s : State) (contained : Bool) (ch g : Nat) : Bool :=
  let o := s.stripeOrder (g / 8192)
  decide (g < s.rd Csr.DDR5TOP_granules - ddrCarve)
    && (if contained then (o == 0 || o == 2) && g % 8192 / 512 == ch else o == 0 || o == 1)

/-- R39, R427: granule `g` is FREE in tier `t`, pan `n`'s placement permits it, and a mirrored pan takes DDR5 granules
from the mirror window only, any other pan never. -/
def State.mayTake (s : State) (n t ch g : Nat) : Bool :=
  (s.gran g).st == .free &&
  (if t = 0 then s.segDirect ((g - tierBase 0) / 64) && decide ((g - tierBase 0) / 64 < 239)
   else if t = 1 then s.ddrOpen (s.on (Csr.PANCTL_placement n)) ch g && s.inWindow g == s.panMirrored n
   else if t = 2 then decide (g - tierBase 2 < s.rd Csr.HEAPTOP_granules - heapCarve) && !s.heapFailed g
   else
     let k := (g - tierBase 3) / 4194304
     s.slotOpen n k && decide ((g - tierBase 3) % 4194304 < s.lentSize k))

/-- How many granule numbers tier `t` spans. -/
def State.tierSpan (s : State) (t : Nat) : Nat :=
  if t = 0 then 15296 else if t = 1 then s.rd Csr.DDR5TOP_granules
  else if t = 2 then s.rd Csr.HEAPTOP_granules else 64 * 4194304

/-- The first of the numbers `i`, `i + 1`, … below `i + fuel` for which `p` holds. -/
def scanUp (p : Nat → Bool) : Nat → Nat → Option Nat
  | 0, _ => none
  | fuel + 1, i => if p i then some i else scanUp p fuel (i + 1)

/-- A number below `m` for which `p` holds, searched from `start` on and round. -/
def scanRound (p : Nat → Bool) (m start : Nat) : Option Nat :=
  match scanUp p (m - start) start with
  | some i => some i
  | none => scanUp p start 0

/-- R39, `fits`: a run of `k` granules (1, or 512 contiguous and aligned) of tier `t` that pan `n` may take, on channel
`ch` for a CONTAINED pan. Which fitting run is taken the spec leaves open: the search starts at free value `v`. -/
def State.fitRun (s : State) (n t k ch v : Nat) : Option Nat :=
  let m := s.tierSpan t / k
  let b := tierBase t
  (scanRound (fun i => (rangeFrom (b + i * k) k).all (s.mayTake n t ch)) m (v % max m 1)).map (fun i => b + i * k)

/-- R45: the channels a CONTAINED pan tries, from its rotation on. -/
def State.ringChans (s : State) (n : Nat) : List Nat :=
  ((List.range 16).map (fun i => ((s.pan n).rot + i) % 16)).filter (s.bit (Csr.PANCTL_stall_mask n))

/-- R39: where `k` granules of tier `t` fit for pan `n`, and the channel for a CONTAINED pan. -/
def State.fits (s : State) (n t k v : Nat) : Option (Nat × Option Nat) :=
  if t = 1 && s.on (Csr.PANCTL_placement n) then
    (s.ringChans n).findSome? (fun c => (s.fitRun n 1 k c v).map (fun g => (g, some c)))
  else (s.fitRun n t k 0 v).map (fun g => (g, none))

/-- R38, `usable`; tiers 0, 2 and 3 take no page of a mirrored pan (R427). -/
def State.usable (s : State) (n t : Nat) : Bool :=
  if t ≠ 1 ∧ s.panMirrored n then false
  else if t = 0 then (let m := s.rd (Csr.PANCTL_stk_mode n); m == 1 || m == 2)
  else if t = 2 then decide (512 < s.rd Csr.HEAPTOP_granules)
  else if t = 3 then s.on (Csr.PANCTL_lent_allowed n)
  else true

/-- One allocation that succeeded: its granules, their tier, whether they were placed by spill, and whether it could
have spilled but for the budget (R42). -/
structure Alloc where
  gran : Nat
  n : Nat
  tier : Nat
  spilled : Bool
  blocked : Bool

/-- R38, `charge`: granules `g … g + k - 1` become OWNED by pan `n`; DDR5 granules are rewritten with zeros (R451). -/
def State.take (s : State) (n t k : Nat) (spilled : Bool) (at_ : Nat × Option Nat) : State :=
  let g := at_.1
  let s := (rangeFrom g k).foldl (fun s i => s.setGran i (fun x =>
    { x with st := .owned, owner := n, spilled := spilled, leaves := 0 })) s
  let s := if t = 1 then (rangeFrom g k).foldl State.zeroGranule s else s
  let s := if t = 1 ∧ s.stripeOrder (g / 8192) = 0 then
      { s with dram := { s.dram with stripes := SMap.put 0 (g / 8192) (if s.on (Csr.PANCTL_placement n) then 2 else 1)
                                       s.dram.stripes } }
    else s
  let s := match at_.2 with
    | some c => s.setPan n (fun p => { p with rot := (c + 1) % 16 })
    | none => s
  let s := if t = 3 then
      let k3 := (g - tierBase 3) / 4194304
      s.wr (Csr.LENTSTAT_owned_granules k3) (s.rd (Csr.LENTSTAT_owned_granules k3) + k)
    else s
  s.chargeUse n t k (if spilled then k else 0)

/-- R38, `place`: `k` granules for pan `n`, preferred tier `t0`; none is QUOTA. -/
def State.place (s : State) (n t0 k : Nat) (noSpill : Bool) : Option (Alloc × State) :=
  let (v, s) := s.drawFree 32
  let used (t : Nat) := s.rd (Csr.PANUSE_used n t)
  let soft (t : Nat) : Bool := decide (used t + k ≤ s.rd (Csr.PANQUOTA_soft n t))
  let fit (t : Nat) := s.fits n t k v
  let first := if s.usable n t0 && soft t0 then fit t0 else none
  let later := (rangeFrom (t0 + 1) (3 - t0)).filter (fun t => s.usable n t && soft t && (fit t).isSome)
  let budget := decide (s.rd (Csr.PANSPILL_spill_used n) + k ≤ s.rd (Csr.PANSPILL_spill_budget n))
  let hard := if s.usable n t0 && decide (used t0 + k ≤ s.rd (Csr.PANQUOTA_hard n t0)) then fit t0 else none
  let blocked := first.isNone && !noSpill && !later.isEmpty && !budget
  let spillAt := if noSpill || !budget then none else later.head?
  match first with
  | some a => some (⟨a.1, k, t0, false, false⟩, s.take n t0 k false a)
  | none =>
    match spillAt.bind (fun t => (fit t).map (fun a => (t, a))) with
    | some (t, a) => some (⟨a.1, k, t, true, false⟩, s.take n t k true a)
    | none => hard.map (fun a => (⟨a.1, k, t0, false, blocked⟩, s.take n t0 k false a))

/-- R289: pan `n`'s DRAM granules `g … g + k - 1` get backing granules, charged against tier 2's hard quota. -/
def State.takeBacking (s : State) (n g k : Nat) : Option State :=
  let (v, s) := s.drawFree 32
  if decide (512 < s.rd Csr.HEAPTOP_granules) && decide (s.rd (Csr.PANUSE_used n 2) + k ≤ s.rd (Csr.PANQUOTA_hard n 2)) then
    (s.fits n 2 k v).map (fun a =>
      (s.take n 2 k false a).setPan n (fun p =>
        { p with backing := (List.range k).foldl (fun m i => SMap.put 0 (g + i) (a.1 + i) m) p.backing }))
  else none

/-- R38, R289: `place`, with the backing charge of a durable pan. -/
def State.placeDur (s : State) (n t0 k : Nat) (noSpill : Bool) : Option (Alloc × State) :=
  match s.place n t0 k noSpill with
  | none => none
  | some (a, s') =>
    if s.panDurable n && a.tier != 2 then (s'.takeBacking n a.gran k).map (fun s => (a, s)) else some (a, s')

/-- R42: the counts and events of an operation's allocations, decided from the state it leaves: for each whether it was spilled, and
whether only the budget kept it from being spilled; `soft` and `spill` are the over_soft bits and spill_used that it found. -/
def State.settleFrom (s : State) (n soft spill : Nat) (as : List (Bool × Bool)) : State :=
  let s := s.softEvents n soft
  let s := s.count (spillCtr n) (as.filter (·.1)).length
  let s := if spill = 0 ∧ s.rd (Csr.PANSPILL_spill_used n) ≠ 0 then s.raise Ev.PAN_SPILL_STARTED 5 n else s
  as.foldl (fun (s : State) a =>
    if a.1 then s.setPan n (fun p => { p with spillArmed := true })
    else if a.2 && (s.pan n).spillArmed then
      (s.raise Ev.PAN_SPILL_EXHAUSTED 5 n).setPan n (fun p => { p with spillArmed := false })
    else s) s

/-- What an operation's allocations need to be settled when it ends, and what it found. -/
def State.unsettled (s : State) (n : Nat) (as : List Alloc) : Nat × Nat × List (Bool × Bool) :=
  (s.rd (Csr.PANSTAT_over_soft n), s.rd (Csr.PANSPILL_spill_used n), as.map (fun a => (a.spilled, a.blocked)))

/-- R42: the counts and events of the allocations `as` of an operation that ends at once; `old` is the state it found. -/
def State.settle (s old : State) (n : Nat) (as : List Alloc) : State :=
  let x := old.unsettled n as
  s.settleFrom n x.1 x.2.1 x.2.2

/-! ### Release and zeroing (R33, R40) -/

/-- R229: a stripe whose last granule returns to FREE has no order. -/
def State.stripeFreed (s : State) (g : Nat) : State :=
  let p := g / 8192
  if s.grans.any (fun kv => kv.1 / 8192 == p && (kv.2.st == .owned || kv.2.st == .zeroing)) then s
  else { s with dram := { s.dram with stripes := SMap.put 0 p 0 s.dram.stripes } }

/-- R273: a granule has become SYSTEM by retirement. -/
def State.noteRetired (s : State) (g : Nat) : State :=
  let s := { s with dram := { s.dram with retired := s.dram.retired ++ [g] } }
  (s.wr Csr.RETIRESTAT_retired s.dram.retired.length).saveSettings false

/-- R33: a granule of a pan goes to ZEROING, or to SYSTEM when its retirement waits (R272), with its charge credited. -/
def State.releaseOne (s : State) (g : Nat) : State :=
  let x := s.gran g
  if x.st == .owned then
    let t := tierOf (g * granSize)
    let s := if x.retire then
        (s.setGran g (fun x => { x with st := .system, owner := 0, spilled := false, leaves := 0, retire := false })).noteRetired g
      else
        let s := s.setGran g (fun x => { x with st := .zeroing, spilled := false, leaves := 0 })
        { s with zeroQ := s.zeroQ ++ [g] }
    let s := if t = 3 then
        let k := (g - tierBase 3) / 4194304
        s.wr (Csr.LENTSTAT_owned_granules k) (s.rd (Csr.LENTSTAT_owned_granules k) - 1)
      else s
    s.creditUse x.owner t x.spilled
  else s

/-- R33, R289: a granule is released, and with it its backing granule. -/
def State.release (s : State) (g : Nat) : State :=
  let x := s.gran g
  let b := SMap.get 0 g (s.pan x.owner).backing
  let s := s.releaseOne g
  if b = 0 then s
  else (s.releaseOne b).setPan x.owner (fun p => { p with backing := SMap.put 0 g 0 p.backing })

/-- R16: stall `k` has failed and is out of service. -/
def State.stallFailed (s : State) (k : Nat) : Bool := s.bit Csr.STALLSVC_failed k

/-- R33: granule `g` is one of those the fill engines, one per stall in service, work on; heap and lent granules need
none. -/
def State.beingZeroed (s : State) (g : Nat) : Bool :=
  let engines := ((List.range 16).filter (fun k => !s.stallFailed k)).length
  if tierOf (g * granSize) ≤ 1 then
    ((s.zeroQ.filter (fun x => decide (tierOf (x * granSize) ≤ 1))).take engines).contains g
  else s.zeroQ.contains g

/-- R33: the zeroing of granule `g` completes: every byte of it reads zero and it is FREE. -/
def State.zeroDone (s : State) (g : Nat) : State :=
  let s := s.zeroGranule g
  let s := { s with zeroQ := s.zeroQ.filter (fun x => x != g) }
  (s.setGran g (fun x => { x with st := .free, owner := 0, spilled := false, leaves := 0, written := 0 })).stripeFreed g

/-! ### Structures of a pan (R36, R190, R584) -/

/-- R36: one DDR5 granule for a structure of pan `n`, within hard quota `hard`. -/
def State.takeStruct (s : State) (n hard : Nat) : Option (Nat × State) :=
  let (v, s) := s.drawFree 32
  if s.rd (Csr.PANUSE_used n 1) + 1 ≤ hard then (s.fits n 1 1 v).map (fun a => (a.1, s.take n 1 1 false a)) else none

/-- A free 4 KiB structure page of pan `n` (R207), taking another granule when none is left (log entry 7). -/
def State.takePage (s : State) (n : Nat) : Option (Nat × State) :=
  let p := s.pan n
  let inUse (a : Nat) : Bool := p.pages.contains a
  match p.ptGrans.findSome? (fun g => ((List.range 512).map (fun i => g * granSize + i * 4096)).find? (fun a => !inUse a)) with
  | some a => some (a, s.setPan n (fun p => { p with pages := a :: p.pages }))
  | none =>
    match s.takeStruct n (s.rd (Csr.PANQUOTA_hard n 1)) with
    | some (g, s) => some (g * granSize, s.setPan n (fun p => { p with pages := g * granSize :: p.pages, ptGrans := p.ptGrans ++ [g] }))
    | none => none

/-- R584: the page-table root and fault queue of pan `n` take one DDR5 granule; where in it they lie the spec leaves
open (log entry 7). -/
def State.takeRoot (s : State) (n hard : Nat) : Option State :=
  match s.takeStruct n hard with
  | none => none
  | some (g, s) =>
    let b := g * granSize
    let pages := (rangeFrom 0 33).map (fun i => b + 4096 * i)
    let s := s.setPan n (fun p => { p with pages := pages, ptGrans := [g] })
    some ((s.wr (Csr.PANPTROOT_root n) (b / 4096)).wr (Csr.FQBASE_base n) (b / 4096 + 1))

/-- Park slots of pan `n` in use (R63), by number: slots 31 b to 31 b + 30 lie in block b's granule (R190). -/
def State.slotsUsed (s : State) (n : Nat) : List Nat :=
  s.queues.flatMap (fun kv => if kv.2.pan = n then kv.2.ents.filterMap (·.slot) else [])

/-- R190: granules for the blocks `bs` of slots are taken in turn, while the hard quota can hold them. -/
def State.growSlots (n : Nat) : List Nat → State → State
  | [], s => s
  | b :: bs, s =>
    if SMap.get 0 b (s.pan n).parkGrans ≠ 0 then State.growSlots n bs s
    else match s.takeStruct n (s.rd (Csr.PANQUOTA_hard n 1)) with
      | none => s
      | some (g, s) => State.growSlots n bs (s.setPan n (fun p => { p with parkGrans := SMap.put 0 b (g + 1) p.parkGrans }))

/-- R190: blocks of slots of which none lies within park_slots or is in use are released. -/
def State.shrinkSlots (s : State) (n : Nat) : State :=
  let used := s.slotsUsed n
  ((s.pan n).parkGrans.filter (fun kv =>
      decide (s.rd (Csr.PANSCHED_park_slots n) ≤ 31 * kv.1) && !used.any (fun i => i / 31 == kv.1))).foldl
    (fun s kv => (s.releaseOne (kv.2 - 1)).setPan n (fun p => { p with parkGrans := SMap.put 0 kv.1 0 p.parkGrans })) s

/-- PANSCHED.park_alloc: the slots allocated, those in use that wait to be released among them (R190). -/
def State.slotCount (s : State) (n : Nat) : Nat :=
  let want := s.rd (Csr.PANSCHED_park_slots n)
  ((s.pan n).parkGrans.map (fun kv => min 31 (want - 31 * kv.1))).sum
    + ((s.slotsUsed n).filter (fun i => decide (want ≤ i))).length

/-- R190: the slots allocated follow park_slots; slots in use stay until they are freed. A granule taken may pass the soft quota, which
R42 reports. -/
def State.parkAdjust (s : State) (n : Nat) : State :=
  if s.panActive n then
    let before := s.rd (Csr.PANSTAT_over_soft n)
    let s := (State.growSlots n (rangeFrom 0 (ceilDiv (s.rd (Csr.PANSCHED_park_slots n)) 31)) s).shrinkSlots n
    (s.wr (Csr.PANSCHED_park_alloc n) (s.slotCount n)).softEvents n before
  else s

/-- R190: a park slot that a new dispatch of pan `n` may use: allocated, within park_slots and free. The lowest-numbered is taken (DESIGN
CHOICE, log entry 83: the spec does not say which). -/
def State.freeSlot (s : State) (n : Nat) : Option Nat :=
  let want := s.rd (Csr.PANSCHED_park_slots n)
  let used := s.slotsUsed n
  (s.pan n).parkGrans.findSome? (fun kv => (rangeFrom (31 * kv.1) (min 31 (want - 31 * kv.1))).find? (fun i => !used.contains i))

/-- A granule is released by a running pan, whose park slots may then grow (R190). -/
def State.releaseGrans (s : State) (n : Nat) (gs : List Nat) : State :=
  let s := gs.foldl State.release s
  if gs.any (fun g => tierOf (g * granSize) == 1) then s.parkAdjust n else s

/-! ### Commands of chapter 02 that concern granules and segments -/

/-- R43, R247: segment `k` finishes its change of mode. Of the granules that a segment gains as DIRECT, the retired ones are SYSTEM
(R273). -/
def State.segFlipped (s : State) (k : Nat) : State :=
  let s := s.clrFld (Csr.STKSEGSTAT_seg (k / 64)) (k % 64)
  let gs := if s.segDirect k then s.dram.retired.filter (fun g => decide (tierBase 0 + 64 * k ≤ g) && decide (g < tierBase 0 + 64 * k + 64)) else []
  let s := gs.foldl (fun s g => s.setGran g (fun x => { x with st := .system, owner := 0 })) s
  s.setCaps.raise Ev.STK_SEG_FLIPPED 0 k

end Sys2Proof.Machine
end

