-- ==== Sys2Proof/Machine/Dir.lean ====
section
/-!
DEFINITION. The coherence directory in memory (R315 to R317), and the device's own writes to lines that partners may hold.
-/
namespace Sys2Proof.Machine

/-! ### Directory entries (R315, R316) -/

/-- R315: the hash of line `d`. -/
def dirHash (d : Nat) : Nat := d * 0x9E3779B97F4A7C15 % 2 ^ 64

/-- Slice, set and predictor counter of a line (R315). -/
def dirSlice (d : Nat) : Nat := bitsOf (dirHash d) 60 4
def dirSet (d : Nat) : Nat := bitsOf (dirHash d) 41 19
def dirPred (d : Nat) : Nat := dirSlice d * 4096 + bitsOf (dirHash d) 0 12

/-- Start of the directory (Table 02-2). -/
def dirBase : Nat := 0x100778000000

/-- Address of way `i` of line `d`'s set. -/
def dirWay (d i : Nat) : Nat := dirBase + dirSlice d * 0x8000000 + dirSet d * 256 + 16 * i

/-- Fields of an entry (Table 11-6). -/
def entLine (e : Nat) : Nat := bitsOf e 0 45
def entSt (e : Nat) : Nat := bitsOf e 45 2
def entCoarse (e : Nat) : Bool := bitOf e 47
def entPan (e : Nat) : Nat := bitsOf e 48 6
def entOwner (e : Nat) : Nat := bitsOf e 54 10
def entPtr (e k : Nat) : Option Nat := if bitOf e (104 + k) then some (bitsOf e (64 + 10 * k) 10) else none

/-- A new entry of state `st`. -/
def entNew (d st pan owner : Nat) : Nat := d + st * 2 ^ 45 + pan * 2 ^ 48 + owner * 2 ^ 54

/-- Valid pointers of an entry in pointer mode. -/
def entPtrs (e : Nat) : List Nat := (List.range 4).filterMap (entPtr e)

/-- R316: sharer `r` is named. -/
def entNames (e r : Nat) : Bool := if entCoarse e then bitOf e (64 + r % 64) else (entPtrs e).contains r

/-- R316: sharer `r` is added; a fifth makes the entry coarse. -/
def entAdd (e r : Nat) : Nat :=
  if entNames e r then e
  else if entCoarse e then setBit e (64 + r % 64) true
  else match firstBelow (fun k => (entPtr e k).isNone) 4 with
    | some k => setBit (setBits e (64 + 10 * k) 10 r) (104 + k) true
    | none => (r :: entPtrs e).foldl (fun e x => setBit e (64 + x % 64) true) (setBit (setBits e 64 64 0) 47 true)

/-- R316: sharer `r` leaves; a coarse vector is unchanged. -/
def entDel (e r : Nat) : Nat :=
  if entCoarse e then e
  else (List.range 4).foldl (fun e k => if entPtr e k = some r then setBit (setBits e (64 + 10 * k) 10 0) (104 + k) false else e) e

/-- No sharer is left. -/
def entNone (e : Nat) : Bool := if entCoarse e then bitsOf e 64 64 == 0 else (entPtrs e).isEmpty

/-- The state and owner of an entry changed, with its sharers kept. -/
def entTo (e st owner : Nat) : Nat := setBits (setBits e 45 2 st) 54 10 owner

/-- Counter `i` of slice `k` (Table 11-10). -/
def cohCtr (k i : Nat) : Ctr :=
  ⟨⟨0x1008100 + 0x100000 * k + 8 * i, 0, 48, 0, false⟩, Csr.COHSLSTAT_cnt_ovf k, i, Ev.COH_COUNT_OVF, 1, k⟩

/-- R317: the lookup of line `d`'s set in its slice's cache of directory sets. -/
def State.dirTouch (s : State) (d : Nat) : State :=
  let k := dirSlice d
  let key := k * 2048 + dirSet d % 2048
  let sets := SMap.get [] key s.coh.cache
  let put (s : State) : State :=
    { s with coh := { s.coh with cache := SMap.put [] key ((dirSet d :: sets.filter (fun x => x != dirSet d)).take 4) s.coh.cache } }
  if sets.contains (dirSet d) then put (s.count (cohCtr k 0))
  else put ((s.count (cohCtr k 1)).readMem ⟨none, 9, false, 5⟩ (dirWay d 0) 256).2

/-- The ways of line `d`'s set. -/
def State.dirWays (s : State) (d : Nat) : List Nat := (List.range 16).map (fun i => s.word (dirWay d i) 16)

/-- The entry of line `d`; zero is U (R305). -/
def State.dirEnt (s : State) (d : Nat) : Nat := ((s.dirWays d).find? (fun e => entSt e != 0 && entLine e == d)).getD 0

/-- Writes the entry of line `d`: in its way, else in an empty way; an entry of state 0 frees the way. -/
def State.setDir (s : State) (d e : Nat) : State :=
  let ways := s.dirWays d
  let i := match ways.findIdx? (fun x => entSt x != 0 && entLine x == d) with
    | some i => some i
    | none => if entSt e = 0 then none else ways.findIdx? (fun x => entSt x == 0)
  match i with
  | some i => s.setWord (dirWay d i) 16 (if entSt e = 0 then 0 else e)
  | none => s

/-- Every entry of the directory. -/
def State.dirAll (s : State) : List Nat :=
  s.mem.filterMap (fun c =>
    if dirBase ≤ c.1 ∧ c.1 < dirBase + 0x80000000 ∧ c.1 % 16 = 5 then
      (let e := s.word (c.1 - 5) 16; if entSt e = 0 then none else some e)
    else none)

/-! ### Writes of the device itself (R74, R321) -/

/-- The transaction that keeps a line busy. -/
def State.txn (s : State) (d : Nat) : Option Txn := s.coh.txns.find? (fun t => t.line == d)

/-- The bytes from `a` on cut at line boundaries. -/
def lineCuts (a : Nat) (bs : List PByte) : List (Nat × List PByte) :=
  (rangeFrom (a / 128) ((a + bs.length + 127) / 128 - a / 128)).map (fun d =>
    let lo := max a (d * 128)
    let hi := min (a + bs.length) (d * 128 + 128)
    (lo, (bs.drop (lo - a)).take (hi - lo)))

/-- The device writes to memory of a pan: a line that is busy, or that a partner holds, is written once the line is its own
again, after the writes to it that wait already. -/
def State.devWrite (s : State) (a : Nat) (bs : List PByte) : State :=
  (lineCuts a bs).foldl (fun s c =>
    let d := c.1 / 128
    if (s.txn d).isSome || entSt (s.dirEnt d) != 0 || s.coh.late.any (fun x => x.1 / 128 == d) then
      { s with coh := { s.coh with late := s.coh.late ++ [c] } }
    else (s.writeMem Acc.sys c.1 c.2).2) s

end Sys2Proof.Machine
end

