-- ==== Sys2Proof/Machine/Net.lean ====
section
/-!
DEFINITION. Sending NX messages: routing (R389 to R392), queues, windows (R393), holds (R396), tags (R381) and the answers
of R386.
-/
namespace Sys2Proof

/-- The VC of a message code (Table 13-2, Table 11-2). -/
def vcOf (code : Nat) : Nat :=
  if code < 0x20 then 1 else if code < 0x40 then 2
  else if code < 0x50 then 1 else if code < 0x60 then 3 else 2

/-- Units after the header (R375). -/
def Msg.units (m : Msg) : Nat := Machine.ceilDiv m.data.length 16

/-- Stream bytes of a message (R375). -/
def Msg.bytes (m : Msg) : Nat := 32 + 16 * m.units

/-- R376: a request is a message of VC1 or a snoop of VC3. -/
def Msg.isReq (m : Msg) : Bool := vcOf m.code != 2

/-- The first header qword (Table 13-1). -/
def Msg.word0 (m : Msg) : Nat :=
  m.code + m.units * 2 ^ 8 + m.colour * 2 ^ 17 + m.mark.toNat * 2 ^ 19 + m.dstPartner.toNat * 2 ^ 20 + m.dstPort * 2 ^ 21 + m.dstNode * 2 ^ 24
    + m.srcPartner.toNat * 2 ^ 36 + m.srcPort * 2 ^ 37 + m.srcNode * 2 ^ 40 + m.route * 2 ^ 52 + m.life * 2 ^ 58

/-- The second header qword: what its upper bits hold differs between requests and responses (Table 13-1). -/
def Msg.word1 (m : Msg) : Nat :=
  m.tag + m.tagEpoch * 2 ^ 16 + m.pan * 2 ^ 32 + m.length * 2 ^ 38 +
    (if m.isReq then m.durWait.toNat * 2 ^ 51 + m.nt.toNat * 2 ^ 52 + m.lent.toNat * 2 ^ 53
     else m.status * 2 ^ 51 + m.accepted.toNat * 2 ^ 59 + m.gone.toNat * 2 ^ 60 + m.dup.toNat * 2 ^ 61 + m.mirrored.toNat * 2 ^ 62)

/-- The bytes of a message in its byte stream: the header, and its data filled up to whole units (R375, R376). -/
def Msg.image (m : Msg) : List Nat :=
  Machine.leBytes 8 m.word0 ++ Machine.leBytes 8 m.word1 ++ Machine.leBytes 8 m.q2 ++ Machine.leBytes 8 m.q3
    ++ m.data ++ List.replicate (16 * m.units - m.data.length) 0

end Sys2Proof

namespace Sys2Proof.Machine

/-- This node's ID (R25). -/
def State.nodeId (s : State) : Nat := s.rd Csr.NODEID_node_id

/-- R23: the device runs in lattice topology. -/
def State.lattice (s : State) : Bool := s.on Csr.STRAPS_topo

/-- Fabric counter `i` of Table 13-10. -/
def fabCtr (i : Nat) : Ctr := ⟨⟨0x5100 + 8 * i, 0, 48, 0, false⟩, Csr.FABSTAT_cnt_ovf, i, Ev.FAB_COUNT_OVF, 0, 0⟩

/-- Counts fabric counter `i`, raising `ev` when it leaves zero (Table 13-8). -/
def State.countFab (s : State) (i ev : Nat) : State :=
  let z := s.rd (fabCtr i).cnt == 0
  let s := s.count (fabCtr i)
  if z && s.rd (fabCtr i).cnt != 0 then s.raise ev 0 0 else s

/-- PORTSTAT.state: 3 ACTIVE, 4 LPI, 5 SLEEP, 6 RETRAIN (Table 12-9). -/
def State.link (s : State) (p : Nat) : Nat := s.rd (Csr.PORTSTAT_state p)

/-- R390: a link is usable for routing while ACTIVE, LPI or SLEEP. -/
def State.linkUsable (s : State) (p : Nat) : Bool := decide (3 ≤ s.link p) && decide (s.link p ≤ 5)

/-- A link that holds a session, RETRAIN included unless it is one of a pair (R366). -/
def State.linkUp (s : State) (p : Nat) : Bool := s.on (Csr.PEERINFO_valid p) && decide (3 ≤ s.link p) && decide (s.link p ≤ 6)

/-- R23, R365: in spoke topology, the ports of `p`'s pair, `p` first; a port that is not paired alone. -/
def State.pairOf (s : State) (p : Nat) : List Nat :=
  if s.on (Csr.PORTCTL_pair (p / 2 * 2)) && !s.lattice then [p, if p % 2 = 0 then p + 1 else p - 1] else [p]

/-- R23, R399: port `p` is the twin link: by its role, or in lattice topology port 7 of a node that has a twin. -/
def State.twinPort (s : State) (p : Nat) : Bool :=
  if s.lattice then p == 7 && (s.rd (Csr.PORTCTL_role p) == 1 || (s.on Csr.TWINCTL_enable && s.rd Csr.TWINCTL_port == 7))
  else s.rd (Csr.PORTCTL_role p) == 1

/-- A message may leave by a link to a partner: a twin link carries no NX message to one (R399). -/
def State.partnerLink (s : State) (p : Nat) : Bool := s.linkUp p && !s.twinPort p

/-- Table 01-10: port `p` joins the lattice. -/
def State.ringPort (s : State) (p : Nat) : Bool := s.lattice && decide (p < 6)

/-! ### Routing (R390, R391) -/

/-- Coordinate `d` (0 X, 1 Y, 2 Z) of a node ID. -/
def coord (n d : Nat) : Nat := bitsOf n (4 * d) 4

/-- Size of dimension `d`. -/
def State.dimSize (s : State) (d : Nat) : Nat :=
  (if d = 0 then s.rd Csr.FABDIMS_kx1 else if d = 1 then s.rd Csr.FABDIMS_ky1 else s.rd Csr.FABDIMS_kz1) + 1

/-- R390: whether a node ID names a node of the lattice. -/
def State.nodeNamed (s : State) (n : Nat) : Bool := [0, 1, 2].all (fun d => decide (coord n d < s.dimSize d))

/-- Table 13-10: the order in which ROUTE[n].order visits the dimensions. -/
def dimOrder (o : Nat) : List Nat :=
  if o = 0 then [0, 1, 2] else if o = 1 then [0, 2, 1] else if o = 2 then [1, 0, 2]
  else if o = 3 then [1, 2, 0] else if o = 4 then [2, 0, 1] else [2, 1, 0]

/-- R391, `preferred`: 1 is plus. -/
def State.preferred (s : State) (c t d : Nat) : Nat :=
  let e := if d = 0 then s.rd (Csr.ROUTE_xdir t) else if d = 1 then s.rd (Csr.ROUTE_ydir t) else s.rd (Csr.ROUTE_zdir t)
  if e = 1 then 1 else if e = 2 then 0
  else
    let k := s.dimSize d
    let delta := (coord t d + k - coord c d % k) % k
    if delta ≤ k - delta then 1 else 0

/-- Where a message goes. -/
inductive Hop where
  /-- This node takes it. -/
  | here
  /-- It leaves by a port, with its route bits; `rev` says that its direction was reversed. -/
  | port (p route : Nat) (rev : Bool)
  | down
  | lost
deriving DecidableEq, Repr

/-- Port of dimension `d` in direction `dir` (1 plus), Table 01-10. -/
def dimPort (d dir : Nat) : Nat := 2 * d + (1 - dir)

/-- R391, `next_hop`, for the dimensions still to visit. -/
def State.hopDims (s : State) (c t route : Nat) : List Nat → Hop
  | [] => .here
  | d :: ds =>
    if coord c d = coord t d then s.hopDims c t route ds
    else
      let fixed := bitOf route (2 * d)
      let dir := if fixed then bitsOf route (2 * d + 1) 1 else s.preferred c t d
      let mk (x : Nat) := setBits route (2 * d) 2 (1 + 2 * x)
      if s.linkUsable (dimPort d dir) then .port (dimPort d dir) (mk dir) false
      else if 2 < s.dimSize d ∧ s.linkUsable (dimPort d (1 - dir)) = true then .port (dimPort d (1 - dir)) (mk (1 - dir)) true
      else .lost

/-- R389 to R391: where a message at this node goes next. A message for a partner leaves by a link of its port that holds a session,
and a MIRROR_WR by the twin link alone (R399). -/
def State.hop (s : State) (m : Msg) : Hop :=
  if m.code = 0x10 ∧ m.dstNode ≠ s.nodeId then
    (match (s.pairOf (s.rd Csr.TWINCTL_port)).find? s.linkUp with
     | some p => .port p m.route false
     | none => .lost)
  else if m.dstNode = s.nodeId then
    if m.dstPartner then
      match (s.pairOf m.dstPort).find? s.partnerLink with
      | some p => .port p m.route false
      | none => .lost
    else .here
  else if s.lattice then
    if s.on (Csr.ROUTE_down m.dstNode) then .down
    else s.hopDims s.nodeId m.dstNode m.route (dimOrder (s.rd (Csr.ROUTE_order m.dstNode)))
  else if s.on (Csr.ROUTE_down m.dstNode) then .down
  else .lost

/-- R390: a node of the lattice that no coordinates name. -/
def State.unnamed (s : State) (n : Nat) : Bool := s.lattice && n != s.nodeId && !s.nodeNamed n

/-- Table 07-4: whether node `n` has a path: 0 yes, 1 none, 2 known down, 3 where it names no node. -/
def State.nodePath (s : State) (n : Nat) : Nat :=
  if s.unnamed n then 3
  else match s.hop { code := 1, dstNode := n } with
  | .here => 0
  | .port _ _ _ => 0
  | .lost => 1
  | .down => 2

/-- R54: whether the lender of slot `k` has a path, as State.nodePath says of a node. -/
def State.lentPath (s : State) (k : Nat) : Nat :=
  let n := s.rd (Csr.LENTSRC_lender_node k)
  if s.unnamed n then 3
  else match s.hop { code := 1, dstNode := n, dstPartner := true, dstPort := s.rd (Csr.LENTSRC_lender_port k) } with
  | .here => 0
  | .port _ _ _ => 0
  | .lost => 1
  | .down => 2

/-! ### Control messages (R371) -/

/-- The link of port `p`. -/
def State.lnk (s : State) (p : Nat) : Link := SMap.get Link.idle p s.links

/-- Changes the link of port `p`. -/
def State.setLnk (s : State) (p : Nat) (f : Link → Link) : State := { s with links := SMap.upd Link.idle p f s.links }

/-- The payload of a control message, from fields given as first byte, bytes and value. -/
def ctrlBytes (fs : List (Nat × Nat × Nat)) : List Nat := leBytes 240 ((fs.map (fun f => f.2.2 % 256 ^ f.2.1 * 256 ^ f.1)).sum)

/-- A control message waits to be sent on port `p`, whose link holds a session. -/
def State.ctrl (s : State) (p : Nat) (fs : List (Nat × Nat × Nat)) : State :=
  if s.linkUp p then s.setLnk p (fun l => { l with ctrlq := l.ctrlq ++ [ctrlBytes fs] }) else s

/-! ### Queues (R392) -/

/-- The transmit queue of a port and VC. -/
def State.txQueue (s : State) (p vc : Nat) : List Msg := SMap.get [] (4 * p + vc) s.fab.txq

/-- Replaces the transmit queue of a port and VC. -/
def State.setTxQueue (s : State) (p vc : Nat) (q : List Msg) : State :=
  { s with fab := { s.fab with txq := SMap.put [] (4 * p + vc) q s.fab.txq } }

/-- Bytes in a queue. -/
def queueBytes (q : List Msg) : Nat := (q.map Msg.bytes).sum

/-- R396, FABOUT: messages in ring queues. -/
def State.ringCount (s : State) : Nat :=
  (s.fab.txq.map (fun kv => if s.ringPort (kv.1 / 4) then kv.2.length else 0)).sum

/-- FABOUT follows the queues and the windows; a node that holds something again is drained no more (R396). -/
def State.fabOut (s : State) : State :=
  let n := s.ringCount
  let o := (s.fab.win.map (fun kv => kv.2.out)).sum
  let s := (s.wr Csr.FABOUT_queued n).wr Csr.FABOUT_outstanding o
  if n = 0 ∧ o = 0 then s else s.wr Csr.FABSTAT_drained 0

/-- R392: a message may enter the ring queue of port `p`: continuing in its ring it needs its own size free, otherwise
two maximum messages. -/
def State.ringRoom (s : State) (p vc : Nat) (continuing : Bool) (m : Msg) : Bool :=
  decide (queueBytes (s.txQueue p vc) + (if continuing then m.bytes else 8256) ≤ 32768)

/-- R394: a request that enters a ring queue holding mark_kib KiB or more is marked. -/
def State.ringMark (s : State) (p vc : Nat) (m : Msg) : Msg × State :=
  if s.ringPort p && m.isReq && !m.mark && decide (s.rd Csr.FABE2E_mark_kib * 1024 ≤ queueBytes (s.txQueue p vc)) then
    ({ m with mark := true }, s.count (fabCtr 7))
  else (m, s)

/-- Puts a message at the end of the queue of its port. -/
def State.enqueue (s : State) (p : Nat) (m : Msg) : State :=
  let vc := vcOf m.code
  let (m, s) := s.ringMark p vc m
  (s.setTxQueue p vc (s.txQueue p vc ++ [m])).fabOut

/-- The window towards a node (R393). -/
def State.e2e (s : State) (n : Nat) : E2e := SMap.get ⟨s.rd Csr.FABE2E_e2e_max, 0, none, 0⟩ n s.fab.win

/-- Changes the window towards a node. -/
def State.setE2e (s : State) (n : Nat) (f : E2e → E2e) : State :=
  { s with fab := { s.fab with win := SMap.put ⟨s.rd Csr.FABE2E_e2e_max, 0, none, 0⟩ n (f (s.e2e n)) s.fab.win } }.fabOut

/-- R393: a request of this node or of one of its local partners for another node of the lattice. -/
def State.windowed (s : State) (m : Msg) : Bool := s.lattice && vcOf m.code == 1 && m.srcNode == s.nodeId && m.dstNode != s.nodeId && m.code != 0x10

/-- A message that came by port `src` (8 for one of this node) enters the network by port `p`, or waits for ring space, the window of its
destination or the end of a hold (R392, R393, R396). It continues in its ring where it leaves opposite to where it came. -/
def State.inject (s : State) (p route : Nat) (rev : Bool) (m : Msg) (src : Nat := 8) : State :=
  let m := { m with route := route }
  let s := if rev then s.count (fabCtr 6) else s
  let windowed := s.windowed m
  let full := windowed && decide ((s.e2e m.dstNode).w ≤ (s.e2e m.dstNode).out)
  let held := windowed && s.on Csr.FABSTAT_held
  let goesOn := src != p && src / 2 == p / 2 && !rev
  if full || held || (s.ringPort p && !s.ringRoom p (vcOf m.code) goesOn m) then
    { s with fab := { s.fab with waitq := s.fab.waitq ++ [(src, m)] } }
  else
    let s := s.enqueue p m
    if windowed then s.setE2e m.dstNode (fun e => { e with out := e.out + 1 }) else s

/-- R386: a message with no usable output; NOPATHCNT counts it. -/
def State.noPath (s : State) : State := s.countFab 5 Ev.FAB_NO_PATH

/-- Sends a message that this node originates: 0 sent or waiting, otherwise as State.nodePath says. -/
def State.send (s : State) (m : Msg) : Nat × State :=
  if s.unnamed m.dstNode then (3, s)
  else match s.hop m with
  | .here => (1, s)
  | .port p r rev => (0, s.inject p r rev m)
  | .lost => (1, s)
  | .down => (2, s)

/-- R384: the life with which the device's messages begin. -/
def State.lifeInit (s : State) : Nat := s.rd Csr.FABCTL_life_init

/-- R380: a response of this node to request `m`. -/
def State.respond (s : State) (m : Msg) (code status : Nat) : Msg :=
  { code := code, dstPartner := m.srcPartner, dstPort := m.srcPort, dstNode := m.srcNode, srcNode := s.nodeId,
    life := s.lifeInit, tag := m.tag, tagEpoch := m.tagEpoch, pan := m.pan, status := status, mark := m.mark,
    mirrored := s.on (Csr.PANCTL_mirrored m.pan), q2 := s.rd Csr.CLAIMCUR_claim }

/-- Sends a response or notice; one that finds no path is lost (Table 13-4, note). -/
def State.reply (s : State) (m : Msg) : State :=
  match s.send m with
  | (0, s) => s
  | (_, s) => s.noPath

/-- R399, R400: the response to a MIRROR_WR leaves by the twin link. -/
def State.mirrorReply (s : State) (m : Msg) : State :=
  match (s.pairOf (s.rd Csr.TWINCTL_port)).find? s.linkUp with
  | some p => s.inject p 0 false m
  | none => s.noPath

/-- Sends the response `r` to request `m`. -/
def State.replyTo (s : State) (m r : Msg) : State := if m.code = 0x10 then s.mirrorReply r else s.reply r

/-- R391, `answer`: a request that cannot go on is answered, any other message is discarded. -/
def State.answer (s : State) (m : Msg) (status : Nat) : State :=
  if m.isReq then s.replyTo m (s.respond m 0x30 status) else s

/-- R381: the next tag of the device; the tag epoch advances when the counter wraps. -/
def State.nextTag (s : State) : Nat × Nat × State :=
  let t := s.fab.tag
  let e := s.fab.epoch
  let t' := (t + 1) % 65536
  (t, e, { s with fab := { s.fab with tag := t', epoch := if t' = 0 then (e + 1) % 65536 else e } })

/-- R381: sends one of the device's own requests and keeps it as outstanding; 0 sent, otherwise as State.nodePath says. -/
def State.request (s : State) (m : Msg) (use : ReqFor) : Nat × State :=
  let (t, e, s1) := s.nextTag
  match s1.send { m with tag := t, tagEpoch := e, srcNode := s.nodeId, life := s.lifeInit } with
  | (0, s2) => (0, { s2 with fab := { s2.fab with reqs := s2.fab.reqs ++ [⟨t, e, m.dstNode, m.dstPort, use, { m with tag := t, tagEpoch := e, srcNode := s.nodeId, life := s.lifeInit }, 0, false⟩] } })
  | (r, _) => (r, s)

/-- One of the device's own requests. -/
def State.ownReq (s : State) (m : Msg) : Bool := m.isReq && !m.srcPartner && m.srcNode == s.nodeId

/-- R386: a message that cannot go on is answered, or, when it is the device's own request, ends with a status. -/
def State.undeliverable (s : State) (m : Msg) (status : Nat) : State :=
  if s.ownReq m then { s with fab := { s.fab with failed := s.fab.failed ++ [(m.tag, m.tagEpoch, status)] } }
  else s.answer m status

/-- R369, R386: a message with no usable output: the source itself ends its request, any other is answered and counted. -/
def State.noRoute (s : State) (m : Msg) : State := (if s.ownReq m then s else s.noPath).undeliverable m Sts.linkLost

/-- A message that came by port `src` goes where its route leads, or ends (R391, Table 13-4). -/
def State.onward (s : State) (src : Nat) (m : Msg) : State :=
  match s.hop m with
  | .port p r rev => s.inject p r rev m src
  | .here => s
  | .lost => s.noRoute m
  | .down => s.undeliverable m Sts.nodeDown

/-- Sends again what waits, in order, as far as queues, windows and holds let it (R392, R393, R396). -/
def State.retryWaiting (s : State) : State :=
  s.fab.waitq.foldl (fun s x => s.onward x.1 x.2) { s with fab := { s.fab with waitq := [] } }

/-- R393: a request that ends on its way, after its injection, leaves the window of its destination. -/
def State.leaveWindow (s : State) (m : Msg) : State :=
  if s.windowed m then s.setE2e m.dstNode (fun e => { e with out := e.out - 1 }) else s

/-- R401, R380: a notice of Table 13-2 to a partner; false when no path to it remains. -/
def State.notice (s : State) (code node port qid q2 q3 pan : Nat) (data : List Nat) : Bool × State :=
  match s.send { code := code, dstPartner := true, dstPort := port, dstNode := node, srcNode := s.nodeId,
                 life := s.lifeInit, pan := pan, q2 := qid * 2 ^ 32 + q2, q3 := q3, data := data } with
  | (0, s) => (true, s)
  | (_, s) => (false, s)

end Sys2Proof.Machine
end

