-- ==== Sys2Proof/Machine/Xlat.lean ====
section
/-!
DEFINITION. Address translation (chapter 07): page tables in memory, the walk and its caches, the resolution of windows
into runs, changes of leaves with their shootdown, and the fault queues.
-/
namespace Sys2Proof.Machine

/-- Translation counter `i` of Table 07-12: 0 XLHITCNT, 1 XLMISSCNT, 2 XLWALKCNT, 3 XLSHOOTCNT, 4 XLINVALCNT,
5 XLSTALECNT. -/
def xlCtr (i : Nat) : Ctr := ⟨⟨0x2010 + 8 * i, 0, 48, 0, false⟩, Csr.XLSTAT_cnt_ovf, i, Ev.XLATE_COUNT_OVF, 0, 0⟩

/-! ### Page-table entries (R205, R206) -/

/-- Bytes that one entry of a level-`k` table covers (Table 07-1). -/
def span (k : Nat) : Nat := 2 ^ (12 + 9 * k)

/-- Index of `va` in a level-`k` table (Table 07-1). -/
def pteIndex (va k : Nat) : Nat := bitsOf va (12 + 9 * k) (if k = 4 then 8 else 9)

/-- A table pointer (Table 07-2). -/
def ptePointer (table : Nat) : Nat := 1 + table

/-- A leaf (Table 07-2): `addr` is a global pool address. -/
def pteLeaf (addr : Nat) (rd wr pinned : Bool) (tier : Nat) : Nat :=
  3 + (if rd then 4 else 0) + (if wr then 8 else 0) + (if pinned then 16 else 0)
    + tier % 4 * 64 + addr / 4096 * 4096

/-- An empty entry that says why (Table 07-2, tomb). -/
def pteEmpty (tomb : Nat) : Nat := tomb * 256

/-- Fields of an entry. -/
def pteValid (e : Nat) : Bool := bitOf e 0
def pteIsLeaf (e : Nat) : Bool := bitOf e 1
def pteAddr (e : Nat) : Nat := bitsOf e 12 40 * 4096
def pteNode (e : Nat) : Nat := bitsOf e 52 12
def pteTomb (e : Nat) : Nat := bitsOf e 8 4

/-- Reads `n` entries of a table from index `i` on: each entry and whether it came with poison. -/
def State.ptes (s : State) (table i n : Nat) : List (Nat × Bool) × State :=
  let (bs, s) := s.readMem Acc.sys (table + 8 * i) (8 * n)
  ((List.range n).map (fun j => valueOf ((bs.drop (8 * j)).take 8)), s)

/-- The entry at index `i` of a table as memory holds it. -/
def State.pte (s : State) (table i : Nat) : Nat := s.word (table + 8 * i) 8

/-- The device writes an entry (R207). -/
def State.setPte (s : State) (table i v : Nat) : State := s.putWord (table + 8 * i) 8 v

/-- Root table of a pan (R205). -/
def State.ptRoot (s : State) (n : Nat) : Nat := s.rd (Csr.PANPTROOT_root n) * 4096

/-! ### The walk (R209, R210) -/

/-- How many of the indices `i + 1`, `i + 2`, … below 64 satisfy `p` without a break. -/
def runUp (p : Nat → Bool) : Nat → Nat → Nat
  | 0, _ => 0
  | fuel + 1, i => if i + 1 < 64 && p (i + 1) then 1 + runUp p fuel (i + 1) else 0

/-- How many of the indices `i - 1`, `i - 2`, … satisfy `p` without a break. -/
def runDown (p : Nat → Bool) : Nat → Nat
  | 0 => 0
  | i + 1 => if p i then 1 + runDown p i else 0

/-- R209: what the 64 entries `c` of the block that holds index `j`, at level `k`, say of the page `va`; the run built
is the largest that holds it. -/
def blockOut (c : List (Nat × Bool)) (merge : Bool) (k va j : Nat) : PageOut :=
  let e := c.getD j (0, false)
  let lo := va / span k * span k
  let sz := span k
  if e.2 then .poison k lo (lo + sz)
  else if pteValid e.1 then
    let at_ (i : Nat) : Nat := e.1 + i * sz - j * sz
    let same (i : Nat) : Bool := let x := c.getD i (0, true); !x.2 && x.1 == at_ i && decide (j * sz ≤ e.1 + i * sz)
    let dn := if merge then runDown same j else 0
    let up := if merge then runUp same 64 j else 0
    .leaf k (lo - dn * sz) (lo + (up + 1) * sz) (pteNode e.1 * 2 ^ 52 + pteAddr e.1 - dn * sz)
      (bitOf e.1 2) (bitOf e.1 3) (bitOf e.1 4) (bitsOf e.1 6 2)
  else
    let same (i : Nat) : Bool := let x := c.getD i (0, true); !x.2 && !pteValid x.1 && pteTomb x.1 == pteTomb e.1
    if k = 0 then .empty 0 (lo - runDown same j * sz) (lo + (runUp same 64 j + 1) * sz) (pteTomb e.1)
    else .empty k lo (lo + sz) (pteTomb e.1)

/-- An entry enters a cache of sets of 16 ways: it replaces those that `same` names, and in a full set, whose entries `mine` names, the
one that entered first (log entry 82). -/
def intoSet {α : Type} (same mine : α → Bool) (x : α) (l : List α) : List α :=
  let l := l.filter (fun y => !same y)
  match l.filter mine with
  | [] => l ++ [x]
  | _ :: t => if t.length + 1 < 16 then l ++ [x] else l.takeWhile (fun z => !mine z) ++ (l.dropWhile (fun z => !mine z)).drop 1 ++ [x]

/-- The set of the walk cache's 1,024 that an entry belongs to (Table 07-3; log entry 82). -/
def WalkEnt.set (w : WalkEnt) : Nat := (w.pfx + w.level * 256 + w.pan) % 1024

/-- R210: a table pointer enters the walk cache. -/
def State.cacheWalk (s : State) (w : WalkEnt) : State :=
  { s with walkCache := intoSet (fun x => x.pan == w.pan && x.level == w.level && x.pfx == w.pfx) (fun x => x.set == w.set) w s.walkCache }

/-- R210: the walk of `va` from a level-`k` table down. -/
def State.walkAt (pan va : Nat) : Nat → Nat → State → PageOut × State
  | k, table, s =>
    let i := pteIndex va k
    let s := s.count (xlCtr 2)
    let (c, s) := if k ≤ 2 then s.ptes table (i / 64 * 64) 64 else s.ptes table i 1
    let j := if k ≤ 2 then i % 64 else 0
    let e := c.getD j (0, false)
    let lo := va / span k * span k
    if e.2 then (.poison k lo (lo + span k), s.raise Ev.PT_POISON 5 pan)
    else if pteValid e.1 && !pteIsLeaf e.1 then
      match k with
      | 0 => (.empty 0 lo (lo + span 0) 0, s)
      | k' + 1 =>
        State.walkAt pan va k' (pteAddr e.1) (s.cacheWalk ⟨pan, k' + 1, va / span (k' + 1), pteAddr e.1⟩)
    else if k ≤ 2 then (blockOut c (s.on Csr.XLCTL_merge_en) k va j, s)
    else (.empty k lo (lo + span k) (pteTomb e.1), s)

/-- R210: a walk starts at the table of the deepest pointer that hits in the walk cache, else at the root. -/
def State.walk (s : State) (pan va : Nat) : PageOut × State :=
  match [1, 2, 3, 4].findSome? (fun k =>
      (s.walkCache.find? (fun w => w.pan == pan && w.level == k && w.pfx == va / span k)).map (fun w => (k - 1, w.table))) with
  | some (k, t) => State.walkAt pan va k t s
  | none => State.walkAt pan va 4 (s.ptRoot pan) s

/-- The run-cache entry that covers `va` (R209). -/
def State.cached (s : State) (pan va : Nat) : Option RunEnt :=
  s.runCache.find? (fun e => e.pan == pan && decide (e.va ≤ va) && decide (va < e.va + e.n * span e.size))

/-- A run-cache entry as the outcome of its pages. -/
def RunEnt.out (e : RunEnt) : PageOut := .leaf e.size e.va (e.va + e.n * span e.size) e.addr e.rd e.wr e.pinned e.tier

/-- The block of 64 pages that a run-cache entry lies in, with its tag (Table 07-3). -/
def RunEnt.block (e : RunEnt) : Nat × Nat × Nat := (e.pan, e.size, e.va / (64 * span e.size))

/-- The set of the run cache's 14,336 that an entry belongs to (Table 07-3; log entry 82). -/
def RunEnt.set (e : RunEnt) : Nat := (e.va / (64 * span e.size) + e.size * 4096 + e.pan * 64) % 14336

/-- R209: a leaf run enters the run cache, in the place of what it covers of its block. -/
def State.cacheRun (s : State) (pan : Nat) (o : PageOut) : State :=
  match o with
  | .leaf k lo hi a r w p t =>
    let e : RunEnt := ⟨pan, k, lo, (hi - lo) / span k, a, r, w, p, t⟩
    { s with runCache := intoSet (fun x => x.block == e.block && decide (lo ≤ x.va) && decide (x.va + x.n * span x.size ≤ hi))
                                 (fun x => x.set == e.set) e s.runCache }
  | .empty _ _ _ _ => s
  | .poison _ _ _ => s

/-- First and last byte (exclusive) that an outcome covers. -/
def PageOut.lo : PageOut → Nat
  | .leaf _ l _ _ _ _ _ _ => l
  | .empty _ l _ _ => l
  | .poison _ l _ => l

def PageOut.hi : PageOut → Nat
  | .leaf _ _ h _ _ _ _ _ => h
  | .empty _ _ h _ => h
  | .poison _ _ h => h

/-! ### Resolution (R211, R212) -/

/-- A fault of resolution before its episode is known. -/
structure RFault where
  place : Nat
  reason : Nat
  win : Nat
  wr : Bool
  npages : Nat
  size : Nat
  pva : Nat
deriving DecidableEq, Repr

/-- What resolution has gathered: runs (last first), window offset, faults (last first), PVAs that need a walk, a status
that ends the entry, and run-cache hits. -/
structure RAcc where
  runs : List Run
  off : Nat
  faults : List RFault
  need : List Nat
  fin : Option Nat
  hits : Nat
  /-- Bytes of a block list on another node are still to come. -/
  short : Bool
deriving DecidableEq, Repr

/-- Resolution that has found nothing yet. -/
def RAcc.start : RAcc := ⟨[], 0, [], [], none, 0, false⟩

/-- What a range asks of its pages: which part of the entry it is (where of Table 07-7), its window, and rights. -/
structure RAsk where
  place : Nat
  win : Nat
  rd : Bool
  wr : Bool
  zf : Bool

/-- A stretch joins the one before it when its bytes are contiguous on one node and in PVA. -/
def RAcc.addRun (r : RAcc) (len addr va : Nat) (zero : Bool) : RAcc :=
  match r.runs with
  | x :: t =>
    if x.va + x.len = va && (if zero then x.zero else !x.zero && x.addr + x.len == addr && x.addr / 2 ^ 52 == addr / 2 ^ 52)
    then { r with runs := { x with len := x.len + len } :: t, off := r.off + len }
    else { r with runs := ⟨r.off, len, addr, va, zero⟩ :: x :: t, off := r.off + len }
  | [] => { r with runs := [⟨r.off, len, addr, va, zero⟩], off := r.off + len }

/-- R62, R211: how many runs the shadow stores: maximal stretches, in window order, contiguous on one node. -/
def runCount : List Run → Nat
  | [] => 0
  | [_] => 1
  | x :: y :: t =>
    (if (x.zero && y.zero) || (!x.zero && !y.zero && x.addr + x.len == y.addr && x.addr / 2 ^ 52 == y.addr / 2 ^ 52) then 0 else 1)
      + runCount (y :: t)

/-- R212: the fault of an empty entry above level 0, which has a record of its own. -/
def RAcc.ownFault (r : RAcc) (len : Nat) (f : RFault) : RAcc := { r with faults := f :: r.faults, off := r.off + len }

/-- R212: a fault joins the record before it when reason and unit agree and its pages follow on. -/
def RAcc.addFault (r : RAcc) (len : Nat) (f : RFault) : RAcc :=
  match r.faults with
  | x :: t =>
    if x.reason = f.reason && x.place == f.place && x.win == f.win && x.size == f.size
        && x.pva + x.npages * span x.size == f.pva && decide (x.npages + f.npages ≤ 65535)
    then { r with faults := { x with npages := x.npages + f.npages } :: t, off := r.off + len }
    else r.ownFault len f
  | [] => r.ownFault len f

/-- The unit in which an entry at level `k` is reported: 2 MiB for level 1, 1 GiB above, 4 KiB at level 0 (R212). -/
def unitOf (k : Nat) : Nat := min k 2

/-- A fault record for the part `[a, b)` of a range. -/
def faultAt (q : RAsk) (reason unit a b : Nat) : RFault :=
  let p := a / span unit * span unit
  ⟨q.place, reason, q.win, q.wr, ceilDiv (b - p) (span unit), unit, p⟩

/-- Table 07-4: one outcome, for the part `[a, b)` of a range of pan `n`. -/
def State.resolvePart (s : State) (n : Nat) (q : RAsk) (a b : Nat) (r : RAcc) : PageOut → RAcc
  | .leaf k lo _ addr rd wr _ _ =>
    let g := addr + (a - lo)
    let node := g / 2 ^ 52
    let l := g % 2 ^ 52
    if (q.rd && !rd) || (q.wr && !wr) then r.addFault (b - a) (faultAt q 2 k a b)
    else if node ≠ s.nodeId then
      match s.nodePath node with
      | 0 => r.addRun (b - a) g a false
      | x => { r with fin := some (Sts.ofPath x) }
    else if !s.ownsRange n l (b - a) then { r with fin := some Sts.permission }
    else match s.region l with
      | .lent k =>
        match s.lentPath k with
        | 0 => r.addRun (b - a) g a false
        | x => { r with fin := some (Sts.ofPath x) }
      | _ => r.addRun (b - a) g a false
  | .empty k _ _ tomb =>
    if q.zf then r.addRun (b - a) 0 a true
    else
      let f := faultAt q (if tomb = 1 then 3 else if tomb = 2 then 4 else 1) (unitOf k) a b
      if k = 0 then r.addFault (b - a) f else r.ownFault (b - a) f
  | .poison k _ _ => r.addFault (b - a) (faultAt q 7 (unitOf k) a b)

/-- What is known of the page at `va` without a walk: from a finished walk of the entry, or from the run cache, which is a hit. -/
def State.known (s : State) (key n va : Nat) : Option (PageOut × Bool) :=
  match s.walks.findSome? (fun w =>
      if w.key = key ∧ w.pan = n then w.found.bind (fun o => if o.lo ≤ va ∧ va < o.hi then some o else none) else none) with
  | some o => some (o, false)
  | none => (s.cached n va).map (fun e => (e.out, true))

/-- The end of the block of 64 pages that one run-cache entry for `va` can cover (R209); an unmapped page counts as 4 KiB. -/
def State.blockEnd (s : State) (n va : Nat) : Nat :=
  let b := 64 * span (match (s.walk n va).1 with
    | .leaf k _ _ _ _ _ _ _ => k
    | .empty _ _ _ _ => 0
    | .poison _ _ _ => 0)
  va / b * b + b

/-- R211, R212: resolves the bytes `[a, b)` of pan `n` for the entry `key`, in ascending order; each step takes the part that
one outcome covers, so `fuel` pages suffice. Pages that need a walk are noted and passed over, and nothing is concluded of the pages after
them until they are known. -/
def State.resolveRange (s : State) (key n : Nat) (q : RAsk) : Nat → Nat → Nat → RAcc → RAcc
  | 0, _, _, r => r
  | fuel + 1, a, b, r =>
    if b ≤ a ∨ r.fin.isSome ∨ 16 ≤ r.faults.length then r
    else match s.known key n a with
      | some (o, hit) =>
        let e := min b o.hi
        let r := if hit then { r with hits := r.hits + 1 } else r
        s.resolveRange key n q fuel e b (if r.need = [] then s.resolvePart n q a e r o else { r with off := r.off + (e - a) })
      | none =>
        let e := min b (s.blockEnd n a)
        s.resolveRange key n q fuel e b { r with need := r.need ++ [a], off := r.off + (e - a) }

/-- Pages that a range touches, and one more. -/
def pagesIn (a b : Nat) : Nat := (b - a) / 4096 + 3

/-- Granules of this node that runs name (R213). -/
def State.runGrans (s : State) (rs : List Run) : List Nat :=
  rs.flatMap (fun r =>
    if r.zero ∨ r.addr / 2 ^ 52 ≠ s.nodeId then []
    else
      let l := r.addr % 2 ^ 52
      rangeFrom (l / granSize) ((l + r.len - 1) / granSize - l / granSize + 1))

/-- R213, R216: the remap stamp of a granule is at or after `r0`, compared under R7; a granule never remapped has none. -/
def State.restamped (s : State) (r0 g : Nat) : Bool := (s.gran g).remap != 0 && !isNewer r0 ((s.gran g).remap - 1) 64

/-- R213, R216: some granule's remap stamp is at or after `r0`. -/
def State.remapped (s : State) (r0 : Nat) (gs : List Nat) : Bool := gs.any (s.restamped r0)

/-! ### Fault batches (R217 to R222) -/

/-- FAULTCNT of a pan. -/
def faultCtr (n : Nat) : Ctr := ⟨Csr.FAULTCNT_count n, Csr.FQSTAT_fault_ovf n, 0, Ev.XLATE_COUNT_OVF, 5, n⟩

/-- FQSTAT.pending follows the batches. -/
def State.fqPending (s : State) (n : Nat) : State :=
  s.wr (Csr.FQSTAT_pending n) (((s.pan n).batches.map (fun b => b.recs.length)).sum)

/-- R218: the open batch of a pan closes with cause 0 COUNT or 1 TIME. -/
def closeLast (cause : Nat) (bs : List Batch) : List Batch :=
  match bs.getLast? with
  | some b => if b.close.isNone then bs.dropLast ++ [{ b with close := some cause }] else bs
  | none => bs

/-- 20 µs have passed at `now` since the first record of the last batch (R218). -/
def batchLate (now : Nat) (bs : List Batch) : Bool :=
  match (bs.getLast?).bind (fun b => b.recs.head?) with
  | some r => decide (20000 ≤ subMod now r.stamp 64)
  | none => false

/-- R218: the records of one entry, stamped `now`, join the open batch, or open the next: when they would take it past 256, or when its
20 µs have passed. -/
def joinBatch (now : Nat) (bs : List Batch) (rs : List FaultRec) : List Batch :=
  let bs : List Batch := match bs.getLast? with
    | some b =>
      if b.close.isSome then bs ++ [⟨rs, none⟩]
      else if batchLate now bs then closeLast 1 bs ++ [⟨rs, none⟩]
      else if 256 < b.recs.length + rs.length then closeLast 0 bs ++ [⟨rs, none⟩]
      else bs.dropLast ++ [⟨b.recs ++ rs, none⟩]
    | none => [⟨rs, none⟩]
  match bs.getLast? with
  | some b => if 256 ≤ b.recs.length then closeLast 0 bs else bs
  | none => bs

/-- R218: the records of one entry are produced. -/
def State.addFaults (s : State) (n : Nat) (rs : List FaultRec) : State :=
  if rs = [] then s
  else
    let s := (s.setPan n (fun p => { p with batches := joinBatch s.stamp p.batches rs })).fqPending n
    let z := s.rd (faultCtr n).cnt == 0
    let s := s.count (faultCtr n) rs.length
    if z && s.rd (faultCtr n).cnt != 0 then s.raise Ev.PAN_FIRST_FAULT 5 n else s

/-- R221: the next fault episode of a pan. -/
def State.nextGen (s : State) (n : Nat) : Nat × State :=
  let g := ((s.pan n).gen + 1) % 65536
  (g, s.setPan n (fun p => { p with gen := g }))

/-- Whole entries' records at the front of `rs`, as many as `room` records hold (R219). -/
def wholeEntries : Nat → List FaultRec → List FaultRec → Nat → List FaultRec
  | 0, _, _, _ => []
  | _ + 1, _, [], _ => []
  | fuel + 1, acc, r :: t, room =>
    if r.last then
      (if acc.length + 1 ≤ room then acc ++ [r] ++ wholeEntries fuel [] t (room - acc.length - 1) else [])
    else wholeEntries fuel (acc ++ [r]) t room

/-- Records, cut after each entry's last one. -/
def entryGroups : List FaultRec → List FaultRec → List (List FaultRec)
  | acc, [] => if acc = [] then [] else [acc]
  | acc, r :: t => if r.last then (acc ++ [r]) :: entryGroups [] t else entryGroups (acc ++ [r]) t

/-- R219: records that did not fit open the next batch: the batches of what is pending at `now`, in the order it was produced. -/
def reBatch (now : Nat) (rs : List FaultRec) : List Batch :=
  let bs := (entryGroups [] rs).foldl (fun bs g => joinBatch ((g.head?.map (·.stamp)).getD 0) bs g) []
  if batchLate now bs then closeLast 1 bs else bs

/-- R56, R217: the lap bit of position `n` of a ring of `2 ^ k` slots. -/
def lapBit (n k : Nat) : Nat := 1 - n / 2 ^ k % 2

/-- The four qwords of a fault record (Table 07-7). -/
def FaultRec.qwords (f : FaultRec) (phase : Nat) : List Nat :=
  [1 + (if f.last then 4 else 0) + (if f.parked then 8 else 0) + f.place * 16 + phase * 128 + f.reason * 256
    + f.win * 4096 + (if f.wr then 32768 else 0) + f.gen % 65536 * 65536 + f.qid * 2 ^ 32,
   f.index + f.npages * 65536 + f.size * 2 ^ 32, f.pva, f.stamp]

/-- A record of four qwords is written at position `pos` of a pan's fault ring. -/
def State.putFault (s : State) (n pos : Nat) (qs : List Nat) : State :=
  s.devWrite (s.rd (Csr.FQBASE_base n) * 4096 + 32 * (pos % 4096)) (plain (qs.flatMap (leBytes 8)))

/-- R219, R220: the oldest closed batch of a pan is posted, as many whole entries of it as the ring has room for; with no
room for its first, FQ_FULL is raised once. The notice of R218 follows. -/
def State.postBatch (s : State) (n : Nat) : State :=
  match (s.pan n).batches with
  | [] => s
  | b :: t =>
    match b.close with
    | none => s
    | some cause =>
      let prod := s.rd (Csr.FQPOS_producer n)
      let free := 4096 - subMod prod (s.rd (Csr.FQPOS_consumer n)) 32
      let rs := wholeEntries (b.recs.length + 1) [] b.recs (free - 1)
      if rs = [] then
        let s := s.wr (Csr.FQSTAT_full n) 1
        if (s.pan n).fqFull then s
        else (s.setPan n (fun p => { p with fqFull := true })).raise Ev.FQ_FULL 5 n
      else
        let rest := b.recs.drop rs.length
        let t := if rest = [] then t else reBatch s.stamp (rest ++ t.flatMap (·.recs))
        let s := s.setPan n (fun p => { p with batches := t, fqFull := false })
        let s := (s.fqPending n).wr (Csr.FQSTAT_full n) 0
        let seq := (s.pan n).batchSeq
        let head := [lapBit prod 12 * 128 + cause * 256 + rs.length * 65536 + seq % 2 ^ 32 * 2 ^ 32,
                     (b.recs.headD ⟨false, false, 0, 0, 0, false, 0, 0, 0, 0, 0, 0, 0⟩).stamp, s.stamp,
                     s.rd (Csr.FQSTAT_pending n)]
        let s := s.putFault n prod head
        let s := (rs.zipIdx).foldl (fun s (r, i) => s.putFault n (prod + 1 + i) (r.qwords (lapBit (prod + 1 + i) 12))) s
        let s := s.wr (Csr.FQPOS_producer n) (prod + 1 + rs.length)
        let s := s.setPan n (fun p => { p with batchSeq := (seq + 1) % 2 ^ 32 })
        if s.on (Csr.FQNOTE_notify_en n) then
          (s.notice 0x22 (s.rd (Csr.FQNOTE_notify_node n)) (s.rd (Csr.FQNOTE_notify_port n))
            (s.rd (Csr.FQPOS_producer n)) 0 seq n []).2
        else s

/-! ### Walk slots (R210) -/

/-- R210: a walk that waits may start: one of the 256 slots is free, its entry holds fewer than 16, and its pan fewer than
pan_walks. -/
def State.mayWalk (s : State) (w : Walk) : Bool :=
  let open_ := s.walks.filter (fun x => x.found.isNone && !x.waits)
  w.waits && decide (open_.length < 256) && decide ((open_.filter (fun x => x.key == w.key)).length < 16)
    && decide ((open_.filter (fun x => x.pan == w.pan)).length < s.rd Csr.XLCTL_pan_walks)

/-- R210: waiting walks are granted free slots, in arrival order within each pan and in rotation between pans. -/
def State.grantSome : Nat → State → State
  | 0, s => s
  | fuel + 1, s =>
    let may := s.walks.filter s.mayWalk
    match (List.range 64).findSome? (fun i => may.find? (fun w => w.pan == (s.walkTurn + 1 + i) % 64)) with
    | none => s
    | some w =>
      State.grantSome fuel { s with walks := s.walks.map (fun (x : Walk) => if x = w then { x with waits := false } else x), walkTurn := w.pan }

/-- R210: waiting walks take the slots that are free. -/
def State.grantWalks (s : State) : State := State.grantSome (s.walks.filter (·.waits)).length s

/-! ### Changing translations (R207, R215) -/

/-- R215 step 2: every run-cache entry of the pan that covers a byte of `[lo, hi)` is invalidated, and every finished
walk of an entry that did. -/
def State.shootRuns (s : State) (n lo hi : Nat) : State :=
  { s with runCache := s.runCache.filter (fun e => e.pan != n || decide (e.va + e.n * span e.size ≤ lo) || decide (hi ≤ e.va)),
           walks := s.walks.filter (fun w => w.pan != n || (match w.found with
             | some o => decide (o.hi ≤ lo) || decide (hi ≤ o.lo)
             | none => true)) }

/-- R215 step 3: the remap stamp of granules of this node is set to the current stamp (kept as stamp + 1, 0 for never). -/
def State.setRemap (s : State) (gs : List Nat) : State :=
  gs.foldl (fun s g => s.setGran g (fun x => { x with remap := s.stamp + 1 })) s

/-- Granules of a page of size code `k` at node-local address `l`. -/
def pageGrans (k l : Nat) : List Nat := if k = 2 then rangeFrom (l / granSize) 512 else [l / granSize]

/-- The table that holds the level-`k` entry of `va`, and its index, as the tables stand; none where no table is. -/
def State.tableFor (s : State) (n va k : Nat) : Nat → Nat → Option (Nat × Nat)
  | 0, t => if k = 0 then some (t, pteIndex va 0) else none
  | l + 1, t =>
    if k = l + 1 then some (t, pteIndex va (l + 1))
    else
      let e := s.pte t (pteIndex va (l + 1))
      if pteValid e && !pteIsLeaf e then s.tableFor n va k l (pteAddr e) else none

/-- The leaf that maps `va`: its level, table, index and entry (R206). -/
def State.leafAt (s : State) (n va : Nat) : Option (Nat × Nat × Nat × Nat) :=
  [2, 1, 0].findSome? (fun k =>
    (s.tableFor n va k 4 (s.ptRoot n)).bind (fun (t, i) =>
      let e := s.pte t i
      if pteValid e && pteIsLeaf e then some (k, t, i, e) else none))

/-- The table for a level-`k` entry of `va`, making tables in structure pages as needed: none is QUOTA. -/
def State.makeTable (n va k : Nat) : Nat → Nat → State → Option (Nat × State)
  | 0, t, s => some (t, s)
  | l + 1, t, s =>
    if k = l + 1 then some (t, s)
    else
      let i := pteIndex va (l + 1)
      let e := s.pte t i
      if pteValid e then State.makeTable n va k l (pteAddr e) s
      else match s.takePage n with
        | none => none
        | some (a, s) =>
          let s := (s.writeMem Acc.sys a (plain (List.replicate 4096 0))).2
          State.makeTable n va k l a (s.setPte t i (ptePointer a))

/-- R215: a leaf of pan `n` is written at `va`, its runs shot down and its granules restamped. -/
def State.writeLeaf (s : State) (n va k table e : Nat) : State :=
  let i := pteIndex va k
  let old := s.pte table i
  let s := s.setPte table i e
  let lo := va / span k * span k
  let s := s.shootRuns n lo (lo + span k)
  let grans (x : Nat) : List Nat :=
    if pteValid x && pteNode x == s.nodeId then pageGrans k (pteAddr x) else []
  let s := s.setRemap (grans old ++ grans e)
  let s := if pteValid old then (grans old).foldl (fun s g => s.setGran g (fun y => { y with leaves := y.leaves - 1 })) s else s
  let s := if pteValid e then (grans e).foldl (fun s g => s.setGran g (fun y => { y with leaves := y.leaves + 1 })) s else s
  if pteValid old then s.count (xlCtr 3) else s

/-- R136: why a MAP of `va` at level `k` is refused: a valid leaf, a table pointer in its slot, or a larger leaf. -/
def State.mapClash (s : State) (n va k : Nat) : Bool :=
  (s.leafAt n va).isSome ||
  (match s.tableFor n va k 4 (s.ptRoot n) with
   | some (t, i) => pteValid (s.pte t i)
   | none => false)

/-- XLCTL.flush: all three caches are invalidated; admissions in progress resolve again (Table 07-12). -/
def State.flushXlat (s : State) : State :=
  { s with runCache := [], walkCache := [], walks := s.walks.filter (fun w => w.found.isNone) }

end Sys2Proof.Machine
end

