-- ==== Sys2Proof/Machine/Queues.lean ====
section
/-!
DEFINITION. Queues (chapter 06) and entries (chapter 03): contexts, eligibility and pick, admission, records, the end,
stop, park and resumption of entries, and the queue commands.
-/
namespace Sys2Proof.Machine

/-- A queue context. -/
def State.queue (s : State) (q : Nat) : Queue := SMap.get Queue.blank q s.queues

/-- Changes a queue context. -/
def State.setQueue (s : State) (q : Nat) (f : Queue → Queue) : State :=
  { s with queues := SMap.upd Queue.blank q f s.queues }

/-- A rake beside RAKESTAT. -/
def State.rake (s : State) (r : Nat) : Rake := SMap.get Rake.idle r s.rakes

/-- Changes a rake. -/
def State.setRake (s : State) (r : Nat) (f : Rake → Rake) : State := { s with rakes := SMap.upd Rake.idle r f s.rakes }

/-- R414: the queue is one of the Ringmaster's own. -/
def isRm (q : Nat) : Bool := decide (0x7FF00 ≤ q)

/-- R414: the instance a Ringmaster queue belongs to (`true` B). -/
def rmInst (q : Nat) : Bool := decide (0x7FF80 ≤ q)

/-- Queue depth. -/
def Queue.depth (q : Queue) : Nat := 2 ^ q.depthLog

/-- Counters of stall `k` (Tables 03-11 and 06-7). -/
def dbCtr (k : Nat) : Ctr := ⟨Csr.DBCNT_count k, Csr.SCHSTAT_db_ovf k, 0, Ev.SCHED_COUNT_OVF, 1, k⟩
def dbRefCtr (k : Nat) : Ctr := ⟨Csr.DBREFCNT_count k, Csr.SCHSTAT_dbref_ovf k, 0, Ev.SCHED_COUNT_OVF, 1, k⟩
def dispCtr (k : Nat) : Ctr := ⟨Csr.DISPCNT_count k, Csr.SCHSTAT_disp_ovf k, 0, Ev.SCHED_COUNT_OVF, 1, k⟩
def tbWaitCtr (k : Nat) : Ctr := ⟨Csr.TBWAITCNT_count k, Csr.SCHSTAT_tbwait_ovf k, 0, Ev.SCHED_COUNT_OVF, 1, k⟩
def icHitCtr (k : Nat) : Ctr := ⟨Csr.ICHITCNT_count k, Csr.PROGSTAT_ichit_ovf k, 0, Ev.PROG_COUNT_OVF, 1, k⟩
def icMissCtr (k : Nat) : Ctr := ⟨Csr.ICMISSCNT_count k, Csr.PROGSTAT_icmiss_ovf k, 0, Ev.PROG_COUNT_OVF, 1, k⟩
def parkCtr (k : Nat) : Ctr := ⟨Csr.PARKCNT_count k, Csr.PROGSTAT_park_ovf k, 0, Ev.PROG_COUNT_OVF, 1, k⟩
def abortCtr (k : Nat) : Ctr := ⟨Csr.ABORTCNT_count k, Csr.PROGSTAT_abort_ovf k, 0, Ev.PROG_COUNT_OVF, 1, k⟩

/-! ### Epoch-tagged work (R407) -/

/-! ### Entries of a queue -/

/-- The entry of a queue at a position. -/
def Queue.ent (q : Queue) (pos : Nat) : Option Entry := q.ents.find? (fun e => e.pos == pos)

/-- Changes the entry of queue `qid` at a position. -/
def State.setEnt (s : State) (qid pos : Nat) (f : Entry → Entry) : State :=
  s.setQueue qid (fun q => { q with ents := q.ents.map (fun e => if e.pos = pos then f e else e) })

/-- The entry runs on a rake. -/
def Entry.onRake (e : Entry) : Option Nat :=
  match e.st with
  | .running r => if e.done then none else some r
  | .held => none
  | .admitted => none
  | .parked => none
  | .resumed => none
  | .cut => none

/-- Entries of a queue that run. -/
def Queue.running (q : Queue) : Nat := (q.ents.filter (fun e => e.onRake.isSome)).length

/-- R80, R82: the FINAL or ACCEPTED record of an entry that ended is written. -/
def Entry.recorded (e : Entry) : Bool := e.done && !e.waitDur

/-- R63: the first admitted entry that may be dispatched: an ordered one waits until every earlier entry has written its
FINAL or ACCEPTED record. -/
def nextAdmitted : List Entry → Bool → Option Nat
  | [], _ => none
  | e :: t, clear =>
    if e.st = .admitted && !e.done && (!e.ordered || clear) then some e.pos else nextAdmitted t (clear && e.recorded)

/-- R186: the next entry of a queue: resumed entries first, in the order they were resumed. -/
def Queue.next (q : Queue) : Option Nat :=
  match q.resumeQ with
  | p :: _ => some p
  | [] => nextAdmitted q.ents true

/-- R186: the queue is eligible; Ringmaster queues have no pan and no park slots (R414, log entry 8). -/
def State.eligible (s : State) (qid : Nat) : Bool :=
  let q := s.queue qid
  q.st == .enabled && q.next.isSome && decide (q.running < q.conc)
    && (isRm qid || !q.resumeQ.isEmpty || (s.freeSlot q.pan).isSome)
    && (q.tbRate == 0 || decide (65536 ≤ q.tokens))

/-- R185: the stall that dispatches the queue's entries. -/
def Queue.dispStall (q : Queue) : Nat := q.moving.getD q.home

/-- The active list L of a stall (R187). -/
def State.actList (s : State) (k : Nat) : List Nat := SMap.get [] k s.lists

/-- Replaces the active list of a stall. -/
def State.setActList (s : State) (k : Nat) (l : List Nat) : State := { s with lists := SMap.put [] k l s.lists }

/-- R187: queues that have become eligible join the tail of their stall's L with fresh = 1; PARK_SLOTS_EXHAUSTED is raised
for a pan whose dispatch waits only for a park slot (R90). -/
def State.relist (s : State) : State :=
  (s.queues.map (·.1)).foldl (fun s q =>
    let x := s.queue q
    let k := x.dispStall
    if s.eligible q && !(s.actList k).contains q then
      (s.setActList k (s.actList k ++ [q])).setQueue q (fun x => { x with fresh := true })
    else if x.st == .enabled && x.next.isSome && x.resumeQ.isEmpty && !isRm q && (s.freeSlot x.pan).isNone
        && decide (x.running < x.conc) && !(s.pan x.pan).parkWait then
      (s.setPan x.pan (fun p => { p with parkWait := true })).raise Ev.PARK_SLOTS_EXHAUSTED 5 x.pan
    else s) s

/-- R187: saturation of a deficit to 40 bits. -/
def sat40 (x : Int) : Int := max (-(2 ^ 39)) (min x (2 ^ 39 - 1))

/-- R187, `pick`, on the active list of stall `k`: the queue whose entry takes the rake. -/
def State.pick (k : Nat) : Nat → State → Option Nat × State
  | 0, s => (none, s)
  | fuel + 1, s =>
    match s.actList k with
    | [] => (none, s)
    | q :: t =>
      let s := if (s.queue q).fresh then
          s.setQueue q (fun x => { x with deficit := sat40 (x.deficit + x.quantum), fresh := false })
        else s
      if !s.eligible q then
        let x := s.queue q
        let s := if x.tbRate != 0 && decide (x.tokens < 65536) then s.count (tbWaitCtr k) else s
        State.pick k fuel ((s.setQueue q (fun x => { x with deficit := min x.deficit 0, fresh := true })).setActList k t)
      else if (s.queue q).deficit ≤ 0 then
        State.pick k fuel ((s.setQueue q (fun x => { x with fresh := true })).setActList k (t ++ [q]))
      else
        let s := s.setQueue q (fun x => { x with tokens := if x.tbRate = 0 then x.tokens else x.tokens - 65536 })
        (some q, s)

/-! ### Records (R78 to R82) -/

/-- Frees the slot at a position (R82); head advances across freed slots (R179). -/
def Queue.freePos (q : Queue) (pos : Nat) : Queue :=
  let freed := pos :: q.freed
  let rec go : Nat → Nat → List Nat → Nat × List Nat
    | 0, h, f => (h, f)
    | fuel + 1, h, f => if f.contains h then go fuel ((h + 1) % 2 ^ 32) (f.filter (fun x => x != h)) else (h, f)
  let (h, f) := go (freed.length + 1) q.head freed
  { q with head := h, freed := f }

/-- R81: a completion notice of queue `qid`, homed at stall `home`, goes to a port; without a path it is dropped, and the drop counted in
State (no register holds the count). -/
def State.recordNotice (s : State) (qid home pan port : Nat) (bytes : List Nat) : State :=
  match s.notice 0x20 (port / 8) (port % 8) qid 0 0 pan bytes with
  | (true, s) => s
  | (false, s) => { s with fab := { s.fab with lostNotices := s.fab.lostNotices + 1 } }.raise Ev.NOTICE_DROPPED 1 home

/-- R81: the notices of records on line `d` that waited behind a snoop go, now that the records are written. -/
def State.lateNotices (s : State) (d : Nat) : State :=
  let mine (x : Nat × List Nat × List Nat) : Bool := x.1 / 128 == d
  let xs := s.fab.noteLate.filter mine
  xs.foldl (fun s x => s.recordNotice (x.2.1.getD 0 0) (x.2.1.getD 1 0) (x.2.1.getD 2 0) (x.2.1.getD 3 0) x.2.2)
    { s with fab := { s.fab with noteLate := s.fab.noteLate.filter (fun x => !mine x) } }

/-- R78: a completion record of an entry is written to the ring, and its notice sent after it when the entry asks one (R81).
`kind` is 0 FINAL, 1 ACCEPTED, 2 DURABLE. -/
def State.putRecord (s : State) (qid : Nat) (e : Entry) (kind status word result : Nat) : State :=
  let q := s.queue qid
  let bytes := leBytes 4 e.tag ++ leBytes 2 (e.pos % q.depth) ++ [status, kind + 128 * lapBit q.cqProd q.cqLog]
    ++ leBytes 4 word ++ [(e.notes ||| (if bitOf e.ctx.sp 0 then 1 else 0)) % 64, 0, 0, 0] ++ leBytes 8 s.stamp ++ leBytes 8 result
  let a := q.cqBase + 32 * (q.cqProd % 2 ^ q.cqLog)
  let s := s.devWrite a (plain bytes)
  let s := s.setQueue qid (fun q => { q with cqProd := (q.cqProd + 1) % 2 ^ 32, cqResv := q.cqResv - 1 })
  let s := s.setEnt qid e.pos (fun e => { e with reserved := e.reserved - 1 })
  if !e.notify then s
  else if s.coh.late.any (fun x => x.1 == a) then
    { s with fab := { s.fab with noteLate := s.fab.noteLate ++ [(a, [qid, q.home, q.pan, e.port], bytes)] } }
  else s.recordNotice qid q.home q.pan e.port bytes

/-- R82: the slot, shadow, park slot and spare reservations of an entry are freed. -/
def State.freeEntry (s : State) (qid : Nat) (e : Entry) (keep : Bool) : State :=
  let s := s.setQueue qid (fun q =>
    let r := (q.ent e.pos).map (·.reserved) |>.getD 0
    let q := { q.freePos e.pos with shUsed := q.shUsed - e.shadow, resumeQ := q.resumeQ.filter (fun p => p != e.pos) }
    if keep then { q with ents := q.ents.map (fun x => if x.pos = e.pos then { x with slot := none, shadow := 0 } else x) }
    else { q with ents := q.ents.filter (fun x => x.pos != e.pos), cqResv := q.cqResv - r })
  let pan := (s.queue qid).pan
  let s := if e.slot.isSome then (s.setPan pan (fun p => { p with parkWait := false })).parkAdjust pan else s
  s.relist

/-- R183: a STOP that waited for the records of its queue completes. -/
def State.stopCheck (s : State) (qid : Nat) : State :=
  (List.range 16).foldl (fun s k =>
    if SMap.get 0 k s.stopQ = qid + 1 && ((s.queue qid).ents.all (·.recorded)) then
      ({ s with stopQ := SMap.put 0 k 0 s.stopQ }.wr (Csr.QCMDSTAT_busy k) 0).wr (Csr.QCMDSTAT_result k) 0
    else s) s

/-- Cycles of rake `r`'s clock, of the point in force, since `mark` (Table 16-10). -/
def State.cyclesSince (s : State) (mark : Nat) : Nat := subMod s.stamp mark 64 * s.rd (Csr.VCOREOP_mhz (s.rd Csr.PWRSTAT_point)) / 1000

/-- Table 04-6: rake cycles since the dispatch or resumption of what rake `r` runs. -/
def State.rakeCycles (s : State) (r : Nat) : Nat := ((s.rake r).cycles + s.cyclesSince (s.rake r).mark) % 2 ^ 64

/-- The rake clock is about to change: the cycles that busy rakes have counted so far are kept. -/
def State.clockRakes (s : State) : State :=
  { s with rakes := s.rakes.map (fun kv => (kv.1, if kv.2.busy then { kv.2 with cycles := s.rakeCycles kv.1, mark := s.stamp } else kv.2)) }

/-- HELPER rakes of the instruction on rake `r` (R140). -/
def State.helpersOf (s : State) (r : Nat) : List Nat := (s.rakes.filter (fun kv => kv.2.helps == r + 1)).map (·.1)

/-- R140: the helpers of the instruction on rake `r` are released. -/
def State.freeHelpers (s : State) (r : Nat) : State :=
  (s.helpersOf r).foldl (fun s x => (s.setRake x (fun k => { k with helps := 0 })).wr (Csr.RAKESTAT_state (x / 16) (x % 16)) 0) s

/-- The rake of a running entry becomes idle, and its queue is charged the rake time of the interval that closes (R188). -/
def State.leaveRake (s : State) (qid pos r : Nat) : State :=
  let t := subMod s.stamp (s.rake r).since 64
  let s := s.setEnt qid pos (fun e => { e with ran := e.ran + t })
  let s := s.setQueue qid (fun q => { q with deficit := sat40 (q.deficit - t) })
  let s := (s.freeHelpers r).setRake r (fun _ => Rake.idle)
  let s := { s with shoots := s.shoots.map (fun (x : Shoot) =>
    { x with before := x.before.filter (fun b => b != r), rake := if x.rake = some r then none else x.rake }) }
  let s := { s with waits := s.waits.filter (fun (w : Wait) => w.who != WaitWho.rake r),
                    rm := { s.rm with opened := s.rm.opened.filter (fun (o : Nat × Nat) => o.1 != r) } }
  ((((s.wr (Csr.RAKESTAT_state (r / 16) (r % 16)) 0).wr (Csr.RAKESTAT_stopping (r / 16) (r % 16)) 0).wr
    (Csr.RAKESTAT_pan (r / 16) (r % 16)) 0).wr (Csr.RAKESTAT_qid (r / 16) (r % 16)) 0).wr (Csr.RAKESTAT_pc (r / 16) (r % 16)) 0

/-- R80, R84, R88: an entry ends with a status whose effect is None or Per line: one FINAL record. -/
def State.endBad (s : State) (qid pos status word : Nat) : State :=
  match (s.queue qid).ent pos with
  | none => s
  | some e =>
    let s := match e.onRake with
      | some r => ((if status = Sts.aborted then s.count (abortCtr (r / 16)) else s).leaveRake qid pos r).epochLeave e.set
      | none =>
        let s := if status = Sts.aborted ∧ e.st ≠ EntState.cut then s.count (abortCtr (s.queue qid).home) else s
        if e.st = EntState.admitted ∨ e.st = EntState.resumed then s.epochLeave e.set
        else if e.st = EntState.held then
          s.setQueue qid (fun q => { q with cqResv := q.cqResv + 1, admPos := (pos + 1) % 2 ^ 32, resolving := none })
        else s
    let s := s.putRecord qid e 0 status word (SMap.get 0 0 e.ctx.s)
    (s.freeEntry qid e false).stopCheck qid

/-- R291: the entry's writes to durable pans are all durable. -/
def State.entryDurable (s : State) (qid : Nat) (e : Entry) : Bool :=
  (match e.durPos with
   | some k => k == 0
   | none => true) &&
  s.pans.all (fun kv => kv.2.undur.all (fun u => u.owner != .entry qid e.pos))

/-- R422, Table 03-8: the entry that runs on rake `r` of a stall that fails is cut off; its FINAL record follows when its queue has moved. -/
def State.cutOff (s : State) (r : Nat) : State :=
  let k := s.rake r
  match (s.queue k.qid).ent k.pos with
  | some e => (((s.count (abortCtr (r / 16))).leaveRake k.qid k.pos r).epochLeave e.set).setEnt k.qid k.pos (fun e => { e with st := .cut })
  | none => s

/-- R68, R79, R80: a program ends normally: FINAL, or ACCEPTED with a DURABLE record to follow, or with wait_durable
nothing yet. -/
def State.endGood (s : State) (qid pos r : Nat) : State :=
  match (s.queue qid).ent pos with
  | none => s
  | some e =>
    let status := if e.worst = Sts.okDurable then Sts.ok else e.worst
    let word := if status = Sts.ok then 0xFFFFFFFF else e.word
    let s := (s.leaveRake qid pos r).epochLeave e.set
    let result := SMap.get 0 0 e.ctx.s
    if e.durPos.isNone then
      let s := s.putRecord qid e 0 status word result
      (s.freeEntry qid e false).stopCheck qid
    else if e.waitDur then
      s.setEnt qid pos (fun e => { e with done := true, worst := status, word := word, result := result })
    else
      let s := s.setEnt qid pos (fun e => { e with done := true, worst := status, word := word, result := result })
      let s := s.putRecord qid e 1 status word result
      (s.freeEntry qid e true).stopCheck qid

/-- R80: the DURABLE record of an entry, or the single FINAL record of one with wait_durable = 1, once its writes are in
the log. The status of that FINAL record is OK_DURABLE, but the worst status of R79 where that is not OK (DESIGN CHOICE, log entry 75: R80
and R79 each name one). -/
def State.durableRecord (s : State) (qid pos : Nat) : State :=
  match (s.queue qid).ent pos with
  | none => s
  | some e =>
    if e.done && s.entryDurable qid e then
      if e.waitDur then
        let s := s.putRecord qid e 0 (if e.worst = Sts.ok then Sts.okDurable else e.worst) e.word e.result
        (s.freeEntry qid e false).stopCheck qid
      else
        let s := s.putRecord qid e 2 Sts.okDurable e.word e.result
        let s := s.setQueue qid (fun q => { q with ents := q.ents.filter (fun x => x.pos != pos) })
        s.stopCheck qid
    else s

/-- R222: the pending records of queue `qid`'s open episodes `gens` are withdrawn; those of episodes that a resume has closed stay
(R221). No batch waits for ring space when none is left that did. -/
def State.withdrawFaults (s : State) (n qid : Nat) (gens : List Nat) : State :=
  let keep (b : Batch) : Batch := { b with recs := b.recs.filter (fun r => r.qid != qid || !gens.contains r.gen) }
  let s := s.setPan n (fun p => { p with batches := (p.batches.map keep).filter (fun b => b.recs != []) })
  let s := s.fqPending n
  if (s.pan n).batches.any (fun b => b.close.isSome) then s
  else (s.setPan n (fun p => { p with fqFull := false })).wr (Csr.FQSTAT_full n) 0

/-- The walks of queue `qid`'s entries are dropped. -/
def State.dropQueueWalks (s : State) (qid : Nat) : State := { s with walks := s.walks.filter (fun w => w.key / 2 ^ 32 != qid) }.grantWalks

/-- R182, R222: a queue stops: running, parked, held and admitted entries end ABORTED in ring order; entries that only
wait for durability keep waiting; entries not admitted stay in the body. -/
def State.stopQueue (s : State) (qid : Nat) : State :=
  let n := (s.queue qid).pan
  let s := s.setQueue qid (fun q => { q with st := .stopped, resolving := none, stale := false })
  let s := s.dropQueueWalks qid
  let gens := (s.queue qid).ents.filterMap (fun e => if e.done then none else e.gen)
  let s := (s.queue qid).ents.foldl (fun s e =>
    if e.done then s
    else s.endBad qid e.pos Sts.aborted (match e.st with
      | .held => 0xFFFFFFFF
      | .admitted => 0xFFFFFFFF
      | .parked => e.ctx.pc
      | .resumed => e.ctx.pc
      | .cut => e.ctx.pc
      | .running _ => e.ctx.pc)) s
  let s := s.withdrawFaults n qid gens
  s.raise Ev.QUEUE_STOPPED 1 (s.queue qid).home

/-- R182, DESTROY: the context is cleared. -/
def State.destroyQueue (s : State) (qid : Nat) : State :=
  let k := (s.queue qid).dispStall
  (s.setActList k ((s.actList k).filter (fun x => x != qid))).setQueue qid (fun _ => Queue.blank)

/-! ### Admission (R59 to R62, R180) -/

/-- Bit field of an entry image held as one little-endian number. -/
def imgBits (x byte lo w : Nat) : Nat := bitsOf (x / 256 ^ byte) lo w

/-- A window descriptor (R57), or none where it is invalid. -/
def parseWin (q0 q1 : Nat) : Option Win :=
  let kind := bitsOf q0 56 2
  if kind = 0 then (if q0 = 0 ∧ q1 = 0 then some Win.unused else none)
  else
    let base := bitsOf q0 0 56
    let rd := bitOf q0 58
    let wr := bitOf q0 59
    let zf := bitOf q0 60
    if bitsOf q0 61 3 ≠ 0 ∨ kind = 3 ∨ (zf && wr) = true then none
    else if kind = 1 then
      let len := bitsOf q1 0 40
      if bitsOf q1 40 24 ≠ 0 ∨ len = 0 ∨ 2 ^ 56 < base + len then none else some ⟨1, base, rd, wr, zf, len, 0, []⟩
    else
      let cnt := bitsOf q1 0 24
      let k := bitsOf q1 24 5
      if bitsOf q1 29 35 ≠ 0 ∨ cnt = 0 ∨ k < 7 ∨ 30 < k ∨ base % 8 ≠ 0 then none
      else some ⟨2, base, rd, wr, zf, cnt * 2 ^ k, k, []⟩

/-- R539: a window of a Ringmaster queue lies wholly inside or wholly outside the CSR window, and reaches it only as LINEAR. -/
def rmWinOk (w : Win) : Bool :=
  let c (a : Nat) : Bool := decide (csrBase ≤ a) && decide (a < csrBase + 0x4000000)
  w.kind != 1 || (c w.base == c (w.base + w.len - 1)) && !(decide (w.base < csrBase) && decide (csrBase + 0x4000000 ≤ w.base + w.len - 1))

/-- R55, R57, R59 step 2: the entry of an image at position `pos`, or the status that ends it. -/
def parseEntry (img pos port qid : Nat) : Sum Nat Entry :=
  let form := imgBits img 0 1 2
  let cw := imgBits img 2 0 16
  let ew := imgBits img 12 0 32
  let inl := form == 1
  let wins := (List.range (if inl then 4 else 8)).map (fun i => parseWin (imgBits img (0x20 + 16 * i) 0 64) (imgBits img (0x28 + 16 * i) 0 64))
  let prog := imgBits img 0xA0 0 64
  let code := (List.range 8).map (fun i => imgBits img (0x60 + 16 * i) 0 128)
  let bad := decide (2 ≤ form) || imgBits img 0 3 5 != 0 || imgBits img 1 4 4 != 0 || imgBits img 16 0 128 != 0
    || decide (cw = 0) || (inl && decide (8 < cw)) || decide (cw ≤ ew) || wins.any (·.isNone)
    || (!inl && (prog / 2 ^ 56 != 0))
    || (isRm qid && (wins.filterMap id).any (fun w => !rmWinOk w))
  let chk := if inl then inlineCheck (isRm qid) cw (code.take cw) else none
  if bad ∨ chk = some Sts.malformed then .inl Sts.malformed
  else match chk with
    | some st => .inl st
    | none =>
      let nargs := if inl then 4 else 11
      let argAt (i : Nat) : Nat := if inl then imgBits img (0xE0 + 8 * i) 0 64 else imgBits img (0xA8 + 8 * i) 0 64
      .inr
      { pos := pos, st := .admitted, inl := inl, ordered := imgBits img 1 0 1 == 1, notify := imgBits img 1 1 1 == 1,
        waitDur := imgBits img 1 2 1 == 1, codeWords := cw, tag := imgBits img 4 0 32, runLimit := imgBits img 8 0 32,
        entryWord := ew, prog := prog, codeRuns := [], wins := wins.map (·.getD Win.unused) ++ (if inl then List.replicate 4 Win.unused else []),
        args := (List.range nargs).map argAt, r0 := 0, shadow := 0, set := 0, port := port, worst := Sts.ok, word := 0,
        notes := 0, ran := 0, limit := 0, gen := none, ctx := ⟨[], 0, [], [], 0, ew⟩, reserved := 0, slot := none,
        again := none, durPos := none, done := false, result := 0 }

/-- An entry of which only what its record carries is known. -/
def Entry.stub (pos port tag : Nat) (notify : Bool) : Entry :=
  { pos := pos, st := .admitted, inl := false, ordered := false, notify := notify, waitDur := false, codeWords := 0, tag := tag,
    runLimit := 0, entryWord := 0, prog := 0, codeRuns := [], wins := [], args := [], r0 := 0, shadow := 0, set := 0, port := port,
    worst := Sts.ok, word := 0, notes := 0, ran := 0, limit := 0, gen := none, ctx := ⟨[], 0, [], [], 0, 0⟩, reserved := 1,
    slot := none, again := none, durPos := none, done := false, result := 0 }

/-- What resolving an entry came to (R212). -/
inductive Resolved where
  | need (vas : List Nat)
  | ends (status : Nat)
  | faults (fs : List RFault)
  | ok (e : Entry) (hits : Nat)
deriving DecidableEq, Repr

/-- The bytes of a resolved block list: from memory, or, for parts on another node or in a lent extent, those that `far`
says its reads delivered (log entry 9). -/
def State.listBytes (s : State) (rs : List Run) (far : List (Nat × Bool)) : List PByte × State :=
  let r := rs.foldl (fun (r : List PByte × List PByte × State) x =>
    let l := x.addr % 2 ^ 52
    if x.addr / 2 ^ 52 = s.nodeId && tierOf l != 3 then
      let (bs, s) := r.2.2.readMem ⟨none, 9, false, 6⟩ l x.len
      (r.1 ++ bs, r.2.1, s)
    else (r.1 ++ r.2.1.take x.len, r.2.1.drop x.len, r.2.2)) ([], far, s)
  (r.1, r.2.2)

/-- R211, R212: resolves window `i` of an entry; `key` names the entry. RM windows are node-local (R539). -/
def State.resolveWin (s : State) (qid key n i : Nat) (w : Win) (far : List (Nat × Bool)) (r : RAcc) : List Run × RAcc × State :=
  let done (r0 r1 : RAcc) : List Run × RAcc :=
    (r1.runs.reverse, { r1 with runs := r0.runs, off := 0 })
  let start (r : RAcc) : RAcc := { r with runs := [], off := 0 }
  if w.kind = 0 ∨ r.fin.isSome ∨ r.short ∨ 16 ≤ r.faults.length then ([], r, s)
  else if w.kind = 1 then
    if isRm qid then ([⟨0, w.len, s.nodeId * 2 ^ 52 + w.base % 2 ^ 52, w.base, false⟩], r, s)
    else
      let r1 := s.resolveRange key n ⟨0, i, w.rd, w.wr, w.zf⟩ (pagesIn w.base (w.base + w.len)) w.base (w.base + w.len) (start r)
      let (x, y) := done r r1
      (x, y, s)
  else
    let cnt := w.len / 2 ^ w.k
    let lr := if isRm qid then { start r with runs := [⟨0, 8 * cnt, s.nodeId * 2 ^ 52 + w.base % 2 ^ 52, w.base, false⟩] }
      else s.resolveRange key n ⟨1, i, true, false, false⟩ (pagesIn w.base (w.base + 8 * cnt)) w.base (w.base + 8 * cnt) (start r)
    if lr.need ≠ r.need ∨ lr.fin.isSome ∨ lr.faults.length ≠ r.faults.length then ([], { lr with runs := [], off := 0 }, s)
    else
      let (bs, s) := s.listBytes lr.runs.reverse far
      if bs.length < 8 * cnt then ([], { lr with runs := [], off := 0, short := true }, s) else
      let blocks := (List.range cnt).map (fun j => valueOf ((bs.drop (8 * j)).take 8))
      if blocks.any (fun b => b.2 || decide (2 ^ 56 ≤ b.1) || b.1 % 2 ^ w.k != 0) then
        ([], { lr with fin := if lr.need = [] then some Sts.malformed else lr.fin }, s)
      else
        let r1 := blocks.foldl (fun (r : RAcc) b =>
          if isRm qid then r.addRun (2 ^ w.k) (s.nodeId * 2 ^ 52 + b.1 % 2 ^ 52) b.1 false
          else s.resolveRange key n ⟨0, i, w.rd, w.wr, w.zf⟩ (pagesIn b.1 (b.1 + 2 ^ w.k)) b.1 (b.1 + 2 ^ w.k) r)
          { lr with runs := [], off := 0 }
        let (x, y) := done r r1
        (x, y, s)

/-- R59 step 4: resolves the code window and every window of an entry. -/
def State.resolveEntry (s : State) (qid : Nat) (e : Entry) (far : List (Nat × Bool)) : Resolved × State :=
  let n := (s.queue qid).pan
  let key := qid * 2 ^ 32 + e.pos
  let len := 16 * e.codeWords
  let (code, r) :=
    if e.inl then ([], RAcc.start)
    else if isRm qid then ([(⟨0, len, s.nodeId * 2 ^ 52 + e.prog % 2 ^ 52, e.prog, false⟩ : Run)], RAcc.start)
    else
      let r := s.resolveRange key n ⟨2, 0, true, false, false⟩ (pagesIn e.prog (e.prog + len)) e.prog (e.prog + len) RAcc.start
      (r.runs.reverse, { r with runs := [], off := 0 })
  let (ws, r, s') := (e.wins.zipIdx).foldl (fun (a : List Win × RAcc × State) (w, i) =>
    let (rs, r, s) := a.2.2.resolveWin qid key n i w far a.2.1
    (a.1 ++ [{ w with runs := rs }], r, s)) ([], r, s)
  match r.fin with
  | some st => (.ends st, s')
  | none =>
    if r.need ≠ [] ∨ r.short then (.need r.need, s)
    else if r.faults ≠ [] then (.faults r.faults.reverse, s')
    else (.ok { e with wins := ws, codeRuns := code } r.hits, s')

/-- R62: bytes of an entry's shadow. -/
def Entry.shadowBytes (e : Entry) : Nat :=
  64 + (if e.inl then 0 else 16 + 8 * runCount e.codeRuns)
    + ((e.wins.filter (fun w => w.kind != 0)).map (fun w => 16 + 8 * runCount w.runs)).sum

/-- Every run of an entry. -/
def Entry.allRuns (e : Entry) : List Run := e.codeRuns ++ e.wins.flatMap (·.runs)

/-- R210: misses ask for walks, which start as slots are free. -/
def State.startWalks (s : State) (key n : Nat) (vas : List Nat) : State :=
  (vas.foldl (fun s va =>
    if s.walks.any (fun w => w.key == key && w.found.isNone && w.va / 262144 == va / 262144) then s
    else { s.count (xlCtr 1) with walks := s.walks ++ [⟨key, n, va, none, true⟩] }) s).grantWalks

/-- The entry's walks are dropped. -/
def State.dropWalks (s : State) (key : Nat) : State := { s with walks := s.walks.filter (fun w => w.key != key) }.grantWalks

/-- R61, R218, R220: an entry is held, or parks again, with the given faults: a new episode begins and its records join a
batch. -/
def State.postFaults (s : State) (qid pos : Nat) (parked : Bool) (fs : List RFault) : State :=
  let q := s.queue qid
  let (g, s) := s.nextGen q.pan
  let recs := (fs.zipIdx).map (fun (f, i) =>
    (⟨i + 1 == fs.length, parked, f.place, f.reason, f.win, f.wr, g, qid, pos % q.depth, f.npages, f.size, f.pva, s.stamp⟩ : FaultRec))
  (s.setEnt qid pos (fun e => { e with gen := some g })).addFaults q.pan recs

/-- The PVA of the first byte of run `r` that lies in granule `g` of this node. -/
def Run.vaIn (r : Run) (g : Nat) : Nat := r.va + (g * granSize - r.addr % 2 ^ 52)

/-- R213: the NOT_MAPPED fault of an entry overtaken three times, on the first page concerned: the first of a granule changed since
`r0`. -/
def State.stormFault (s : State) (e : Entry) (r0 : Nat) : RFault :=
  let hit (rs : List Run) : Option Nat :=
    rs.findSome? (fun r => ((s.runGrans [r]).find? (s.restamped r0)).map (fun g => r.vaIn g / 4096 * 4096))
  match hit e.codeRuns with
  | some va => ⟨2, 1, 0, false, 1, 0, va⟩
  | none =>
    match (e.wins.zipIdx).findSome? (fun (w, i) => (hit w.runs).map (fun va => (⟨0, 1, i, w.wr, 1, 0, va⟩ : RFault))) with
    | some f => f
    | none => ⟨0, 1, 0, false, 1, 0, 0⟩

/-- The doorbell port that covers position `pos` (R81): node x 8 + port. -/
def Queue.doorPort (q : Queue) (pos : Nat) : Nat :=
  match q.doors.find? (fun d => isNewer d.1 pos 32) with
  | some d => d.2
  | none => q.ownNode * 8 + q.ownPort

/-- Completion-ring records of a queue that are neither waiting nor reserved (R180). -/
def Queue.cqFree (q : Queue) : Nat := 2 ^ q.cqLog - subMod q.cqProd q.cqCons 32 - q.cqResv

/-- R180: CQ_WAIT once, until the queue next admits. -/
def State.cqWaits (s : State) (qid : Nat) : State :=
  if (s.queue qid).cqWait then s
  else (s.setQueue qid (fun q => { q with cqWait := true })).raise Ev.CQ_WAIT 1 (s.queue qid).home

/-- An entry ends at admission: a FINAL record with the status, its slot freed (R59). -/
def State.endAdmission (s : State) (qid : Nat) (e : Entry) (status : Nat) : State :=
  if (s.queue qid).cqFree = 0 then s.cqWaits qid
  else
    let s := s.setQueue qid (fun q => { q with admPos := (q.admPos + 1) % 2 ^ 32, cqResv := q.cqResv + 1, cqWait := false,
                                               shWait := false, resolving := none,
                                               ents := q.ents.filter (fun x => x.pos != e.pos) })
    let s := s.dropWalks (qid * 2 ^ 32 + e.pos)
    let s := s.putRecord qid e 0 status 0xFFFFFFFF 0
    let s := s.freeEntry qid { e with slot := none, shadow := 0 } false
    let s := if status = Sts.malformed then s.raise Ev.ENTRY_MALFORMED 1 (s.queue qid).home else s
    s.stopCheck qid

/-- Steps 4 and 5 of R59 for the entry at `admPos`, whether new or resumed from a hold. -/
def State.admitResolve (s : State) (qid : Nat) (e : Entry) (far : List (Nat × Bool)) : State :=
  let q := s.queue qid
  let n := q.pan
  let key := qid * 2 ^ 32 + e.pos
  let (r0, tries) := q.resolving.getD (s.stamp, 0)
  let s := s.setQueue qid (fun q => { q with resolving := some (r0, tries) })
  match s.resolveEntry qid e far with
  | (.need vas, _) => s.startWalks key n vas
  | (.ends st, s) => s.endAdmission qid e st
  | (.faults fs, s) =>
    let s := (s.dropWalks key).setQueue qid (fun q =>
      { q with resolving := none, ents := q.ents.filter (fun x => x.pos != e.pos) ++ [{ e with st := .held }] })
    s.postFaults qid e.pos false fs
  | (.ok e' hits, s) =>
    let gs := s.runGrans e'.allRuns
    if !isRm qid && s.remapped r0 gs then
      if tries < 2 then
        (s.dropWalks key).setQueue qid (fun q => { q with resolving := some (s.stamp, tries + 1) })
      else
        let s := (s.dropWalks key).setQueue qid (fun q =>
          { q with resolving := none, ents := q.ents.filter (fun x => x.pos != e.pos) ++ [{ e with st := .held }] })
        s.postFaults qid e.pos false [s.stormFault e' r0]
    else
      let bytes := e'.shadowBytes
      let area := 4096 * q.shPages
      let far_ := e'.allRuns.any (fun r => !r.zero && r.addr / 2 ^ 52 != s.nodeId)
      let want := if !e.waitDur && (s.panDurable n || far_) && !isRm qid then 2 else 1
      if area < bytes then s.endAdmission qid e Sts.malformed
      else if area < q.shUsed + bytes then
        if q.shWait then s else (s.setQueue qid (fun q => { q with shWait := true })).raise Ev.SHADOW_WAIT 1 q.home
      else if q.cqFree < want then s.cqWaits qid
      else
        let s := s.count (xlCtr 0) hits
        let s := s.dropWalks key
        let e' := { e' with st := .admitted, r0 := r0, shadow := bytes, set := s.activeSet, reserved := want, gen := none }
        let s := s.setQueue qid (fun q =>
          { q with admPos := (q.admPos + 1) % 2 ^ 32, shUsed := q.shUsed + bytes, cqResv := q.cqResv + want, cqWait := false,
                   shWait := false, resolving := none, doors := q.doors.filter (fun d => isNewer d.1 (q.admPos + 1) 32),
                   ents := q.ents.filter (fun x => x.pos != e.pos) ++ [e'] })
        s.epochEnter.relist

/-- Pan by which the code of a queue's programs is tagged; 64 stands for the Ringmaster. -/
def codeTag (qid pan : Nat) : Nat := if isRm qid then 64 else pan

/-- R69, R91: the instruction caches of some rakes drop what `p` names. -/
def State.icFlush (s : State) (rakes : Nat → Bool) (p : Nat → Bool) : State :=
  { s with icache := (s.icache.map (fun kv =>
      (kv.1, if rakes (kv.1 / 128) then kv.2.filter (fun x => !p x.1) else kv.2))).filter (fun kv => kv.2 != []) }

/-- R59 step 3: an entry image with flush_code = 1 flushes the code of its pan from every rake. -/
def State.flushCode (s : State) (qid img : Nat) : State :=
  if imgBits img 1 3 1 = 1 then s.icFlush (fun _ => true) (fun t => t == codeTag qid (s.queue qid).pan) else s

/-- Table 03-8: admission passes over slots whose entries ended before a warm reset. -/
def State.passFreed (s : State) (qid : Nat) : State :=
  (List.range (s.queue qid).freed.length).foldl (fun s _ =>
    if (s.queue qid).freed.contains (s.queue qid).admPos then s.setQueue qid (fun q => { q with admPos := (q.admPos + 1) % 2 ^ 32 }) else s) s

/-- R59, R61: admission of the next entry of a queue. -/
def State.admitEntry (s : State) (qid : Nat) (far : List (Nat × Bool)) : State :=
  let s := s.passFreed qid
  let q := s.queue qid
  if q.st ≠ .enabled ∨ q.stale ∨ q.admPos = q.tail then s
  else match q.ent q.admPos with
    | some e => if e.st = .held && e.gen.isNone then s.admitResolve qid e far else s
    | none =>
      let pos := q.admPos
      let (img, s) := s.readMem Acc.sys (q.body + 256 * (pos % q.depth)) 256
      let (x, bad) := valueOf img
      if x % 2 ≠ lapBit pos q.depthLog then
        (s.setQueue qid (fun q => { q with stale := true })).raise Ev.ENTRY_PHASE_STALE 1 q.home
      else
        let port := q.doorPort pos
        match parseEntry x pos port qid with
        | .inl st => s.endAdmission qid (Entry.stub pos port (imgBits x 4 0 32) (imgBits x 1 1 1 == 1)) (if bad then Sts.malformed else st)
        | .inr e => if bad then s.endAdmission qid { e with reserved := 1 } Sts.malformed else (s.flushCode qid x).admitResolve qid e far

/-! ### Dispatch, parking and resumption (R63 to R65, R86) -/

/-- Table 03-5: the context at dispatch. -/
def Entry.startCtx (e : Entry) : Ctx :=
  ⟨(e.args.zipIdx).foldl (fun m (a, i) => SMap.put 0 i a m) [], 0, [], [], 0, e.entryWord⟩

/-- R63, R65: the next entry of queue `qid` is dispatched to rake `r`. -/
def State.dispatchTo (s : State) (qid r : Nat) : State :=
  let q := s.queue qid
  match q.next.bind q.ent with
  | none => s
  | some e =>
    let fresh := !q.resumeQ.contains e.pos
    let lim := 1000 * (if e.runLimit = 0 then q.runLimitUs else e.runLimit)
    let slot := if fresh && !isRm qid then s.freeSlot q.pan else e.slot
    let s := s.setEnt qid e.pos (fun e => { e with st := .running r, slot := slot, ctx := (if fresh then e.startCtx else e.ctx),
                                                   limit := (if fresh then lim else e.limit) })
    let s := s.setQueue qid (fun q => { q with resumeQ := q.resumeQ.filter (fun p => p != e.pos) })
    let s := s.setRake r (fun _ => { Rake.idle with busy := true, qid := qid, pos := e.pos, since := s.stamp, mark := s.stamp })
    let pc := if fresh then e.entryWord else e.ctx.pc
    let s := ((((s.wr (Csr.RAKESTAT_state (r / 16) (r % 16)) 1).wr (Csr.RAKESTAT_pan (r / 16) (r % 16)) (if isRm qid then 0 else q.pan)).wr
      (Csr.RAKESTAT_qid (r / 16) (r % 16)) qid).wr (Csr.RAKESTAT_pc (r / 16) (r % 16)) pc)
    s.count (dispCtr (r / 16))

/-- R86: the program on rake `r` parks at its current instruction with the given fault, whose record is posted if `post`. -/
def State.park (s : State) (r : Nat) (f : RFault) (post : Bool) : State :=
  let k := s.rake r
  match (s.queue k.qid).ent k.pos with
  | none => s
  | some e =>
    let s := ((s.count (parkCtr (r / 16))).leaveRake k.qid k.pos r).epochLeave e.set
    let s := s.setEnt k.qid k.pos (fun e => { e with st := .parked, notes := e.notes ||| 8 })
    (if post then s.postFaults k.qid k.pos true [f] else s).relist

/-- R86: a parked entry that was resumed resolves its windows again; it is then dispatched ahead of entries not yet
dispatched, parks again, or ends. An entry that parks again without having run is not counted in PARKCNT, and a shadow that has grown is
charged at once, be the area full or not (DESIGN CHOICE, log entry 75: R92 and R86 state neither). -/
def State.reresolve (s : State) (qid pos : Nat) (far : List (Nat × Bool)) : State :=
  match (s.queue qid).ent pos with
  | none => s
  | some e =>
    if e.st ≠ .parked ∨ e.gen.isSome then s
    else
      let n := (s.queue qid).pan
      let key := qid * 2 ^ 32 + pos
      let (r0, tries) := e.again.getD (s.stamp, 0)
      let s := s.setEnt qid pos (fun e => { e with again := some (r0, tries) })
      let settled (s : State) : State := (s.dropWalks key).setEnt qid pos (fun e => { e with again := none })
      match s.resolveEntry qid e far with
      | (.need vas, _) => s.startWalks key n vas
      | (.ends st, s) => (settled s).endBad qid pos st e.ctx.pc
      | (.faults fs, s) =>
        if fs.any (fun f => f.reason == 2) then (settled s).endBad qid pos Sts.permission e.ctx.pc
        else (settled s).postFaults qid pos true fs
      | (.ok e' hits, s) =>
        if s.remapped r0 (s.runGrans e'.allRuns) then
          if tries < 2 then (s.dropWalks key).setEnt qid pos (fun e => { e with again := some (s.stamp, tries + 1) })
          else (settled s).postFaults qid pos true [s.stormFault e' r0]
        else
        let s := (s.count (xlCtr 0) hits).dropWalks key
        let bytes := e'.shadowBytes
        let s := s.setEnt qid pos (fun _ => { e' with st := .resumed, r0 := r0, shadow := bytes, set := s.activeSet, again := none })
        let s := s.setQueue qid (fun q => { q with shUsed := q.shUsed - e.shadow + bytes, resumeQ := q.resumeQ ++ [pos] })
        s.epochEnter.relist

/-- R221: a resume that names pan, queue, slot index, episode and action (0 RESUME, 1 ABORT); one that names no open
episode is discarded. -/
def State.faultResume (s : State) (n qid index gen action : Nat) : State :=
  let q := s.queue qid
  match q.ents.find? (fun e => e.pos % q.depth == index && e.gen == some gen && !e.done) with
  | some e =>
    if q.pan = n ∧ q.st ≠ .free ∧ ¬ isRm qid then
      let s := s.setEnt qid e.pos (fun e => { e with gen := none })
      if action = 1 then
        s.endBad qid e.pos Sts.aborted (if e.st = .held then 0xFFFFFFFF else e.ctx.pc)
      else if e.st = .held then s.setQueue qid (fun q => { q with resolving := none })
      else s.reresolve qid e.pos []
    else (s.count (xlCtr 5)).raise Ev.RESUME_STALE 5 n
  | none => (s.count (xlCtr 5)).raise Ev.RESUME_STALE 5 n

/-! ### Queue commands (R182 to R185) -/

/-- Outcome of a queue command: done, or the result code of R183 that refuses it. -/
inductive QRes where
  | done (s : State)
  | refused (code : Nat)

/-- The two regions `[a, a + n)` and `[b, b + m)` share a byte. -/
def overlaps (a n b m : Nat) : Bool := decide (a < b + m) && decide (b < a + n)

/-- R178, R183: the fields that CREATE and SETPARAM share are in range. -/
def State.paramsOk (s : State) (k : Nat) : Bool :=
  let c := s.rd (Csr.QDESC3_concurrency k)
  decide (1 ≤ c) && decide (c ≤ 16) && decide (1 ≤ s.rd (Csr.QDESC4_quantum k))
    && (s.rd (Csr.QDESC5_tb_rate k) == 0 || decide (1 ≤ s.rd (Csr.QDESC5_tb_burst k)))

/-- R182, CREATE, from the descriptor in stall `k`'s staging registers. -/
def State.qCreate (s : State) (k qid : Nat) : QRes :=
  let dl := s.rd (Csr.QDESC0_depth_log2 k)
  let cl := s.rd (Csr.QDESC1_cq_log2 k)
  let sp := s.rd (Csr.QDESC2_shadow_pages k)
  let n := s.rd (Csr.QDESC0_pan k)
  let body := s.rd (Csr.QDESC0_body_base k)
  let cq := s.rd (Csr.QDESC1_cq_base k)
  let sh := s.rd (Csr.QDESC2_shadow_base k)
  let bl := 256 * 2 ^ dl
  let ql := 32 * 2 ^ cl
  let sl := 4096 * sp
  let regs := [(body, bl), (cq, ql), (sh, sl)]
  if (s.queue qid).st ≠ .free then .refused 1
  else if !(decide (4 ≤ dl) && decide (dl ≤ 16) && decide (4 ≤ cl) && decide (cl ≤ 17) && decide (1 ≤ sp) && s.paramsOk k
      && regs.all (fun r => r.1 % 4096 == 0) && !overlaps body bl cq ql && !overlaps body bl sh sl && !overlaps cq ql sh sl)
    then .refused 2
  else if isRm qid then
    (if regs.all (fun r => s.region r.1 == .system && s.region (r.1 + r.2 - 1) == .system) then .done (mk s dl cl sp n body cq sh) else .refused 3)
  else if regs.all (fun r => tierOf r.1 == 1 && tierOf (r.1 + r.2 - 1) == 1 && s.ownsRange n r.1 r.2) then .done (mk s dl cl sp n body cq sh)
  else .refused 3
where
  mk (s : State) (dl cl sp n body cq sh : Nat) : State :=
    s.setQueue qid (fun _ => { Queue.blank with
      st := .stopped, home := k, body := body, depthLog := dl, pan := n, cqBase := cq, cqLog := cl, shBase := sh, shPages := sp,
      ownNode := s.rd (Csr.QDESC3_owner_node k), ownPort := s.rd (Csr.QDESC3_owner_port k),
      conc := s.rd (Csr.QDESC3_concurrency k), runLimitUs := s.rd (Csr.QDESC3_run_limit_us k),
      quantum := s.rd (Csr.QDESC4_quantum k), tbRate := s.rd (Csr.QDESC5_tb_rate k), tbBurst := s.rd (Csr.QDESC5_tb_burst k),
      tokens := s.rd (Csr.QDESC5_tb_burst k) * 65536 })

/-- R182, R184: SETPARAM. -/
def State.qSetParam (s : State) (k qid : Nat) : State :=
  let burst := s.rd (Csr.QDESC5_tb_burst k)
  let s := s.setQueue qid (fun q => { q with
    conc := s.rd (Csr.QDESC3_concurrency k), runLimitUs := s.rd (Csr.QDESC3_run_limit_us k),
    quantum := s.rd (Csr.QDESC4_quantum k), tbRate := s.rd (Csr.QDESC5_tb_rate k), tbBurst := burst,
    tokens := if q.tbRate = 0 then burst * 65536 else min q.tokens (burst * 65536) })
  s.relist

/-- R182: READ copies the descriptor and the counts to stall `k`'s registers. -/
def State.qRead (s : State) (k qid : Nat) : State :=
  let q := s.queue qid
  let st : Nat := match q.st with
    | .free => 0
    | .enabled => 1
    | .paused => 2
    | .stopped => 3
  [(Csr.QDESC0_body_base k, q.body), (Csr.QDESC0_depth_log2 k, q.depthLog), (Csr.QDESC0_pan k, q.pan), (Csr.QDESC1_cq_base k, q.cqBase),
   (Csr.QDESC1_cq_log2 k, q.cqLog), (Csr.QDESC2_shadow_base k, q.shBase), (Csr.QDESC2_shadow_pages k, q.shPages),
   (Csr.QDESC3_owner_node k, q.ownNode), (Csr.QDESC3_owner_port k, q.ownPort), (Csr.QDESC3_concurrency k, q.conc),
   (Csr.QDESC3_run_limit_us k, q.runLimitUs), (Csr.QDESC4_quantum k, q.quantum), (Csr.QDESC5_tb_rate k, q.tbRate),
   (Csr.QDESC5_tb_burst k, q.tbBurst), (Csr.QREAD0_head k, q.head), (Csr.QREAD0_tail k, q.tail), (Csr.QREAD1_admit k, q.admPos),
   (Csr.QREAD1_running k, q.running), (Csr.QREAD1_state k, st), (Csr.QREAD1_moving k, if q.moving.isSome then 1 else 0),
   (Csr.QREAD1_home k, q.home), (Csr.QREAD1_tokens k, q.tokens / 65536), (Csr.QREAD2_deficit k, ofSigned 40 q.deficit)].foldl
    (fun s (f, v) => s.wr f v) s

/-- R182, R183: command `op` on queue `qid` at stall `k`, or why it is refused. -/
def State.qcmdOp (s : State) (k op qid target : Nat) : QRes :=
  let q := s.queue qid
  let home := q.st != .free && q.home == k
  if op = 1 then s.qCreate k qid
  else if op = 2 then
    if home && (q.st == .stopped || q.st == .paused) then .done (s.setQueue qid (fun q => { q with st := .enabled })).relist else .refused 1
  else if op = 3 then
    if home && q.st == .enabled then .done (s.setQueue qid (fun q => { q with st := .paused })) else .refused 1
  else if op = 4 then
    if home && (q.st == .enabled || q.st == .paused) then .done (s.stopQueue qid) else .refused 1
  else if op = 5 then
    if home && q.st == .stopped && q.ents.isEmpty then .done (s.destroyQueue qid) else .refused 1
  else if op = 6 then
    if home && q.moving.isNone then
      let s := s.setActList k ((s.actList k).filter (fun x => x != qid))
      .done (s.setQueue qid (fun q => { q with moving := some target })).relist
    else .refused 1
  else if op = 7 then
    if home then (if s.paramsOk k then .done (s.qSetParam k qid) else .refused 2) else .refused 1
  else if op = 8 then .done (s.qRead k qid)
  else .refused 2

/-- R183: a write that reaches QCMD of stall `k`. A STOP keeps busy set until every record of its queue is written. -/
def State.qcmd (s : State) (k op qid target : Nat) : State :=
  if s.on (Csr.QCMDSTAT_busy k) then s.wr (Csr.QCMDSTAT_lost k) 1
  else match s.qcmdOp k op qid target with
    | .refused c => s.wr (Csr.QCMDSTAT_result k) c
    | .done t =>
      if op = 4 && !((t.queue qid).ents.all (·.recorded)) then
        { t.wr (Csr.QCMDSTAT_busy k) 1 with stopQ := SMap.put 0 k (qid + 1) t.stopQ }
      else t.wr (Csr.QCMDSTAT_result k) 0

/-- R185: the move of queue `qid` completes when no entry of it runs on the stall it started from. Entries that the failure of that stall
cut off get their FINAL records then (Table 03-8). -/
def State.moveDone (s : State) (qid : Nat) : State :=
  let q := s.queue qid
  match q.moving with
  | none => s
  | some t =>
    if q.ents.any (fun e => match e.onRake with
      | some r => r / 16 == q.home && t != q.home
      | none => false) then s
    else
      let s := (s.setQueue qid (fun q => { q with home := t, moving := none })).raise Ev.QUEUE_MOVED 1 t
      (q.ents.filter (fun e => e.st == .cut)).foldl (fun s e => s.endBad qid e.pos Sts.aborted e.ctx.pc) s

end Sys2Proof.Machine
end

