-- ==== Sys2Proof/Machine/Operands.lean ====
section
/-!
DEFINITION. Operands of programs: scalar registers, predicates, and memory operands with their location (R58) and the
confirmation of their runs (R216).
-/
namespace Sys2Proof.Machine

/-! ### Located operands (R58) -/

/-- A located stretch: global pool address, length and PVA; a zero run has no address. -/
structure Seg where
  addr : Nat
  len : Nat
  va : Nat
  zero : Bool
deriving DecidableEq, Repr

/-- The part of `[off, off + len)` that each run of a window covers, in ascending order. -/
def sliceRuns (rs : List Run) (off len : Nat) : List Seg :=
  rs.filterMap (fun r =>
    let a := max off r.off
    let b := min (off + len) (r.off + r.len)
    if a < b then some ⟨r.addr + (a - r.off), b - a, r.va + (a - r.off), r.zero⟩ else none)

/-- What a located operand is: its stretches, window number and whether it is written; that its window lacks the right for it; and that its
window asks write. -/
structure Loc where
  segs : List Seg
  win : Nat
  wr : Bool
  denied : Bool
  asks : Bool
deriving DecidableEq, Repr

/-- Scalar register `i`. -/
def Ctx.reg (c : Ctx) (i : Nat) : Nat := SMap.get 0 i c.s

/-- Writes a scalar register with its poison (R268). -/
def Ctx.setReg (c : Ctx) (i v : Nat) (p : Bool) : Ctx := { c with s := SMap.put 0 i (v % 2 ^ 64) c.s, sp := setBit c.sp i p }

/-- Scalar register `i` carries poison. -/
def Ctx.poi (c : Ctx) (i : Nat) : Bool := bitOf c.sp i

/-- Predicate `i`; p0 reads 1 (Table 03-5). -/
def Ctx.pred (c : Ctx) (i : Nat) : Bool := i == 0 || bitOf c.p i

/-- Writes a predicate; writes of p0 are ignored. -/
def Ctx.setPred (c : Ctx) (i : Nat) (b : Bool) : Ctx := if i = 0 then c else { c with p := setBit c.p i b }

/-- R58, `operand_location`, with `extra` added to imm (R114): the stretches and whether the window's rights cover them, or MALFORMED. An
address register with poison is MALFORMED (R269). -/
def Entry.locate (e : Entry) (c : Ctx) (op extra len : Nat) (wr : Bool) : Sum Nat Loc :=
  let wi := bitsOf op 48 3
  let w := e.wins.getD wi Win.unused
  let en := bitOf op 45
  let off := bitsOf op 0 40 + extra + (if en then c.reg (bitsOf op 40 5) else 0)
  if en && c.poi (bitsOf op 40 5) then .inl Sts.malformed
  else if e.inl && decide (3 < wi) then .inl Sts.malformed
  else if w.kind = 0 then .inl Sts.malformed
  else if w.len < off + len then .inl Sts.malformed
  else .inr ⟨sliceRuns w.runs off len, wi, wr, if wr then !w.wr else !w.rd, w.wr⟩

/-- The window offset of an operand. -/
def operandOff (c : Ctx) (op : Nat) : Nat := bitsOf op 0 40 + (if bitOf op 45 then c.reg (bitsOf op 40 5) else 0)

/-- A stretch is local: memory of this node (not lent). -/
def State.isLocal (s : State) (g : Seg) : Bool := g.addr / 2 ^ 52 == s.nodeId && tierOf (g.addr % 2 ^ 52) != 3

/-- The lent slot of a global address at this node. -/
def State.lentSlot (s : State) (a : Nat) : Option Nat :=
  let l := a % 2 ^ 52
  if a / 2 ^ 52 = s.nodeId ∧ lentBase ≤ l ∧ l < csrBase then some ((l - lentBase) / lentSlotSize) else none

/-- Granules that a stretch of this node touches. -/
def State.segGrans (s : State) (g : Seg) : List Nat :=
  if g.zero ∨ g.len = 0 ∨ g.addr / 2 ^ 52 ≠ s.nodeId then []
  else
    let l := g.addr % 2 ^ 52
    rangeFrom (l / granSize) ((l + g.len - 1) / granSize - l / granSize + 1)

/-- A PARKED fault on the located bytes of a window (Table 07-7): one record in 4 KiB units; wr says that the window asks write. -/
def Loc.fault (l : Loc) (g : Seg) (reason : Nat) : RFault :=
  ⟨0, reason, l.win, l.asks, min 65535 ((g.va % 4096 + g.len + 4095) / 4096), 0, g.va / 4096 * 4096⟩

/-- R216, R284: the fault that confirming the runs of an operand meets: a remapped granule, or a heap page. -/
def State.confirm (s : State) (r0 : Nat) (l : Loc) : Option RFault :=
  match l.segs.find? (fun g => s.remapped r0 (s.segGrans g)) with
  | some g => some (l.fault g 5)
  | none =>
    (l.segs.find? (fun g => !g.zero && s.isLocal g && tierOf (g.addr % 2 ^ 52) == 2)).map (fun g => l.fault g 6)

/-- R443: in SEALED, an operand of a Ringmaster program may not reach an OWNED granule or a lent extent. -/
def State.rmDenied (s : State) (l : Loc) : Bool :=
  s.rd Csr.SECSTAT_state == 3 &&
  l.segs.any (fun g => (s.segGrans g).any (fun x => (s.gran x).st == .owned) || (s.lentSlot g.addr).isSome)

/-- R216 for the code window: the fault that confirming the runs of the instruction words `[pc, pc + words)` meets. -/
def State.confirmCode (s : State) (e : Entry) (words : Nat) : Option RFault :=
  (s.confirm e.r0 ⟨sliceRuns e.codeRuns (16 * e.ctx.pc) (16 * words), 0, false, false, false⟩).map (fun f => { f with place := 2 })

/-- R27, R539: an operand of a Ringmaster program names memory, none of it in a hole or in the CSR window. -/
def State.rmReaches (s : State) (l : Loc) : Bool :=
  l.segs.all (fun g =>
    let a := g.addr % 2 ^ 52
    let ok (r : Region) : Bool := r != .hole && r != .csr
    g.len == 0 || (ok (s.region a) && ok (s.region (a + g.len - 1))
      && (s.segGrans g).all (fun x => ok (s.region (x * granSize)))))

end Sys2Proof.Machine
end

