-- ==== Sys2Proof/Machine/Carousel.lean ====
section
/-!
DEFINITION. The Carousels (R196 to R202, R234 to R238): rounds, parking, pre-emption, and what a granted DRAM command does.
-/
namespace Sys2Proof.Machine

open Host

/-- Register base of a Carousel (Table 06-5). -/
def carBase : Car → Nat
  | .rake k => 0x1007000 + 0x100000 * k.val
  | .midway p k => 0x2410000 + 0x100 * (36 * p.val + k.val)
  | .ddr c => 0x2801000 + 0x20000 * c.val
  | .stk c => 0x2A10800 + 0x1000 * c.val

/-- The source of a Carousel's events (Table 18-6): its stall or DDR5 channel, else the device. -/
def carSrc : Car → Nat × Nat
  | .rake k => (1, k.val)
  | .ddr c => (3, c.val)
  | _ => (0, 0)

/-- R196: the rank order of a Carousel, best first. -/
def State.rankOrder (s : State) (b : Nat) : List Nat := SMap.get (List.range 16) b s.cars

/-- R235, `urgency`: of a read of requester `r` with the given deadline at Carousel `c`. -/
def State.urgency (s : State) (c : Car) (r deadline : Nat) : Nat :=
  let slack := toSigned 64 (subMod deadline s.stamp 64)
  let t : Int := s.readTarget (match c with | .ddr k => some k.val | _ => none) r
  let thr (i : Nat) : Int := match c with
    | .ddr k => s.rd (if i = 1 then Csr.DDRURG_thr1 k.val else Csr.DDRURG_thr2 k.val)
    | _ => s.rd (if i = 1 then Csr.STKURG_thr1 else Csr.STKURG_thr2)
  if slack ≤ 0 then 3 else if slack * 256 < thr 2 * t then 2 else if slack * 256 < thr 1 * t then 1 else 0

/-- The controller of a command-slot Carousel is batching (R237). -/
def State.batching (s : State) : Car → Bool
  | .ddr c => s.on (Csr.DDRSTAT_batching c.val)
  | .stk c => s.on (Csr.STKCHSTAT_batching c.val)
  | _ => false

/-- The entry that keeps the queues behind a command-slot Carousel. -/
def carChan : Car → Nat
  | .ddr c => c.val
  | .stk c => 16 + 2 * c.val
  | _ => 0

/-- The effective class of requester `r` (R196, R235, R237). -/
def State.carClassOf (s : State) (c : Car) (r : Nat) : Nat :=
  let cls := bitsOf (s.rd (Csr.CARPRI_class (carBase c))) (2 * r) 2
  match c with
  | .rake _ | .midway _ _ => cls
  | _ =>
    if r = 12 then (if s.batching c then 3 else cls)
    else ((s.chan (carChan c)).rq.filter (fun x => x.req == r)).foldl (fun m x => max m (s.urgency c r x.deadline)) cls

/-- R201: requester `r` requested and lost. -/
def State.carLost (s : State) (c : Car) (r : Nat) : State :=
  let b := carBase c
  let w := min (s.rd (Csr.CARWAIT_cur_wait b r) + 1) 0xFFFFFFFF
  let s := s.wr (Csr.CARWAIT_cur_wait b r) w
  let s := s.wr (Csr.CARWAIT_max_wait b r) (max w (s.rd (Csr.CARWAIT_max_wait b r)))
  let t := s.rd (Csr.CARTHR_starve_thresh b)
  if t ≠ 0 && w == t then (s.setFld (Csr.CARSTAT_starve b) r).raise Ev.CAROUSEL_STARVE (carSrc c).1 (carSrc c).2 else s

/-! ### Commands (R227, R236, R240) -/

/-- The bank and row of a line behind a command-slot Carousel: DDR5 banks by (rank slot, subchannel, bank group, bank), stacked ones by
(pseudo-channel, bank). -/
def State.bankOf (s : State) (c : Car) (d : Nat) : Nat × Nat :=
  match c with
  | .ddr _ =>
    let (ch, l) := s.ddr5Map (d * 128)
    let (slot, sub, bg, bank, row, _) := s.ddr5Decode ch l
    (((slot * 2 + sub) * 8 + bg) * 4 + bank, row)
  | _ =>
    let (_, pc, bank, row, _, _) := stkMap (d * 128 - stkBase)
    (pc * 16 + bank, row)

/-- The rank whose refresh covers a bank: a DDR5 rank slot, or the stacked bank itself (R240). -/
def bankRank : Car → Nat → Nat
  | .ddr _, b => b / 64
  | _, b => b

/-- The entry that keeps the refresh state of rank `rank` behind a Carousel, and the rank in it (R240). -/
def refreshOf (c : Car) (rank : Nat) : Nat × Nat :=
  match c with
  | .stk k => (16 + 2 * k.val + rank / 16 % 2, rank % 16)
  | .ddr k => (k.val, rank)
  | _ => (0, 0)

/-- Refresh state of a rank behind a Carousel. -/
def State.rankState (s : State) (c : Car) (rank : Nat) : RankState :=
  SMap.get RankState.idle (refreshOf c rank).2 (s.chan (refreshOf c rank).1).ranks

/-- Changes it. -/
def State.setRank (s : State) (c : Car) (rank : Nat) (f : RankState → RankState) : State :=
  s.setChan (refreshOf c rank).1 (fun x => { x with ranks := SMap.upd RankState.idle (refreshOf c rank).2 f x.ranks })

/-- The rows of the banks that `p` names are closed. -/
def State.closeRows (s : State) (c : Car) (p : Nat → Bool) : State :=
  s.setChan (carChan c) (fun x => { x with rows := x.rows.filter (fun (kv : Nat × (Nat × Nat)) => !p kv.1) })

/-- R240: one refresh of a rank is issued: of all its banks (REFab), or of one bank in every group (REFsb), which come in turn; a
stacked bank has its own. A refreshed bank's row is closed, and its activations count anew (R227). -/
def State.issueRefresh (s : State) (c : Car) (rank : Nat) : State :=
  match c with
  | .ddr k =>
    let b := (s.rankState c rank).bank
    let hit (x : Nat) : Bool := x / 64 == rank && (s.on (Csr.DDRCFG_ref_mode k.val) || x % 4 == b)
    (s.closeRows c hit).setRank c rank (fun x => { x with
      bank := if s.on (Csr.DDRCFG_ref_mode k.val) then x.bank else (x.bank + 1) % 4,
      acts := x.acts.filter (fun (kv : Nat × Nat) => !hit kv.1) })
  | _ => s.closeRows c (fun x => x == rank)

/-- R227, R236: a command for line `d`: a hit on its bank's open row, counted while another request to the bank waits, or an activation
of its row. A bank that reaches the SPD's limit gets refresh management. -/
def State.rowCommand (s : State) (c : Car) (d : Nat) : State :=
  let (b, row) := s.bankOf c d
  let x := s.chan (carChan c)
  let waits := (x.rq.map (·.line) ++ x.wq).any (fun y => y != d && (s.bankOf c y).1 == b)
  let (was, hits) := SMap.get (0, 0) b x.rows
  if was = row + 1 then s.setChan (carChan c) (fun x => { x with rows := SMap.put (0, 0) b (was, if waits then hits + 1 else 0) x.rows })
  else
    let s := s.setChan (carChan c) (fun x => { x with rows := SMap.put (0, 0) b (row + 1, 0) x.rows })
    match c with
    | .ddr k =>
      let n := SMap.get 0 b (s.rankState c (bankRank c b)).acts + 1
      let due := Config.rfmLimit k.val != 0 && decide (Config.rfmLimit k.val ≤ n)
      s.setRank c (bankRank c b) (fun y => { y with acts := SMap.put 0 b (if due then 0 else n) y.acts })
    | _ => s

/-- R236: the request selected among `cands`, (urgency, line) pairs oldest first: the highest urgency, then a hit on an open row
unless its bank has served 8 while another request to it waits, then the oldest. -/
def State.select (s : State) (c : Car) (cands : List (Nat × Nat)) : Option Nat :=
  let top := cands.foldl (fun m x => max m x.1) 0
  let best := (cands.filter (fun x => x.1 == top)).map (·.2)
  let hit (d : Nat) : Bool :=
    let (b, row) := s.bankOf c d
    let (was, hits) := SMap.get (0, 0) b (s.chan (carChan c)).rows
    was == row + 1 && decide (hits < 8)
  match best.find? hit with
  | some d => some d
  | none => best.head?

/-- R237: batching ends when the queue falls to wq_low. -/
def State.batchEnd (s : State) (c : Nat) : State :=
  if s.on (Csr.DDRSTAT_batching c) && decide ((s.chan c).wq.length ≤ s.rd (Csr.DDRWM_wq_low c)) then
    s.wr (Csr.DDRSTAT_batching c) 0
  else s

/-- R237: the same of stacked pseudo-channel `g`. -/
def State.batchEndStk (s : State) (g : Nat) : State :=
  if (s.chan (16 + g)).batch && decide (((s.chan (stkChan g)).wq.filter (fun d => linePc d == g)).length ≤ s.rd Csr.STKWM_wq_low) then
    s.batchStk g false
  else s

/-- The lines that requester `r` of a command-slot Carousel has queued (Table 08-4), oldest first. -/
def State.queued (s : State) (c : Car) (r : Nat) : List Nat :=
  let x := s.chan (carChan c)
  if r = 12 then x.wq else (x.rq.filter (fun y => y.req == r)).map (·.line)

/-- R236: not every request that requester `r` has queued waits for the timing of its next command. -/
def State.hasLegal (s : State) (c : Car) (barred : List Nat) (r : Nat) : Bool :=
  match c with
  | .rake _ | .midway _ _ => true
  | _ => (s.queued c r).isEmpty || (s.queued c r).any (fun d => !barred.contains d)

/-- R236, R237: a granted write drain writes a line of the queue; a line pending in a DDR5 channel's brine buffers, the oldest first,
then joins the queue (R239). -/
def State.drainOne (s : State) (c : Car) (barred : List Nat) : State :=
  let k := carChan c
  let s := match s.select c (((s.chan k).wq.filter (fun d => !barred.contains d)).map (fun d => (0, d))) with
    | some d =>
      let s := (s.rowCommand c d).setChan k (fun x => { x with wq := x.wq.filter (· != d) })
      (match c with | .ddr c => s.count (ddrCtr c.val 1) | _ => s)
    | none => s
  match c with
  | .ddr c =>
    let s := s.batchEnd c.val
    match s.dram.brine.find? (fun b => (s.ddr5Map (b.line * 128)).1 == c.val) with
    | some b => s.evictBrine b
    | none => s
  | .stk c => (s.batchEndStk (2 * c.val)).batchEndStk (2 * c.val + 1)
  | _ => s

/-- R236: a granted requester's read command: the read leaves its queue. -/
def State.readOne (s : State) (c : Car) (barred : List Nat) (r : Nat) : State :=
  let k := carChan c
  match s.select c (((s.chan k).rq.filter (fun x => x.req == r && !barred.contains x.line)).map (fun x => (s.urgency c r x.deadline, x.line))) with
  | some d =>
    (s.rowCommand c d).setChan k (fun x =>
      match x.rq.find? (fun y => y.req == r && y.line == d) with
      | some y => { x with rq := x.rq.erase y }
      | none => x)
  | none => s

/-- R228: a command that still fails after its third retry starts a retrain pause. -/
def State.retrainPause (s : State) (c : Nat) : State :=
  let s := s.setChan c (fun x => { x with retries := 0 })
  if s.on (Csr.DDRSTAT_paused c) then s else (s.wr (Csr.DDRSTAT_paused c) 1).raise Ev.DDR_BUS_RETRAIN 3 c

/-- What the grant of a round does: one DRAM command. One that fails parity or write CRC stays queued and is retried; its fourth failure
starts a retrain pause (R227, R228). -/
def State.carGrant (s : State) (c : Car) (barred : List Nat) (fails : Bool) (r : Nat) : State :=
  let go (s : State) : State := if r = 12 then s.drainOne c barred else s.readOne c barred r
  match c with
  | .ddr k =>
    if !fails then (go s).setChan k.val (fun x => { x with retries := 0 })
    else if (s.chan k.val).retries < 3 then s.setChan k.val (fun x => { x with retries := x.retries + 1 })
    else s.retrainPause k.val
  | .stk _ => go s
  | _ => s

/-- R240: in a round in which a rank has no candidate, one of its postponed refreshes is issued. `idle` says that no request was. -/
def State.repayIdle (s : State) (c : Car) (idle : Bool) : State :=
  let x := s.chan (carChan c)
  let wanted := if idle then [] else (x.rq.map (·.line) ++ x.wq).map (fun d => bankRank c (s.bankOf c d).1)
  let ranks : List Nat := match c with
    | .ddr _ => x.ranks.map (·.1)
    | .stk k => x.ranks.map (·.1) ++ (s.chan (17 + 2 * k.val)).ranks.map (fun kv => 16 + kv.1)
    | _ => []
  ranks.foldl (fun s r =>
    if wanted.contains r || (s.rankState c r).postponed == 0 || (s.rankState c r).repaying then s
    else (s.issueRefresh c r).setRank c r (fun x => { x with postponed := x.postponed - 1 })) s

/-- A retrain pause holds the command slots of a channel (R228). -/
def State.carPaused (s : State) : Car → Bool
  | .ddr c => s.on (Csr.DDRSTAT_paused c.val)
  | _ => false

/-- R196, R197: a round with the requests `reqs`: bit `r` for requester `r`. A requester of DRAM whose queued lines are all `barred`, those
whose next command is not legal now, sits the round out (R236). With no request the grant parks on the last owner; a parked owner that
requests alone is granted without arbitration. -/
def State.carRound (s : State) (c : Car) (reqs : Nat) (barred : List Nat) (fails : Bool) : State :=
  let b := carBase c
  let pre := s.rd (Csr.CARINFO_pre_idx b)
  let live (r : Nat) : Bool := bitOf reqs r && !s.carMasked b r && r != pre && decide (r < s.rd (Csr.CARINFO_nreq b)) && s.hasLegal c barred r
  let rs := (List.range 16).filter live
  let owner := s.rd (Csr.CARSTATE_owner b)
  if s.on (Csr.CARSTATE_preempted b) || s.carPaused c then s
  else
    let s := s.repayIdle c rs.isEmpty
    if rs.isEmpty then
      if s.carMasked b owner then s.wr (Csr.CARSTATE_parked b) 0 else s.wr (Csr.CARSTATE_parked b) 1
    else if s.on (Csr.CARSTATE_parked b) && rs == [owner] then
      ((s.wr (Csr.CARSTATE_parked b) 0).wr (Csr.CARWAIT_cur_wait b owner) 0).carGrant c barred fails owner
    else
      let cls (r : Nat) : Nat := s.carClassOf c r
      let top := rs.foldl (fun m r => max m (cls r)) 0
      match (s.rankOrder b).find? (fun r => rs.contains r && cls r == top) with
      | none => s
      | some w =>
        let s := { s with cars := SMap.put (List.range 16) b ((s.rankOrder b).filter (· != w) ++ [w]) s.cars }
        let s := ((s.wr (Csr.CARSTATE_owner b) w).wr (Csr.CARSTATE_parked b) 0).wr (Csr.CARWAIT_cur_wait b w) 0
        let s := (rs.filter (· != w)).foldl (fun s r => s.carLost c r) s
        s.carGrant c barred fails w

/-- R187, R140: requester `q` of stall `k`'s rake dispatch, which requests alone, wins it: the state after its round, unless it is masked or
the debug port holds it (R198, R199). -/
def State.rakeGrant (s : State) (k q : Nat) : Option State :=
  let c := Car.rake (Fin.ofNat 16 k)
  if s.on (Csr.CARSTATE_preempted (carBase c)) || s.carMasked (carBase c) q then none else some (s.carRound c (2 ^ q) [] false)

/-- CAROUSEL_ROUND. -/
def execCarouselRound (c : Car) (reqs : BitVec 16) (barred : List Nat) (fails : Bool) (s : State) :
    Outcome State Fault Refusal := .next (s.carRound c reqs.toNat barred fails)

/-- CARPRECNT of a Carousel. -/
def carPreCtr (b : Nat) : Ctr := ⟨Csr.CARPRECNT_count b, Csr.CARSTAT_pre_ovf b, 0, Ev.SCHED_COUNT_OVF, 0, 0⟩

/-- R240: the refreshes that a pre-emption repays have been issued. -/
def State.repaid (s : State) (c : Car) : State :=
  let one (s : State) (r : Nat) : State :=
    if (s.rankState c r).repaying then (s.issueRefresh c r).setRank c r (fun x => { x with postponed := 0, repaying := false }) else s
  match c with
  | .ddr k => ((s.chan k.val).ranks.map (·.1)).foldl one s
  | .stk k => (((s.chan (16 + 2 * k.val)).ranks.map (fun (kv : Nat × RankState) => kv.1)) ++ (s.chan (17 + 2 * k.val)).ranks.map (fun (kv : Nat × RankState) => 16 + kv.1)).foldl one s
  | _ => s

/-- R199: the pre-emptor takes the resource at a unit boundary, or gives it back: the suspended owner goes on without a round. The
debug port takes it only while it is unlocked (R458); refresh gives it back when its rank has repaid what was postponed (R240). -/
def State.carPreempt (s : State) (c : Car) (on : Bool) : State :=
  let b := carBase c
  let debug := match c with
    | .rake _ | .midway _ _ => true
    | _ => false
  if !on then (s.wr (Csr.CARSTATE_preempted b) 0).repaid c
  else if s.on (Csr.CARSTATE_preempted b) || (debug && s.debugLevel == 0) || s.carMasked b (s.rd (Csr.CARINFO_pre_idx b))
  then s
  else (s.wr (Csr.CARSTATE_preempted b) 1).count (carPreCtr b)

/-- CAROUSEL_PREEMPT. -/
def execCarouselPreempt (c : Car) (on : Bool) (s : State) : Outcome State Fault Refusal := .next (s.carPreempt c on)

end Sys2Proof.Machine
end

