-- ==== Sys2Proof/Machine/Access.lean ====
section
/-!
DEFINITION. Writes to a pan's memory and what they entail: the durability log (R290), the twin (R400) and the completion
cache's final responses (R387).
-/
namespace Sys2Proof.Machine

/-! ### Serving accesses at the granules that hold them (R129) -/

/-- R129: an address on a page that was switched, until its old granules are released, is served at the new ones. -/
def State.served (s : State) (a : Nat) : Nat :=
  match s.shoots.findSome? (fun x => x.switched.find? (fun c => decide (c.2.2.1 ≤ a) && decide (a < c.2.2.1 + span c.2.1))) with
  | some c => c.2.2.2 + (a - c.2.2.1)
  | none => a

/-- R129, R331: the line lies on a page that is being copied. -/
def State.copying (s : State) (a : Nat) : Bool :=
  s.shoots.any (fun x => x.copies.any (fun c => decide (c.2.2.1 ≤ a) && decide (a < c.2.2.1 + span c.2.1)))

/-- R331: from the start of a page move until its old granules are released, the line's granule is moving. -/
def State.moving (s : State) (a : Nat) : Bool := s.copying a || s.served a != a

/-! ### The durability log (R290 to R292) -/

/-- Heap counter `i` of Table 10-6: 0 HEAPRDCNT, 1 HEAPWRCNT, 2 HEAPERRCNT, 3 DURLINECNT, 4 DURCKPTCNT, 5 DURFULLCNT. -/
def heapCtr (i : Nat) : Ctr := ⟨⟨0x2C00200 + 8 * i, 0, 48, 0, false⟩, Csr.HEAPSTAT_cnt_ovf, i, Ev.HEAP_COUNT_OVF, 0, 0⟩

/-- Table 10-2: a log block of pan `n` with `crc` in its field. -/
def LogBlock.image (b : LogBlock) (n crc : Nat) : List Nat :=
  let desc := b.lines.flatMap (fun l => leBytes 8 (l.addr / 128 * 128 + l.pois % 4))
  let data := b.lines.flatMap (fun l => (l.data ++ List.replicate 128 0).take 128)
  let head := leBytes 8 b.seq ++ leBytes 4 crc ++ [n, b.lines.length, 0, 0]
  head ++ (desc ++ List.replicate 240 0).take 240 ++ (data ++ List.replicate 3840 0).take 3840

/-- Table 10-2: the crc of a block image: CRC-32C with the field zero, and seq as the fold value (R276). -/
def blockCrc (seq : Nat) (bs : List Nat) : Nat :=
  crcFinal 1 (crcUpdate 1 (crcSeed 1 (crcInit 1) (some seq)) (bs.take 8 ++ [0, 0, 0, 0] ++ bs.drop 12))

/-- The 4 KiB of a log block. -/
def LogBlock.bytes (b : LogBlock) (n : Nat) : List Nat := b.image n (blockCrc b.seq (b.image n 0))

/-- R297: a block of pan `n` that is read where block `seq` belongs, if it passes the check of Table 10-2. -/
def LogBlock.parse (n seq : Nat) (bs : List Nat) : Option LogBlock :=
  let at_ (i k : Nat) : Nat := ofLeBytes ((bs.drop i).take k)
  let k := at_ 13 1
  if at_ 0 8 = seq ∧ at_ 8 4 = blockCrc seq bs ∧ at_ 12 1 = n ∧ 1 ≤ k ∧ k ≤ 30 then
    some ⟨seq, (List.range k).map (fun i =>
      ⟨at_ (16 + 8 * i) 8 / 128 * 128 % 2 ^ 52, at_ (16 + 8 * i) 1 % 4, (bs.drop (256 + 128 * i)).take 128, 0⟩), true⟩
  else none

/-- Blocks that the log ring of pan `n` holds (R290). -/
def State.ringBlocks (s : State) (n : Nat) : Nat := s.rd (Csr.PANDUR_dur_log_units n) * 16

/-- DURPOS follows the ring. -/
def State.durPos (s : State) (n : Nat) : State :=
  let p := s.pan n
  (s.wr (Csr.DURPOS_head n) ((p.ring.head?.map (·.seq)).getD p.seq)).wr (Csr.DURPOS_tail n) p.seq

/-- R290: the open block of a pan closes and joins its ring; its writes are not durable until the ring writes complete. -/
def State.closeBlock (s : State) (n : Nat) : State :=
  let p := s.pan n
  if p.openLines = [] then s
  else (s.setPan n (fun p => { p with ring := p.ring ++ [⟨p.seq, p.openLines, false⟩], openLines := [], seq := p.seq + 1 })).durPos n

/-- The backing address of a line of pan `n` (R289). -/
def State.backingOf (s : State) (n a : Nat) : Option Nat :=
  let b := SMap.get 0 (a / granSize) (s.pan n).backing
  if b = 0 then none else some (b * granSize + a % granSize)

/-- R290, R292: a write to a line of durable pan `n` is logged: the line's image after the write, with the poison of its half-lines, joins
the open block, and its 4 KiB block is dirty. With the ring full it is not logged. -/
def State.logImage (s : State) (n line : Nat) (owner : DurOwner) (pois : Nat) (data : List Nat) : State :=
  match s.backingOf n (line * 128) with
  | none => s
  | some b =>
    let p := s.pan n
    let pos := p.pos
    let s := s.setPan n (fun p => { p with pos := pos + 1, undur := p.undur ++ [⟨pos, b, owner⟩],
                                           dirty := SMap.put false (b / 4096) true p.dirty })
    if s.ringBlocks n ≤ p.ring.length then
      let s := s.count (heapCtr 5)
      if p.logFull then s else (s.setPan n (fun p => { p with logFull := true })).raise Ev.DUR_LOG_FULL 5 n
    else
      let img : LogLine := ⟨b, pois, data, pos⟩
      let s := (s.setPan n (fun p => { p with openLines := p.openLines ++ [img] })).count (heapCtr 3)
      if 30 ≤ (s.pan n).openLines.length then s.closeBlock n else s

/-- R290: a write to a line of this node's memory is logged. -/
def State.logLine (s : State) (n line : Nat) (owner : DurOwner) : State :=
  let h (i : Nat) : Nat := if s.poisonAt (2 * line + i) then 2 ^ i else 0
  s.logImage n line owner (h 0 + h 1) (s.bytes (line * 128) 128)

/-- Lines of a local stretch. -/
def linesOf (a n : Nat) : List Nat := if n = 0 then [] else rangeFrom (a / 128) ((a + n - 1) / 128 - a / 128 + 1)

/-- The write of bytes to local memory on behalf of pan `n`, logged where the pan is durable. The result says that some
line was stored as poison on a channel out of service (R271). -/
def State.store (s : State) (acc : Acc) (n : Option Nat) (a : Nat) (bs : List PByte) (owner : DurOwner) : Bool × State :=
  let (oos, s) := s.writeMem acc a bs
  let s := match n with
    | some p => if s.panDurable p then (linesOf a bs.length).foldl (fun s l => s.logLine p l owner) s else s
    | none => s
  (oos, s)

/-! ### The twin (R400) -/

/-- The twin link exists and writes of mirrored pans go to it: PAIRED or RESYNCING, as PRIMARY (Table 14-12). -/
def State.twinUp (s : State) : Bool :=
  (s.rd Csr.TWINSTAT_state == 2 || s.rd Csr.TWINSTAT_state == 3) && s.rd Csr.TWINSTAT_role == 0

/-- Pan `n` is mirrored to the twin: its turn in a resync has come (R429). -/
def State.twinCovers (s : State) (n : Nat) : Bool := s.panMirrored n && s.twinUp && !s.twin.resync.tail.contains n

/-- R48: a mirrored pan runs unpaired. -/
def State.degrade (s : State) (n : Nat) : State :=
  if s.panMirrored n && s.panActive n && !s.on (Csr.PANSTAT_mirror_degraded n) then
    (s.wr (Csr.PANSTAT_mirror_degraded n) 1).raise Ev.PAN_MIRROR_DEGRADED 5 n
  else s

/-- R430, R400: the twin is declared lost. -/
def State.twinLost (s : State) : State :=
  let s := (s.wr Csr.TWINSTAT_state 4).raise Ev.TWIN_LOST 0 0
  (List.range 64).foldl State.degrade s

/-- R400: one MIRROR_WR for each line of a write. The twin link carries it; none is sent without one. -/
def State.mirrorLine (s : State) (n line id : Nat) : State :=
  let p := s.rd Csr.TWINCTL_port
  let h (i : Nat) : Nat := if s.poisonAt (2 * line + i) then 2 ^ i else 0
  let (t, e, s) := s.nextTag
  let m : Msg := { code := 0x10, dstNode := s.rd Csr.TWINSTAT_peer_node, srcNode := s.nodeId, life := s.lifeInit, tag := t, tagEpoch := e,
                   pan := n, length := 128, q2 := s.rd Csr.TWINSTAT_peer_node * 2 ^ 52 + line * 128, q3 := h 0 + h 1,
                   data := s.bytes (line * 128) 128 }
  let s := { s with fab := { s.fab with reqs := s.fab.reqs ++ [(⟨t, e, m.dstNode, p, .mirror id, m, 0, false⟩ : OutReq)] } }
  s.inject p 0 false m

/-- R47, R400: the lines of a write to a mirrored pan go to the twin; `k` says how many MIRROR_WRs the original write now
waits for. A MIRROR_WR that has no link to go on declares the twin lost. -/
def State.mirrorOut (s : State) (n : Nat) (lines : List Nat) (id : Nat) : Nat × State :=
  if s.twinCovers n then
    if s.linkUp (s.rd Csr.TWINCTL_port) then (lines.length, lines.foldl (fun s l => s.mirrorLine n l id) s)
    else (0, s.twinLost)
  else (0, if s.panMirrored n then s.degrade n else s)

/-! ### Final responses and the completion cache (R387) -/

/-- Requests marked Cached in Table 13-2. -/
def isCached (code : Nat) : Bool := [0x02, 0x0B, 0x0C, 0x0D, 0x10, 0x41, 0x42, 0x44, 0x45, 0x46, 0x47].contains code

/-- Key of a request in the completion cache: source key, tag and tag epoch (R377, R387). -/
def ccKey (node port : Nat) (partner : Bool) (tag epoch : Nat) : Nat :=
  ((node * 8 + port) * 2 + (if partner then 1 else 0)) * 2 ^ 32 + tag * 2 ^ 16 + epoch

/-- Key of a request. -/
def reqKey (m : Msg) : Nat := ccKey m.srcNode m.srcPort m.srcPartner m.tag m.tagEpoch

/-- Key of the request that a response answers. -/
def rspKey (m : Msg) : Nat := ccKey m.dstNode m.dstPort m.dstPartner m.tag m.tagEpoch

/-- R387: a request that is performed gets its entry. -/
def State.ccMake (s : State) (m : Msg) : State :=
  if isCached m.code then { s with fab := { s.fab with cc := s.fab.cc ++ [⟨reqKey m, none⟩], ccFull := false } } else s

/-- R407: a request that arrived at a port tile is tagged with the current epoch. -/
def State.nxEnter (s : State) (m : Msg) : State :=
  { s.epochEnter with fab := { s.fab with live := s.fab.live ++ [(reqKey m, s.liveSet)] } }

/-- R407: the request with key `k` leaves the count of its epoch. -/
def State.nxLeave (s : State) (k : Nat) : State :=
  match s.fab.live.find? (fun x => x.1 == k) with
  | some x => { s with fab := { s.fab with live := s.fab.live.erase x } }.epochLeave x.2
  | none => s

/-- R387: a request is over with its final response, which the entry of the request, if any, keeps. -/
def State.conclude (s : State) (rsp : Msg) : State :=
  let k := rspKey rsp
  let s := s.nxLeave k
  { s with fab := { s.fab with cc := s.fab.cc.map (fun (c : CcEntry) => if c.key = k ∧ c.rsp = none then { c with rsp := some rsp } else c) } }

/-- R380, R387: a final response is sent. -/
def State.finish (s : State) (rsp : Msg) : State := (s.conclude rsp).reply rsp

/-- R47, R380: the final response to a write of `lines` of pan `n` is sent once the twin has them. -/
def State.finishWrite (s : State) (n : Nat) (lines : List Nat) (rsp : Msg) : State :=
  let id := s.fab.nextId
  let s := { s with fab := { s.fab with nextId := id + 1 } }
  match s.mirrorOut n lines id with
  | (0, s) => s.finish rsp
  | (k, s) => { s with fab := { s.fab with mirrors := s.fab.mirrors ++ [⟨id, k, some rsp, 0⟩] } }

end Sys2Proof.Machine
end

