-- ==== Sys2Proof/Machine/Journal.lean ====
section
/-!
DEFINITION. The Ringmaster pair's journal (R416) and the control messages to the twin (R424).
-/
namespace Sys2Proof.Machine

/-- TRPSTAT.a_state or b_state: 0 OFF, 1 BOOTING, 2 SYNCING, 3 STANDBY, 4 ACTIVE, 5 FAILED (R414). -/
def State.rmState (s : State) (b : Bool) : Nat := s.rd (if b then Csr.TRPSTAT_b_state else Csr.TRPSTAT_a_state)

/-- An instance enters a state. -/
def State.setRmState (s : State) (b : Bool) (x : Nat) : State := s.wr (if b then Csr.TRPSTAT_b_state else Csr.TRPSTAT_a_state) x

/-- The ACTIVE instance, if there is one. -/
def State.rmActive (s : State) : Option Bool := [false, true].find? (fun b => s.rmState b == 4)

/-- The instance that holds the claim (CLAIMCUR.holder). -/
def State.rmHolder (s : State) : Bool := s.on Csr.CLAIMCUR_holder

/-- R415: a recovery is in progress while queues of a failed stall move, the twin resynchronises or an instance is SYNCING; FULL
applies then, while boot is incomplete and while TRPCTL.test = 1. -/
def State.rmLevels (s : State) : State :=
  let rec_ := !s.rm.moving.isEmpty || s.rd Csr.TWINSTAT_state == 3 || s.rmState false == 2 || s.rmState true == 2
  let full := rec_ || s.rd Csr.BOOTSTAT_stage != 7 || s.on Csr.TRPCTL_test
  (s.wr Csr.TRPSTAT_recovering (if rec_ then 1 else 0)).wr Csr.TRPSTAT_mode (if full then 1 else 0)

/-- Number of an instance: 0 A, 1 B. -/
def rmNum (b : Bool) : Nat := if b then 1 else 0

/-- EPOCHCUR as one number, its set in bit 16. -/
def State.epochNow (s : State) : Nat := s.rd Csr.EPOCHCUR_counter + s.rd Csr.EPOCHCUR_set * 65536

/-- Journals that a record of instance `b` enters: its own, and the standby's if there is one in SYNCING or STANDBY (R416). -/
def State.jrnlsOf (s : State) (b : Bool) : List Bool :=
  b :: (if s.rmState (!b) = 2 ∨ s.rmState (!b) = 3 then [!b] else [])

/-- A record enters the journal of one instance at its next slot. -/
def State.jSlot (s : State) (b : Bool) (r : JRec) : State :=
  let k := rmNum b
  let p := s.rd (Csr.RMJRNL_producer k)
  let s := { s with rm := { s.rm with jrnl := s.rm.jrnl.filter (fun (e : Nat × Nat × JRec) => !(e.1 == k && e.2.1 == p)) ++ [(k, p, r)] } }
  s.wr (Csr.RMJRNL_producer k) ((p + 1) % 16384)

/-- A record of instance `b` (Table 14-5) enters its journal and the standby's; its number. -/
def State.jPut (s : State) (b : Bool) (kind cmd status ref : Nat) (args : List Nat) : Nat × State :=
  let q := s.rm.seq + 1
  let r : JRec := ⟨q, kind, cmd, rmNum b, status, s.claimOf b, s.epochNow, ref, s.stamp, args⟩
  let s := { s with rm := { s.rm with seq := q } }
  (q, (s.jrnlsOf b).foldl (fun s j => s.jSlot j r) s)

/-- The START record of a command of class `cmd` (Table 14-7). -/
def State.jStart (s : State) (b : Bool) (cmd : Nat) (args : List Nat) : Nat × State := s.jPut b 1 cmd 0 0 args

/-- The DONE record of the command that record `ref` started. -/
def State.jDone (s : State) (b : Bool) (ref status : Nat) : State := (s.jPut b 2 0 status ref []).2

/-- A privileged instruction on rake `r` starts. -/
def State.jOpen (s : State) (r : Nat) (b : Bool) (cmd : Nat) (args : List Nat) : State :=
  let (q, s) := s.jStart b cmd args
  { s with rm := { s.rm with opened := s.rm.opened ++ [(r, q)] } }

/-- The privileged instruction on rake `r`, if it runs one, ends with a status. -/
def State.jClose (s : State) (r : Nat) (b : Bool) (status : Nat) : State :=
  match s.rm.opened.find? (fun o => o.1 == r) with
  | some o => { s with rm := { s.rm with opened := s.rm.opened.filter (fun (o : Nat × Nat) => o.1 != r) } }.jDone b o.2 status
  | none => s

/-- A command that starts and ends at once: its START and DONE records around its effect. -/
def State.journaled (s : State) (b : Bool) (cmd : Nat) (args : List Nat) (f : State → State) (status : State → Nat) : State :=
  let (q, s) := s.jStart b cmd args
  let s := f s
  s.jDone b q (status s)

/-! ### The twin (R423 to R425) -/

/-- A control message to the twin with the fields after its code (Table 14-8). -/
def State.twinCtrl (s : State) (code : Nat) (fs : List (Nat × Nat × Nat)) : State :=
  s.ctrl (s.rd Csr.TWINCTL_port) ((0, 1, code) :: fs)

/-- R416, R424: a twin message that changes state: journaled as class 7, sent with its journal seq, and kept until it is
acknowledged. -/
def State.twinSend (s : State) (code : Nat) (fs : List (Nat × Nat × Nat)) : Nat × State :=
  let fs := (0, 1, code) :: fs
  let (q, s) := s.jStart ((s.rmActive).getD false) 7 (ctrlBytes fs)
  let fs := fs ++ [(16, 8, q)]
  let s := { s with twin := { s.twin with wait := s.twin.wait ++ [(q, ctrlBytes fs)] } }
  (q, s.ctrl (s.rd Csr.TWINCTL_port) fs)

/-- R425, R428: changes of a mirrored pan are sent while this node is PRIMARY of a pair. -/
def State.twinFollows (s : State) (n : Nat) : Bool := s.twinCovers n

/-- TWIN_ALLOC (R428): op 0 ALLOC, 1 RELEASE of `k` granules of pan `n` from granule `g` on. -/
def State.twinAlloc (s : State) (op n g k : Nat) : Nat × State := s.twinSend 0x62 [(1, 1, op), (2, 1, n), (4, 4, g), (8, 4, k)]

/-- TWIN_PAN with pan images or map operands (R425). -/
def State.twinPan (s : State) (kind n : Nat) (body : List (Nat × Nat × Nat)) : Nat × State :=
  s.twinSend 0x64 ([(1, 1, kind), (2, 1, n)] ++ body)

/-- The images of a pan: PANCTL, the four quotas, PANSPILL and PANDUR, in the layout of CARVE's descriptor, from byte 24 on. -/
def State.panImages (s : State) (n : Nat) : List (Nat × Nat × Nat) :=
  let w (o : Nat) : Nat := match Csr.find o with
    | some r => ((r.fields.filter (fun f => f.acc == .rws)).map (fun f => s.rd (f.fld o) * 2 ^ f.lo)).sum
    | none => 0
  let b := 0x20000 + 0x100 * n
  [(24, 8, w b)] ++ (List.range 4).map (fun t => (32 + 8 * t, 8, w (b + 0x10 + 8 * t))) ++ [(64, 8, w (b + 0x50)), (72, 8, w (b + 0x58))]

/-- TWIN_PAN with the images of pan `n`, from a PRIMARY. -/
def State.twinImages (s : State) (n : Nat) : State := if s.twinFollows n then (s.twinPan 0 n (s.panImages n)).2 else s

/-- A release of DDR5 granules of a mirrored pan is told to the twin (R428). -/
def State.twinRelease (s : State) (n : Nat) (gs : List Nat) : State :=
  if s.twinFollows n then (gs.filter (fun g => tierOf (g * granSize) == 1)).foldl (fun s g => (s.twinAlloc 1 n g 1).2) s else s

end Sys2Proof.Machine
end

