-- ==== Sys2Proof/Machine/Fp.lean ====
section
/-!
DEFINITION. Number formats of context math (R141 to R145) and AFADD (R122): exact values, one rounding to binary32 or
BF16, and the operations of chapter 05 on them.
-/
namespace Sys2Proof.Machine

/-- An exact value: NaN, an infinity, or (-1)^neg * m * 2^e; a zero keeps its sign. -/
inductive Fv where
  | nan
  | inf (neg : Bool)
  | fin (neg : Bool) (m : Nat) (e : Int)
deriving DecidableEq, Repr

/-- Bits of a number. -/
def bitLen (n : Nat) : Nat := if n = 0 then 0 else Nat.log2 n + 1

/-- `m * 2^-k` rounded to nearest even. -/
def rneShift (m k : Nat) : Nat :=
  let q := m / 2 ^ k
  let r := m % 2 ^ k
  if k = 0 then m
  else if 2 ^ (k - 1) < r || (r == 2 ^ (k - 1) && q % 2 == 1) then q + 1 else q

/-- `m * 2^e` rounded to nearest even to `p` bits, with exponents of the last bit from `qmin` up. -/
def roundTo (p : Nat) (qmin : Int) (m : Nat) (e : Int) : Nat × Int :=
  let q := max (e + bitLen m - p) qmin
  let r := if q ≤ e then m * 2 ^ (e - q).toNat else rneShift m (q - e).toNat
  if 2 ^ p ≤ r then (r / 2, q + 1) else (r, q)

/-- The value of a binary32 pattern. -/
def Fv.of32 (b : Nat) : Fv :=
  let neg := bitOf b 31
  let x := bitsOf b 23 8
  let f := bitsOf b 0 23
  if x = 255 then (if f = 0 then .inf neg else .nan)
  else if x = 0 then .fin neg f (-149)
  else .fin neg (2 ^ 23 + f) (x - 150)

/-- R141, `rne32`: rounded once to binary32, to nearest even, with gradual underflow and overflow to infinity; every NaN is
0x7FC0_0000. -/
def Fv.to32 : Fv → Nat
  | .nan => 0x7FC00000
  | .inf neg => (if neg then 2 ^ 31 else 0) + 0x7F800000
  | .fin neg m e =>
    let s := if neg then 2 ^ 31 else 0
    if m = 0 then s
    else
      let (r, q) := roundTo 24 (-149) m e
      if 104 < q then s + 0x7F800000
      else if r < 2 ^ 23 then s + r
      else s + (q + 150).toNat * 2 ^ 23 + (r - 2 ^ 23)

/-- R141: rounded once to BF16; every NaN is 0x7FC0. -/
def Fv.toBf : Fv → Nat
  | .nan => 0x7FC0
  | .inf neg => (if neg then 2 ^ 15 else 0) + 0x7F80
  | .fin neg m e =>
    let s := if neg then 2 ^ 15 else 0
    if m = 0 then s
    else
      let (r, q) := roundTo 8 (-133) m e
      if 120 < q then s + 0x7F80
      else if r < 2 ^ 7 then s + r
      else s + (q + 134).toNat * 2 ^ 7 + (r - 2 ^ 7)

/-- Exact product: infinity by zero is NaN (R150). -/
def Fv.mul : Fv → Fv → Fv
  | .nan, _ => .nan
  | _, .nan => .nan
  | .inf a, .inf b => .inf (a != b)
  | .inf a, .fin b m _ => if m = 0 then .nan else .inf (a != b)
  | .fin a m _, .inf b => if m = 0 then .nan else .inf (a != b)
  | .fin a m e, .fin b n f => .fin (a != b) (m * n) (e + f)

/-- A finite value's signed significand at exponent `q`, where `q` is at most its own. -/
def sigAt (neg : Bool) (m : Nat) (e q : Int) : Int :=
  let x : Int := m * 2 ^ (e - q).toNat
  if neg then -x else x

/-- Exact sum: opposite infinities are NaN; a zero sum is +0 unless both terms are -0. -/
def Fv.add : Fv → Fv → Fv
  | .nan, _ => .nan
  | _, .nan => .nan
  | .inf a, .inf b => if a = b then .inf a else .nan
  | .inf a, .fin _ _ _ => .inf a
  | .fin _ _ _, .inf b => .inf b
  | .fin a m e, .fin b n f =>
    let q := min e f
    let z := sigAt a m e q + sigAt b n f q
    if z = 0 then .fin (a && b && m == 0 && n == 0) 0 0 else .fin (decide (z < 0)) z.natAbs q

/-- The value negated. -/
def Fv.neg : Fv → Fv
  | .nan => .nan
  | .inf a => .inf (!a)
  | .fin a m e => .fin (!a) m e

/-- `a` times 2^k. -/
def Fv.scale (k : Int) : Fv → Fv
  | .nan => .nan
  | .inf a => .inf a
  | .fin a m e => .fin a m (e + k)

/-- Not a finite value (R157). -/
def Fv.nonfinite : Fv → Bool
  | .nan => true
  | .inf _ => true
  | .fin _ _ _ => false

/-- NaN. -/
def Fv.isNan : Fv → Bool
  | .nan => true
  | .inf _ => false
  | .fin _ _ _ => false

/-- `a < b` for values that are not NaN; zeros are equal. -/
def Fv.lt : Fv → Fv → Bool
  | .nan, _ => false
  | _, .nan => false
  | .inf a, .inf b => a && !b
  | .inf a, .fin _ _ _ => a
  | .fin _ _ _, .inf b => !b
  | .fin a m e, .fin b n f => decide (sigAt a m e (min e f) < sigAt b n f (min e f))

/-- Whether a value is a negative zero. -/
def Fv.negZero : Fv → Bool
  | .nan => false
  | .inf _ => false
  | .fin a m _ => a && m == 0

/-- The larger of two values that are not NaN; +0 before -0, so that the result does not depend on the order. -/
def Fv.max (a b : Fv) : Fv := if a.lt b || (a.negZero && !b.lt a) then b else a

/-- binary32 multiply and add, each rounded (the FP32 vector unit). -/
def mul32 (a b : Nat) : Nat := ((Fv.of32 a).mul (Fv.of32 b)).to32
def add32 (a b : Nat) : Nat := ((Fv.of32 a).add (Fv.of32 b)).to32

/-- binary32 pattern is NaN. -/
def nan32 (a : Nat) : Bool := (Fv.of32 a).isNan

/-- Exact quotient to enough bits, the last one sticky, so that one rounding of it is the rounding of the quotient. -/
def Fv.div : Fv → Fv → Fv
  | .nan, _ => .nan
  | _, .nan => .nan
  | .inf _, .inf _ => .nan
  | .inf a, .fin b _ _ => .inf (a != b)
  | .fin a _ _, .inf b => .fin (a != b) 0 0
  | .fin a m e, .fin b n f =>
    if n = 0 then (if m = 0 then .nan else .inf (a != b))
    else if m = 0 then .fin (a != b) 0 0
    else
      let k := bitLen n + 64
      let q := m * 2 ^ k / n
      let r := m * 2 ^ k % n
      .fin (a != b) (2 * q + (if r = 0 then 0 else 1)) (e - f - k - 1)

/-! ### MX element formats (R142 to R145) -/

/-- Bits of an element of a format code of Table 05-2. -/
def fmtBits (fmt : Nat) : Nat := if fmt ≤ 1 ∨ fmt = 5 then 8 else if fmt ≤ 3 then 6 else if fmt = 4 then 4 else 16

/-- Mantissa bits and bias of the float formats 0 to 4. -/
def fmtMant (fmt : Nat) : Nat := if fmt = 0 ∨ fmt = 2 then 3 else if fmt = 1 ∨ fmt = 3 then 2 else 1
def fmtBias (fmt : Nat) : Nat := if fmt = 0 then 7 else if fmt = 1 then 15 else if fmt = 3 then 3 else 1

/-- emax of Table 05-2. -/
def fmtEmax (fmt : Nat) : Nat := if fmt = 0 then 8 else if fmt = 1 then 15 else if fmt = 3 then 4 else if fmt = 5 then 0 else 2

/-- The value of an element (Table 05-2). -/
def Fv.ofElem (fmt b : Nat) : Fv :=
  if fmt = 5 then (let x := toSigned 8 b; .fin (decide (x < 0)) x.natAbs (-6))
  else if fmt = 6 then Fv.of32 (b % 2 ^ 16 * 2 ^ 16)
  else
    let w := fmtBits fmt
    let k := fmtMant fmt
    let neg := bitOf b (w - 1)
    let x := bitsOf b k (w - 1 - k)
    let f := bitsOf b 0 k
    if fmt = 0 ∧ x = 15 ∧ f = 7 then .nan
    else if fmt = 1 ∧ x = 31 then (if f = 0 then .inf neg else .nan)
    else if x = 0 then .fin neg f (1 - (fmtBias fmt : Int) - k)
    else .fin neg (2 ^ k + f) ((x : Int) - fmtBias fmt - k)

/-- R143: an element times its block's E8M0 scale byte; 0xFF makes it NaN. BF16 blocks have no scale. -/
def Fv.scaled (fmt elem scale : Nat) : Fv :=
  if fmt = 6 then Fv.ofElem 6 elem
  else if scale = 0xFF then .nan
  else (Fv.ofElem fmt elem).scale ((scale : Int) - 127)

/-- The largest finite significand pattern of a float format, as an element without sign. -/
def fmtTop (fmt : Nat) : Nat := if fmt = 0 then 0x7E else if fmt = 1 then 0x7B else if fmt = 2 ∨ fmt = 3 then 0x1F else 7

/-- R145, `round_rne_saturate`. -/
def Fv.toElem (fmt : Nat) : Fv → Nat
  | .nan => 0
  | .inf _ => 0
  | .fin neg m e =>
    if fmt = 5 then
      let r := if 0 ≤ e + 6 then m * 2 ^ (e + 6).toNat else rneShift m (-(e + 6)).toNat
      let r := min r 127
      if neg then (256 - r) % 256 else r
    else
      let k := fmtMant fmt
      let s := if neg then 2 ^ (fmtBits fmt - 1) else 0
      if m = 0 then s
      else
        let qmin : Int := 1 - (fmtBias fmt : Int) - k
        let (r, q) := roundTo (k + 1) qmin m e
        let enc := if r < 2 ^ k then r else (q - qmin + 1).toNat * 2 ^ k + (r - 2 ^ k)
        s + min enc (fmtTop fmt)

/-- floor(log2 |v|) of a finite non-zero value. -/
def floorLog2 (m : Nat) (e : Int) : Int := e + (bitLen m : Int) - 1

/-- R145, `quantize_block`: scale byte, elements and whether some value was not finite. -/
def quantizeBlock (fmt : Nat) (vs : List Fv) : Nat × List Nat × Bool :=
  if vs.any (·.nonfinite) then (0xFF, vs.map (fun _ => 0), true)
  else
    let logs := vs.filterMap (fun v => match v with
      | .fin _ m e => if m = 0 then none else some (floorLog2 m e)
      | .inf _ => none
      | .nan => none)
    match logs with
    | [] => (0, vs.map (fun _ => 0), false)
    | l :: t =>
      let x := Max.max (-127) (min 127 (t.foldl Max.max l - fmtEmax fmt))
      ((x + 127).toNat, vs.map (fun v => (v.scale (-x)).toElem fmt), false)

/-! ### The exponent (R151) -/

/-- T[i] of R151. -/
def expTable : List Nat :=
  [0x80000000, 0x8164D1F4, 0x82CD8699, 0x843A28C4, 0x85AAC368, 0x871F6197, 0x88980E81, 0x8A14D575]
  ++ [0x8B95C1E4, 0x8D1ADF5B, 0x8EA4398B, 0x9031DC43, 0x91C3D374, 0x935A2B2F, 0x94F4EFA9, 0x96942D37]
  ++ [0x9837F052, 0x99E04593, 0x9B8D39BA, 0x9D3ED9A7, 0x9EF53261, 0xA0B05110, 0xA2704303, 0xA43515AE]
  ++ [0xA5FED6AA, 0xA7CD93B5, 0xA9A15AB5, 0xAB7A39B6, 0xAD583EEA, 0xAF3B78AD, 0xB123F582, 0xB311C413]
  ++ [0xB504F334, 0xB6FD91E3, 0xB8FBAF47, 0xBAFF5AB2, 0xBD08A39F, 0xBF1799B6, 0xC12C4CCA, 0xC346CCDA]
  ++ [0xC5672A11, 0xC78D74C9, 0xC9B9BD86, 0xCBEC14FF, 0xCE248C15, 0xD06333DB, 0xD2A81D92, 0xD4F35AAC]
  ++ [0xD744FCCB, 0xD99D15C2, 0xDBFBB798, 0xDE60F482, 0xE0CCDEEC, 0xE33F8973, 0xE5B906E7, 0xE8396A50]
  ++ [0xEAC0C6E8, 0xED4F301F, 0xEFE4B99C, 0xF281773C, 0xF5257D15, 0xF7D0DF73, 0xFA83B2DB, 0xFD3E0C0D]

/-- R151, `exp_approx`, on a binary32 pattern. -/
def expApprox (b : Nat) : Nat :=
  match Fv.of32 b with
  | .nan => 0x7FC00000
  | .inf neg => if neg then 0 else 0x3F800000
  | .fin neg m e =>
    if m = 0 ∨ neg = false then 0x3F800000
    else if (Fv.fin true m e).lt (.fin true 104 0) then 0
    else
      -- t = -(m * LOG2E) * 2^(e - 40), with LOG2E scaled by 2^40
      let num : Int := -((m * 0x171547652B8 : Nat) : Int)
      let sh := 40 - e
      let den : Int := 2 ^ sh.toNat
      let num := num * 2 ^ (-sh).toNat
      let k := num / den
      let fr := ((num - k * den) * 2 ^ 32 / den).toNat
      let i := fr / 2 ^ 26
      let r := fr % 2 ^ 26
      let p := 2 ^ 32 + 0xB17217F8 * r / 2 ^ 32 + 0x3D7F7BFF * r * r / 2 ^ 64 + 0x0E35846C * r * r * r / 2 ^ 96
      (Fv.fin false (expTable.getD i 0 * p / 2 ^ 32) (k - 31)).to32

/-! ### Atomics (Table 04-9, R122) -/

/-- R122: the sum of AFADD. -/
def afadd (a b : Nat) : Nat := add32 a b

end Sys2Proof.Machine
end

