-- ==== Sys2Proof/Machine/Coh.lean ====
section
/-!
DEFINITION. Coherence at the home (chapter 11): the directory, busy lines, snoops and acknowledgements, NAK and
reservations, atomics, and lost agents.
-/
namespace Sys2Proof.Machine

/-! ### Atomic operations (Table 04-9) -/

/-- The new value at the address, of `8 * sz` bits, for opcode `o` of Table 04-9; `c` is the compare value of ACAS. -/
def atomNew (o sz old v c : Nat) : Nat :=
  let w := 8 * sz
  let m := 2 ^ w
  let v := v % m
  if o = 0x30 then (old + v) % m
  else if o = 0x31 then old &&& v
  else if o = 0x32 then old ||| v
  else if o = 0x33 then old ^^^ v
  else if o = 0x34 then min old v
  else if o = 0x35 then max old v
  else if o = 0x36 then (if toSigned w old ≤ toSigned w v then old else v)
  else if o = 0x37 then (if toSigned w old ≤ toSigned w v then v else old)
  else if o = 0x38 then v
  else if o = 0x39 then (if old = c % m then v else old)
  else afadd old v

/-! ### Members (R32, R303) -/

/-- The MEMBER entry that a source and a pan name. -/
def State.memberOf (s : State) (node port pan : Nat) : Option Nat :=
  firstBelow (fun i => s.on (Csr.MEMBER_valid i) && s.rd (Csr.MEMBER_src_node i) == node && s.rd (Csr.MEMBER_src_port i) == port
    && s.rd (Csr.MEMBER_pan i) == pan) 1024

/-- R316: the members that an INV or INV_D aimed at the sharers of an entry goes to, except `r`. -/
def State.sharers (s : State) (e : Nat) (r : Option Nat) : List Nat :=
  (if entCoarse e then
    (List.range 1024).filter (fun i => bitOf e (64 + i % 64) && s.on (Csr.MEMBER_valid i) && s.on (Csr.MEMBER_rd i)
      && s.rd (Csr.MEMBER_pan i) == entPan e)
   else entPtrs e).filter (fun i => some i != r)

/-- R326: the member is gone. -/
def State.gone (s : State) (i : Nat) : Bool := s.bit (Csr.COHGONE_gone (i / 64)) (i % 64)

/-! ### Messages (Table 11-2, Table 13-3) -/

/-- Fields of the coherence word. -/
def cwPoison (m : Msg) : Nat := bitsOf m.q3 0 2
def cwRetry (m : Msg) : Nat := bitsOf m.q3 4 4
def cwState (m : Msg) : Nat := bitsOf m.q3 8 3
def cwGo (m : Msg) : Bool := bitOf m.q3 11
def cwHint (m : Msg) : Bool := bitOf m.q3 15
def cwOp (m : Msg) : Nat := bitsOf m.q3 16 8
def cwSize (m : Msg) : Nat := if bitOf m.q3 24 then 8 else 4
def cwOffset (m : Msg) : Nat := bitsOf m.q3 25 7

/-- Line of a coherent request's address. -/
def lineOf (m : Msg) : Nat := m.q2 % 2 ^ 52 / 128

/-- Bytes with the poison of their half-lines as a message carries them. -/
def withPoison (bs : List Nat) (p : Nat) : List PByte := bs.zipIdx.map (fun (b, i) => (b, bitOf p (i / 64)))

/-- Poison of the half-lines of a line image. -/
def linePoison (bs : List PByte) : Nat :=
  (if (bs.take 64).any (·.2) then 1 else 0) + (if (bs.drop 64).any (·.2) then 2 else 0)

/-- DATA from the home (0x60) with a grant; `go` and `far` of Table 13-3. -/
def State.dataMsg (s : State) (m : Msg) (grant : Nat) (go far : Bool) (bs : List PByte) : Msg :=
  { s.respond m 0x60 0 with
      q3 := linePoison bs + grant * 256 + (if go then 2 ^ 11 else 0) + (if far then 2 ^ 12 else 0), data := bs.map (·.1) }

/-- GO with a grant. -/
def State.goMsg (s : State) (m : Msg) (grant : Nat) (far : Bool) : Msg :=
  { s.respond m 0x61 0 with q3 := grant * 256 + (if far then 2 ^ 12 else 0) }

/-- CMP with a status. -/
def State.cmpMsg (s : State) (m : Msg) (status : Nat) : Msg := s.respond m 0x67 status

/-- WB_ACK. -/
def State.wbAck (s : State) (m : Msg) (pending gone : Bool) : Msg :=
  { s.respond m 0x66 0 with q3 := (if pending then 2 ^ 14 else 0), accepted := false, gone := gone }

/-! ### Busy lines -/

/-- Replaces the transactions. -/
def State.setTxns (s : State) (f : List Txn → List Txn) : State := { s with coh := { s.coh with txns := f s.coh.txns } }

/-- Changes the transaction of a line. -/
def State.updTxn (s : State) (d : Nat) (f : Txn → Txn) : State :=
  s.setTxns (fun ts => ts.map (fun t => if t.line = d then f t else t))

/-- A line is no longer busy. The request for which its way was evicted is held no longer (R318). -/
def State.freeLine (s : State) (d : Nat) : State :=
  match s.txn d with
  | none => s
  | some t =>
    let s := (s.setTxns (fun ts => ts.filter (fun t => t.line != d))).epochLeave t.tag
    match t.who with
    | .req _ m _ => s.nxLeave (reqKey m)
    | .evict p m r => { s with coh := { s.coh with held := s.coh.held ++ [(p, m, r)] } }
    | _ => s

/-- A transaction that has just begun. -/
def Txn.start (d ent : Nat) (who : TxnWho) : Txn := ⟨d, who, ent, [], none, false, none, none, false, false, false, false, [], false, 0⟩

/-- A line becomes busy; what is written to a lent line in it goes to its lender (`image` says that it has none yet). -/
def State.busy (s : State) (d ent : Nat) (who : TxnWho) : State :=
  let lent := (s.lentSlot (s.nodeId * 2 ^ 52 + d * 128)).isSome
  s.epochEnter.setTxns (fun ts => ts ++ [{ Txn.start d ent who with tag := s.liveSet, mem := if lent then some (List.replicate 128 (0, false)) else none }])

/-- R306: a snoop to a member; false when no path to it remains (R326). The answer will carry the home's tag. -/
def State.snoop (s : State) (d member code : Nat) (req : Option Msg) (msi : Bool) : Bool × State :=
  let (t, e, s) := s.nextTag
  let arg := match req with
    | some m => leBytes 2 m.tag ++ leBytes 2 m.tagEpoch
        ++ leBytes 2 (m.srcNode + m.srcPort * 4096 + (if m.srcPartner then 32768 else 0)) ++ List.replicate 10 0
    | none => []
  let x : Msg := { code := code, dstPartner := true, dstPort := s.rd (Csr.MEMBER_src_port member), dstNode := s.rd (Csr.MEMBER_src_node member),
                   srcNode := s.nodeId, life := s.lifeInit, tag := t, tagEpoch := e, pan := s.rd (Csr.MEMBER_pan member),
                   q2 := s.nodeId * 2 ^ 52 + d * 128, q3 := (if msi then 2 ^ 13 else 0), data := arg }
  let s := if code ≤ 0x52 then s.count (cohCtr (dirSlice d) 7) else s
  let s := s.updTxn d (fun y => { y with snoops := y.snoops ++ [(⟨t, e, member, code⟩ : Snoop)] })
  match s.send x with
  | (0, s) => (true, s)
  | (_, s) => (false, s)

/-! ### Memory of a line at its home -/

/-- The lent slot of a line of this node. -/
def State.lineSlot (s : State) (d : Nat) : Option Nat := s.lentSlot (s.nodeId * 2 ^ 52 + d * 128)

/-- The address that serves line `d` (R129). -/
def State.lineAddr (s : State) (d : Nat) : Nat := s.served (d * 128)

/-- The requester of Table 08-4 that a busy line's reads are of: demoted ones (R193), or coherence. -/
def State.lineReq (s : State) (d : Nat) : Nat :=
  match (s.txn d).map (fun t => t.who) with
  | some (TxnWho.req q _ _) => if q = 13 then 13 else 9
  | _ => 9

/-- The line's image for pan `n`: from memory, or what its lender delivered. -/
def State.lineRead (s : State) (n d : Nat) : List PByte × State :=
  match (s.txn d).bind (·.mem) with
  | some bs => (bs, s)
  | none => s.readMem ⟨some n, s.lineReq d, false, 0⟩ (s.lineAddr d) 128

/-- Consecutive bytes of a line that a mask enables, as (offset, bytes). -/
def maskRuns (mask : Nat) (bs : List PByte) : List (Nat × List PByte) :=
  (bs.zipIdx.foldl (fun (r : List (Nat × List PByte)) (b, i) =>
    if bitOf mask i then
      match r with
      | (o, l) :: t => if o + l.length = i then (o, l ++ [b]) :: t else (i, [b]) :: (o, l) :: t
      | [] => [(i, [b])]
    else r) []).reverse

/-- A masked write to a line at its home: to memory, or to the image that goes to its lender; whether it met a channel out of service
(R271). -/
def State.lineStore (s : State) (n d mask : Nat) (bs : List PByte) : Bool × State :=
  match (s.txn d).bind (·.mem) with
  | some old =>
    let img := (List.range 128).map (fun i => if bitOf mask i then bs.getD i (0, false) else old.getD i (0, false))
    (false, s.updTxn d (fun t => { t with mem := some img, fetch := true }))
  | none =>
    (maskRuns mask bs).foldl (fun (r : Bool × State) (o, l) =>
      let x := r.2.store ⟨some n, 8, false, 0⟩ (some n) (r.2.lineAddr d + o) l .other
      (r.1 || x.1, x.2)) (false, s)

/-- A masked write to a line at its home. -/
def State.lineWrite (s : State) (n d mask : Nat) (bs : List PByte) : State := (s.lineStore n d mask bs).2

/-- R47: a line of a mirrored pan that the home wrote on its own account goes to the twin; nothing waits for it. -/
def State.mirrorBack (s : State) (n d : Nat) : State :=
  if s.panMirrored n && (s.lineSlot d).isNone then
    let id := s.fab.nextId
    match ({ s with fab := { s.fab with nextId := id + 1 } } : State).mirrorOut n [d] id with
    | (0, s) => s
    | (k, s) => { s with fab := { s.fab with mirrors := s.fab.mirrors ++ [⟨id, k, none, 0⟩] } }
  else s

/-- The mask of a whole line. -/
def allBytes : Nat := 2 ^ 128 - 1

/-- R310, R326: the home writes the line poisoned. -/
def State.linePoisoned (s : State) (n d : Nat) : State := (s.lineWrite n d allBytes (List.replicate 128 (0, true))).mirrorBack n d

/-- COHPROTCNT, COHLOSTCNT. -/
def protCtr : Ctr := ⟨Csr.COHPROTCNT_count, Csr.COHSTAT_prot_ovf, 0, Ev.COH_COUNT_OVF, 0, 0⟩
def lostCtr : Ctr := ⟨Csr.COHLOSTCNT_count, Csr.COHSTAT_lost_ovf, 0, Ev.COH_COUNT_OVF, 0, 0⟩

/-- R310: a breach on a line; COH_PROTOCOL once per line. -/
def State.breach (s : State) (d : Nat) : State :=
  let s := s.count protCtr
  if s.coh.prot.contains d then s
  else { s with coh := { s.coh with prot := d :: s.coh.prot } }.raise Ev.COH_PROTOCOL 0 0

/-! ### NAK and reservations (R319, R320) -/

/-- Reservations of a slice. -/
def State.sliceResv (s : State) (k : Nat) : Nat := (s.coh.resv.filter (fun r => dirSlice r.line == k)).length

/-- COHSLSTAT.resv_used follows the reservations. -/
def State.resvLevel (s : State) (k : Nat) : State := s.wr (Csr.COHSLSTAT_resv_used k) (s.sliceResv k)

/-- R319: a request is answered NAK; R320: one retried often enough reserves its line. -/
def State.nak (s : State) (m : Msg) : State :=
  let d := lineOf m
  let k := dirSlice d
  let s := ((s.count (cohCtr k 3)).nxLeave (reqKey m)).reply { s.respond m 0x65 0 with q3 := 0 }
  if cwRetry m < s.rd Csr.COHCTL_resv_after ∨ s.coh.resv.any (fun r => r.line == d) = true then s
  else if s.sliceResv k < 64 then
    { s with coh := { s.coh with resv := s.coh.resv ++ [(⟨d, reqKey m, s.stamp⟩ : Resv)], resvFull := s.coh.resvFull.filter (fun x => x != k) } }.resvLevel k
  else
    let s := s.count (cohCtr k 4)
    if s.coh.resvFull.contains k then s
    else { s with coh := { s.coh with resvFull := k :: s.coh.resvFull } }.raise Ev.COH_RESV_FULL 1 k

/-- R309, R320, R321: the line is busy, reserved for another request, or awaited or held by one of the home's own agents. -/
def State.blocked (s : State) (m : Msg) : Bool :=
  let d := lineOf m
  (s.txn d).isSome || s.waits.any (fun w => w.lines.contains d || w.holds.contains d) || s.coh.late.any (fun x => x.1 / 128 == d) || s.coh.resv.any (fun r => r.line == d && r.key != reqKey m)

/-! ### The end of a transaction -/

/-- R323: the predictor after a partner's ATOM. -/
def State.predict (s : State) (d : Nat) (far contended : Bool) : State :=
  let k := dirSlice d
  let c := SMap.get 0 (dirPred d) s.coh.pred
  let c' := if contended then min 15 (c + s.rd (if far then Csr.COHPRED_inc_far k else Csr.COHPRED_inc_near k)) else c - s.rd (Csr.COHPRED_dec k)
  { s with coh := { s.coh with pred := SMap.put 0 (dirPred d) c' s.coh.pred } }

/-- R54: a request to the lender of a slot: 0 sent, 1 no path, 2 down. -/
def State.lender (s : State) (k code off len : Nat) (data : List PByte) (use : ReqFor) : Nat × State :=
  let pois := (List.range 64).foldl (fun a h =>
    if (data.zipIdx).any (fun (b, i) => b.2 && (off % 64 + i) / 64 == h) then a + 2 ^ h else a) 0
  s.request { code := code, dstPartner := true, dstPort := s.rd (Csr.LENTSRC_lender_port k), dstNode := s.rd (Csr.LENTSRC_lender_node k),
              length := len, lent := true, q2 := s.rd (Csr.LENTSRC_lender_base k) + off, q3 := pois, data := data.map (·.1) } use

/-- The line's transaction has done its work: its final responses go out, after its lender has the line when it is lent and
written, and the line stays busy until GO_ACK where a state was granted (R307). -/
def State.settleLine (s : State) (n d : Nat) (wrote goAck : Bool) (out : List Msg) : State :=
  match s.txn d with
  | none => s
  | some t =>
    let s := s.updTxn d (fun t => { t with out := out, goAck := goAck })
    let later := t.mem.isSome && t.fetch
    if later then
      match s.lineSlot d, t.mem with
      | some k, some bs =>
        match s.lender k 0x02 (d * 128 % lentSlotSize) 128 bs (.line d true) with
        | (0, s) => s
        | (_, s) => done s
      | _, _ => done s
    else done s
where
  done (s : State) : State :=
    let rsp (s : State) : State := out.foldl (fun s m =>
      if wrote ∧ m.code != 0x60 ∧ m.code != 0x61 then s.finishWrite n [d] m else s.finish m) s
    if goAck then (rsp s).updTxn d (fun t => { t with out := [], fetch := false }) else (rsp s).freeLine d

/-- Data that a snoop returned goes to memory (R318, Table 11-3), and to the twin (R47). -/
def State.writeBack (s : State) (n d : Nat) (t : Txn) : State :=
  match t.back with
  | some bs => (s.lineWrite n d allBytes bs).mirrorBack n d
  | none => s

/-- R322: the near ATOM of request `m` on its line, performed by the atomic unit: the old value, its poison, and the state
after. A value that came poisoned is written poisoned (R268). -/
def State.atomNear (s : State) (n : Nat) (m : Msg) : Nat × Bool × State :=
  let d := lineOf m
  let (bs, s) := s.lineRead n d
  let (old, p) := valueOf ((bs.drop (cwOffset m)).take (cwSize m))
  if p then (old, true, s)
  else
    let v := ofLeBytes (m.data.take 8)
    let c := ofLeBytes ((m.data.drop 8).take 8)
    let new := (leBytes (cwSize m) (atomNew (cwOp m) (cwSize m) old v c)).map (fun b => (b, bitOf (cwPoison m) (cwOffset m / 64)))
    let img := (List.range 128).map (fun i => new.getD (i - cwOffset m) (0, false))
    (old, false, s.lineWrite n d ((2 ^ cwSize m - 1) * 2 ^ cwOffset m) img)

/-- Tables 11-3 and 11-4: the request whose acknowledgements have all arrived is completed. -/
def State.complete (s : State) (d : Nat) : State :=
  match s.txn d with
  | none => s
  | some t =>
    let n := entPan t.ent
    let st := entSt t.ent
    let o := entOwner t.ent
    let had := t.had.getD 0
    -- the owner was lost, or answered against R310: the line is written poisoned
    let broken := t.lost || (st == 3 && (t.had == some 0 || t.had == some 1))
    let s := if broken then s.linePoisoned n d else s
    let s := if broken && !t.lost then s.breach d else s
    let wrote := t.back.isSome || broken
    match t.who with
    | .own => ((s.writeBack n d t).setDir d 0).settleLine n d wrote false []
    | .evict _ _ _ => ((s.writeBack n d t).setDir d 0).settleLine n d wrote false []
    | .revoke r =>
      let s := s.writeBack n d t
      let e := s.dirEnt d
      let e := if (entSt e = 2 ∨ entSt e = 3) ∧ entOwner e = r then entTo e (if entSt e = 2 then 0 else 1) 0 else entDel e r
      (s.setDir d (if entSt e = 1 && entNone e then 0 else e)).settleLine n d wrote false []
    | .req _ m r =>
      let n := m.pan
      let msi := t.msi
      let named := (st == 1 && entNames t.ent r) || (st == 3 && (entNames t.ent r || o == r))
      let gone := broken || had == 0 || had == 1
      let give (s : State) (grant : Nat) (ent : Nat) (far : Bool) : State :=
        let (bs, s) := s.lineRead n d
        (s.setDir d ent).settleLine n d broken true [s.dataMsg m grant true far bs]
      let go (s : State) (grant : Nat) (ent : Nat) (wrote far : Bool) : State :=
        (s.setDir d ent).settleLine n d (wrote || broken) true [s.goMsg m grant far]
      let sh (e : Nat) : Nat := entAdd e r
      let ex := entNew d 2 n r
      if m.code = 0x40 then
        if st = 0 then (if s.moving (d * 128) then
            (let (bs, s) := s.lineRead n d; s.settleLine n d false true [s.dataMsg m 0 true false bs])
          else if msi then give s 1 (entNew d 1 n 0 |> sh) false else give s 2 ex false)
        else if st = 1 then give s 1 (sh t.ent) false
        else if st = 2 then
          if o = r then (if msi then give s 1 (entNew d 1 n 0 |> sh) false else give s 2 ex false)
          else if gone then (if msi then give s 1 (entNew d 1 n 0 |> sh) false else give s 2 ex false)
          else if had = 5 then go (s.writeBack n d t) 1 (entNew d 1 n 0 |> sh) true false
          else if had = 2 then go s 1 (entAdd (entNew d 1 n 0) o |> sh) false false
          else if msi then go (s.writeBack n d t) 1 (entAdd (entNew d 1 n 0) o |> sh) true false
          else go s 1 (sh (entNew d 3 n o)) false false
        else
          if gone then give s 1 (sh (entTo t.ent 1 0)) false
          else if had = 5 then go (s.writeBack n d t) 1 (sh (entTo t.ent 1 0)) true false
          else if msi then go (s.writeBack n d t) 1 (sh (entAdd (entTo t.ent 1 0) o)) true false
          else go s 1 (sh t.ent) false false
      else if m.code = 0x41 ∨ (m.code = 0x47 ∧ t.far && !named) ∨ (m.code = 0x42 ∧ !named) then
        if t.dataSent then go s 3 ex false t.far
        else if st ≤ 1 ∨ (st = 2 ∧ (o = r ∨ gone)) ∨ (st = 3 ∧ gone) then give s 3 ex t.far
        else go s 3 ex false t.far
      else if m.code = 0x42 ∨ (m.code = 0x47 ∧ t.far) then go s 3 ex false t.far
      else if m.code = 0x43 then
        if st ≤ 1 ∨ gone then
          (let (bs, s) := s.lineRead n d
           let s := if broken then s.setDir d (if entNone t.ent then 0 else entTo t.ent 1 0) else s
           s.settleLine n d broken false [s.dataMsg m 0 true false bs])
        else s.settleLine n d broken false []
      else if m.code = 0x44 then
        let mask := ofLeBytes (m.data.take 16)
        let s := if st = 0 ∨ st = 1 ∨ mask = allBytes then s else s.writeBack n d t
        let (oos, s) := s.lineStore n d mask (withPoison (m.data.drop 16) (cwPoison m))
        (s.setDir d 0).settleLine n d true false [s.cmpMsg m (if oos then Sts.poison else Sts.ok)]
      else
        let s := s.writeBack n d t
        let (old, p, s) := s.atomNear n m
        (s.setDir d 0).settleLine n d true false
          [{ s.respond m 0x68 (if p then Sts.poison else Sts.ok) with q3 := (if p then 2 ^ (cwOffset m / 64) else 0),
                                                                       data := leBytes 8 old ++ List.replicate 8 0 }]

/-- The transaction of a line goes on when nothing is awaited for it. -/
def State.advance (s : State) (d : Nat) : State :=
  match s.txn d with
  | some t => if t.snoops.isEmpty && !t.fetch && !t.goAck then s.complete d else s
  | none => s

/-- An answer from a holder: what it had, and the data it returned. -/
def State.snoopAnswer (s : State) (d tag epoch : Nat) (had : Nat) (data : Option (List PByte)) (lost : Bool) : State :=
  s.updTxn d (fun t =>
    match t.snoops.find? (fun x => x.tag == tag && x.epoch == epoch) with
    | none => t
    | some x =>
      let own := (entSt t.ent == 2 || entSt t.ent == 3) && entOwner t.ent == x.member
      { t with snoops := t.snoops.filter (fun y => !(y.tag == tag && y.epoch == epoch)),
               had := if own && x.code != 0x53 then some had else t.had, lost := t.lost || (lost && own),
               back := if data.isSome then data else t.back })

/-- Snoops to several members; those with no path answer at once as lost. -/
def State.snoopAll (s : State) (d : Nat) (members : List (Nat × Nat)) (req : Option Msg) (msi : Bool) : List Nat × State :=
  members.foldl (fun (r : List Nat × State) (i, code) =>
    match r.2.snoop d i code (if code ≤ 0x52 then req else none) msi with
    | (true, s) => (r.1, s)
    | (false, s) => (i :: r.1, s)) ([], s)

/-- The snoops of Table 11-3 for a request. -/
def State.snoopPlan (s : State) (m : Msg) (r ent : Nat) (far : Bool) : List (Nat × Nat) :=
  let st := entSt ent
  let o := entOwner ent
  let inv (x : Option Nat) : List (Nat × Nat) := (s.sharers ent x).map (fun i => (i, 0x53))
  let named := (st == 1 && entNames ent r) || (st == 3 && (entNames ent r || o == r))
  if m.code = 0x40 then (if (st = 2 ∨ st = 3) ∧ o ≠ r then [(o, 0x50)] else [])
  else if m.code = 0x43 then (if st = 2 ∨ st = 3 then [(o, 0x52)] else [])
  else if m.code = 0x44 then
    if st = 1 then inv none
    else if st = 2 ∨ st = 3 then
      (o, if ofLeBytes (m.data.take 16) = allBytes then 0x53 else 0x54) :: (if st = 3 then (inv none).filter (fun x => x.1 != o) else [])
    else []
  else if m.code = 0x47 ∧ !far then
    if st = 1 then inv none
    else if st = 2 ∨ st = 3 then (o, 0x54) :: (if st = 3 then (inv none).filter (fun x => x.1 != o) else [])
    else []
  else if (m.code = 0x42 ∨ m.code = 0x47) ∧ named then
    (if st = 3 ∧ o ≠ r then [(o, 0x53)] else []) ++ (inv (some r)).filter (fun x => st != 3 || x.1 != o)
  else
    if st = 1 then inv (some r)
    else if st = 2 ∧ o ≠ r then [(o, 0x51)]
    else if st = 3 then (o, 0x51) :: (inv (some r)).filter (fun x => x.1 != o)
    else []

/-- R326: what a lost member's unanswered snoops and grants leave: each counts as had = I, and where it owned the line the
line is lost. -/
def State.loseAnswers (s : State) (i : Nat) : State :=
  s.coh.txns.foldl (fun (s : State) (t : Txn) =>
    let s := (t.snoops.filter (fun x => x.member == i)).foldl (fun s x => s.snoopAnswer t.line x.tag x.epoch 0 none true) s
    match t.who with
    | .req _ m r =>
      if t.goAck ∧ r = i then
        let s := if entSt (s.dirEnt t.line) = 2 then (s.linePoisoned m.pan t.line).setDir t.line 0 else s
        s.freeLine t.line
      else s
    | .own => s
    | .evict _ _ _ => s
    | .revoke _ => s) s

/-- R326, R327: what a sweep of member `i` does with the entry `e` of a line that is not busy; true where the member cannot be reached. A
lost member's owned line is written poisoned and it leaves the pointers, with INV while a path remains; a member whose rights ended is
sent INV_D. -/
def State.sweepEntry (s : State) (i e : Nat) (revoke : Bool) : Bool × State :=
  let d := entLine e
  let owns := (entSt e == 2 || entSt e == 3) && entOwner e == i
  if revoke then
    let r := (s.busy d e (.revoke i)).snoop d i 0x54 none false
    (!r.1, r.2)
  else
    let s := (s.send { code := 0x53, dstPartner := true, dstPort := s.rd (Csr.MEMBER_src_port i), dstNode := s.rd (Csr.MEMBER_src_node i),
                       srcNode := s.nodeId, life := s.lifeInit, pan := s.rd (Csr.MEMBER_pan i), q2 := s.nodeId * 2 ^ 52 + d * 128 }).2
    let s := if owns then s.linePoisoned (entPan e) d else s
    let e := if owns then entTo e (if entSt e = 2 then 0 else 1) 0 else entDel e i
    (false, s.setDir d (if entSt e = 1 && entNone e then 0 else e))

/-- An entry names member `i`, as its owner or as a sharer (R326). -/
def State.entHolds (s : State) (i e : Nat) : Bool :=
  ((entSt e == 2 || entSt e == 3) && entOwner e == i) || (entSt e != 2 && entPan e == s.rd (Csr.MEMBER_pan i) && entNames e i)

/-- R326, R327: a sweep of member `i` over the entries `es` of the directory: the lines that are busy and are left for later, and whether
the member could not be reached. -/
def State.sweepOver (s : State) (i : Nat) (revoke : Bool) (es : List Nat) : List Nat × Bool × State :=
  (es.filter (s.entHolds i)).foldl (fun (r : List Nat × Bool × State) e =>
    if (r.2.2.txn (entLine e)).isSome then (r.1 ++ [entLine e], r.2)
    else
      let x := r.2.2.sweepEntry i e revoke
      (r.1, r.2.1 || x.1, x.2)) ([], false, s)

/-- A sweep begins: COHGONE is set and COHSTAT.sweeping shows it. The result says that the member could not be reached. -/
def State.sweepBegin (s : State) (i : Nat) (revoke : Bool) : Bool × State :=
  let s := (s.setFld (Csr.COHGONE_gone (i / 64)) (i % 64)).wr Csr.COHSTAT_sweeping 1
  let (left, lost, s) := s.sweepOver i revoke s.dirAll
  (lost, { s with coh := { s.coh with sweeps := s.coh.sweeps.filter (fun (x : Sweep) => x.member != i) ++ [⟨i, revoke, left⟩] } })

/-- R326: member `i` is declared lost. -/
def State.agentLost (s : State) (i : Nat) : State :=
  let s := (s.raise Ev.COH_AGENT_LOST 0 0).count lostCtr
  let lines := s.coh.txns.filterMap (fun t => if t.snoops.any (fun x => x.member == i) then some t.line else none)
  let s := s.loseAnswers i
  let s := (s.sweepBegin i false).2
  lines.foldl State.advance s

/-- A sweep begins; a member that its INV_D cannot reach does not answer, so it is lost (R327). -/
def State.sweepStart (s : State) (i : Nat) (revoke : Bool) : State :=
  match s.sweepBegin i revoke with
  | (true, s) => s.agentLost i
  | (false, s) => s

/-- Members with no path at the time a snoop was to be sent are lost. -/
def State.agentsLost (s : State) (l : List Nat) : State :=
  l.foldl (fun s i => if s.gone i && !s.coh.sweeps.any (fun x => x.member == i && x.revoke) then s.loseAnswers i else s.agentLost i) s

/-- R321, R331, R121: one of the home's own agents recalls a line; nothing happens to a line that no partner holds. -/
def State.recall (s : State) (d : Nat) (full : Bool) : State :=
  let e := s.dirEnt d
  if entSt e = 0 ∨ (s.txn d).isSome then s
  else
    let s := (s.dirTouch d).busy d e .own
    let own := if entSt e = 2 ∨ entSt e = 3 then [(entOwner e, if full then 0x53 else 0x54)] else []
    let inv := if entSt e = 2 then [] else ((s.sharers e none).filter (fun i => own.all (fun x => x.1 != i))).map (fun i => (i, 0x53))
    let (lost, s) := s.snoopAll d (own ++ inv) none false
    (s.agentsLost lost).advance d

/-- The device's own writes that waited are performed where their lines are free, with the notices of the records among them (R81), and the
other lines are recalled (R321). -/
def State.lateGo (s : State) : State :=
  s.coh.late.foldl (fun s c =>
    let d := c.1 / 128
    if (s.txn d).isNone && entSt (s.dirEnt d) == 0 then (s.writeMem Acc.sys c.1 c.2).2.lateNotices d
    else
      let s := s.recall d false
      { s with coh := { s.coh with late := s.coh.late ++ [c] } }) { s with coh := { s.coh with late := [] } }

/-- R318: the victim way of line `d`'s set: the SH way with the fewest sharers, else the way that the slice's rotating counter names, or the
next after it that is not busy. The counter advances at each eviction. -/
def State.victim (s : State) (d : Nat) : Option (Nat × State) :=
  let idle (e : Nat) : Bool := (s.txn (entLine e)).isNone
  let weight (e : Nat) : Nat := if entCoarse e then 64 else (entPtrs e).length
  let k := dirSlice d
  let c := SMap.get 0 k s.coh.rot
  let s' := { s with coh := { s.coh with rot := SMap.put 0 k ((c + 1) % 16) s.coh.rot } }
  match (s.dirWays d).filter (fun e => entSt e == 1 && idle e) with
  | e :: t => some (entLine (t.foldl (fun a x => if weight x < weight a then x else a) e), s')
  | [] => (((s.dirWays d).drop c ++ (s.dirWays d).take c).find? idle).map (fun e => (entLine e, s'))

/-- Whether request `m` of member `r` runs far (R322). -/
def State.runsFar (s : State) (m : Msg) : Bool :=
  m.code == 0x47 && !cwHint m && decide (SMap.get 0 (dirPred (lineOf m)) s.coh.pred < s.rd (Csr.COHPRED_thresh (dirSlice (lineOf m))))

/-- R310: a request that an owner in O may not make: its line is written poisoned, and the request ends MALFORMED. -/
def State.ownerBreach (s : State) (m : Msg) : State :=
  let d := lineOf m
  let e := s.dirEnt d
  let s := s.busy d e .own
  let s := ((s.linePoisoned m.pan d).breach d).setDir d (if entNone e then 0 else entTo e 1 0)
  s.settleLine m.pan d true false [s.respond m 0x30 Sts.malformed]

/-- R309: the request is taken up: it makes its completion-cache entry, its line is busy, its snoops go out, and data that
the home supplies goes with them. The predictor learns from the atomics of partners (R323). -/
def State.takeUp (s : State) (p : Nat) (m : Msg) (r : Nat) : State :=
  let d := lineOf m
  let k := dirSlice d
  let s := s.dirTouch d
  let e := s.dirEnt d
  let st := entSt e
  let far := s.runsFar m
  let grants := m.code == 0x40 || m.code == 0x41 || m.code == 0x42 || far
  let full := (s.dirWays d).all (fun x => entSt x != 0)
  if st = 3 ∧ entOwner e = r ∧ (m.code = 0x40 ∨ m.code = 0x41 ∨ m.code = 0x43 ∨ m.code = 0x44) then
    (s.ccMake m).ownerBreach m
  else if grants ∧ st = 0 ∧ full ∧ !(s.moving (d * 128)) then
    match s.victim d with
    | none => s.nak m
    | some (v, s) =>
      let ve := s.dirEnt v
      let s := (s.count (cohCtr k 2)).busy v ve (.evict p m r)
      let own := if entSt ve = 2 ∨ entSt ve = 3 then [(entOwner ve, 0x54)] else []
      let inv := if entSt ve = 2 then [] else ((s.sharers ve none).filter (fun i => own.all (fun x => x.1 != i))).map (fun i => (i, 0x53))
      let (lost, s) := s.snoopAll v (own ++ inv) none false
      s.agentsLost lost
  else
    let s := { s with coh := { s.coh with resv := s.coh.resv.filter (fun x => x.line != d) } }.resvLevel k
    let s := s.ccMake m
    let s := if m.code = 0x47 && m.srcPartner then
        let others := st != 0 && (((st == 2 || st == 3) && entOwner e != r) || (st != 2 && !(s.sharers e (some r)).isEmpty))
        (s.count (cohCtr k (if far then 6 else 5))).predict d far others
      else s
    let s := s.epochEnter.setTxns (fun ts => ts ++ [{ Txn.start d e (.req p m r) with tag := s.liveSet, far := far, msi := s.on (Csr.PANCTL_coh_msi m.pan) }])
    match s.lineSlot d with
    | some slot =>
      -- the image of a lent line comes from its lender before the request goes on
      match s.lender slot 0x01 (d * 128 % lentSlotSize) 128 [] (.line d false) with
      | (0, s) => s.updTxn d (fun t => { t with fetch := true })
      | (x, s) => (s.freeLine d).finish (s.respond m 0x30 (Sts.ofPath x))
    | none => s

/-- The snoops of a request that was taken up, and DATA with go = 0 where the home supplies it while they run. -/
def State.launch (s : State) (d : Nat) : State :=
  match s.txn d with
  | none => s
  | some t =>
    match t.who with
    | .req _ m r =>
      if t.fetch then s
      else
        let plan := s.snoopPlan m r t.ent t.far
        let named := entNames t.ent r
        let x := m.code == 0x41 || ((m.code == 0x42 || (m.code == 0x47 && t.far)) && !named)
        let s := if entSt t.ent = 1 && x && !plan.isEmpty then
            (let (bs, s) := s.lineRead m.pan d
             (s.reply (s.dataMsg m 3 false t.far bs)).updTxn d (fun t => { t with dataSent := true }))
          else s
        let (lost, s) := s.snoopAll d plan (some m) (m.code == 0x40 && t.msi)
        (s.agentsLost lost).advance d
    | .own => s.advance d
    | .evict _ _ _ => s.advance d
    | .revoke _ => s.advance d

/-! ### Requests at the home -/

/-- R327: a request of a member that is gone is refused with the agent-gone indication, which clears the bit once the
sweep has ended. -/
def State.refuseGone (s : State) (m : Msg) (i : Nat) : State :=
  let rsp : Msg :=
    if m.code = 0x45 then s.wbAck m false true
    else if m.code = 0x46 then { s.cmpMsg m Sts.ok with gone := true }
    else { s.respond m 0x30 Sts.retry with gone := true }
  let s := (s.nxLeave (reqKey m)).reply rsp
  if s.coh.sweeps.any (fun x => x.member == i) then s else s.clrFld (Csr.COHGONE_gone (i / 64)) (i % 64)

/-- WB at the home (Table 11-3, R311). -/
def State.homeWb (s : State) (m : Msg) (r : Nat) : State :=
  let d := lineOf m
  let s := s.ccMake m
  match s.txn d with
  | some t => s.finish (s.wbAck m (t.snoops.any (fun x => x.member == r)) false)
  | none =>
    let s := s.dirTouch d
    let e := s.dirEnt d
    if (entSt e = 2 ∨ entSt e = 3) ∧ entOwner e = r then
      let s := s.busy d e .own
      let s := s.lineWrite m.pan d allBytes (withPoison m.data (cwPoison m))
      let e := if entSt e = 3 && !entNone e then entTo e 1 0 else 0
      (s.setDir d e).settleLine m.pan d true false [s.wbAck m false false]
    else s.finish (s.wbAck m false false)

/-- EVICT at the home (Table 11-3); a busy line's transaction decides for itself. -/
def State.homeEvict (s : State) (m : Msg) (r : Nat) : State :=
  let d := lineOf m
  let s := s.ccMake m
  if (s.txn d).isSome then s.finish (s.cmpMsg m Sts.ok)
  else
    let s := s.dirTouch d
    let e := s.dirEnt d
    if entSt e = 3 ∧ entOwner e = r then s.ownerBreach m
    else
      let s := if entSt e = 2 ∧ entOwner e = r then s.setDir d 0
        else if (entSt e = 1 ∨ entSt e = 3) ∧ entNames e r then
          (let e := entDel e r; s.setDir d (if entSt e = 1 && entNone e then 0 else e))
        else s
      s.finish (s.cmpMsg m Sts.ok)

/-- R309, R319, R320, R331: a coherent request of member `r` reaches its home. -/
def State.cohServe (s : State) (p : Nat) (m : Msg) (r : Nat) : State :=
  if s.gone r then s.refuseGone m r
  else if m.code = 0x45 then s.homeWb m r
  else if m.code = 0x46 then s.homeEvict m r
  else if s.blocked m then s.nak m
  else if s.moving (lineOf m * 128) && (m.code == 0x41 || m.code == 0x42 || s.runsFar m) then s.nak m
  else (s.takeUp p m r).launch (lineOf m)

/-- A request held for an eviction is taken up when its way is free (R318), unless its line has become busy meanwhile. -/
def State.takeHeld (s : State) (p : Nat) (m : Msg) (r : Nat) : State :=
  if s.blocked m then s.nak m else (s.takeUp p m r).launch (lineOf m)

/-- The requests whose ways are free now are taken up, oldest first. -/
def State.heldGo (s : State) : State :=
  s.coh.held.foldl (fun s x => s.takeHeld x.1 x.2.1 x.2.2) { s with coh := { s.coh with held := [] } }

/-- SNP_ACK and SNP_ACK_D at the home: the line, if the answer matches a snoop. -/
def State.ackArrive (s : State) (m : Msg) (data : Option (List PByte)) : State :=
  match s.coh.txns.find? (fun t => t.snoops.any (fun x => x.tag == m.tag && x.epoch == m.tagEpoch)) with
  | none => s.count (fabCtr 9)
  | some t => ((s.snoopAnswer t.line m.tag m.tagEpoch (cwState m) data false).advance t.line).heldGo

/-- R307: GO_ACK frees the line. -/
def State.goAckArrive (s : State) (m : Msg) : State :=
  match s.coh.txns.find? (fun t => match t.who with
      | .req _ x _ => t.goAck && reqKey x == reqKey m
      | .own => false
      | .evict _ _ _ => false
      | .revoke _ => false) with
  | some t => s.freeLine t.line
  | none => s.count (fabCtr 9)

/-- The lender's answer for a busy line: its image, or that the write has arrived. -/
def State.lineAnswer (s : State) (d status : Nat) (data : List PByte) (wr : Bool) : State :=
  match s.txn d with
  | none => s
  | some t =>
    let bad := !(status == Sts.ok || status == Sts.poison)
    if wr then
      let s := t.out.foldl (fun s m => s.finish (if bad ∧ m.code = 0x67 then { m with status := status } else m)) s
      if t.goAck then s.updTxn d (fun t => { t with out := [], fetch := false }) else s.freeLine d
    else if bad then
      match t.who with
      | .req _ m _ => (s.freeLine d).finish (s.respond m 0x30 status)
      | .own => s.freeLine d
      | .evict _ _ _ => s.freeLine d
      | .revoke _ => s.freeLine d
    else (s.updTxn d (fun t => { t with mem := some data, fetch := false })).launch d

/-- R326, R327: the sweep of member `i` ends once nothing of it is left to recall. -/
def State.sweepDone (s : State) (i : Nat) : State :=
  match s.coh.sweeps.find? (fun x => x.member == i) with
  | none => s
  | some x =>
    let (left, lost, s) := s.sweepOver i x.revoke (s.dirAll.filter (fun e => x.left.contains (entLine e)))
    let s : State := { s with coh := { s.coh with sweeps := s.coh.sweeps.map (fun (y : Sweep) => if y.member = i then { y with left := left } else y) } }
    if lost then s.agentLost i
    else if left ≠ [] ∨ s.coh.txns.any (fun t => t.who == .revoke i) = true then s
    else
      let s := { s with coh := { s.coh with sweeps := s.coh.sweeps.filter (fun (y : Sweep) => y.member != i) } }
      (s.wr Csr.COHSTAT_sweeping (if s.coh.sweeps = [] then 0 else 1)).raise Ev.COH_SWEEP_DONE 0 0

/-- R320: a reservation whose request was not taken up lapses. -/
def State.resvLapse (s : State) (d : Nat) : State :=
  if s.coh.resv.any (fun r => r.line == d) then
    let s := { s with coh := { s.coh with resv := s.coh.resv.filter (fun r => r.line != d) } }
    (s.resvLevel (dirSlice d)).count (cohCtr (dirSlice d) 4)
  else s

end Sys2Proof.Machine
end

