-- ==== Sys2Proof/Machine/Pages.lean ====
section
/-!
DEFINITION. Page moves (R127 to R129, R284 to R286, R288, R331) and the drains of changed translations (R215).
-/
namespace Sys2Proof.Machine

/-! ### Copying a page -/

/-- Keys of a sparse table that lie in `[a, a + n)`, moved to `[b, b + n)`. -/
def shiftKeys {β : Type} (m : List (Nat × β)) (a b n : Nat) : List (Nat × β) :=
  (m.filter (fun c => decide (a ≤ c.1) && decide (c.1 < a + n))).map (fun c => (c.1 - a + b, c.2))

/-- Keys outside `[b, b + n)`. -/
def outside {β : Type} (m : List (Nat × β)) (b n : Nat) : List (Nat × β) :=
  m.filter (fun c => decide (c.1 < b) || decide (b + n ≤ c.1))

/-- The bytes of `[a, a + n)` with their poison are written to `[b, b + n)`: pending lines are drained first, a line is read where it
lies (in its way of the cache, or in memory), and a half-line that fails to decode is written poisoned (R129, R267). -/
def State.copyBytes (s : State) (n a b len : Nat) : State :=
  let inA (x : Nat) : Bool := decide (a ≤ x) && decide (x < a + len)
  let inB (x : Nat) : Bool := decide (b ≤ x) && decide (x < b + len)
  let s := (s.dram.brine.filter (fun x => inA (x.line * 128))).foldl State.evictBrine s
  let acc : Acc := ⟨some n, 10, true, 6⟩
  let ways := s.dram.cache.flatMap (fun kv => kv.2.filter (fun w => inA (w.line * 128)))
  let cached := ways.flatMap (fun w => [(2 * w.line, wayAddr w / 64), (2 * w.line + 1, wayAddr w / 64 + 1)])
  let bad := cached.filter (fun x => SMap.get HalfFault.none x.2 s.dram.faults != HalfFault.none)
    ++ ((s.dram.faults.map (·.1)).filter (fun h => inA (h * 64) && cached.all (fun x => x.1 != h))).map (fun h => (h, h))
  let moved (h : Nat) : Nat := h - a / 64 + b / 64
  let r := bad.foldl (fun (r : List (Nat × Outcome9 × Nat) × State) x =>
    let (o, s) := if tierOf a = 1 ∧ x.1 = x.2 then r.2.decodeDdr x.1 acc else r.2.decodeStk x.2 x.1 acc
    ((moved x.1, o) :: r.1, s)) ([], s)
  let s := r.2
  let mem := (shiftKeys s.mem a b len).foldl (fun m c => SMap.put 0 c.1 c.2 m) (outside s.mem b len)
  let pois := (shiftKeys s.dram.poison (a / 64) (b / 64) (len / 64)).foldl (fun m c => SMap.put false c.1 c.2 m)
    (outside s.dram.poison (b / 64) (len / 64))
  let pois := cached.foldl (fun m x => SMap.put false (moved x.1) (s.halfPoison x.2) m) pois
  let s := { s with mem := mem, dram := { s.dram with poison := pois, faults := freshFaults (fun h => inB (h * 64)) s.dram.faults } }
  r.1.foldl (fun s o => if o.2.1.bad then s.recode o.1 true else s.flipBytes (o.1 * 64) o.2.2 0) s

/-! ### Starting moves -/

/-- A page that moves: PVA, page size code and node-local address. -/
structure Mover where
  va : Nat
  k : Nat
  addr : Nat
deriving DecidableEq, Repr

/-- Lines of `[a, a + n)` that the directory names. -/
def State.heldIn (s : State) (a n : Nat) : List Nat :=
  (s.dirAll.map entLine).filter (fun d => decide (a ≤ d * 128) && decide (d * 128 < a + n))

/-- Granules of a page. -/
def Mover.count (m : Mover) : Nat := if m.k = 2 then 512 else 1

/-- R128, R289: a new home in tier `t` for a page of pan `n`: its address, and what was allocated. A page of a durable pan keeps
its backing granules: it moves to them, from them, or takes them along. -/
def State.newHome (s : State) (n t : Nat) (m : Mover) : Option (Nat × List Alloc × State) :=
  let g := m.addr / granSize
  let back (s : State) (i : Nat) : Nat := SMap.get 0 (g + i) (s.pan n).backing
  if s.panDurable n then
    if t = 2 then
      let b := back s 0
      if b = 0 then none
      else
        let drop (x : SMap Nat) : SMap Nat := (List.range m.count).foldl (fun x i => SMap.put 0 (g + i) 0 x) x
        some (b * granSize, [], s.setPan n (fun p => { p with backing := drop p.backing }))
    else (s.place n t m.count true).map (fun (a, s) =>
      let old (i : Nat) : Nat := if tierOf m.addr = 2 then g + i else back s i
      let take (x : SMap Nat) : SMap Nat :=
        (List.range m.count).foldl (fun x i => SMap.put 0 (g + i) 0 (SMap.put 0 (a.gran + i) (old i) x)) x
      (a.gran * granSize, [a], s.setPan n (fun p => { p with backing := take p.backing })))
  else (s.place n t m.count true).map (fun (a, s) => (a.gran * granSize, [a], s))

/-- R128: new homes for every page that moves, or none where one ends QUOTA. -/
def State.newHomes (n t : Nat) : List Mover → State → Option (List (Nat × Nat × Nat × Nat) × List Alloc × State)
  | [], s => some ([], [], s)
  | m :: ms, s =>
    match s.newHome n t m with
    | none => none
    | some (a, as, s) => (State.newHomes n t ms s).map (fun (cs, bs, s) => ((m.va, m.k, m.addr, a) :: cs, as ++ bs, s))

/-- R129: the 4 KiB blocks of a page that moves from, or to, a lent extent are read from, or written to, its lender, while it has a
path. -/
def State.moveTraffic (s : State) (n : Nat) (c : Nat × Nat × Nat × Nat) : State :=
  let (va, k, a, b) := c
  let slot (x : Nat) : Nat := (x - lentBase) / lentSlotSize
  let at_ (x : Nat) : Nat := (x - lentBase) % lentSlotSize
  let hit (x : Shoot) : Bool := x.pan == n && x.copies.contains c
  let s := { s with shoots := s.shoots.map (fun (x : Shoot) => if hit x then { x with sent := va :: x.sent } else x) }
  if tierOf a = 3 then
    (List.range (span k / 4096)).foldl (fun s i => (s.lender (slot a) 0x01 (at_ a + 4096 * i) 4096 [] (.move n va (4096 * i))).2) s
  else if tierOf b = 3 then
    (List.range (span k / 4096)).foldl (fun s i =>
      let (bs, s) := s.readMem ⟨some n, 10, true, 6⟩ (a + 4096 * i) 4096
      (s.lender (slot b) 0x02 (at_ b + 4096 * i) 4096 bs (.move n va (4096 * i))).2) s
  else s

/-- Requests of a move that have no response yet. -/
def State.moveWaits (s : State) (n va : Nat) : Bool :=
  s.fab.reqs.any (fun q => match q.use with
    | .move n' va' _ => n' == n && va' == va
    | _ => false)

/-- The lines of a page that a partner holds are recalled before it is copied (R331). -/
def State.recallPage (s : State) (c : Nat × Nat × Nat × Nat) : State :=
  (s.heldIn c.2.2.1 (span c.2.1)).foldl (fun s d => s.recall d false) s

/-- R128, R129, R331: the moves of an operation start: new homes are charged, partner copies of the moving lines are recalled, and what the
operation's allocations come to is settled when it ends (R42). None is QUOTA. -/
def State.startMoves (s : State) (rake : Option Nat) (n t : Nat) (ms : List Mover) (resume : List (Nat × Nat)) : Option State :=
  (State.newHomes n t ms s).map (fun (cs, as, s') =>
    cs.foldl State.recallPage
      { s' with shoots := s'.shoots ++ [(⟨rake, n, [], [], cs, [], resume, [], some (s.unsettled n as)⟩ : Shoot)] })

/-! ### The drain (R215) -/

/-- Rakes whose instruction has passed its check point and has not completed (R85): its stores have begun, or its memory accesses wait at
this node only and it is no context-math instruction that still reads (R170). -/
def State.passedRakes (s : State) : List Nat :=
  (s.rakes.filter (fun kv =>
    kv.2.busy && kv.2.instr.any (fun i =>
      s.waits.any (fun w => w.who == WaitWho.rake kv.1 && (w.sent || w.asked || w.left == 0 && !isMath i))))).map (·.1)

/-- R215, step 4: the shoots of pan `n` for which `p` holds wait for the instructions that have passed their check points. -/
def State.markBefore (s : State) (p : Shoot → Bool) : State :=
  let rs := s.passedRakes
  { s with shoots := s.shoots.map (fun (x : Shoot) =>
      if p x then { x with before := (x.before ++ (rs.filter (fun r => x.rake != some r))).eraseDups } else x) }

/-- A drain begins for a change that rake `rake`'s instruction, or the device, has made; `old` is released after it. -/
def State.startDrain (s : State) (rake : Option Nat) (n : Nat) (old : List Nat) : State :=
  let x : Shoot := ⟨rake, n, [], old, [], [], [], [], none⟩
  let rs := s.passedRakes.filter (fun r => rake != some r)
  { s with shoots := s.shoots ++ [{ x with before := rs }] }

/-- Lines of the granules to be released that partners still hold (R331). -/
def State.oldHeld (s : State) (x : Shoot) : List Nat := x.old.flatMap (fun g => s.heldIn (g * granSize) granSize)

/-- The lines of released granules are neither held nor busy. -/
def State.oldBusy (s : State) (x : Shoot) : Bool :=
  (s.oldHeld x).length != 0 || s.coh.txns.any (fun t => x.old.contains (t.line * 128 / granSize))

/-! ### Completing a copy -/

/-- The shoot that copies the page at `va` of pan `n`, and the copy. -/
def State.copyOf (s : State) (n va : Nat) : Option (Shoot × Nat × Nat × Nat × Nat) :=
  (s.shoots.filter (fun x => x.pan == n)).findSome? (fun x => (x.copies.find? (fun c => c.1 == va)).map (fun c => (x, c)))

/-- R288: a failed heap block of a page read is written poisoned, logged and counted. -/
def State.heapReadFails (s : State) (n b : Nat) (blocks : List Nat) : State :=
  blocks.foldl (fun s i =>
    let s := (s.count (heapCtr 2)).raise Ev.HEAP_READ_FAIL 5 n
    (List.range 64).foldl (fun s h => s.recode (b / 64 + 64 * i + h) true) s) s

/-- R285: blocks of a heap page that have been written, by 4 KiB block of the page. -/
def State.writtenBlocks (s : State) (a len : Nat) : Nat :=
  ((List.range (len / granSize)).map (fun i => if (s.gran (a / granSize + i)).written = 0 then 0 else 512)).sum

/-- The copy of a page from or to a lent extent has not asked its lender, which has a path, for anything yet. -/
def State.unasked (s : State) (x : Shoot) (c : Nat × Nat × Nat × Nat) : Bool :=
  let lent (a : Nat) : Bool := tierOf a == 3 && s.lentPath ((a - lentBase) / lentSlotSize) == 0
  (tierOf c.2.2.1 == 3 || tierOf c.2.2.2 == 3) && !x.sent.contains c.1 && (lent c.2.2.1 || lent c.2.2.2)

/-- The lender of a page that is copied to or from a lent extent has been asked for it. -/
def asked (x : Shoot) (c : Nat × Nat × Nat × Nat) : Bool := (tierOf c.2.2.1 != 3 && tierOf c.2.2.2 != 3) || x.sent.contains c.1

/-- R129: the copy of a page completes and its mapping is switched; nothing happens while partners hold its lines, and a page that moves
from or to a lent extent is first asked of, or sent to, its lender. `bad` names the heap blocks that failed to be read. -/
def State.copyDone (s : State) (n va : Nat) (bad : List Nat) : State :=
  match s.copyOf n va with
  | none => s
  | some (x, c) =>
    let (_, k, a, b) := c
    let busy := (s.heldIn a (span k)).length != 0 || s.coh.txns.any (fun t => decide (a ≤ t.line * 128) && decide (t.line * 128 < a + span k))
    if !busy && s.unasked x c then s.moveTraffic n c
    else match busy || s.moveWaits n va || !asked x c, s.leafAt n va with
    | false, some (_, table, _, e) =>
      let hc (i m : Nat) (s : State) : State := s.count (heapCtr i) m
      let s := if tierOf a = 2 then hc 0 (s.writtenBlocks a (span k)) s else s
      let s := if tierOf a = 3 ∨ tierOf b = 3 then s else s.copyBytes n a b (span k)
      let s := if tierOf a = 2 then s.heapReadFails n b bad else s
      let s := if tierOf b = 2 then
          (pageGrans k b).foldl (fun s g => s.setGran g (fun x => { x with written := 2 ^ 512 - 1 })) (hc 1 (span k / 4096) s)
        else s
      let s := s.writeLeaf n va k table (pteLeaf (s.nodeId * 2 ^ 52 + b) (bitOf e 2) (bitOf e 3) (bitOf e 4) (tierOf b))
      let keep := s.panDurable n && tierOf a == 2
      let hit (x : Shoot) : Bool := x.pan == n && x.copies.contains c
      let s := s.markBefore hit
      { s with shoots := s.shoots.map (fun (x : Shoot) =>
          if hit x then { x with copies := x.copies.filter (fun y => y != c), switched := x.switched ++ [c],
                                 old := if keep then x.old else x.old ++ pageGrans k a } else x) }
    | _, _ => s

/-! ### Automatic promotion (R284) -/

/-- R284: the tier that automatic promotion brings a page to. -/
def State.autoTier (s : State) (n : Nat) : Nat :=
  let h := s.rd (Csr.PANCTL_home_tier n)
  if h ≤ 1 then h else 1

/-- R86, R284: the program of entry `pos` of queue `qid` on rake `r` parks. A heap page of a pan with auto_promote is promoted
by the device, which then resumes the entry and posts no record; where that ends QUOTA the record is posted. -/
def State.parkAt (s : State) (qid pos r : Nat) (f : RFault) : State :=
  let n := (s.queue qid).pan
  let s := if f.reason = 5 then s.count (xlCtr 4) else s
  if f.reason = 6 ∧ s.on (Csr.PANHEAP_auto_promote n) then
    let page := (s.leafAt n f.pva).map (fun x => (⟨f.pva / span x.1 * span x.1, x.1, pteAddr x.2.2.2⟩ : Mover))
    match page with
    | none => s.park r f true
    | some m =>
      if s.shoots.any (fun x => x.rake.isNone && x.pan == n && x.copies.any (fun c => c.1 == m.va)) then
        let s := { s with shoots := s.shoots.map (fun (x : Shoot) =>
          if x.rake.isNone && x.pan == n && x.copies.any (fun c => c.1 == m.va) then { x with resume := x.resume ++ [(qid, pos)] } else x) }
        s.park r f false
      else match s.startMoves none n (s.autoTier n) [m] [(qid, pos)] with
        | some s => s.park r f false
        | none => (s.quotaRefused n).park r f true
  else s.park r f true

end Sys2Proof.Machine
end

