-- ==== Sys2Proof/Machine/Rake.lean ====
section
/-!
DEFINITION. How a rake runs one instruction: fetch, decoding and guard (R67, R95, R97), its outcome (R84), and the access
of its operands to memory of this node, of other nodes and of lenders (R85, R216).
-/
namespace Sys2Proof.Machine

/-- What the body of an instruction comes to. -/
inductive Eff where
  /-- It completes with a status whose effect is Complete; the program goes on at the next instruction. -/
  | ok (status : Nat) (ctx : Ctx) (s : State)
  /-- It completes OK and control goes to a word offset. -/
  | jump (target : Nat) (ctx : Ctx) (s : State)
  /-- It ends the program. -/
  | stop (status : Nat) (s : State)
  /-- It ends FAULT_BATCHED: the program parks (R86). -/
  | park (f : RFault) (s : State)
  /-- It waits. -/
  | wait (w : RakeWait) (s : State)
deriving DecidableEq, Repr

/-- The instruction in hand: its rake, entry, fields, and whether it is taken up again after a wait. -/
structure Env where
  r : Nat
  qid : Nat
  pan : Nat
  e : Entry
  i : Insn
  ins : Instr
  again : Bool

/-- The context of the program. -/
def Env.ctx (v : Env) : Ctx := v.e.ctx

/-- Scalar register `k`, and its poison. -/
def Env.reg (v : Env) (k : Nat) : Nat := v.e.ctx.reg k
def Env.poi (v : Env) (k : Nat) : Bool := v.e.ctx.poi k

/-- The entry runs in one of the Ringmaster's queues. -/
def Env.rm (v : Env) : Bool := isRm v.qid

/-! ### The outcome of an instruction -/

/-- The rake's wait, if its memory accesses wait. -/
def State.waitOf (s : State) (r : Nat) : Option Wait := s.waits.find? (fun w => w.who == WaitWho.rake r)

/-- R199: the debug port holds the rake dispatch of stall `k`, so its rakes issue nothing. -/
def State.rakesHeld (s : State) (k : Nat) : Bool := s.on (Csr.CARSTATE_preempted (0x1007000 + 0x100000 * k))

/-- R202: entries of the stall's queues wait for a rake. -/
def State.stallWaits (s : State) (k : Nat) : Bool :=
  s.queues.any (fun kv => kv.2.home == k && kv.2.ents.any (fun e => e.st == .admitted || e.st == .resumed))

/-- R140, R202, R476: rake `x` may be lent as a helper: it is idle, its stall serves, no entry of it waits for a rake, and nothing masks or
holds its rake dispatch. -/
def State.lendable (s : State) (x : Nat) : Bool :=
  let k := x / 16
  !(s.rake x).busy && (s.rake x).helps == 0 && !s.stallFailed k && !s.bit Csr.STALLPWR_gated k && !s.bit Csr.STALLPWR_waking k
    && !s.rakesHeld k && !s.carMasked (0x1007000 + 0x100000 * k) 1 && !s.stallWaits k

/-- R140: the rakes that an attention instruction of rake `r` may borrow, the lowest-numbered first (DESIGN CHOICE, log entry 77). -/
def State.borrowable (s : State) (r : Nat) : List Nat :=
  if s.on (Csr.CMCTL_helpers_en (r / 16)) then
    ((List.range 256).filter (fun x => x != r && s.lendable x)).take (s.rd (Csr.CMCTL_max_helpers (r / 16)))
  else []

/-- R140: an attention instruction that waits has borrowed its helpers, each through the rake dispatch of its stall; one that completes at
once has returned them. -/
def State.borrow (s : State) (r : Nat) : State :=
  if s.helpersOf r = [] then
    (s.borrowable r).foldl (fun s x =>
      match s.rakeGrant (x / 16) 1 with
      | some s => (s.setRake x (fun k => { k with helps := r + 1 })).wr (Csr.RAKESTAT_state (x / 16) (x % 16)) 2
      | none => s) s
  else s

/-- The rake's accesses no longer wait, its helpers are released, and the drains that waited for its instruction go on (R215). -/
def State.settleRake (s : State) (r : Nat) : State :=
  let s := { s.freeHelpers r with waits := s.waits.filter (fun (w : Wait) => w.who != WaitWho.rake r) }
  let s := { s with shoots := s.shoots.map (fun (x : Shoot) => { x with before := x.before.filter (fun b => b != r) }) }
  s.setRake r (fun k => { k with wait := .none, instr := none })

/-- Notes of Table 03-6 that a status sets. -/
def noteOf (status : Nat) : Nat :=
  if status = Sts.poison then 1 else if status = Sts.checkMismatch then 2 else if status = Sts.unmappedZero then 4 else 0

/-- R68, R79, R84, R96: an instruction completes, and the program goes on at `pc` or ends there. -/
def State.complete1 (s : State) (v : Env) (status pc : Nat) (c : Ctx) : State :=
  let s := s.settleRake v.r
  let pc0 := v.e.ctx.pc
  if v.e.codeWords < pc then s.endBad v.qid v.e.pos Sts.malformed pc0
  else
    let s := s.setEnt v.qid v.e.pos (fun e =>
      let w := Sts.first e.worst status
      { e with ctx := { c with pc := pc }, notes := e.notes ||| noteOf status,
               word := if w ≠ e.worst ∧ status ≠ Sts.okDurable then pc0 else e.word, worst := if status = Sts.okDurable then e.worst else w })
    let s := s.wr (Csr.RAKESTAT_pc (v.r / 16) (v.r % 16)) pc
    if pc = v.e.codeWords then s.endGood v.qid v.e.pos v.r else s

/-- The state of an outcome changed. -/
def Eff.over (f : State → State) : Eff → Eff
  | .ok st c s => .ok st c (f s)
  | .jump t c s => .jump t c (f s)
  | .stop st s => .stop st (f s)
  | .park x s => .park x (f s)
  | .wait w s => .wait w (f s)

/-- R407: the body of an instruction reads the configuration set its entry was tagged with; a privileged instruction is tagged at
its issue. -/
def Env.tagged (v : Env) (s : State) (body : Env → State → Eff) : Eff :=
  if v.rm then body v s else (body v (s.viewSet v.e.set)).over (fun t => t.viewSet t.liveSet)

/-- The outcome of a body (R84); the command of a privileged instruction ends with its DONE record (R416). -/
def Eff.run (v : Env) : Eff → State
  | .ok st c s => (s.jClose v.r (rmInst v.qid) st).complete1 v st (v.e.ctx.pc + 1 + v.i.xw) c
  | .jump t c s => s.complete1 v Sts.ok t c
  | .stop st s => ((s.jClose v.r (rmInst v.qid) st).settleRake v.r).endBad v.qid v.e.pos st v.e.ctx.pc
  | .park f s => (s.settleRake v.r).parkAt v.qid v.e.pos v.r f
  | .wait w s => (if decide (0x50 ≤ v.i.opc) && decide (v.i.opc ≤ 0x52) then s.borrow v.r else s).setRake v.r (fun k => { k with wait := w, instr := some v.ins })

/-! ### The instruction cache (R69) -/

/-- Lines of this node that hold `words` words of the program of `e` from word `pc` on. -/
def codeLines (e : Entry) (pc words : Nat) : List Nat :=
  ((sliceRuns e.codeRuns (16 * pc) (16 * words)).flatMap (fun g => linesOf (g.addr % 2 ^ 52) g.len)).eraseDups

/-- The set of rake `r`'s cache in which a line may lie. -/
def State.icSet (s : State) (r d : Nat) : List (Nat × Nat) := SMap.get [] (128 * r + d % 128) s.icache

/-- The cache of rake `r` holds the line. -/
def State.icHas (s : State) (r tag d : Nat) : Bool := (s.icSet r d).contains (tag, d)

/-- The line becomes the one used last of its set, which keeps four (log entry 78). -/
def State.icKeep (s : State) (r tag d : Nat) : State :=
  { s with icache := SMap.put [] (128 * r + d % 128) (((tag, d) :: (s.icSet r d).filter (· != (tag, d))).take 4) s.icache }

/-- Lines are read from memory; those that the cache is to keep enter it. -/
def State.icLoad (s : State) (r tag : Nat) (keep : Bool) (ds : List Nat) : State :=
  ds.foldl (fun s d =>
    let s := (s.readMem ⟨if tag = 64 then none else some tag, 8, false, 0⟩ (s.served (d * 128)) 128).2
    if keep then s.icKeep r tag d else s) s

/-- R69, R91: the fetch of `words` words at the pc of `e`: a hit, or a miss that reads what is missing and the next line of the program. -/
def State.fetchCode (s : State) (r : Nat) (e : Entry) (tag words : Nat) : State :=
  if e.inl then s
  else
    let on := s.on (Csr.PROGCTL_icache_en (r / 16))
    let ds := codeLines e e.ctx.pc words
    let miss := ds.filter (fun d => !(on && s.icHas r tag d))
    if miss = [] then (ds.foldl (fun s d => s.icKeep r tag d) s).count (icHitCtr (r / 16))
    else
      let after := (codeLines e (e.ctx.pc + words) 8).filter (fun d => !ds.contains d && !s.icHas r tag d)
      let ahead := if on && s.on (Csr.PROGCTL_prefetch_en (r / 16)) then after.take 1 else []
      ((s.icLoad r tag on miss).icLoad r tag on ahead).count (icMissCtr (r / 16))

/-- R67, R69, R95, R97, R135: one instruction of opcode `opc` on a rake that has fetched it, which parks when a code run that it lies in has
been invalidated (R86, R137). `again` says that a waiting instruction is taken up again. Nothing happens when the rake runs no program,
waits for another instruction, or is held. -/
def State.runInsn (s : State) (opc : Nat) (f : Fetch) (ins : Instr) (again : Bool) (body : Env → State → Eff) : State :=
  let r : Nat := f.rake
  let k := s.rake r
  match (s.queue k.qid).ent k.pos with
  | none => s
  | some e =>
    if !k.busy || (if again then k.instr != some ins else k.instr != none || s.rakesHeld (r / 16)) then s
    else
      let i := Insn.ofFetch opc f
      let v : Env := ⟨r, k.qid, (s.queue k.qid).pan, e, i, ins, again⟩
      match if again || v.rm then none else s.confirmCode e (1 + i.xw) with
      | some x => ((Eff.park x s).run v).lateGo
      | none =>
      let s := if again then s else s.fetchCode r e (codeTag v.qid v.pan) (1 + i.xw)
      if !i.decodes || decide (e.codeWords < e.ctx.pc + 1 + i.xw) then (s.endBad k.qid k.pos Sts.malformed e.ctx.pc).lateGo
      else if privileged opc && !v.rm then (s.endBad k.qid k.pos Sts.permission e.ctx.pc).lateGo
      else if e.ctx.pred i.g == i.gn then ((Eff.ok Sts.ok e.ctx s).run v).lateGo
      else ((v.tagged s body).run v).lateGo

/-- The instruction that waits on rake `r` goes on with `body`. -/
def State.resumeInsn (s : State) (r : Nat) (body : Env → State → Eff) : State :=
  match (s.rake r).instr with
  | some x => match rakeOp x with
    | some (o, f) => if (f.rake : Nat) = r then s.runInsn o f x true body else s
    | none => s
  | none => s

/-! ### Operands -/

/-- R58, R269: an operand located with `extra` added to its imm. -/
def Env.loc (v : Env) (op extra len : Nat) (wr : Bool) : Sum Nat Loc := v.e.locate v.e.ctx op extra len wr

/-- SEALDENYCNT, with SEALED_DENIED when it leaves zero (Table 15-14). -/
def State.sealDenied (s : State) : State :=
  let c : Ctr := ⟨Csr.SEALDENYCNT_count, Csr.SECCNTSTAT_cnt_ovf, 1, Ev.SEC_COUNT_OVF, 0, 0⟩
  let z := s.rd c.cnt == 0
  let s := s.count c
  if z && s.rd c.cnt != 0 then s.raise Ev.SEALED_DENIED 0 0 else s

/-- Whether every stretch of an operand is of this node's own memory (R85). -/
def State.allLocal (s : State) (l : Loc) : Bool := l.segs.all (fun g => g.zero || s.isLocal g)

/-- The check point of R85 for located operands, in the order of R10: zero runs that are read without `zf` (R60), what Ringmaster operands may
reach (R27, R443), rights (R58), and the confirmation of runs (R216, R284). An instruction that has passed it already goes on: its
remote part has been sent, or it waits at this node only and is no context-math instruction that still reads (R170). -/
def Env.check (v : Env) (s : State) (zf : Bool) (ls : List Loc) : Option Eff :=
  let passed := v.again && (s.waitOf v.r).any (fun w => w.asked || ls.all s.allLocal && !isMath v.ins)
  if passed then none
  else if !zf && ls.any (fun l => !l.wr && l.segs.any (·.zero)) then some (.stop Sts.malformed s)
  else if v.rm && !ls.all s.rmReaches then some (.stop Sts.malformed s)
  else if v.rm && ls.any s.rmDenied then some (.stop Sts.sealedDeny s.sealDenied)
  else if ls.any (·.denied) then some (.stop Sts.permission s)
  else if v.rm then none
  else match ls.findSome? (s.confirm v.e.r0) with
    | some f => some (.park f s)
    | none => none

/-! ### Waiting accesses -/

/-- The wait `id`. -/
def State.wait (s : State) (id : Nat) : Option Wait := s.waits.find? (fun w => w.id == id)

/-- Changes the wait `id`. -/
def State.setWait (s : State) (id : Nat) (f : Wait → Wait) : State :=
  { s with waits := s.waits.map (fun (w : Wait) => if w.id = id then f w else w) }

/-- A wait that has asked for nothing yet. -/
def Wait.fresh (id : Nat) (who : WaitWho) : Wait := ⟨id, who, [], [], [], false, (false, []), false, 0, Sts.ok, none, none⟩

/-- The wait of `who`, made if there is none. -/
def State.needWait (s : State) (who : WaitWho) : Nat × State :=
  match s.waits.find? (fun w => w.who == who) with
  | some w => (w.id, s)
  | none =>
    let id := s.fab.nextId
    (id, { s with fab := { s.fab with nextId := id + 1 }, waits := s.waits ++ [Wait.fresh id who] })

/-- Lines of this node that a stretch touches, its lent lines included (R303). -/
def State.homeLines (s : State) (g : Seg) : List Nat :=
  if g.zero ∨ g.len = 0 ∨ g.addr / 2 ^ 52 ≠ s.nodeId then [] else linesOf (g.addr % 2 ^ 52) g.len

/-- R74, R121: a line that must be recalled before the home may read (`wr` false) or write it, or that waits in its DRAM controller. -/
def State.conflicts (s : State) (wr : Bool) (d : Nat) : Bool :=
  s.dramHolds d || (s.txn d).isSome || s.coh.late.any (fun x => x.1 / 128 == d) || (wr && s.copying (d * 128)) ||
  (let st := entSt (s.dirEnt d); if wr then st != 0 else st == 2 || st == 3)

/-- R321: accesses wait for the lines `ds`, and those that a partner holds are recalled. `full` names the lines that will
be written whole, whose old data nobody needs. -/
def State.awaitLines (s : State) (id : Nat) (ds : List Nat) (full : Nat → Bool) : State :=
  ds.foldl (fun s d => s.recall d (full d)) (s.setWait id (fun w => { w with lines := ds }))

/-- R73, R120: another access's atomic holds the line from its read to its write. -/
def State.heldFrom (s : State) (id d : Nat) : Bool := s.waits.any (fun w => w.id != id && w.holds.contains d)

/-- A stretch cut at 4 KiB boundaries: offset and length of each part (R379). -/
def cut4k : Nat → Nat → Nat → List (Nat × Nat)
  | 0, _, _ => []
  | fuel + 1, a, n =>
    if n = 0 then [] else (let k := min n (4096 - a % 4096); (a, k) :: cut4k fuel (a + k) (n - k))

/-- R379: a read or write of bytes at a global address of another node, or at a lent address of this one: 0 sent, 1 no path,
2 node down. A LOST slot has no path (R54). -/
def State.far (s : State) (code pan a len : Nat) (nt : Bool) (data : List PByte) (use : ReqFor) : Nat × State :=
  match s.lentSlot a with
  | some k =>
    if s.rd (Csr.LENTSTAT_state k) = 4 then (1, s)
    else s.lender k code ((a % 2 ^ 52 - lentBase) % lentSlotSize) len data use
  | none =>
    let pois := (List.range 65).foldl (fun m h =>
      if (data.zipIdx).any (fun (b, i) => b.2 && (a % 64 + i) / 64 == h) then m + 2 ^ h else m) 0
    s.request { code := code, dstNode := a / 2 ^ 52, pan := pan, length := len, nt := nt, q2 := a, q3 := pois, data := data.map (·.1) } use

/-- Bytes of a stretch that remote reads have delivered, or none while some are missing. -/
def Wait.have_ (w : Wait) (a n : Nat) : Option (List PByte) :=
  (rangeFrom a n).mapM (fun x => SMap.get none x (w.got.map (fun c => (c.1, some c.2))))

/-- What gathering bytes for a waiting access comes to: a status that ends it, that it waits, or the bytes. -/
inductive Gather where
  | ends (status : Nat) (s : State)
  | waits (s : State)
  | bytes (bs : List PByte) (s : State)

/-- Reads the stretches of an access in order: local memory, what remote reads delivered, or zeros (R60). Lines that a
partner owns are recalled first, and remote parts are asked for. -/
def State.gather (s : State) (id : Nat) (pan : Option Nat) (nt : Bool) (gs : List Seg) : Gather :=
  let w := (s.wait id).getD (Wait.fresh id (WaitWho.rake 0))
  let req := match w.who with
    | .rake _ => 8
    | .msg q _ => q
  let hot := (gs.flatMap s.homeLines).filter (s.conflicts false)
  if hot ≠ [] then .waits (s.awaitLines id hot (fun _ => false))
  else if !Sts.goesOn w.stat then .ends w.stat s
  else
    let far := (gs.filter (fun g => !g.zero && !s.isLocal g)).flatMap (fun g => cut4k (g.len + 1) g.addr g.len)
    let missing := far.filter (fun p => (w.have_ p.1 p.2).isNone)
    let s := s.setWait id (fun w => { w with lines := [] })
    if missing ≠ [] then
      let ask := missing.filter (fun p => s.fab.reqs.all (fun q => q.use != .wait id p.1 p.2 false))
      let r := ask.foldl (fun (r : Nat × State) p =>
        if r.1 ≠ 0 then r else r.2.far 0x01 (pan.getD 0) p.1 p.2 nt [] (.wait id p.1 p.2 false)) (0, s)
      if r.1 ≠ 0 then .ends (Sts.ofPath r.1) r.2
      else .waits (r.2.setWait id (fun w => { w with left := w.left + ask.length }))
    else
      let r := gs.foldl (fun (r : List PByte × State) g =>
        if g.zero then (r.1 ++ List.replicate g.len (0, false), r.2)
        else if s.isLocal g then
          let (x, s) := r.2.readMem ⟨pan, req, nt, 0⟩ (r.2.served (g.addr % 2 ^ 52)) g.len
          (r.1 ++ x, s)
        else (r.1 ++ ((w.have_ g.addr g.len).getD []), r.2)) ([], s)
      .bytes r.1 r.2

/-- Splits bytes over stretches. -/
def overSegs : List Seg → List PByte → List (Seg × List PByte)
  | [], _ => []
  | g :: t, bs => (g, bs.take g.len) :: overSegs t (bs.drop g.len)

/-- What performing the stores of an access comes to: that it waits, for its lines or for the answers to its remote part; that it ends with
a status and nothing stored at this node (R85, R99); or that its stores are performed, where `poison` says that one met a channel out of
service (R271). -/
inductive Stored where
  | waits (s : State)
  | ends (status : Nat) (s : State)
  | sent (poison : Bool) (s : State)

/-- The bytes a waiting access receives. -/
def Wait.take (w : Wait) (addr : Nat) (data : List PByte) : Wait :=
  { w with got := (data.zipIdx).foldl (fun m (b, i) => SMap.ins (addr + i) b (SMap.del (addr + i) m)) w.got }

/-- R49, R290: the lent lines that wait `id` has written are logged for durable pan `n`, from what they held and hold now. -/
def State.logLent (s : State) (id n a : Nat) (bs : List PByte) (owner : DurOwner) : State :=
  let s := s.setWait id (fun w => w.take a bs)
  (linesOf a bs.length).foldl (fun s d =>
    let img := ((s.wait id).bind (fun w => w.have_ (d * 128) 128)).getD []
    s.logImage n (d * 128 % 2 ^ 52 / 128) owner (((img.take 64).any (·.2)).toNat + 2 * ((img.drop 64).any (·.2)).toNat) (img.map (·.1))) s

/-- One stretch of the stores of wait `id` that this node has to do: a local one with its log record and mirror write, the log record of a lent
one. The pair is whether a store met a channel out of service, and the state. -/
def State.storeStep (id : Nat) (pan : Option Nat) (nt : Bool) (owner : DurOwner) (r : Bool × State) (x : Seg × List PByte) : Bool × State :=
  let g := x.1
  let s := r.2
  if s.isLocal g then
    let a := s.served (g.addr % 2 ^ 52)
    let (oos, s) := s.store ⟨pan, 8, nt, 0⟩ pan a x.2 owner
    let (k, s) := match pan with
      | some n => if s.panMirrored n then
          (let mid := s.fab.nextId
           let s := { s with fab := { s.fab with nextId := mid + 1 } }
           match s.mirrorOut n (linesOf a x.2.length) mid with
           | (0, s) => (0, s)
           | (k, s) => (1, { s with fab := { s.fab with mirrors := s.fab.mirrors ++ [(⟨mid, k, none, id + 1⟩ : MirrorWait)] } }))
          else (0, s)
      | none => (0, s)
    (r.1 || oos, s.setWait id (fun w => { w with left := w.left + k }))
  else
    (r.1, match pan, s.lentSlot g.addr with
      | some n, some _ => if s.panDurable n then s.logLent id n g.addr x.2 owner else s
      | _, _ => s)

/-- The parts of stores that leave this node: address, length and bytes of each (R379). -/
def State.farParts (s : State) (ws : List (Seg × List PByte)) : List (Nat × Nat × List PByte) :=
  (ws.filter (fun x => !s.isLocal x.1)).flatMap (fun x =>
    (cut4k (x.1.len + 1) x.1.addr x.1.len).map (fun p => (p.1, p.2, (x.2.drop (p.1 - x.1.addr)).take p.2)))

/-- Whether an address of another node, or of a lender, has a path (Table 07-4). -/
def State.farPath (s : State) (a : Nat) : Nat :=
  match s.lentSlot a with
  | some k => if s.rd (Csr.LENTSTAT_state k) = 4 then 1 else s.lentPath k
  | none => s.nodePath (a / 2 ^ 52)

/-- Lent lines of a durable pan that stores write: what they hold is needed for their log records (R290). -/
def State.lentLines (s : State) (pan : Option Nat) (ws : List (Seg × List PByte)) : List Seg :=
  if pan.any s.panDurable then
    (((ws.filter (fun x => (s.lentSlot x.1.addr).isSome)).flatMap (fun x => linesOf x.1.addr x.1.len)).eraseDups).map (fun d => ⟨d * 128, 128, 0, false⟩)
  else []

/-- The status of a part of stores that has no path, first of those in R10's order. -/
def State.noWay (s : State) (ps : List (Nat × Nat × List PByte)) : Nat :=
  ps.foldl (fun st p => match s.farPath p.1 with
    | 0 => st
    | x => Sts.first st (Sts.ofPath x)) Sts.ok

/-- The stores of wait `id` once their lines are free. The remote parts go first and are answered before anything is stored at this node, so
that a status of effect None leaves it as it was (R85, R99). -/
def State.storesGo (s : State) (w : Wait) (pan : Option Nat) (nt : Bool) (owner : DurOwner) (ws : List (Seg × List PByte)) : Stored :=
  let far := if w.asked then [] else s.farParts ws
  if w.left ≠ 0 then .waits s
  else if !Sts.goesOn w.stat then .ends w.stat s
  else if far = [] then
    let r := ws.foldl (State.storeStep w.id pan nt owner) (false, s.setWait w.id (fun w => { w with lines := [], sent := true, todo := (false, []) }))
    .sent r.1 r.2
  else match s.gather w.id pan nt (s.lentLines pan ws) with
    | .ends st s => .ends st s
    | .waits s => .waits s
    | .bytes _ s =>
      let bad := s.noWay far
      if bad ≠ Sts.ok then .ends bad s
      else
        let s := far.foldl (fun s p => (s.far 0x02 (pan.getD 0) p.1 p.2.1 nt p.2.2 (.wait w.id p.1 p.2.1 true)).2) s
        .waits (s.setWait w.id (fun w => { w with lines := [], asked := true, left := w.left + far.length, todo := (nt, ws.map (fun x => (x.1.addr, x.2))) }))

/-- Performs stores in order, when no partner and no other access's atomic holds a line of theirs. -/
def State.stores (s : State) (id : Nat) (pan : Option Nat) (nt : Bool) (owner : DurOwner) (ws : List (Seg × List PByte)) : Stored :=
  let w := (s.wait id).getD (Wait.fresh id (WaitWho.rake 0))
  let nt := if w.asked then w.todo.1 else nt
  let ws := if w.asked then w.todo.2.map (fun x => (⟨x.1, x.2.length, 0, false⟩, x.2)) else ws
  let lines := ws.flatMap (fun x => s.homeLines x.1)
  let whole (d : Nat) : Bool := ws.any (fun x => decide (x.1.addr % 2 ^ 52 ≤ d * 128) && decide (d * 128 + 128 ≤ x.1.addr % 2 ^ 52 + x.1.len))
  let hot := lines.eraseDups.filter (fun d => s.conflicts true d || s.heldFrom id d)
  if hot ≠ [] then .waits (s.awaitLines id hot whole) else s.storesGo w pan nt owner ws

/-! ### Memory instructions -/

/-- R98: the status predicate receives whether the condition occurred. -/
def Env.setSp (v : Env) (c : Ctx) (b : Bool) : Ctx := c.setPred v.i.sp b

/-- The stretches of several operands. -/
def segsOf (ls : List Loc) : List Seg := ls.flatMap (·.segs)

/-- R101: the status of a completed access among OK, POISON and UNMAPPED_ZERO. -/
def accessStatus (poison zero : Bool) : Nat := if poison then Sts.poison else if zero then Sts.unmappedZero else Sts.ok

/-- Reads located operands, then goes on with their bytes. -/
def Env.read (v : Env) (s : State) (nt : Bool) (ls : List Loc) (k : List PByte → State → Eff) : Eff :=
  let (id, s) := s.needWait (WaitWho.rake v.r)
  match s.gather id (if v.rm then none else some v.pan) nt (segsOf ls) with
  | .ends st s => .stop st s
  | .waits s => .wait .mem s
  | .bytes bs s => k bs s

/-- R49, R80: the program's stores touch a durable pan. -/
def Env.durable (v : Env) (s : State) (ws : List (Seg × List PByte)) : State :=
  if !v.rm && s.panDurable v.pan && ws.any (fun x => (s.isLocal x.1 || (s.lentSlot x.1.addr).isSome) && x.1.len != 0) then
    s.setEnt v.qid v.e.pos (fun e => { e with durPos := some (e.durPos.getD 0) })
  else s

/-- An instruction whose stores have been performed completes with `status` and `c` once every response has come; poison that a store met
reaches its status predicate (R98). -/
def Env.settled (v : Env) (s : State) (id status : Nat) (c : Ctx) : Eff :=
  match s.wait id with
  | some w =>
    if w.left ≠ 0 then .wait .mem (s.setWait id (fun w => { w with fin := some (status, c) }))
    else if Sts.goesOn w.stat then .ok (Sts.first status w.stat) (if w.stat = Sts.poison then v.setSp c true else c) s
    else .stop w.stat s
  | none => .ok status c s

/-- Goes on from what the stores of wait `id` came to. -/
def Env.afterStores (v : Env) (id status : Nat) (c : Ctx) (after : State → State) : Stored → Eff
  | .waits s =>
    if (s.wait id).any (·.asked) then .wait .mem ((after s).setWait id (fun w => { w with fin := some (status, c) })) else .wait .mem s
  | .ends st s => .stop st s
  | .sent poison s =>
    if poison then v.settled (after s) id (Sts.first status Sts.poison) (v.setSp c true) else v.settled (after s) id status c

/-- Performs stores and `after`, then completes with `status` and `c`. -/
def Env.writeThen (v : Env) (s : State) (nt : Bool) (ws : List (Seg × List PByte)) (status : Nat) (c : Ctx)
    (after : State → State) : Eff :=
  let (id, s) := s.needWait (WaitWho.rake v.r)
  v.afterStores id status c (fun s => after (v.durable s ws))
    (s.stores id (if v.rm then none else some v.pan) nt (.entry v.qid v.e.pos) ws)

/-- Performs stores, then completes with `status` and `c`. -/
def Env.write (v : Env) (s : State) (nt : Bool) (ws : List (Seg × List PByte)) (status : Nat) (c : Ctx) : Eff :=
  v.writeThen s nt ws status c id

/-- An instruction whose remote stores have been sent goes on with what is left at this node, and one whose stores are performed waits for
responses only. -/
def Env.resume (v : Env) (s : State) (k : Unit → Eff) : Eff :=
  match s.waitOf v.r with
  | some w =>
    match w.fin with
    | some (st, c) =>
      if w.sent then v.settled s w.id st c
      else v.afterStores w.id st c id (s.stores w.id (if v.rm then none else some v.pan) false (.entry v.qid v.e.pos) [])
    | none => k ()
  | none => k ()

/-- Length of an instruction: imm32, or a register whose bits above 31 are zero (R583) and which carries no poison (R269). -/
def Env.len (v : Env) (k : Nat) : Sum Nat Nat :=
  if v.i.m 3 then (if v.poi k || decide (2 ^ 32 ≤ v.reg k) then .inl Sts.malformed else .inr (v.reg k)) else .inr v.i.imm

/-- The first of two located operands' refusals (R10). -/
def both (a b : Sum Nat Loc) : Sum Nat (Loc × Loc) :=
  match a, b with
  | .inl x, .inl y => .inl (Sts.first x y)
  | .inl x, .inr _ => .inl x
  | .inr _, .inl y => .inl y
  | .inr x, .inr y => .inr (x, y)

/-- Every located operand, or the first of their refusals (R10). -/
def allLocs (l : List (Sum Nat Loc)) : Sum Nat (List Loc) :=
  l.foldr (fun a b =>
    match a, b with
    | .inl x, .inl y => .inl (Sts.first x y)
    | .inl x, .inr _ => .inl x
    | .inr _, .inl y => .inl y
    | .inr x, .inr y => .inr (x :: y)) (.inr [])

/-- PVA of the first byte of an operand. -/
def Entry.va (e : Entry) (c : Ctx) (op : Nat) : Nat :=
  let w := e.wins.getD (bitsOf op 48 3) Win.unused
  let off := operandOff c op
  if w.kind = 2 then ((sliceRuns w.runs off 1).head?.map (·.va)).getD off else w.base + off

def Env.va (v : Env) (op : Nat) : Nat := v.e.va v.ctx op

/-- An operand naturally aligned to `n` bytes. -/
def Env.aligned (v : Env) (op n : Nat) : Bool := v.va op % n == 0

/-- What is common to the memory instructions: MALFORMED where `ok` fails or an operand cannot be located, then their check
point (R85). `zf` is the zero-fill flag. -/
def Env.access (v : Env) (s : State) (ok zf : Bool) (locs : Sum Nat (List Loc)) (k : List Loc → State → Eff) : Eff :=
  v.resume s fun _ =>
    if !ok then .stop Sts.malformed s
    else match locs with
      | .inl st => .stop st s
      | .inr ls => match v.check s zf ls with
        | some x => x
        | none => k ls s

/-- Some byte of what was read carries poison. -/
def anyPoison (bs : List PByte) : Bool := bs.any (·.2)

/-- Some part of the operands lies in a zero run. -/
def anyZero (ls : List Loc) : Bool := ls.any (fun l => l.segs.any (·.zero))

/-- R117, R124: the check pair (s[k], s[k+1]) has an even register and one of the kinds 1 to 3. -/
def Env.pairOk (v : Env) (k : Nat) : Bool :=
  k % 2 == 0 && decide (1 ≤ bitsOf (v.reg (k + 1)) 56 3) && decide (bitsOf (v.reg (k + 1)) 56 3 ≤ 3)

/-- R125, `crc_run`: bytes folded into the check pair at `k`, as delivered. -/
def Ctx.fold (c : Ctx) (k : Nat) (bs : List PByte) : Ctx :=
  let q := c.reg (k + 1)
  let c := c.setReg k (crcUpdate (bitsOf q 56 3) (c.reg k) (bs.map (·.1))) (c.poi k)
  c.setReg (k + 1) (setBits q 0 48 (bitsOf q 0 48 + bs.length)) (c.poi (k + 1))

end Sys2Proof.Machine
end

