-- ==== Sys2Proof/Machine/Move.lean ====
section
/-!
DEFINITION. The movement instructions (R113 to R118) and the scalar load (R108).
-/
namespace Sys2Proof.Machine

open Host

/-- Contiguous stretches joined, zero-length ones dropped. -/
def joinSegs : List Seg → List Seg
  | [] => []
  | g :: t =>
    match joinSegs t with
    | h :: u => if g.len = 0 then h :: u else if !g.zero && !h.zero && g.addr + g.len == h.addr then { g with len := g.len + h.len } :: u
        else g :: h :: u
    | [] => if g.len = 0 then [] else [g]

/-- R115: source and destination share a byte of memory and are not identical. -/
def clash (a b : List Seg) : Bool :=
  let x := (joinSegs a).map (fun g => (g.addr, g.len))
  let y := (joinSegs b).map (fun g => (g.addr, g.len))
  x != y && a.any (fun g => b.any (fun h => !g.zero && !h.zero && decide (g.addr < h.addr + h.len) && decide (h.addr < g.addr + g.len)))

/-- Flags of Table 04-7. -/
def Env.zf (v : Env) : Bool := v.i.m 0
def Env.cf (v : Env) : Bool := v.i.m 1
def Env.nt (v : Env) : Bool := v.i.m 2

/-- The context after a movement instruction that read `bs`: its check pair and its status predicate (R98, R117). -/
def Env.moved (v : Env) (bs : List PByte) : Ctx :=
  v.setSp (if v.cf then v.ctx.fold v.i.rb bs else v.ctx) (anyPoison bs)

/-- R114 to R117 for the instructions that read `src` and write the bytes over `dst`. -/
def Env.move (v : Env) (s : State) (ok : Bool) (src dst : Sum Nat (List Loc)) (overlap : Bool) : Eff :=
  let ok := ok && (!v.cf || v.pairOk v.i.rb)
  let locs : Sum Nat (List Loc) := match src, dst with
    | .inr a, .inr b => if overlap && clash (segsOf a) (segsOf b) then .inl Sts.malformed else .inr (a ++ b)
    | .inl x, .inl y => .inl (Sts.first x y)
    | .inl x, _ => .inl x
    | _, .inl y => .inl y
  v.access s ok v.zf locs fun ls s =>
    let a := ls.filter (fun l => !l.wr)
    let b := ls.filter (·.wr)
    v.read s v.nt a fun bs s =>
      v.write s v.nt (overSegs (segsOf b) bs) (accessStatus (anyPoison bs) (anyZero a)) (v.moved bs)

/-- One located operand, as a list. -/
def Env.loc1 (v : Env) (op extra len : Nat) (wr : Bool) : Sum Nat (List Loc) := allLocs [v.loc op extra len wr]

/-- R114, `copy`. -/
def insnCopy (again : Bool) (f : Fetch) (s : State) : State :=
  s.runInsn 0x10 f (.copy f) again fun v s =>
    match v.len v.i.ra with
    | .inl st => v.resume s fun _ => .stop st s
    | .inr n => v.move s true (v.loc1 v.i.x0 0 n false) (v.loc1 v.i.op 0 n true) true

def execCopy (f : Fetch) (s : State) : Outcome State Fault Refusal := .next (insnCopy false f s)

/-- Byte `i` of the repeated pattern of FILL. -/
def patByte (pat i : Nat) : Nat := bitsOf pat (8 * (i % 8)) 8

/-- R114, `fill`. A poisoned pattern is written poisoned (R268). -/
def insnFill (again : Bool) (f : Fetch) (s : State) : State :=
  s.runInsn 0x11 f (.fill f) again fun v s =>
    match v.len v.i.rb with
    | .inl st => v.resume s fun _ => .stop st s
    | .inr n =>
      v.access s true false (v.loc1 v.i.op 0 n true) fun ls s =>
        let bs : List PByte := (List.range n).map (fun i => (patByte (v.reg v.i.ra) i, v.poi v.i.ra))
        v.write s v.nt (overSegs (segsOf ls) bs) Sts.ok v.ctx

def execFill (f : Fetch) (s : State) : Outcome State Fault Refusal := .next (insnFill false f s)

/-- Element bytes and index width of GATHER and SCATTER (Table 04-8). -/
def Env.elemBytes (v : Env) : Nat := bitsOf v.i.y0 0 32
def Env.idx64 (v : Env) : Bool := bitOf v.i.y0 32

/-- R116: the count, the element bytes and the list's alignment are in range. -/
def Env.listOk (v : Env) : Bool :=
  decide (1 ≤ v.i.imm) && decide (v.i.imm ≤ 16384) && decide (1 ≤ v.elemBytes) && decide (v.elemBytes ≤ 65536)
    && v.aligned v.i.x1 (if v.idx64 then 8 else 4) && (!v.cf || v.pairOk v.i.rb)

/-- R114, R116: offsets of the elements, from the index list read. -/
def Env.offsets (v : Env) (bs : List PByte) : List Nat :=
  (List.range v.i.imm).map (fun i =>
    if v.idx64 then (valueOf ((bs.drop (8 * i)).take 8)).1 else (valueOf ((bs.drop (4 * i)).take 4)).1 * v.elemBytes)

/-- GATHER and SCATTER read their whole list first (R116), then go on with the offsets. The operands that do not depend on it, and the window
that its elements lie in, are checked with it (R10). -/
def Env.withList (v : Env) (s : State) (fixed : List (Sum Nat Loc)) (k : List Loc → List Nat → State → Eff) : Eff :=
  v.access s v.listOk v.zf (allLocs (v.loc v.i.x1 0 (v.i.imm * (if v.idx64 then 8 else 4)) false :: fixed)) fun ls s =>
    let l := ls.take 1
    v.read s v.nt l fun bs s => if anyPoison bs then .stop Sts.malformed s else k l (v.offsets bs) s

/-- R114, `gather`. -/
def insnGather (again : Bool) (f : Fetch) (s : State) : State :=
  s.runInsn 0x12 f (.gather f) again fun v s =>
    v.withList s [v.loc v.i.x0 0 0 false, v.loc v.i.op 0 (v.i.imm * v.elemBytes) true] fun l offs s =>
      let locs := allLocs (offs.map (fun o => v.loc v.i.x0 o v.elemBytes false) ++ [v.loc v.i.op 0 (v.i.imm * v.elemBytes) true])
      v.access s true v.zf locs fun ls s =>
        let a := ls.filter (fun l => !l.wr)
        v.read s v.nt a fun bs s =>
          v.write s v.nt (overSegs (segsOf (ls.filter (·.wr))) bs) (accessStatus (anyPoison bs) (anyZero (l ++ a))) (v.moved bs)

def execGather (f : Fetch) (s : State) : Outcome State Fault Refusal := .next (insnGather false f s)

/-- R114, R115, `scatter`: elements are written in order of the list, so the later one wins. -/
def insnScatter (again : Bool) (f : Fetch) (s : State) : State :=
  s.runInsn 0x13 f (.scatter f) again fun v s =>
    v.withList s [v.loc v.i.x0 0 (v.i.imm * v.elemBytes) false, v.loc v.i.op 0 0 true] fun l offs s =>
      let locs := allLocs (v.loc v.i.x0 0 (v.i.imm * v.elemBytes) false :: offs.map (fun o => v.loc v.i.op o v.elemBytes true))
      v.access s true v.zf locs fun ls s =>
        let a := ls.filter (fun l => !l.wr)
        v.read s v.nt a fun bs s =>
          v.write s v.nt (overSegs (segsOf (ls.filter (·.wr))) bs) (accessStatus (anyPoison bs) (anyZero (l ++ a))) (v.moved bs)

def execScatter (f : Fetch) (s : State) : Outcome State Fault Refusal := .next (insnScatter false f s)

/-- R114, R115, `stride`: rows are written in order, so the later one wins. -/
def insnStride (again : Bool) (f : Fetch) (s : State) : State :=
  s.runInsn 0x14 f (.stride f) again fun v s =>
    match v.len v.i.ra with
    | .inl st => v.resume s fun _ => .stop st s
    | .inr n =>
      let rows := bitsOf v.i.x1 0 32
      let ok := decide (1 ≤ rows) && decide (rows ≤ 1048576)
      let rs := List.range (if ok then rows else 0)
      v.move s ok (allLocs (rs.map (fun r => v.loc v.i.x0 (r * v.i.y0) n false)))
        (allLocs (rs.map (fun r => v.loc v.i.op (r * v.i.y1) n true))) true

def execStride (f : Fetch) (s : State) : Outcome State Fault Refusal := .next (insnStride false f s)

/-! ### Tiles -/

/-- Byte `i` of tile `t`. -/
def Ctx.tile (c : Ctx) (t i : Nat) : Nat := SMap.get 0 (4096 * t + i) c.tiles

/-- Whether byte `i` of tile `t` lies in a poisoned sector (R268). -/
def Ctx.tilePoison (c : Ctx) (t i : Nat) : Bool := SMap.get false (32 * t + i / 128) c.tp

/-- Writes a whole tile: `bs` from byte 0 on, then zeros, with the poison of its sectors. -/
def Ctx.setTile (c : Ctx) (t : Nat) (bs : List PByte) : Ctx :=
  let tiles := (List.range 4096).foldl (fun m i => SMap.put 0 (4096 * t + i) ((bs.getD i (0, false)).1 % 256) m) c.tiles
  let tp := (List.range 32).foldl (fun m j => SMap.put false (32 * t + j) (((bs.drop (128 * j)).take 128).any (·.2)) m) c.tp
  { c with tiles := tiles, tp := tp }

/-- R102: the length of TLOAD and TSTORE. -/
def Env.tileLen (v : Env) : Bool := decide (1 ≤ v.i.imm) && decide (v.i.imm ≤ 4096)

/-- R114, `tload`. -/
def insnTload (again : Bool) (f : Fetch) (s : State) : State :=
  s.runInsn 0x18 f (.tload f) again fun v s =>
    v.access s (v.tileLen && (!v.cf || v.pairOk v.i.rb)) v.zf (v.loc1 v.i.op 0 v.i.imm false) fun ls s =>
      v.read s v.nt ls fun bs s =>
        .ok (accessStatus (anyPoison bs) (anyZero ls)) ((v.moved bs).setTile (v.i.ra % 16) bs) s

def execTload (f : Fetch) (s : State) : Outcome State Fault Refusal := .next (insnTload false f s)

/-- R114, `tstore`. -/
def insnTstore (again : Bool) (f : Fetch) (s : State) : State :=
  s.runInsn 0x19 f (.tstore f) again fun v s =>
    v.access s v.tileLen false (v.loc1 v.i.op 0 v.i.imm true) fun ls s =>
      let t := v.i.ra % 16
      let bs : List PByte := (List.range v.i.imm).map (fun i => (v.ctx.tile t i, v.ctx.tilePoison t i))
      v.write s v.nt (overSegs (segsOf ls) bs) Sts.ok v.ctx

def execTstore (f : Fetch) (s : State) : Outcome State Fault Refusal := .next (insnTstore false f s)

/-! ### Scalar loads (R108) -/

/-- The window offset of the CSR that a located operand of a Ringmaster program touches, if any (R539). -/
def Loc.csr (l : Loc) : Option Nat :=
  match l.segs with
  | g :: _ =>
    let a := g.addr % 2 ^ 52
    if csrBase ≤ a ∧ a < csrBase + 0x4000000 then some (a - csrBase) else none
  | [] => none

/-- The value of LDS of `n` bytes. -/
def Env.loaded (v : Env) (n x : Nat) : Nat := if v.i.m 2 then ofSigned 64 (toSigned (8 * n) x) else x

/-- R108: LDS. Only Ringmaster programs reach CSRs, and only with size 3 (R5, R539). -/
def insnLds (again : Bool) (f : Fetch) (s : State) : State :=
  s.runInsn 0x0B f (.lds f) again fun v s =>
    let n := 2 ^ bitsOf v.i.mod 0 2
    let go (_ : Unit) : Eff :=
      v.access s (v.aligned v.i.op n) false (v.loc1 v.i.op 0 n false) fun ls s =>
        v.read s false ls fun bs s =>
          let c := v.ctx.setReg v.i.ra (v.loaded n (valueOf bs).1) (anyPoison bs)
          .ok (accessStatus (anyPoison bs) false) (v.setSp c (anyPoison bs)) s
    match v.loc v.i.op 0 n false with
    | .inr l => match l.csr with
      | some o =>
        if !v.rm || n != 8 || o % 8 != 0 then .stop Sts.malformed s
        else if l.denied then .stop Sts.permission s
        else
          let (x, s) := s.regRead o
          .ok Sts.ok (v.setSp (v.ctx.setReg v.i.ra x false) false) s
      | none => go ()
    | .inl _ => go ()

def execLds (f : Fetch) (s : State) : Outcome State Fault Refusal := .next (insnLds false f s)

end Sys2Proof.Machine
end

