-- ==== Sys2Proof/Machine/Atomic.lean ====
section
/-!
DEFINITION. The atomics (R119 to R123), SIGNAL (R111) and WAIT (R112).
-/
namespace Sys2Proof.Machine

open Host

/-- R121, R379: the ATOM that asks the home of global address `a` for an operation, near (hint 1); `vp` says that the value is poisoned
(R268). -/
def atomMsg (pan a o sz val cmp : Nat) (vp : Bool) : Msg :=
  { code := 0x47, dstNode := a / 2 ^ 52, pan := pan, length := 128, q2 := a / 128 * 128,
    q3 := (if vp then 2 ^ (a % 128 / 64) else 0) + 2 ^ 15 + o * 2 ^ 16 + (if sz = 8 then 2 ^ 24 else 0) + a % 128 * 2 ^ 25, data := leBytes 8 val ++ leBytes 8 cmp }

/-- R120, R121: one read-modify-write of `sz` bytes at a located operand, here or at its home. `fin` gives the status and the
context from the old value and its poison. A poisoned old value is not updated (R123); a poisoned `val` is written poisoned. A lent line,
which is read from its lender and written back later, is held in between. -/
def Env.rmw (v : Env) (s : State) (l : Loc) (o sz val cmp : Nat) (vp : Bool) (fin : Nat → Bool → Nat × Ctx) : Eff :=
  let g := l.segs.headD ⟨0, 0, 0, false⟩
  let lent := (s.lentSlot g.addr).isSome
  let line := g.addr % 2 ^ 52 / 128
  if lent && s.waits.any (fun w => w.who != WaitWho.rake v.r && w.holds.contains line) then .wait .mem (s.needWait (WaitWho.rake v.r)).2
  else if g.addr / 2 ^ 52 = s.nodeId then
    let s := if lent then (let x := s.needWait (WaitWho.rake v.r); x.2.setWait x.1 (fun w => { w with holds := [line] })) else s
    v.read s false [l] fun bs s =>
      let (old, p) := valueOf bs
      let (st, c) := fin old p
      if p then .ok st c s
      else
        let new : List PByte := (leBytes sz (atomNew o sz old val cmp)).map (fun b => (b, vp))
        v.write s false (overSegs l.segs new) st c
  else
    let (id, s) := s.needWait (WaitWho.rake v.r)
    let w := (s.wait id).getD (Wait.fresh id (WaitWho.rake v.r))
    if !Sts.goesOn w.stat && w.stat != Sts.poison then .stop w.stat s
    else match w.have_ g.addr sz with
      | some bs =>
        let (old, p) := valueOf bs
        let (st, c) := fin old p
        .ok st c s
      | none =>
        if w.asked then .wait .mem s
        else match s.request (atomMsg v.pan g.addr o sz (val % 2 ^ (8 * sz)) (cmp % 2 ^ (8 * sz)) vp) (.wait id g.addr sz true) with
          | (0, s) => .wait .mem (s.setWait id (fun w => { w with asked := true, left := w.left + 1 }))
          | (x, s) => .stop (Sts.ofPath x) s

/-- The operand of an instruction with one located operand. -/
def firstLoc (ls : List Loc) : Loc := ls.headD ⟨[], 0, true, false, false⟩

/-- R119 to R123: an atomic of opcode `o`. Where an ACAS names one predicate as sp and pd, pd is written last (DESIGN CHOICE, log entry 75: R123
does not say which write stands). -/
def Env.atomic (v : Env) (s : State) (o : Nat) : Eff :=
  let sz := if v.i.m 0 then 8 else 4
  let ret := v.i.m 1
  let locs := allLocs (v.loc v.i.op 0 sz true :: (if ret then [v.loc v.i.op 0 sz false] else []))
  v.access s (v.aligned v.i.op sz) false locs fun ls s =>
    v.rmw s (firstLoc ls) o sz (v.reg v.i.ra) (v.reg v.i.rb) (v.poi v.i.ra) fun old p =>
      let c := if ret then v.ctx.setReg v.i.ra old p else v.ctx
      let c := v.setSp c p
      (if p then Sts.poison else Sts.ok,
       if o = 0x39 then c.setPred (bitsOf v.i.imm 0 3) (!p && old == v.reg v.i.rb % 2 ^ (8 * sz)) else c)

def insnAadd (again : Bool) (f : Fetch) (s : State) : State := s.runInsn 0x30 f (.aadd f) again fun v s => v.atomic s 0x30
def insnAand (again : Bool) (f : Fetch) (s : State) : State := s.runInsn 0x31 f (.aand f) again fun v s => v.atomic s 0x31
def insnAor (again : Bool) (f : Fetch) (s : State) : State := s.runInsn 0x32 f (.aor f) again fun v s => v.atomic s 0x32
def insnAxor (again : Bool) (f : Fetch) (s : State) : State := s.runInsn 0x33 f (.axor f) again fun v s => v.atomic s 0x33
def insnAminu (again : Bool) (f : Fetch) (s : State) : State := s.runInsn 0x34 f (.aminu f) again fun v s => v.atomic s 0x34
def insnAmaxu (again : Bool) (f : Fetch) (s : State) : State := s.runInsn 0x35 f (.amaxu f) again fun v s => v.atomic s 0x35
def insnAmins (again : Bool) (f : Fetch) (s : State) : State := s.runInsn 0x36 f (.amins f) again fun v s => v.atomic s 0x36
def insnAmaxs (again : Bool) (f : Fetch) (s : State) : State := s.runInsn 0x37 f (.amaxs f) again fun v s => v.atomic s 0x37
def insnAswap (again : Bool) (f : Fetch) (s : State) : State := s.runInsn 0x38 f (.aswap f) again fun v s => v.atomic s 0x38
def insnAcas (again : Bool) (f : Fetch) (s : State) : State := s.runInsn 0x39 f (.acas f) again fun v s => v.atomic s 0x39
def insnAfadd (again : Bool) (f : Fetch) (s : State) : State := s.runInsn 0x3A f (.afadd f) again fun v s => v.atomic s 0x3A

def execAadd (f : Fetch) (s : State) : Outcome State Fault Refusal := .next (insnAadd false f s)
def execAand (f : Fetch) (s : State) : Outcome State Fault Refusal := .next (insnAand false f s)
def execAor (f : Fetch) (s : State) : Outcome State Fault Refusal := .next (insnAor false f s)
def execAxor (f : Fetch) (s : State) : Outcome State Fault Refusal := .next (insnAxor false f s)
def execAminu (f : Fetch) (s : State) : Outcome State Fault Refusal := .next (insnAminu false f s)
def execAmaxu (f : Fetch) (s : State) : Outcome State Fault Refusal := .next (insnAmaxu false f s)
def execAmins (f : Fetch) (s : State) : Outcome State Fault Refusal := .next (insnAmins false f s)
def execAmaxs (f : Fetch) (s : State) : Outcome State Fault Refusal := .next (insnAmaxs false f s)
def execAswap (f : Fetch) (s : State) : Outcome State Fault Refusal := .next (insnAswap false f s)
def execAcas (f : Fetch) (s : State) : Outcome State Fault Refusal := .next (insnAcas false f s)
def execAfadd (f : Fetch) (s : State) : Outcome State Fault Refusal := .next (insnAfadd false f s)

/-- R111: SIGNAL, a fetch-add without return. Every earlier access of the program has been performed. -/
def insnSignal (again : Bool) (f : Fetch) (s : State) : State :=
  s.runInsn 0x05 f (.signal f) again fun v s =>
    let step := if v.i.m 0 then v.reg v.i.ra else v.i.imm
    v.access s (v.aligned v.i.op 8) false (v.loc1 v.i.op 0 8 true) fun ls s =>
      v.rmw s (firstLoc ls) 0x30 8 step 0 (v.i.m 0 && v.poi v.i.ra) fun _ _ => (Sts.ok, v.ctx)

def execSignal (f : Fetch) (s : State) : Outcome State Fault Refusal := .next (insnSignal false f s)

/-! ### WAIT -/

/-- The value that a waiting WAIT last read. -/
def State.lastRead (s : State) (r : Nat) : Option (Nat × Bool) :=
  match (s.rake r).wait with
  | .counter l => l
  | _ => none

/-- R112: how WAIT ends with the value `x` and its poison; `out` says that it has timed out. -/
def Env.waitEnds (v : Env) (s : State) (x : Nat × Bool) (out : Bool) : Eff :=
  if out && v.i.sp == 0 then .stop Sts.timeout s
  else .ok (if x.2 then Sts.poison else Sts.ok) (v.setSp (v.ctx.setReg v.i.ra x.1 x.2) (out || x.2)) s

/-- R112: WAIT reads its counter, and goes on waiting until it has reached its target. -/
def insnWait (again : Bool) (f : Fetch) (s : State) : State :=
  s.runInsn 0x06 f (.wait f) again fun v s =>
    let last := s.lastRead v.r
    let out := v.access s (v.aligned v.i.op 8 && !v.poi v.i.rb) false (v.loc1 v.i.op 0 8 false) fun ls s =>
      v.read s false ls fun bs s =>
        let x := valueOf bs
        if subMod x.1 (v.reg v.i.rb) 64 < 2 ^ 63 then v.waitEnds s x false else .wait (.counter (some x)) s
    match out with
    | .wait .mem s => .wait (.counter last) s
    | e => e

def execWait (f : Fetch) (s : State) : Outcome State Fault Refusal := .next (insnWait false f s)

/-- The fetch of a waiting WAIT on rake `r`. -/
def State.waitFetch (s : State) (r : Nat) : Option Fetch :=
  match (s.rake r).wait, (s.rake r).instr with
  | .counter _, some (.wait f) => some f
  | _, _ => none

/-- R112: the counter of a waiting WAIT is read again; a counter on another node is asked for again. -/
def State.waitPoll (s : State) (r : Nat) : State :=
  match s.waitFetch r with
  | some f =>
    let s := { s with waits := s.waits.map (fun (w : Wait) => if w.who = WaitWho.rake r ∧ w.left = 0 then { w with got := [] } else w) }
    insnWait true f s
  | none => s

def execWaitSatisfied (r : Fin 256) (s : State) : Outcome State Fault Refusal := .next (s.waitPoll r)

/-- R112: a WAIT with a non-zero timeout gives up. One with a status predicate whose first read has not returned yet writes 0 to s[ra] (DESIGN
CHOICE, log entry 75: R112 gives no counter value there). -/
def State.waitTimeout (s : State) (r : Nat) : State :=
  match s.waitFetch r with
  | some f =>
    if f.imm = 0 then s
    else s.runInsn 0x06 f (.wait f) true fun v s => v.waitEnds s ((s.lastRead v.r).getD (0, false)) true
  | none => s

def execWaitTimeout (r : Fin 256) (s : State) : Outcome State Fault Refusal := .next (s.waitTimeout r)

end Sys2Proof.Machine
end

