-- ==== Sys2Proof/Machine/Check.lean ====
section
/-!
DEFINITION. The check-value instructions (R124 to R126, R275 to R277).
-/
namespace Sys2Proof.Machine

open Host

/-- R277: the bits of a raw value above w are zero. -/
def rawOk (kind raw : Nat) : Bool := decide (raw < 2 ^ crcWidth kind)

/-- R124: the odd register of a pair of a kind 1 to 3 with its reserved bits zero. -/
def recordOk (q raw : Nat) : Bool :=
  let k := bitsOf q 56 3
  decide (1 ≤ k) && decide (k ≤ 3) && onlyBits q [(0, 48), (56, 3)] && rawOk k raw

/-- R125, `crc_init`. -/
def insnCrcInit (again : Bool) (f : Fetch) (s : State) : State :=
  s.runInsn 0x40 f (.crcInit f) again fun v s =>
    let k := bitsOf v.i.mod 0 2
    let init := if v.i.m 3 then v.i.op else Machine.crcInit k
    if v.i.ra % 2 = 1 ∨ ¬ rawOk k init then .stop Sts.malformed s
    else
      let raw := crcSeed k init (if v.i.m 2 then some (v.reg v.i.rb) else none)
      let c := v.ctx.setReg v.i.ra raw (v.i.m 2 && v.poi v.i.rb)
      .ok Sts.ok (c.setReg (v.i.ra + 1) (k * 2 ^ 56) false) s

def execCrcInit (f : Fetch) (s : State) : Outcome State Fault Refusal := .next (insnCrcInit false f s)

/-- R125, `crc_run`. -/
def insnCrcRun (again : Bool) (f : Fetch) (s : State) : State :=
  s.runInsn 0x41 f (.crcRun f) again fun v s =>
    match v.len v.i.rb with
    | .inl st => v.resume s fun _ => .stop st s
    | .inr n =>
      v.access s (v.pairOk v.i.ra) v.zf (v.loc1 v.i.op 0 n false) fun ls s =>
        v.read s false ls fun bs s =>
          .ok (accessStatus (anyPoison bs) (anyZero ls)) (v.setSp (v.ctx.fold v.i.ra bs) (anyPoison bs)) s

def execCrcRun (f : Fetch) (s : State) : Outcome State Fault Refusal := .next (insnCrcRun false f s)

/-- R126: CRC.SAVE. -/
def insnCrcSave (again : Bool) (f : Fetch) (s : State) : State :=
  s.runInsn 0x42 f (.crcSave f) again fun v s =>
    v.access s (v.i.ra % 2 == 0 && v.aligned v.i.op 16) false (v.loc1 v.i.op 0 16 true) fun ls s =>
      let half (k : Nat) : List PByte := (leBytes 8 (v.reg k)).map (fun b => (b, v.poi k))
      v.write s false (overSegs (segsOf ls) (half v.i.ra ++ half (v.i.ra + 1))) Sts.ok v.ctx

def execCrcSave (f : Fetch) (s : State) : Outcome State Fault Refusal := .next (insnCrcSave false f s)

/-- R126: CRC.LOAD. -/
def insnCrcLoad (again : Bool) (f : Fetch) (s : State) : State :=
  s.runInsn 0x43 f (.crcLoad f) again fun v s =>
    v.access s (v.i.ra % 2 == 0 && v.aligned v.i.op 16) false (v.loc1 v.i.op 0 16 false) fun ls s =>
      v.read s false ls fun bs s =>
        let (raw, p) := valueOf (bs.take 8)
        let (q, p') := valueOf (bs.drop 8)
        if !recordOk q raw then .stop Sts.malformed s
        else .ok (accessStatus (p || p') false)
          (v.setSp ((v.ctx.setReg v.i.ra raw p).setReg (v.i.ra + 1) q p') (p || p')) s

def execCrcLoad (f : Fetch) (s : State) : Outcome State Fault Refusal := .next (insnCrcLoad false f s)

/-- R125, `crc_verify`: the status and context for an expected value and its poison. -/
def Env.verify (v : Env) (s : State) (expected : Nat) (p : Bool) : Eff :=
  let k := bitsOf (v.reg (v.i.ra + 1)) 56 3
  let bad := crcFinal k (v.reg v.i.ra) != expected % 2 ^ crcWidth k
  let p := p || v.poi v.i.ra
  .ok (if p then Sts.poison else if bad then Sts.checkMismatch else Sts.ok) (v.setSp v.ctx (bad || p)) s

/-- R125: CRC.VERIFY. -/
def insnCrcVerify (again : Bool) (f : Fetch) (s : State) : State :=
  s.runInsn 0x44 f (.crcVerify f) again fun v s =>
    if v.i.m 3 then
      let n := crcWidth (bitsOf (v.reg (v.i.ra + 1)) 56 3) / 8
      v.access s (v.pairOk v.i.ra && v.aligned v.i.op n) false (v.loc1 v.i.op 0 n false) fun ls s =>
        v.read s false ls fun bs s => v.verify s (valueOf bs).1 (valueOf bs).2
    else if !v.pairOk v.i.ra then .stop Sts.malformed s
    else v.verify s (v.reg v.i.rb) (v.poi v.i.rb)

def execCrcVerify (f : Fetch) (s : State) : Outcome State Fault Refusal := .next (insnCrcVerify false f s)

/-- R125: CRC.FINAL. -/
def insnCrcFinal (again : Bool) (f : Fetch) (s : State) : State :=
  s.runInsn 0x45 f (.crcFinal f) again fun v s =>
    if !v.pairOk v.i.ra then .stop Sts.malformed s
    else
      let k := bitsOf (v.reg (v.i.ra + 1)) 56 3
      .ok Sts.ok (v.ctx.setReg v.i.rb (Machine.crcFinal k (v.reg v.i.ra)) (v.poi v.i.ra)) s

def execCrcFinal (f : Fetch) (s : State) : Outcome State Fault Refusal := .next (insnCrcFinal false f s)

end Sys2Proof.Machine
end

