-- ==== Sys2Proof/Machine/DramCtl.lean ====
section
/-!
DEFINITION. What the DRAM controllers do beside serving accesses: training, migration, refresh, sweeps, stacked-DRAM training,
patrol scrub and retirement (R226 to R250, R263 to R274).
-/
namespace Sys2Proof.Machine

open Host

/-! ### Training (R225, R226, R242) -/

/-- R225: DDRCFG names a supported configuration, equal to channel 0's. -/
def State.cfgOk (s : State) (c : Nat) : Bool :=
  let same (f : Nat → Fld) : Bool := s.rd (f c) == s.rd (f 0)
  decide (s.rd (Csr.DDRCFG_density c) < 3) && decide (s.rd (Csr.DDRCFG_dies c) < 3)
  && s.rd (Csr.DDRCFG_speed c) + s.rd (Csr.DDRCFG_dpc c) == 1
  && !(s.on (Csr.DDRCFG_mrdimm c) && s.on (Csr.DDRCFG_dpc c)) && decide ((s.physRanks c).length ≤ 8)
  && same Csr.DDRCFG_speed && same Csr.DDRCFG_dpc && same Csr.DDRCFG_mrdimm && same Csr.DDRCFG_density && same Csr.DDRCFG_dies
  && same Csr.DDRCFG_ranks

/-- R226: a TRAIN on a channel that is OFF, or that failed, starts its hardware training. -/
def State.ddrTrain (s : State) (c : Nat) : State :=
  if s.rd (Csr.DDRSTAT_state c) = 0 then ((s.wr (Csr.DDRSTAT_state c) 1).wr (Csr.DDRSTAT_train_fail c) 0).setFld Csr.CLKSTAT_ddr_lock c else s

/-- Rows per bank of a density code (R225). -/
def densityRows (d : Nat) : Nat := if d = 0 then 65536 else if d = 1 then 98304 else 131072

/-- R225, R242: geometry of a channel that has trained, and its rank map unless it was trained before in this power cycle. -/
def State.setGeometry (s : State) (c : Nat) : State :=
  let ps := s.physRanks c
  let spare := s.hasSpare c
  let n := if spare then ps.length - 1 else ps.length
  let rows := densityRows (s.rd (Csr.DDRCFG_density c))
  let s := ((s.wr (Csr.DDRGEO_data_ranks c) n).wr (Csr.DDRGEO_rows c) rows).wr (Csr.DDRGEO_chan_gib c) (n * rows / 2048)
  if (s.chan c).kept then s
  else
    let s := s.wr (Csr.RANKMAP_slot c) (((ps.take n).zipIdx.map (fun x => x.1 * 16 ^ x.2)).sum)
    s.wr (Csr.DDRSPARE_spare_phys c) (if spare then ps.getLastD 0 else 0)

/-- Half-lines on channel `c` of granule `g`. -/
def State.granHalves (s : State) (c g : Nat) : List Nat :=
  ((List.range 16384).map (fun i => g * 16384 + i)).flatMap (fun d =>
    if (s.ddr5Map (d * 128)).1 = c then [2 * d, 2 * d + 1] else [])

/-- R271: a channel that returns has every half-line of its recorded granules written poisoned. -/
def State.poisonReturned (s : State) (c : Nat) : State :=
  let gs := (s.dram.oosWrites.filter (fun kv => kv.1 % 16 == c)).map (fun kv => kv.1 / 16)
  let s := gs.foldl (fun s g => (s.granHalves c g).foldl (fun s h => s.recode h true) s) s
  { s with dram := { s.dram with oosWrites := s.dram.oosWrites.filter (fun kv => kv.1 % 16 != c) } }

/-- R226: when all 16 channels serve, DDR5TOP is set. -/
def State.setDdrTop (s : State) : State :=
  if (List.range 16).all (fun c => s.rd (Csr.DDRSTAT_state c) == 2 || s.rd (Csr.DDRSTAT_state c) == 3) then
    s.wr Csr.DDR5TOP_granules (16 * s.rd (Csr.DDRGEO_data_ranks 0) * (s.rd (Csr.DDRGEO_rows 0) / 4))
  else s

/-- R226, R244: a channel's training ends. -/
def State.trainDone (s : State) (c : Nat) (ok : Bool) : State :=
  if s.rd (Csr.DDRSTAT_state c) ≠ 1 then s
  else if ok && s.cfgOk c then
    let s := s.setGeometry c
    let mig := (s.chan c).mig
    let s := s.wr (Csr.DDRSTAT_state c) (if mig then 3 else 2)
    let s := s.setChan c (fun x => { x with kept := true, mig := false, low := 0, retries := 0, rows := [] })
    (s.poisonReturned c).setDdrTop
  else
    let s := (s.wr (Csr.DDRSTAT_state c) 0).wr (Csr.DDRSTAT_train_fail c) 1
    (s.setChan c (fun x => { x with trainFails := x.trainFails + 1 })).raise Ev.DDR_TRAIN_FAIL 3 c

/-- DDR_TRAIN_DONE. -/
def execDdrTrainDone (c : Fin 16) (ok : Bool) (s : State) : Outcome State Fault Refusal := .next (s.trainDone c.val ok)

/-- DDR_TRAIN_RETRY: a channel that failed once is trained a second time. -/
def execDdrTrainRetry (c : Fin 16) (s : State) : Outcome State Fault Refusal :=
  .next (if s.on (Csr.DDRSTAT_train_fail c.val) && (s.chan c.val).trainFails == 1 then s.ddrTrain c.val else s)

/-! ### Channels out of service (R17, R228, R271) -/

/-- A channel goes out of service: what waits in its queue and its brine buffers is lost and reads with poison. -/
def State.chanOut (s : State) (c : Nat) : State :=
  let mine (b : BrineLine) : Bool := (s.ddr5Map (b.line * 128)).1 == c
  let ds := (s.dram.brine.filter mine).map (·.line) ++ (s.chan c).wq
  let s := { s with dram := { s.dram with brine := s.dram.brine.filter (fun b => !mine b) } }
  let s := ds.foldl (fun s d => s.writeOos c (d * 128) 128) s
  let s := s.setChan c (fun x => { x with wq := [], rq := [], rows := [], locked := [], retries := 0, periodic := false })
  let s := ((s.wr (Csr.DDRSTAT_state c) 4).wr (Csr.DDRSTAT_paused c) 0).wr (Csr.DDRSTAT_batching c) 0
  s.raise Ev.DDR_CHANNEL_OOS 3 c

/-- DDR_RETRAIN_PAUSE_END: a periodic pause (R241), or one of R228, ends; a channel that fails the retrain of R228 goes out of
service. -/
def State.pauseEnd (s : State) (c : Nat) (ok : Bool) : State :=
  if !s.on (Csr.DDRSTAT_paused c) then s
  else if ok || (s.chan c).periodic then (s.wr (Csr.DDRSTAT_paused c) 0).setChan c (fun x => { x with periodic := false })
  else s.chanOut c

def execDdrRetrainPauseEnd (c : Fin 16) (ok : Bool) (s : State) : Outcome State Fault Refusal := .next (s.pauseEnd c.val ok)

/-! ### Scheduling (R235 to R241) -/

/-- The overdue counter behind a command-slot Carousel, and the source of its event. -/
def overdueCtr : Car → Ctr × Nat × Nat
  | .ddr k => (ddrCtr k.val 5, 3, k.val)
  | _ => (stkCtr 7, 0, 0)

/-- DRAM_READ_OVERDUE: the oldest queued read that has reached its deadline and is not yet counted as overdue is, once (R235). -/
def State.readOverdue (s : State) (c : Car) : State :=
  let k := carChan c
  let late (x : ReadReq) : Bool := !x.overdue && decide (toSigned 64 (subMod x.deadline s.stamp 64) ≤ 0)
  match c, (s.chan k).rq.find? late with
  | .rake _, _ | .midway _ _, _ | _, none => s
  | _, some x =>
    let (n, kind, i) := overdueCtr c
    let z := s.rd n.cnt == 0
    let s := s.setChan k (fun y => { y with rq := y.rq.replace x { x with overdue := true } })
    let s := s.count n
    if z && s.rd n.cnt != 0 then s.raise Ev.DRAM_OVERDUE kind i else s

def execDramReadOverdue (c : Car) (s : State) : Outcome State Fault Refusal := .next (s.readOverdue c)

/-- WRITE_BATCH_IDLE: no read has been queued for idle_ns, with wq_idle writes queued (R237), at DDR5 channel `c`, or at stacked
pseudo-channel `c` - 16. -/
def State.batchIdle (s : State) (c : Nat) : State :=
  if c < 16 then
    let x := s.chan c
    if !s.on (Csr.DDRSTAT_batching c) && x.rq.isEmpty && decide (s.rd (Csr.DDRWM_wq_idle c) ≤ x.wq.length) && x.wq != [] then
      (s.wr (Csr.DDRSTAT_batching c) 1).count (ddrCtr c 4)
    else s
  else
    let g := c - 16
    let x := s.chan (stkChan g)
    let n := (x.wq.filter (fun d => linePc d == g)).length
    if !(s.chan c).batch && x.rq.all (fun y => linePc y.line != g) && decide (s.rd Csr.STKWM_wq_idle ≤ n) && n != 0 then s.batchStk g true
    else s

def execWriteBatchIdle (c : Fin 80) (s : State) : Outcome State Fault Refusal := .next (s.batchIdle c.val)

/-- R227, R240: the interval in ns at which refreshes of a rank fall due, as MR4 last reported, 0 before its first poll. -/
def State.refreshEvery (s : State) (c : Car) : Nat :=
  match c with
  | .ddr k => (s.chan k.val).trefi / (if s.on (Csr.DDRCFG_ref_mode k.val) then 1 else 4)
  | _ => 0

/-- R240: a refresh of a rank falls due, not before its interval has passed. With no legal candidate for the rank it is issued; otherwise
it is postponed, until ref_postpone are: the next then pre-empts and the rank repays them. -/
def State.refreshDue (s : State) (c : Car) (rank : Nat) (idle : Bool) : State :=
  let most := match c with
    | .ddr k => s.rd (Csr.DDRCFG_ref_postpone k.val)
    | _ => s.rd Csr.STKCFG_ref_postpone
  let x := s.rankState c rank
  let every := s.refreshEvery c
  match c with
  | .rake _ | .midway _ _ => s
  | _ =>
    if every ≠ 0 ∧ isNewer x.due s.stamp 64 then s
    else
      let s := s.setRank c rank (fun x => { x with due := if every = 0 then x.due else (s.stamp + every) % 2 ^ 64 })
      if idle then s.issueRefresh c rank
      else if x.postponed < most then s.setRank c rank (fun x => { x with postponed := x.postponed + 1 })
      else
        let s := s.carPreempt c true
        if s.on (Csr.CARSTATE_preempted (carBase c)) then s.setRank c rank (fun x => { x with repaying := true }) else s

def execRefreshDue (c : Car) (rank : Nat) (idle : Bool) (s : State) : Outcome State Fault Refusal :=
  .next (s.refreshDue c rank idle)

/-- R241: the stamp lies in channel `c`'s window of its 20 ms period, which is the `k`-th. -/
def State.retrainWindow (s : State) (c k : Nat) : Bool :=
  let t := s.stamp % 2 ^ 64
  t / 20000000 == k && decide (c * 1250000 ≤ t % 20000000) && decide (t % 20000000 < (c + 1) * 1250000)

/-- DDR_PERIODIC_RETRAIN (R241): once in each period, in the channel's window, it pauses; not in self-refresh, nor while refresh
pre-empts. -/
def State.periodicRetrain (s : State) (c : Fin 16) : State :=
  let k := s.stamp % 2 ^ 64 / 20000000
  let st := s.rd (Csr.DDRSTAT_state c)
  if s.on (Csr.DDRTRN_en c) && (st == 2 || st == 3) && (s.chan c).low != 2 && !s.board.selfRefresh && s.retrainWindow c k
      && (s.chan c).period != k + 1 && !s.on (Csr.DDRSTAT_paused c) && !s.on (Csr.CARSTATE_preempted (carBase (.ddr c))) then
    let s := s.setChan c (fun x => { x with periodic := true, period := k + 1, rows := [] })
    ((s.wr (Csr.DDRSTAT_paused c) 1).wr (Csr.DDRTRNLAST_stamp c) s.stamp).count (ddrCtr c.val 6)
  else s

def execDdrPeriodicRetrain (c : Fin 16) (s : State) : Outcome State Fault Refusal := .next (s.periodicRetrain c)

/-- MR4_POLL (R227): the poll sets the refresh interval, in ns. -/
def execMr4Poll (c : Fin 16) (ns : Nat) (s : State) : Outcome State Fault Refusal :=
  .next (s.setChan c.val (fun x => { x with trefi := ns }))

/-! ### Migration (R243, R244) -/

/-- The node-local line of channel-local line `l` of channel `c`: the inverse of R230. -/
def State.lineAt (s : State) (c l : Nat) : Nat :=
  let p := l / 2 ^ 23
  let y := l % 2 ^ 23
  if s.stripeOrder p = 1 then
    let lo := c ^^^ bitsOf y 0 4 ^^^ bitsOf y 4 4 ^^^ p % 16
    p * 2 ^ 27 + y * 16 + lo % 16
  else p * 2 ^ 27 + c * 2 ^ 23 + y

/-- The key of half `h` of line `off` of channel `c`'s spare rank among the faults, while no slot is served from it. -/
def spareKey (c off h : Nat) : Nat := 2 ^ 50 + (c * 2 ^ 30 + off) * 2 + h

/-- R244: half-line `h` of DDR5 is from now on stored in the spare, at key `k`: a fresh code word, which meets only the spare's own
faults. -/
def State.toSpare (s : State) (h k : Nat) (p : Bool) : State :=
  let f := SMap.get HalfFault.none k s.dram.faults
  let m := SMap.put HalfFault.none k HalfFault.none s.dram.faults
  { s with dram := { s.dram with poison := SMap.put false h p s.dram.poison,
                                 faults := SMap.put HalfFault.none h (if f.hard then { f with wrote := none } else HalfFault.none) m } }

/-- MIGRATION_LINE_COPY: the line at mig_ptr is read through requester 10, corrected where it can be and written to the spare. -/
def State.migrateLine (s : State) (c : Nat) : State :=
  if s.rd (Csr.DDRSTAT_state c) ≠ 3 then s
  else
    let k := s.rd (Csr.DDRSTAT_mig_slot c)
    let i := s.rd (Csr.DDRSPARE_mig_ptr c)
    let d := s.lineAt c (k * s.rankLines c + i)
    if (s.chan c).locked.contains d then s
    else
      let s := s.count (ddrCtr c 0)
      let s := [0, 1].foldl (fun (s : State) h =>
        let ((o, x), s) := s.decodeDdr (2 * d + h) ⟨none, 10, false, 3⟩
        (s.flipBytes (128 * d + 64 * h) x 0).toSpare (2 * d + h) (spareKey c i h) o.bad) s
      let s := (s.wr (Csr.DDRSPARE_mig_ptr c) (i + 1)).count (ddrCtr c 7)
      if i + 1 < s.rankLines c then s
      else
        let m := s.rd (Csr.RANKMAP_slot c)
        let s := s.wr (Csr.RANKMAP_slot c) (setBits m (4 * k) 4 (s.rd (Csr.DDRSPARE_spare_phys c)))
        ((s.wr (Csr.DDRSTAT_spare_used c) 1).wr (Csr.DDRSTAT_state c) 2).raise Ev.DDR_SPARE_DONE 3 c

def execMigrationLineCopy (c : Fin 16) (s : State) : Outcome State Fault Refusal := .next (s.migrateLine c.val)

/-! ### Stacked DRAM (R43, R248, R250) -/

/-- STK_SWEEP_DONE: the lines of the pan are written back and invalidated. -/
def State.sweepStk (s : State) (n : Nat) : State :=
  if !s.dram.sweeps.contains n then s
  else
    let ws := s.dram.cache.flatMap (fun kv => kv.2.filter (fun w => w.pan == n))
    let keep := (s.dram.cache.map (fun kv => (kv.1, kv.2.filter (fun w => w.pan != n)))).filter (fun kv => kv.2 != [])
    let s := ws.foldl State.dropWay { s with dram := { s.dram with cache := keep } }
    let s := { s with dram := { s.dram with sweeps := s.dram.sweeps.filter (· != n) } }
    s.wr Csr.STKSTAT_sweeping (if s.dram.sweeps = [] then 0 else 1)

def execStkSweepDone (n : Fin 64) (s : State) : Outcome State Fault Refusal := .next (s.sweepStk n.val)

/-- STK_SEG_FLIP_DONE. -/
def execStkSegFlipDone (k : Fin 239) (s : State) : Outcome State Fault Refusal :=
  .next (if s.bit (Csr.STKSEGSTAT_seg (k.val / 64)) (k.val % 64) then s.segFlipped k.val else s)

/-- A write of STKTRNSEL has moved the hold: only the pseudo-channel it names with hold = 1 is held. -/
def State.stkSelect (s : State) : State :=
  let g := s.rd Csr.STKTRNSEL_pc
  let held := s.on Csr.STKTRNSEL_hold
  let was := s.bit (Csr.STKCHSTAT_hold (g / 2)) (g % 2)
  let s := (List.range 32).foldl (fun s c => s.wr (Csr.STKCHSTAT_hold c) 0) s
  if held then
    let s := s.setFld (Csr.STKCHSTAT_hold (g / 2)) (g % 2)
    if was then s else s.setChan (16 + g) (fun x => { x with holdSince := s.stamp, holdLong := false })
  else s

/-- The direct-window line of column `col` of a row of pseudo-channel `g`: the inverse of R233. -/
def stkLineAt (g bank row col : Nat) : Nat :=
  let y := row * 128 + col * 16 + (bank ^^^ row % 16)
  y * 64 + (g ^^^ y % 64)

/-- `n` bits of PRBS23 (x^23 + x^18 + 1, PRESUMED, log entry 84: ITU-T O.150) from a shift register, the first bit lowest. -/
def prbs23 : Nat → Nat → Nat
  | 0, _ => 0
  | n + 1, r =>
    let b := r / 2 ^ 22 % 2
    b + 2 * prbs23 n ((r * 2 + (b + r / 2 ^ 17 % 2) % 2) % 2 ^ 23)

/-- R250: `n` bytes of the selected pattern: PRBS23 from the seed, or the 64-bit user pattern repeated. -/
def State.stkPattern (s : State) (n : Nat) : List Nat :=
  let p := s.rd Csr.STKTRNPAT_pattern
  if s.on Csr.STKTRNSEL_mode then (List.range n).map (fun i => p / 256 ^ (i % 8) % 256) else leBytes n (prbs23 (8 * n) (p % 2 ^ 23))

/-- R250: RUN writes bursts of the pattern over the start of the selected row. -/
def State.stkRun (s : State) : State :=
  let g := s.rd Csr.STKTRNSEL_pc
  if s.on Csr.STKTRNSTAT_busy || !s.bit (Csr.STKCHSTAT_hold (g / 2)) (g % 2) then s.wr Csr.STKTRNSTAT_error 1
  else
    let b := s.rd Csr.STKTRNSEL_bursts
    let n := 32 * min 32 (if b = 0 then 256 else b)
    let bytes := s.stkPattern n
    let put (s : State) (i : Nat) : State :=
      let a := stkBase + 128 * stkLineAt g (s.rd Csr.STKTRNSEL_bank) (s.rd Csr.STKTRNSEL_row) i
      let bs := (bytes.drop (128 * i)).take 128
      let s := s.setBytes a bs
      (List.range (ceilDiv bs.length 64)).foldl (fun s h => s.recode (a / 64 + h) false) s
    ((List.range (ceilDiv n 128)).foldl put s).wr Csr.STKTRNSTAT_busy 1

/-- STKTRNCMD.clear. -/
def State.stkClear (s : State) : State := (List.range 5).foldl (fun s i => s.wr (Csr.STKTRNERR_errs i) 0) s

/-- STK_TRAIN_RUN_DONE: the bit errors seen on each lane are added, saturating at 255. -/
def execStkTrainRunDone (errs : List (Fin 36 × Nat)) (s : State) : Outcome State Fault Refusal :=
  let add (s : State) (x : Fin 36 × Nat) : State :=
    let f := Csr.STKTRNERR_errs (x.1.val / 8)
    let lo := 8 * (x.1.val % 8)
    s.wr f (setBits (s.rd f) lo 8 (min 255 (bitsOf (s.rd f) lo 8 + x.2)))
  .next (if s.on Csr.STKTRNSTAT_busy then (errs.foldl add s).wr Csr.STKTRNSTAT_busy 0 else s)

/-- STK_TRAIN_HOLD_LONG: a pseudo-channel has been held for more than 100 µs. -/
def execStkTrainHoldLong (g : Fin 64) (s : State) : Outcome State Fault Refusal :=
  .next (if s.bit (Csr.STKCHSTAT_hold (g.val / 2)) (g.val % 2) && !(s.chan (16 + g.val)).holdLong then
      (s.setChan (16 + g.val) (fun x => { x with holdLong := true })).raise Ev.STK_TRAIN_HOLD 0 g.val
    else s)

/-! ### Patrol scrub (R254 to R257, R265) -/

/-- The address that the code of direct-window line `l` folds: of the line that a cache way there holds, else its own (R258). -/
def State.stkFolds (s : State) (l : Nat) : Nat :=
  let w := l * 128
  let ways := SMap.get [] (w / 0x8000000 * 131072 + w % 0x8000000 / 1024) s.dram.cache
  match ways.find? (fun x => x.slot == w % 1024 / 128) with
  | some x => x.line * 128
  | none => stkBase + w

/-- A pass of a store ends (R265). -/
def State.patrolPass (s : State) (st : Nat) : State :=
  let s := if st < 17 then s.wr (Csr.PATROLLAST_stamp st) s.stamp else s
  s.raise Ev.PATROL_PASS (if st < 16 then 3 else 0) (if st < 16 then st else 0)

/-- R259: what flipped pins and beats are as stored symbols that differ. -/
def flipErrs (at_ : Nat → Nat → Nat × Nat) (fs : List (Nat × Nat)) : List (Nat × Nat) :=
  fs.foldl (fun m f => let (y, b) := at_ f.1 f.2; SMap.upd 0 y (· ^^^ 2 ^ b) m) []

/-- What a memory has developed in half `u.half` of the line whose halves are stored at `key`. -/
def State.develop (s : State) (ddr : Bool) (key : Nat) (u : Upset) : State :=
  let f : HalfFault := ⟨flipErrs (if ddr then ddrBitAt else stkBitAt) u.flips, u.wrote, u.hard⟩
  { s with dram := { s.dram with faults := SMap.put HalfFault.none (key + if u.half then 1 else 0) f s.dram.faults } }

/-- PATROL_READ of a DRAM store: its next line is read through requester 11, decoded and logged. `found` gives what the memory has
developed there. The lines of the spare rank, which hold zeros, follow those of the data ranks until a slot is served from it. -/
def State.patrolDram (s : State) (st : Nat) (found : List Upset) : State :=
  let l := s.rd (Csr.PATROLPOS_line st)
  let ddr := decide (st < 16)
  let up := if ddr then s.rd (Csr.DDRSTAT_state st) == 2 || s.rd (Csr.DDRSTAT_state st) == 3 else true
  let data := s.rd (Csr.DDRGEO_data_ranks st) * s.rankLines st
  let spare := ddr && s.hasSpare st && !s.on (Csr.DDRSTAT_spare_used st)
  let all := if ddr then data + (if spare then s.rankLines st else 0) else 2 ^ 28
  let d := if ddr then s.lineAt st l else stkBase / 128 + l
  let waits := if ddr then (s.chan st).locked.contains d else s.lineHeld d
  if !s.on (Csr.ECCCTL_patrol_en st) || !up || (s.chan st).low == 2 || waits || s.board.selfRefresh then s
  else
    let acc : Acc := ⟨none, 11, false, 2⟩
    let zero := ddr && decide (data ≤ l)
    let key := if zero then spareKey st (l - data) 0 else 2 * d
    let s := found.foldl (fun s u => s.develop ddr key u) s
    let s := if ddr then (s.count (ddrCtr st 0)).joinRead st (fun _ => true) 128 (s.readTarget (some st) 11) 11 d
      else (s.count (stkCtr 5)).joinStk 11 d
    let s := [0, 1].foldl (fun (s : State) h =>
      if zero then
        (s.decodeAt ⟨st, s.rd (Csr.DDRGEO_data_ranks st), (s.ddr5Decode st l).2.1, key + h, s.ddrPlace st l (s.rd (Csr.DDRSPARE_spare_phys st))⟩
          0 (List.replicate 64 0) false acc).2
      else if ddr then (s.decodeDdr (key + h) acc).2
      else (s.decodeStk (key + h) (s.stkFolds l / 64 + h) acc).2) s
    if l + 1 < all then s.wr (Csr.PATROLPOS_line st) (l + 1) else (s.wr (Csr.PATROLPOS_line st) 0).patrolPass st

/-! ### Retirement (R272 to R274) -/

/-- R272: one granule is retired: at once, or when its owner releases it. -/
def State.retireGran (s : State) (g : Nat) : State :=
  let x := s.gran g
  match x.st with
  | .system => s
  | .owned => s.setGran g (fun x => { x with retire := true })
  | _ =>
    let s := { s with zeroQ := s.zeroQ.filter (· != g) }
    (s.setGran g (fun x => { x with st := .system, owner := 0 })).noteRetired g

/-- A stacked granule of a CACHE segment: its sets are removed from filling. -/
def State.retireSets (s : State) (g : Nat) : State := if s.dram.retired.contains g then s else s.noteRetired g

/-- R272: GRANULE: 0 DONE, 1 BAD_TARGET. -/
def State.retireOne (s : State) (g : Nat) : Nat × State :=
  let a := g * granSize
  if a < stkBase then
    if g < s.rd Csr.DDR5TOP_granules - ddrCarve ∧ (s.gran g).st ≠ .system then (0, s.retireGran g) else (1, s)
  else
    let k := (a - stkBase) / 0x8000000
    if stkBase + 239 * 0x8000000 ≤ a then (1, s)
    else if s.bit (Csr.STKSEGMAP_seg (k / 64)) (k % 64) then
      if (s.gran g).st = .system then (1, s) else (0, s.retireGran g)
    else (0, s.retireSets g)

/-- R272: granule `g` has a line on logical rank slot `k` of channel `c`. -/
def State.granOnRank (s : State) (c k g : Nat) : Bool :=
  let p := g / 8192
  p * 2 ^ 23 / s.rankLines c == k && (s.stripeOrder p == 1 || g % 8192 / 512 == c)

/-- R272: RANK_GRANULES. -/
def State.retireRank (s : State) (c k : Nat) : Nat × State :=
  if s.rd (Csr.DDRGEO_data_ranks c) ≤ k then (1, s)
  else (0, ((List.range (s.rd Csr.DDR5TOP_granules - ddrCarve)).filter (s.granOnRank c k)).foldl State.retireGran s)

/-- Node-local lines of a row (R232). -/
def State.rowLines (s : State) (c k sub bg bank row : Nat) : List Nat :=
  (List.range 64).map (fun col =>
    s.lineAt c (k * s.rankLines c + row * 4096 + sub + 2 * (bg ^^^ bitsOf row 0 3) + 16 * (bank ^^^ bitsOf row 3 2) + 64 * col))

/-- R274: the devices that the log records of a row name, or all ten. -/
def State.rowDevices (s : State) (c k sub bg bank row : Nat) : Nat :=
  let rank := bitsOf (s.rd (Csr.RANKMAP_slot c)) (4 * k) 4
  let mine (e : ErrRec) : Bool := e.store == 1 && e.place % 2 ^ 32 == c + 2 ^ 4 * rank + 2 ^ 8 * sub + 2 ^ 9 * bg + 2 ^ 12 * bank + 2 ^ 14 * row
  let m := (s.dram.errRing.filter (fun kv => mine kv.2)).foldl (fun m kv => m ||| bitsOf kv.2.place 40 10) 0
  if m = 0 then 2 ^ 10 - 1 else m

/-- R274: a repaired device of the row has no fault left. -/
def State.mendHalf (s : State) (h devs : Nat) : State :=
  { s with dram := { s.dram with faults := SMap.upd HalfFault.none h (fun f =>
      let es := f.errs.filter (fun e => !bitOf devs (devOfSym e.1))
      if es = [] then HalfFault.none else { f with errs := es }) s.dram.faults } }

/-- R272: a write of RETIRECMD. -/
def State.retireCmd (s : State) (v : Nat) : State :=
  let op := bitsOf v 0 4
  let c := bitsOf v 5 4
  let k := bitsOf v 9 3
  let finish (r : Nat × State) : State :=
    let s := r.2.wr Csr.RETIRESTAT_result r.1
    if r.1 = 0 then s.raise Ev.RETIRE_DONE 0 0 else s
  if s.on Csr.RETIRESTAT_busy then s.wr Csr.RETIRESTAT_lost 1
  else if op = 1 then finish (s.retireOne (s.rd Csr.RETIREADDR_granule))
  else if op = 2 then finish (s.retireRank c k)
  else if op = 3 then
    let row := bitsOf v 18 18
    let st := s.rd (Csr.DDRSTAT_state c)
    if (st = 2 ∨ st = 3) ∧ k < s.rd (Csr.DDRGEO_data_ranks c) ∧ row < s.rd (Csr.DDRGEO_rows c) then
      let sub := bitsOf v 12 1
      let bg := bitsOf v 13 3
      let bank := bitsOf v 16 2
      let s := { s with dram := { s.dram with repair := some [c, k, sub, bg, bank, row, s.rowDevices c k sub bg bank row] } }
      let s := s.setChan c (fun x => { x with locked := x.locked ++ s.rowLines c k sub bg bank row })
      s.wr Csr.RETIRESTAT_busy 1
    else s.wr Csr.RETIRESTAT_result 1
  else s

/-- RETIRE_ROW_DONE (R274): the lines are written back, the uncorrectable ones poisoned; or the repair fails. -/
def State.rowDone (s : State) (ok : Bool) : State :=
  match s.dram.repair with
  | some [c, k, sub, bg, bank, row, devs] =>
    let ls := s.rowLines c k sub bg bank row
    let s := if ok then
        (ls.flatMap (fun d => [2 * d, 2 * d + 1])).foldl (fun s h =>
          let ((o, x), s) := s.decodeDdr h ⟨none, 9, false, 6⟩
          (((s.flipBytes (64 * h) x 0).mendHalf h devs).recode h o.bad)) s
      else s
    let s := s.setChan c (fun x => { x with locked := x.locked.filter (fun d => !ls.contains d) })
    let rows := if ok then s.dram.rows ++ [[c, k, sub, bg, bank, row]] else s.dram.rows
    let s := { s with dram := { s.dram with repair := none, rows := rows } }
    let s := if ok then s.saveSettings false else s
    let s := (s.wr Csr.RETIRESTAT_busy 0).wr Csr.RETIRESTAT_result (if ok then 0 else 2)
    s.raise (if ok then Ev.PPR_DONE else Ev.PPR_FAIL) 3 c
  | _ => s

/-- DRAM_POWER_DOWN (R479): a channel with empty queues enters precharge power-down. -/
def execDramPowerDown (c : Fin 16) (s : State) : Outcome State Fault Refusal :=
  .next (if (s.chan c.val).wq = [] ∧ (s.chan c.val).rq = [] ∧ (s.chan c.val).low = 0 then s.setChan c.val (fun x => { x with low := 1 }) else s)

end Sys2Proof.Machine
end

