-- ==== Sys2Proof/Machine/Place.lean ====
section
/-!
DEFINITION. The placement instructions (R127 to R130), page moves that complete, and drains (R215).
-/
namespace Sys2Proof.Machine

open Host

/-- A 2 MiB piece of a placement range: its PVA, when the located bytes are contiguous there. -/
def pieceVa (segs : List Seg) : Option Nat :=
  match segs with
  | [] => none
  | g :: t => (t.foldl (fun (r : Option Nat) (h : Seg) => r.bind (fun e => if h.va = e then some (h.va + h.len) else none)) (some (g.va + g.len))).map
      (fun _ => g.va)

/-- What a placement range comes to. -/
inductive Range where
  | bad (e : Eff)
  | pages (ms : List (Mover × Nat)) (s : State)
deriving DecidableEq, Repr

/-- R127, R130: the range of PROMOTE, DEMOTE and PIN: pages of 2 MiB or 1 GiB on this node, each with its leaf entry. Leaves are looked at only
while the runs stand (R216). -/
def Env.range (v : Env) (s : State) : Range :=
  let n := v.i.imm * granSize
  match allLocs [v.loc v.i.op 0 n true, v.loc v.i.op 0 n false] with
  | .inl st => .bad (.stop st s)
  | .inr ls =>
    let stale := ls.findSome? (fun l => (l.segs.find? (fun g => s.remapped v.e.r0 (s.segGrans g))).map (fun g => l.fault g 5))
    let denied := ls.any (·.denied)
    if v.i.imm = 0 ∨ ¬ v.aligned v.i.op granSize then .bad (.stop Sts.malformed s)
    else if v.rm || ls.any (fun l => l.segs.any (fun g => g.zero || g.addr / 2 ^ 52 != s.nodeId)) then .bad (.stop Sts.malformed s)
    else match stale with
      | some f => .bad (if denied then .stop Sts.permission s else .park f s)
      | none =>
        let pieces := (List.range v.i.imm).map (fun i =>
          match v.loc v.i.op (i * granSize) granSize true with
          | .inr l => pieceVa l.segs
          | .inl _ => none)
        let leaves := pieces.map (fun p => p.bind (fun va => (s.leafAt v.pan va).map (fun x => (va, x))))
        if leaves.any (fun x => match x with
            | some (_, k, _, _, e) => k == 0 || pteNode e != s.nodeId
            | none => true) then .bad (.stop Sts.malformed s)
        else
          let all := leaves.filterMap id
          let pages := (all.map (fun (va, k, _, _, e) => ((va / span k * span k, k), e))).eraseDups
          let inside (va k : Nat) : Bool := (all.filter (fun x => x.1 / span k * span k == va)).length == span k / granSize
          if !pages.all (fun p => inside p.1.1 p.1.2) then .bad (.stop Sts.malformed s)
          else if denied then .bad (.stop Sts.permission s)
          else .pages (pages.map (fun p => (⟨p.1.1, p.1.2, pteAddr p.2⟩, p.2))) s

/-- R128: PROMOTE and DEMOTE: the pages that `pick` chooses move to tier `t`; place() is tagged with the current epoch (R407). -/
def Env.moves (v : Env) (s : State) (pick : Nat → Nat → Bool) (pinned : Bool) : Eff :=
  match v.range s with
  | .bad e => e
  | .pages ps s =>
    let t := bitsOf v.i.mod 0 2
    let ms := ps.filter (fun p => pick (tierOf p.1.addr) t)
    if pinned && ms.any (fun p => bitOf p.2 4) then .stop Sts.permission s
    else if ms = [] then .ok Sts.ok v.ctx s
    else match (s.viewSet s.liveSet).startMoves (some v.r) v.pan t (ms.map (·.1)) [] with
      | some s => .wait .drain s
      | none => .stop Sts.quota (s.quotaRefused v.pan)

/-- R127: PROMOTE. -/
def insnPromote (again : Bool) (f : Fetch) (s : State) : State :=
  s.runInsn 0x70 f (.promote f) again fun v s => v.moves s (fun old t => decide (t < old)) false

def execPromote (f : Fetch) (s : State) : Outcome State Fault Refusal := .next (insnPromote false f s)

/-- R127, R128: DEMOTE, which moves no pinned page. -/
def insnDemote (again : Bool) (f : Fetch) (s : State) : State :=
  s.runInsn 0x71 f (.demote f) again fun v s => v.moves s (fun old t => decide (old < t)) true

def execDemote (f : Fetch) (s : State) : Outcome State Fault Refusal := .next (insnDemote false f s)

/-- R130: the pinned mark of every page of the range is set, or cleared when mod[0] says so; the instruction completes after its
drain (R215). -/
def Env.pin (v : Env) (s : State) : Eff :=
  match v.range s with
  | .bad e => e
  | .pages ps s =>
    let s := ps.foldl (fun s p =>
      match s.leafAt v.pan p.1.va with
      | some (k, table, _, e) => s.writeLeaf v.pan p.1.va k table (setBit e 4 (!v.i.m 0))
      | none => s) s
    .wait .drain (s.startDrain (some v.r) v.pan [])

/-- R130: PIN. -/
def insnPin (again : Bool) (f : Fetch) (s : State) : State := s.runInsn 0x72 f (.pin f) again fun v s => v.pin s

def execPin (f : Fetch) (s : State) : Outcome State Fault Refusal := .next (insnPin false f s)

/-- R130: PIN with unpin = 1. -/
def insnUnpin (again : Bool) (f : Fetch) (s : State) : State := s.runInsn 0x72 f (.unpin f) again fun v s => v.pin s

def execUnpin (f : Fetch) (s : State) : Outcome State Fault Refusal := .next (insnUnpin false f s)

/-! ### Copies and drains that complete -/

/-- PAGE_COPY_DONE: the copy of a page between tiers other than the heap completes (R129). -/
def State.pageCopyDone (s : State) (n va : Nat) : State :=
  match s.copyOf n va with
  | some (_, _, _, a, b) => if tierOf a = 2 ∨ tierOf b = 2 then s else s.copyDone n va []
  | none => s

/-- The copies that a change of translations still has to make are given up: the new homes of pages not yet switched are released. -/
def State.dropCopies (s : State) (x : Shoot) : State :=
  let grans := if s.panDurable x.pan then [] else x.copies.flatMap (fun c => pageGrans c.2.1 c.2.2.2)
  let s := if s.panDurable x.pan then
      x.copies.foldl (fun s c =>
        let put (m : SMap Nat) : SMap Nat :=
          (List.range (pageGrans c.2.1 0).length).foldl (fun m i => SMap.put 0 (c.2.2.1 / granSize + i) (c.2.2.2 / granSize + i) m) m
        s.setPan x.pan (fun p => { p with backing := put p.backing })) s
    else s
  let s := s.releaseGrans x.pan grans
  { s with shoots := s.shoots.map (fun (y : Shoot) => if y = x then { y with copies := [], rake := none, began := none } else y) }

/-- R288: a heap write that fails twice ends its operation: the page keeps its place, and the granules taken for pages not yet
switched are released. The instruction of a DEMOTE ends RETRY (Table 04-15); that of a PROMOTE, for which the table has no RETRY, completes
with the pages that have moved. -/
def State.heapWriteFails (s : State) (n va : Nat) : State :=
  match s.copyOf n va with
  | none => s
  | some (x, _) =>
    let s := (s.raise Ev.HEAP_WRITE_FAIL 5 n).dropCopies x
    match x.rake with
    | some r => s.resumeInsn r (fun v s => if v.i.opc = 0x71 then .stop Sts.retry s else .ok Sts.ok v.ctx s)
    | none => s

/-- R287, R450: the key of the heap blocks of pan `n`, or of the carve-out. -/
def State.heapKey (s : State) (n : Nat) (carve : Bool) : Nat :=
  if carve then s.sec.keys.sysHeap else (SMap.get PanKeys.none n s.sec.keys.pans).heap

/-- R282: the port of the SSD that holds the heap granule of address `a`, and the LBA of its block there. -/
def State.heapAt (s : State) (a : Nat) : Nat × Nat :=
  let g := (a - heapBase) / granSize
  let n := s.rd Csr.HEAPSTAT_ndrives
  (s.heapPortOf (g % n), g / n * 512 + a % granSize / 4096)

/-- R287: the block at address `a` of pan `n` fails its protection: its guard over the ciphertext `ct` that was read, its reference tag or
its application tag is not what it must be. -/
def State.heapBroken (s : State) (n a : Nat) (ct : List Nat) (r : BlockReply) : Bool :=
  let (p, lba) := s.heapAt a
  let g16 := s.rd (Csr.HEAPPORT_pi p) == 1
  r.guard != heapGuard g16 ct || r.ref != heapRef g16 lba || r.app != heapApp n false

/-- R287, R288: a block of the heap page at `a` of pan `n`, as its SSD answered: none where the read fails, else the difference between
what it decrypts to and what was written. -/
def State.heapBlock (s : State) (n a : Nat) (r : BlockReply) : Option Nat :=
  let b := a + 4096 * r.block
  let k := s.heapKey n false
  let t := heapTweak n b false
  let bs := s.bytes b 4096
  let ct := leBytes 4096 (ofLeBytes (xtsEncrypt k t bs) ^^^ r.flips)
  if r.err || s.heapBroken n b ct r then none else some (xtsChanged k t bs r.flips)

/-- R285, R288: blocks of the heap page of `len` bytes at `a` on FAILED SSDs; an unwritten granule is not read. -/
def State.heapLost (s : State) (a len : Nat) : List Nat :=
  if (List.range 8).all (fun p => s.rd (Csr.HEAPPORT_state p) != 3) then []
  else (List.range (len / 4096)).filter (fun i =>
    let b := a + 4096 * i
    (s.gran (b / granSize)).written != 0 && s.rd (Csr.HEAPPORT_state (s.heapAt b).1) == 3)

/-- HEAP_TRANSFER_DONE: a page transfer from or to the heap completes; `rs` holds what the SSDs answered for the blocks that they did not
deliver, or take, as written. A block that fails is a failed write when the page goes to the heap (R285, R288). -/
def State.heapTransferDone (s : State) (n va : Nat) (rs : List BlockReply) : State :=
  match s.copyOf n va with
  | some (_, _, k, a, b) =>
    if tierOf b = 2 then (if rs.any (·.err) || s.heapLost b (span k) != [] then s.heapWriteFails n va else s.copyDone n va [])
    else if tierOf a = 2 then
      let rs := rs.filter (fun r => decide (r.block < span k / 4096) && (s.gran ((a + 4096 * r.block) / granSize)).written != 0)
      let got := rs.map (fun r => (r.block, s.heapBlock n a r))
      let bad := ((got.filter (·.2.isNone)).map (·.1) ++ s.heapLost a (span k)).eraseDups
      let old := got.filterMap (fun x => x.2.bind (fun m => if m = 0 then none else some (x.1, m, ofLeBytes (s.bytes (a + 4096 * x.1) 4096))))
      let s := s.copyDone n va bad
      if (s.copyOf n va).isSome then s else old.foldl (fun s x => s.setBytes (b + 4096 * x.1) (leBytes 4096 (x.2.2 ^^^ x.2.1))) s
    else s
  | none => s

/-- SHOOTDOWN_DRAIN_DONE: the `i`-th change in progress has no copy and no instruction to wait for, so its old granules are
released, the counts and events of its allocations are decided (R42) and its operation completes (R215). Partner copies of lines to be released are invalidated first (R331). -/
def State.drainDone (s : State) (i : Nat) : State :=
  match s.shoots[i]? with
  | none => s
  | some x =>
    if x.copies ≠ [] ∨ x.before ≠ [] then s
    else if s.oldBusy x then (s.oldHeld x).foldl (fun s d => s.recall d true) s
    else
      let s := { s with shoots := s.shoots.eraseIdx i }
      let s := s.releaseGrans x.pan x.old.eraseDups
      let s := match x.began with
        | some (soft, spill, as) => s.settleFrom x.pan soft spill as
        | none => s
      let s := match x.rake with
        | some r => s.resumeInsn r (fun v s => .ok Sts.ok v.ctx s)
        | none => s
      x.resume.foldl (fun s (q, pos) => s.reresolve q pos []) s

end Sys2Proof.Machine
end

