-- ==== Sys2Proof/Machine/Lend.lean ====
section
/-!
DEFINITION. Lent extents (R50 to R54): offers and their answers, recall with its migration, and loss.
-/
namespace Sys2Proof.Machine

open Host

/-! ### Leaves -/

/-- The leaves below the level-`k` table at `t`, whose first PVA is `base`: (PVA, size code, entry), in ascending PVA. -/
def State.tableLeaves (s : State) : Nat → Nat → Nat → List (Nat × Nat × Nat)
  | 0, t, base =>
    (List.range 512).filterMap (fun i =>
      let e := s.pte t i
      if pteValid e && pteIsLeaf e then some (base + i * span 0, 0, e) else none)
  | k + 1, t, base =>
    (List.range (if k + 1 = 4 then 256 else 512)).flatMap (fun i =>
      let e := s.pte t i
      if !pteValid e then []
      else if pteIsLeaf e then [(base + i * span (k + 1), k + 1, e)]
      else s.tableLeaves k (pteAddr e) (base + i * span (k + 1)))

/-- The leaves of pan `n`. -/
def State.panLeaves (s : State) (n : Nat) : List (Nat × Nat × Nat) :=
  if s.panFree n then [] else s.tableLeaves 4 (s.ptRoot n) 0

/-- The leaves of pan `n` whose pages lie on this node at an address for which `p` holds. -/
def State.leavesWhere (s : State) (n : Nat) (p : Nat → Bool) : List (Nat × Nat × Nat) :=
  (s.panLeaves n).filter (fun l => pteNode l.2.2 == s.nodeId && p (pteAddr l.2.2))

/-- First granule of lent slot `k`. -/
def lentFirst (k : Nat) : Nat := (lentBase + k * lentSlotSize) / granSize

/-- Granule `g` lies in lent slot `k`. -/
def inSlot (k g : Nat) : Bool := decide (lentFirst k ≤ g) && decide (g < lentFirst k + 4194304)

/-- A leaf is removed, leaving a tomb (Table 07-2). -/
def State.unmapLeaf (s : State) (n tomb : Nat) (l : Nat × Nat × Nat) : State :=
  match s.leafAt n l.1 with
  | some (k, table, _, _) => s.writeLeaf n l.1 k table (pteEmpty tomb)
  | none => s

/-! ### Offers (R383) -/

/-- R383: a LEND_REPLY of a kind (0 DECLINE, 1 ACCEPT, 2 RECALL_DONE) to the lender of slot `k`. -/
def State.lendReply (s : State) (k kind granules : Nat) : State :=
  (s.notice 0x23 (s.rd (Csr.LENTSRC_lender_node k)) (s.rd (Csr.LENTSRC_lender_port k)) granules 0
    (s.rd (Csr.LENTSRC_lender_base k) + kind * 2 ^ 48) 0 []).2

/-- A request of the device goes to the lender of slot `k`. -/
def State.toLender (s : State) (k : Nat) (q : OutReq) : Bool :=
  q.msg.lent && q.msg.dstNode == s.rd (Csr.LENTSRC_lender_node k) && q.msg.dstPort == s.rd (Csr.LENTSRC_lender_port k)

/-- The device declines the offer of slot `k`, or ends its lease: the slot is EMPTY and leaves the owner table, but for the remap stamps by
which an entry admitted before knows that its runs are gone (R213). -/
def State.slotEmpty (s : State) (k : Nat) : State :=
  let s := s.wr (Csr.LENTSTAT_state k) 0
  let s := s.wr (Csr.LENTSTAT_owned_granules k) 0
  let s := { s with grans := s.grans.filterMap (fun (kv : Nat × Granule) =>
    if inSlot k kv.1 then (if kv.2.remap = 0 then none else some (kv.1, { Granule.fresh with remap := kv.2.remap })) else some kv) }
  { s with zeroQ := s.zeroQ.filter (fun g => !inSlot k g),
           fab := { s.fab with zeroing := s.fab.zeroing.filter (fun g => !inSlot k g), reqs := s.fab.reqs.filter (fun q => !(s.toLender k q && q.hold)) } }

/-- R383: what a LEND_OFFER at port `p` is answered, and the slot it fills: the lowest-numbered EMPTY one (DESIGN CHOICE, log entry 76: R50
does not say which). -/
def State.lendOffer (s : State) (m : Msg) : Nat × State :=
  let base := bitsOf m.q2 0 48
  let n := bitsOf m.q3 0 23
  let right := (List.range 1024).any (fun i =>
    s.on (Csr.MEMBER_valid i) && s.on (Csr.MEMBER_lend i) && s.rd (Csr.MEMBER_src_node i) == m.srcNode
      && s.rd (Csr.MEMBER_src_port i) == m.srcPort)
  if !right then (Sts.permission, s)
  else if base % granSize ≠ 0 ∨ 4194304 < n then (Sts.malformed, s)
  else match firstBelow (fun k => s.rd (Csr.LENTSTAT_state k) == 0) 64 with
    | none => (Sts.throttled, s)
    | some k =>
      let s := s.wr (Csr.LENTSRC_lender_base k) base
      let s := s.wr (Csr.LENTSRC_lender_node k) m.srcNode
      let s := s.wr (Csr.LENTSRC_lender_port k) m.srcPort
      let s := s.wr (Csr.LENTSTAT_offered_granules k) n
      let s := s.wr (Csr.LENTSTAT_state k) 1
      (Sts.ok, s.raise Ev.LENT_OFFERED 0 k)

/-- LEND_OFFER_TIMEOUT: an offer that nobody accepted within 1 s is declined. -/
def State.offerTimeout (s : State) (k : Nat) : State :=
  if s.rd (Csr.LENTSTAT_state k) = 1 then (s.lendReply k 0 0).slotEmpty k else s

/-- The commit accepts the offer of slot `k`: its granules enter the owner table as FREE. -/
def State.offerAccept (s : State) (k : Nat) : State :=
  let s := s.wr (Csr.LENTSTAT_state k) 2
  s.lendReply k 1 (s.lentSize k)

/-! ### Recall (R52) -/

/-- Pages of slot `k` that move together: the pan, their first granule and how many granules they take, and their leaves. -/
structure Herd where
  pan : Nat
  gran : Nat
  n : Nat
  leaves : List (Nat × Nat × Nat)

/-- The pages of slot `k` of pan `n`: one herd for a page of 2 MiB or 1 GiB, one for the 4 KiB pages of a granule. -/
def State.herdsOf (s : State) (k n : Nat) : List Herd :=
  let ls := s.leavesWhere n (fun a => inSlot k (a / granSize))
  let big := (ls.filter (fun l => l.2.1 != 0)).map (fun l =>
    (⟨n, pteAddr l.2.2 / granSize, if l.2.1 = 2 then 512 else 1, [l]⟩ : Herd))
  let small := ls.filter (fun l => l.2.1 == 0)
  let gs := (small.map (fun l => pteAddr l.2.2 / granSize)).eraseDups
  big ++ gs.map (fun g => (⟨n, g, 1, small.filter (fun l => pteAddr l.2.2 / granSize == g)⟩ : Herd))

/-- A herd's new home: in DDR5 and, failing that, in the heap. -/
def State.herdHome (s : State) (h : Herd) : Option (Nat × List Alloc × State) :=
  let m : Mover := ⟨(h.leaves.head?.map (·.1)).getD 0, if h.n = 512 then 2 else 1, h.gran * granSize⟩
  match s.newHome h.pan 1 m with
  | some x => some x
  | none => s.newHome h.pan 2 m

/-- A herd starts to move, or loses its data: its pages are unmapped and its granules released after the drain. -/
def State.moveHerd (s : State) (k : Nat) (h : Herd) : State :=
  match s.herdHome h with
  | some (b, as, t) =>
    let t := t.settle s h.pan as
    let cs := h.leaves.map (fun l => (l.1, l.2.1, pteAddr l.2.2, b + (pteAddr l.2.2 - h.gran * granSize)))
    cs.foldl State.recallPage { t with shoots := t.shoots ++ [(⟨none, h.pan, [], [], cs, [], [], [], none⟩ : Shoot)] }
  | none =>
    let s := h.leaves.foldl (fun s l => s.unmapLeaf h.pan 1 l) s
    let s := s.wr (Csr.LENTSTAT_pages_dropped k) 1
    s.startDrain none h.pan (rangeFrom h.gran h.n)

/-- R52: the pages of RECALLING slot `k` that do not move yet begin to. -/
def State.recallPages (s : State) (k : Nat) : State :=
  let starts (h : Herd) : Bool := !s.shoots.any (fun x => x.pan == h.pan && h.leaves.any (fun l => x.copies.any (fun c => c.1 == l.1)))
  let hs := ((List.range 64).flatMap (s.herdsOf k)).filter starts
  let d := s.on (Csr.LENTSTAT_pages_dropped k)
  let s := s.wr (Csr.LENTSTAT_pages_dropped k) 0
  let s := hs.foldl (fun s h => s.moveHerd k h) s
  let s := if s.on (Csr.LENTSTAT_pages_dropped k) then s.raise Ev.LENT_PAGES_DROPPED 0 k else s
  if d then s.wr (Csr.LENTSTAT_pages_dropped k) 1 else s

/-- R52: slot `k` is recalled: no new allocation draws on it, and its OWNED granules are moved out. One that no leaf names yet is the new home
of a page whose copy is in progress, which moves on when its mapping has been switched (R129), or waits for the drain of a change that
releases it (R215). -/
def State.slotRecall (s : State) (k : Nat) : State := (s.wr (Csr.LENTSTAT_state k) 3).recallPages k

/-- A page has been switched to its new home: one in a RECALLING slot moves on. -/
def State.recallRest (s : State) : State :=
  (List.range 64).foldl (fun s k => if s.rd (Csr.LENTSTAT_state k) = 3 then s.recallPages k else s) s

/-- R383: LEND_RECALL naming an ACTIVE slot of its sender starts the recall; any other is MALFORMED. -/
def State.lendRecall (s : State) (m : Msg) : Nat × State :=
  match firstBelow (fun k => s.rd (Csr.LENTSTAT_state k) == 2 && s.rd (Csr.LENTSRC_lender_base k) == bitsOf m.q2 0 48
      && s.rd (Csr.LENTSRC_lender_node k) == m.srcNode && s.rd (Csr.LENTSRC_lender_port k) == m.srcPort) 64 with
  | some k => (Sts.ok, s.slotRecall k)
  | none => (Sts.malformed, s)

/-- LENT_RECALL_DONE: every granule of a RECALLING slot has been migrated, dropped or released. -/
def State.recallDone (s : State) (k : Nat) : State :=
  if s.rd (Csr.LENTSTAT_state k) = 3 ∧ s.rd (Csr.LENTSTAT_owned_granules k) = 0 then
    ((s.lendReply k 2 0).slotEmpty k).raise Ev.LENT_RECALL_DONE 0 k
  else s

/-! ### Loss (R54) -/

/-- An address of node-local memory lies in lent slot `k`. -/
def slotHas (k a : Nat) : Bool := inSlot k (a / granSize)

/-- LENT_PATH_LOST: slot `k`, ACTIVE or RECALLING, becomes LOST: its pages are unmapped from every pan and its granules' charges
credited, without zeroing. Moves of its pages that have not been switched end. -/
def State.pathLost (s : State) (k : Nat) : State :=
  let st := s.rd (Csr.LENTSTAT_state k)
  if st = 2 ∨ st = 3 then
    let s := s.wr (Csr.LENTSTAT_state k) 4
    let gone (c : Nat × Nat × Nat × Nat) : Bool := slotHas k c.2.2.1
    let fresh := s.shoots.flatMap (fun (x : Shoot) => (x.copies.filter gone).map (fun c => (x.pan, c)))
    let s := { s with shoots := s.shoots.map (fun (x : Shoot) => { x with copies := x.copies.filter (fun c => !gone c) }) }
    let s := (List.range 64).foldl (fun s n => (s.leavesWhere n (slotHas k)).foldl (fun s l => s.unmapLeaf n 2 l) s) s
    let s := fresh.foldl (fun s (n, c) => s.releaseGrans n (pageGrans c.2.1 c.2.2.2)) s
    let gs := s.grans.filter (fun kv => inSlot k kv.1 && kv.2.st == .owned)
    let s := gs.foldl (fun s kv =>
      let s := s.creditUse kv.2.owner 3 kv.2.spilled
      let b := SMap.get 0 kv.1 (s.pan kv.2.owner).backing
      let s := if b = 0 then s
        else (s.releaseOne b).setPan kv.2.owner (fun p => { p with backing := SMap.put 0 kv.1 0 p.backing })
      s.setGran kv.1 (fun x => { Granule.fresh with remap := x.remap })) s
    let s := s.wr (Csr.LENTSTAT_owned_granules k) 0
    let s := { s with zeroQ := s.zeroQ.filter (fun g => !inSlot k g) }
    s.raise Ev.LENT_LOST 0 k
  else s

/-- LENT_LOST_CLEARED: every access to a LOST slot has finished, so the slot is EMPTY and leaves the owner table. -/
def State.lostCleared (s : State) (k : Nat) : State :=
  let line (d : Nat) : Bool := slotHas k (d * 128)
  let busy := s.coh.txns.any (fun t => line t.line) || s.waits.any (fun w => w.lines.any line)
    || s.fab.reqs.any (fun q => s.toLender k q && !q.hold)
  if s.rd (Csr.LENTSTAT_state k) = 4 ∧ !busy then s.slotEmpty k else s

end Sys2Proof.Machine
end

