-- ==== Sys2Proof/Machine/Pair.lean ====
section
/-!
DEFINITION. Claims (R411) and the pairing of twin nodes: roles (R423) and the resync of mirrored pans (R429).
-/
namespace Sys2Proof.Machine

/-- R411: instance `b` raises the claim to `n`: it becomes the holder, the other holds one less, every gate latches it. -/
def State.raiseClaim (s : State) (b : Bool) (n : Nat) : State :=
  let s := (s.wr Csr.CLAIMCUR_claim n).wr Csr.CLAIMCUR_holder (rmNum b)
  let s := s.wr Csr.TRPSTAT_holder (rmNum b)
  let other := subMod n 1 32
  let s := (s.wr (if b then Csr.CLAIMB_claim else Csr.CLAIMA_claim) n).wr (if b then Csr.CLAIMA_claim else Csr.CLAIMB_claim) other
  let s := { s with gateClaim := (List.range 50).foldl (fun m k => SMap.put 1 k n m) s.gateClaim }
  let s := { s with flash := s.flash.setClaim n }
  s.raise Ev.CLAIM_RAISED 6 (rmNum b)

/-- PEERINFO.flags bit of a partner that is a twin (Table 12-6). -/
def twinFlag : Nat := 1

/-- R423: TWIN_HELLO with this node's claim and mirror window. -/
def State.twinHello (s : State) : State :=
  let s := { s with twin := { s.twin with greeted := true } }
  s.twinCtrl 0x60 [(2, 2, s.nodeId), (4, 4, s.rd Csr.CLAIMCUR_claim), (8, 1, s.rd Csr.TWINCTL_prefer_primary),
    (12, 4, s.rd Csr.TWINMW_mw_base), (16, 4, s.rd Csr.TWINMW_mw_granules)]

/-- TWIN_PAN MAP of one page: the operands of MAP (R136), and the page's address on this node. -/
def State.twinMap (s : State) (n mod x va addr : Nat) : Nat × State :=
  s.twinPan 1 n [(24, 1, mod), (25, 7, va), (32, 4, 1), (40, 8, x), (48, 8, addr % 2 ^ 52)]

/-- Granules of the mirror window that hold pages of pan `n`: its structures are not mirrored (R425). -/
def State.mirrorGrans (s : State) (n : Nat) : List Nat :=
  let p := s.pan n
  ((s.grans.filter (fun kv => kv.2.st == .owned && kv.2.owner == n)).map (·.1)).filter (fun g =>
    tierOf (g * granSize) == 1 && s.inWindow g && !p.ptGrans.contains g && !p.parkGrans.any (fun kv => kv.2 == g + 1))

/-- R429 steps 1 and 3, and the message of step 4: START, images and mappings of pan `n`, every line of its window granules as a
MIRROR_WR, and DONE. -/
def State.resyncPan (s : State) (n : Nat) : State :=
  let s := (s.twinSend 0x65 [(1, 1, 0), (2, 1, n)]).2
  let s := (s.twinPan 0 n (s.panImages n)).2
  let s := (s.panLeaves n).foldl (fun s l =>
    let e := l.2.2
    (s.twinMap n l.2.1 ((if bitOf e 2 then 4 else 0) + (if bitOf e 3 then 8 else 0)) l.1 (pteAddr e)).2) s
  let lines := (s.mirrorGrans n).flatMap (fun g => rangeFrom (g * 16384) 16384)
  let id := s.fab.nextId
  let s := { s with fab := { s.fab with nextId := id + 1 } }
  let s := lines.foldl (fun s l => s.mirrorLine n l id) s
  let s := if lines = [] then s else
    { s with fab := { s.fab with mirrors := s.fab.mirrors ++ [(⟨id, lines.length, none, 0⟩ : MirrorWait)] } }
  (s.twinSend 0x65 [(1, 1, 1), (2, 1, n)]).2

/-- The resync of the first pan waiting for one begins; with none left the nodes are PAIRED. -/
def State.resyncNext (s : State) : State :=
  match s.twin.resync with
  | n :: _ => (s.wr Csr.TWINSTAT_state 3).resyncPan n
  | [] => s.wr Csr.TWINSTAT_state 2

/-- R429: every mirrored pan is resynchronised, one after the other. -/
def State.resyncAll (s : State) : State :=
  let ns := (List.range 64).filter (fun n => s.panMirrored n && s.panActive n)
  ({ s with twin := { s.twin with resync := ns } }).resyncNext

/-- R423: this node is PRIMARY, as the claims and settings of both say. -/
def State.twinLeads (s : State) (b : List Nat) : Bool :=
  let f (i n : Nat) : Nat := ofLeBytes ((b.drop i).take n)
  let mine := s.rd Csr.CLAIMCUR_claim
  let pref := s.on Csr.TWINCTL_prefer_primary
  if isNewer mine (f 4 4) 32 then true
  else if isNewer (f 4 4) mine 32 then false
  else if pref != bitOf (f 8 1) 0 then pref
  else decide (s.nodeId < f 2 2 % 4096)

/-- R423: the roles are decided by the TWIN_HELLO `b` of the twin. The PRIMARY's claim is made newer by 0x1_0000 at least, and it starts
the resync. -/
def State.twinMeet (s : State) (b : List Nat) : State :=
  let f (i n : Nat) : Nat := ofLeBytes ((b.drop i).take n)
  let d := f 4 4
  let s := if s.twin.greeted then s else s.twinHello
  let lead := s.twinLeads b
  let s := { s with twin := Twin.none }
  let s := ((s.wr Csr.TWINSTAT_peer_node (f 2 2 % 4096)).wr Csr.TWINSTAT_peer_claim d).wr Csr.TWINSTAT_role (if lead then 0 else 1)
  let mine := s.rd Csr.CLAIMCUR_claim
  if lead then
    let n := (d + 0x10000) % 2 ^ 32
    let h := s.rmHolder
    let s := if isNewer mine d 32 && decide (0x10000 ≤ subMod mine d 32) then s
      else s.journaled h 0 [mine, n] (fun s => s.raiseClaim h n) (fun _ => Sts.ok)
    (s.raise Ev.TWIN_PAIRED 6 (rmNum h)).resyncAll
  else (s.wr Csr.TWINSTAT_state 2).raise Ev.TWIN_PAIRED 6 (rmNum s.rmHolder)

end Sys2Proof.Machine
end

