-- ==== Sys2Proof/Machine/Commit.lean ====
section
/-!
DEFINITION. A commit (R404 to R409): what each block's rules refuse, and what the switch of the sets starts.

`t` below is always the state as it would be with the shadow set active: the same registers with EPOCHCUR.set flipped.
-/
namespace Sys2Proof.Machine

/-! ### Commit rules (Table 14-1) -/

/-- Sum of a figure over the pans for which `p` holds. -/
def panSum (p : Nat → Bool) (f : Nat → Nat) : Nat := (((List.range 64).filter p).map f).sum

/-- DIRECT segments of a set (R43). -/
def State.directSegs (t : State) : Nat := ((List.range 239).filter (fun k => t.bit (Csr.STKSEGMAP_seg (k / 64)) (k % 64))).length

/-- Table 02-4, R273: the capacity of tier 0, 1 or 2; a retired granule of a CACHE segment is in no tier. -/
def State.tierCapacity (t : State) (k : Nat) : Nat :=
  let lost := (t.dram.retired.filter (fun g => tierOf (g * granSize) == k && (k != 0 || t.bit (Csr.STKSEGMAP_seg ((g - tierBase 0) / 64 / 64)) ((g - tierBase 0) / 64 % 64)))).length
  (if k = 0 then 64 * t.directSegs else if k = 1 then t.rd Csr.DDR5TOP_granules - ddrCarve
   else t.rd Csr.HEAPTOP_granules - heapCarve) - lost

/-- Pans whose hard quotas count: those that are not FREE, and those that the commit makes ACTIVE. -/
def State.panCounts (t : State) (n : Nat) : Bool := !t.panFree n || t.on (Csr.PANCTL_enable n)

/-- R37, first two rules. -/
def State.quotasOk (t : State) : Bool :=
  (List.range 64).all (fun n => [0, 1, 2, 3].all (fun k => decide (t.rd (Csr.PANQUOTA_soft n k) ≤ t.rd (Csr.PANQUOTA_hard n k))))
  && [0, 1, 2].all (fun k => decide (panSum t.panCounts (fun n => t.rd (Csr.PANQUOTA_hard n k)) ≤ t.tierCapacity k))

/-- Log shares of the durable pans (R37, R293). -/
def State.logUnits (t : State) : Nat := panSum t.panDurable (fun n => t.rd (Csr.PANDUR_dur_log_units n))

/-- R584: the root and fault queue of every pan that becomes ACTIVE; none where one does not fit. Several pans are served in ascending
pan ID (DESIGN CHOICE, log entry 76: the spec does not say in which order). -/
def State.takeRoots (t : State) : Option State :=
  ((List.range 64).filter (fun n => t.panFree n && t.on (Csr.PANCTL_enable n))).foldl
    (fun t n => t.bind (fun t => t.takeRoot n (t.rd (Csr.PANQUOTA_hard n 1)))) (some t)

/-- Segments whose mode changes. -/
def State.flips (s t : State) : List Nat :=
  (List.range 239).filter (fun k => s.bit (Csr.STKSEGMAP_seg (k / 64)) (k % 64) != t.bit (Csr.STKSEGMAP_seg (k / 64)) (k % 64))

/-- R43: segment `k` may not change: it is changing already, or it leaves DIRECT with an OWNED or ZEROING granule. -/
def State.segStuck (s : State) (k : Nat) : Bool :=
  s.bit (Csr.STKSEGSTAT_seg (k / 64)) (k % 64)
  || (s.bit (Csr.STKSEGMAP_seg (k / 64)) (k % 64)
      && (rangeFrom (tierBase 0 + 64 * k) 64).any (fun g => (s.gran g).st == .owned || (s.gran g).st == .zeroing))

/-- R397: the commit changes an order or dir field of ROUTE, or FABDIMS. -/
def State.routesChange (s t : State) : Bool :=
  [Csr.FABDIMS_kx1, Csr.FABDIMS_ky1, Csr.FABDIMS_kz1].any (fun f => s.rd f != t.rd f)
  || (List.range 4096).any (fun n =>
      [Csr.ROUTE_order n, Csr.ROUTE_xdir n, Csr.ROUTE_ydir n, Csr.ROUTE_zdir n].any (fun f => s.rd f != t.rd f))

/-- Table 02-11: two valid MEMBER entries name the same source and pan. -/
def State.membersClash (t : State) : Bool :=
  let ks := ((List.range 1024).filter (fun i => t.on (Csr.MEMBER_valid i))).map (fun i =>
    (t.rd (Csr.MEMBER_src_node i), t.rd (Csr.MEMBER_src_port i), t.rd (Csr.MEMBER_pan i)))
  ks.eraseDups.length != ks.length

/-- R293, R49: a durable pan with no usable heap or log. -/
def State.heapLacks (t : State) : Bool :=
  let any := (List.range 64).any t.panDurable
  (any && decide (t.rd Csr.HEAPTOP_granules ≤ heapCarve))
  || (any && (List.range 8).any (fun p => t.rd (Csr.HEAPPORT_state p) == 2 && !t.bit Csr.HEAPCFG_plp_mask p))
  || decide (logLimit (t.rd Csr.HEAPCFG_flush_gbps) < t.logUnits)

/-- R427: the mirror window does not hold the mirrored pans, or leaves the others too little. -/
def State.windowShort (t : State) : Bool :=
  let mw := t.rd Csr.TWINMW_mw_granules
  let hard (n : Nat) : Nat := t.rd (Csr.PANQUOTA_hard n 1)
  ((List.range 64).any (fun n => t.panCounts n && t.panMirrored n) && mw == 0)
  || decide (mw < panSum (fun n => t.panCounts n && t.panMirrored n) hard)
  || decide (t.tierCapacity 1 - mw < panSum (fun n => t.panCounts n && !t.panMirrored n) hard)

/-- SECSTAT.state: 3 SEALED (Table 15-15). -/
def State.isSealed (s : State) : Bool := s.rd Csr.SECSTAT_state == 3

/-- R444: the commit enables TWINCTL while the twin-link peer is not in the domain. -/
def State.twinOutside (s t : State) : Bool :=
  s.isSealed && !s.on Csr.TWINCTL_enable && t.on Csr.TWINCTL_enable && !s.on (Csr.PORTSEC_domain (t.rd Csr.TWINCTL_port))

/-- R444: the commit takes enc_req from an enabled port. -/
def State.encDrops (s t : State) (p : Nat) : Bool :=
  s.isSealed && s.on (Csr.PORTCTL_enc_req p) && !t.on (Csr.PORTCTL_enc_req p) && t.on (Csr.PORTCTL_enable p)

/-- R365: the pair of port `p` changes while a link of it is neither DISABLED nor SEARCHING. -/
def State.pairBusy (s t : State) (p : Nat) : Bool :=
  s.rd (Csr.PORTCTL_pair p) != t.rd (Csr.PORTCTL_pair p)
  && [p / 2 * 2, p / 2 * 2 + 1].any (fun q => decide (2 ≤ s.link q))

/-- R355: the receive-buffer limits of port `p`. -/
def State.rxLimits (t : State) (p : Nat) : Bool :=
  let vs := [0, 1, 2]
  decide ((vs.map (fun v => t.rd (Csr.RXCAP_min p v))).sum ≤ 6080)
  && vs.all (fun v => decide (t.rd (Csr.RXCAP_min p v) ≤ t.rd (Csr.RXCAP_max p v)) && decide (t.rd (Csr.RXCAP_max p v) ≤ 8128))

/-- R192: some pan's cir at port `p` is above its pir. -/
def State.cirAbove (t : State) (p : Nat) : Bool :=
  (List.range 64).any (fun n => decide (t.rd (Csr.SLRATE_pir p n) < t.rd (Csr.SLRATE_cir p n)))

/-- Table 08-10: the watermarks of a DRAM controller. -/
def wmOk (low high idle : Nat) : Bool := decide (low < high) && decide (idle ≤ high)

/-- R406: the reasons for which block `k` refuses. -/
def State.blockReasons (s t : State) (k : Nat) : List Nat :=
  let when (b : Bool) (r : Nat) : List Nat := if b then [r] else []
  if k = 0 then
    when (!t.quotasOk || decide (1024 < t.logUnits) || t.takeRoots.isNone) 1
    ++ when ((s.flips t).any s.segStuck) 2
    ++ when (s.routesChange t && !s.on Csr.FABSTAT_drained) 5
    ++ when t.heapLacks 6
    ++ when t.membersClash 7
  else if k = 3 then when t.windowShort 10 ++ when (s.twinOutside t) 11
  else if 20 ≤ k ∧ k < 28 then
    let p := k - 20
    when (s.pairBusy t p) 3 ++ when (!t.rxLimits p) 4 ++ when (t.cirAbove p) 9 ++ when (s.encDrops t p) 11
  else if 29 ≤ k ∧ k < 45 then
    let c := k - 29
    when (!wmOk (t.rd (Csr.DDRWM_wq_low c)) (t.rd (Csr.DDRWM_wq_high c)) (t.rd (Csr.DDRWM_wq_idle c))) 8
  else if k = 45 then when (!wmOk (t.rd Csr.STKWM_wq_low) (t.rd Csr.STKWM_wq_high) (t.rd Csr.STKWM_wq_idle)) 8
  else if k = 46 then
    when ((List.range 64).any (fun n => decide (t.rd (Csr.PANHEAP_dem_high n) < t.rd (Csr.PANHEAP_dem_low n)))) 8
  else []

/-- R406: every block that refuses, ascending, with the lowest of its reasons. -/
def State.refusals (s t : State) : List (Nat × Nat) :=
  (List.range 50).filterMap (fun k =>
    match s.blockReasons t k with
    | [] => none
    | r :: rs => some (k, rs.foldl min r))

/-- The state with the shadow set active. -/
def State.flipped (s : State) : State := s.viewSet (1 - s.liveSet)

/-! ### What a commit starts -/

/-- A change of the member rights (R327): entries that lose them are swept, entries made valid again lose an ended COHGONE. -/
def State.commitMembers (s t : State) : State :=
  (List.range 1024).foldl (fun s i =>
    let had := s.on (Csr.MEMBER_valid i) && s.on (Csr.MEMBER_rd i)
    let has_ := t.on (Csr.MEMBER_valid i) && t.on (Csr.MEMBER_rd i)
    if had && !has_ then s.sweepStart i true
    else if !s.on (Csr.MEMBER_valid i) && t.on (Csr.MEMBER_valid i) && s.gone i
        && !s.coh.sweeps.any (fun x => x.member == i) then
      s.clrFld (Csr.COHGONE_gone (i / 64)) (i % 64)
    else s) s

/-- R34: an ACTIVE pan starts to drain: its queues stop, and those that hold nothing are destroyed at once. -/
def State.panDrain (s : State) (n : Nat) : State :=
  let qs := (s.queues.filter (fun kv => kv.2.pan == n && kv.2.st != .free && !isRm kv.1)).map (·.1)
  let s := qs.foldl (fun s q => if (s.queue q).st = .stopped then s else s.stopQueue q) s
  let s := qs.foldl (fun s q => if (s.queue q).ents = [] then s.destroyQueue q else s) s
  (s.wr (Csr.PANSTAT_state n) 2)

/-- Table 02-3: what the commit makes of pan `n`, whose settings before were those of `old`. -/
def State.commitPan (old s : State) (n : Nat) : State :=
  let on_ := s.on (Csr.PANCTL_enable n)
  let before := old.rd (Csr.PANSTAT_over_soft n)
  let s := if old.panFree n && on_ then
      let (g, s) := s.drawFree 16
      (s.wr (Csr.PANSTAT_state n) 1).setPan n (fun p => { p with spillArmed := true, gen := g })
    else if old.panActive n && !on_ then s.panDrain n
    else s
  let s := if old.rd (Csr.PANSPILL_spill_budget n) ≠ s.rd (Csr.PANSPILL_spill_budget n) then
      s.setPan n (fun p => { p with spillArmed := true })
    else s
  let s := (s.panLevels n).softEvents n before
  let sm := s.rd (Csr.PANCTL_stk_mode n)
  let s := if old.rd (Csr.PANCTL_stk_mode n) ≠ sm ∧ (sm = 1 ∨ sm = 3) ∧ !s.dram.sweeps.contains n then
      { s with dram := { s.dram with sweeps := s.dram.sweeps ++ [n] } }.wr Csr.STKSTAT_sweeping 1
    else s
  let s := if s.panMirrored n ∧ ¬(s.rd Csr.TWINSTAT_state = 2 ∨ s.rd Csr.TWINSTAT_state = 3) then s.degrade n else s
  s.parkAdjust n

/-- R43: segment `k` begins to change its mode; one that leaves CACHE writes its dirty lines back first. -/
def State.commitSeg (s : State) (k : Nat) : State :=
  let mine (kv : Nat × List Way) : Bool := kv.1 / 131072 == k
  let ws := (s.dram.cache.filter mine).flatMap (·.2)
  let s := { s with dram := { s.dram with cache := s.dram.cache.filter (fun kv => !mine kv) } }
  (ws.foldl State.dropWay s).setFld (Csr.STKSEGSTAT_seg (k / 64)) (k % 64)

/-- Table 02-6: what the commit makes of lent slot `k`. -/
def State.commitSlot (s : State) (k : Nat) : State :=
  let st := s.rd (Csr.LENTSTAT_state k)
  let on_ := s.on (Csr.LENTCTL_enable k)
  if st = 1 then (if on_ then s.offerAccept k else (s.lendReply k 0 0).slotEmpty k)
  else if st = 2 ∧ !on_ then s.slotRecall k
  else s

/-- R192: a change of any of a pan's Sluice fields at a port fills both buckets. -/
def State.commitSluice (old s : State) : State :=
  let refill (kv : Nat × Bucket) : Nat × Bucket :=
    let p := kv.1 / 64
    let n := kv.1 % 64
    let fs := [Csr.SLRATE_cir p n, Csr.SLRATE_pir p n, Csr.SLBURST_cbs p n, Csr.SLBURST_pbs p n, Csr.SLPOL_en p n,
               Csr.SLPOL_aware p n, Csr.SLPOL_yellow p n, Csr.SLPOL_red p n]
    if fs.any (fun f => old.rd f != s.rd f) then (kv.1, { kv.2 with dc := 0, dp := 0 }) else kv
  { s with sluice := (s.sluice.map refill).filter (fun (kv : Nat × Bucket) => kv.2 != Bucket.full) }

/-- R423: the commit of TWINCTL.enable starts pairing, or ends it. -/
def State.commitTwin (old s : State) : State :=
  let p := s.rd Csr.TWINCTL_port
  if !old.on Csr.TWINCTL_enable && s.on Csr.TWINCTL_enable then
    let s := s.wr Csr.TWINSTAT_state 1
    let s := if s.linkUp p && bitOf (s.rd (Csr.PEERINFO_flags p)) twinFlag then s.twinHello else s
    match s.twin.hello with
    | some b => s.twinMeet b
    | none => s
  else if old.on Csr.TWINCTL_enable && !s.on Csr.TWINCTL_enable then
    let s := s.wr Csr.TWINSTAT_state 0
    { s with twin := Twin.none }
  else s

/-- R404 to R407: the sets switch and the old epoch starts to drain. -/
def State.switchSets (s : State) : State :=
  let n := (s.rd Csr.EPOCHCUR_counter + 1) % 65536
  let s := (s.viewSet (1 - s.liveSet)).wr Csr.EPOCHCUR_counter n
  let s := (s.wr Csr.EPOCHSTAT_shadow 1).wr Csr.EPOCHSTAT_dirty 0
  let s := (List.range 50).foldl (fun s k => ((s.wr (Csr.BLKCOMMIT_set k) s.activeSet).wr (Csr.BLKCOMMIT_dirty k) 0)) s
  let s := s.wr Csr.EPOCHINFL_previous (s.rd Csr.EPOCHINFL_current)
  let s := s.wr Csr.EPOCHINFL_current 0
  { s with rm := { s.rm with slow := false } }

/-- The number of the holder, the source of the configuration events. -/
def State.holderNum (s : State) : Nat := rmNum s.rmHolder

/-- R406: the commit succeeds: EPOCHCUR advances, every block switches, and what the new settings start begins. -/
def State.commitDo (s : State) : State :=
  let old := s
  let s := s.commitMembers s.flipped
  let flips := old.flips old.flipped
  let s := s.switchSets
  let s := (s.takeRoots).getD s
  let s := (s.wr Csr.COMMITSTAT_result 1).wr Csr.COMMITSTAT_epoch s.epochNow
  let s := s.raise Ev.EPOCH_COMMIT 6 s.holderNum
  let s := (flips.foldl State.commitSeg s).setCaps
  let s := State.commitTwin old s
  let s := if s.rd Csr.HEAPSTAT_state = 0 then s else s.wr Csr.HEAPSTAT_log_limit (logLimit (s.rd Csr.HEAPCFG_flush_gbps))
  let s := (List.range 64).foldl (fun s n => State.commitPan old s n) s
  let s := (List.range 64).foldl State.commitSlot s
  let s := State.commitSluice old s
  (List.range 64).foldl (fun s n => if old.panImages n == s.panImages n then s else s.twinImages n) s

/-- R406: the commit is refused: nothing changes but the record of the refusal. -/
def State.commitRefuse (s : State) (rs : List (Nat × Nat)) : State :=
  let s := rs.foldl (fun s x => s.wr (Csr.BLKCOMMIT_refuse x.1) x.2) s
  let f := rs.headD (0, 0)
  let s := (s.wr Csr.COMMITSTAT_result 2).wr Csr.COMMITSTAT_block f.1
  let s := (s.wr Csr.COMMITSTAT_reason f.2).wr Csr.COMMITSTAT_epoch s.epochNow
  s.raise Ev.EPOCH_REFUSED 6 s.holderNum

/-- R406: a commit or dry run of an OPEN shadow: the refusing reason (0 none), and the state after. -/
def State.commit (s : State) (dry : Bool) : Nat × State :=
  match s.refusals s.flipped with
  | [] =>
    if dry then
      let s := (s.wr Csr.COMMITSTAT_result 3).wr Csr.COMMITSTAT_block 0
      (0, (s.wr Csr.COMMITSTAT_reason 0).wr Csr.COMMITSTAT_epoch s.epochNow)
    else (0, ((s.wr Csr.COMMITSTAT_block 0).wr Csr.COMMITSTAT_reason 0).commitDo)
  | rs => ((rs.headD (0, 0)).2, s.commitRefuse rs)

/-! ### The shadow (R405) -/

/-- The RWS fields of every register, as (offset, field) pairs of the cells listed. -/
def State.copyShadow (s : State) : State :=
  let a := s.activeSet
  let keep (kv : Nat × Nat) : Bool := kv.1 % 2 == a || !isRwsCell kv.1
  let act := s.regs.filter keep
  { s with regs := act.foldl (fun m kv => if isRwsCell kv.1 then SMap.ins (kv.1 / 2 * 2 + (1 - a)) kv.2 m else m) act }
where
  /-- The cell belongs to an RWS field. -/
  isRwsCell (c : Nat) : Bool :=
    match Csr.find (c / 128) with
    | some r => r.fields.any (fun f => f.acc == .rws && f.lo == c / 2 % 64)
    | none => false

end Sys2Proof.Machine
end

