-- ==== Sys2Proof/Machine/Trace.lean ====
section
/-!
DEFINITION. Trace units (R469, R521) and the state of a port's optical engine (Table 16-2).
-/
namespace Sys2Proof.Machine
open Sys2Proof Host

/-- Records that the trace ring holds: 64 MiB of 32 bytes. -/
def traceLen : Nat := 0x200000

/-- Records that the trace staging SRAM holds: 256 KiB. -/
def stageLen : Nat := 8192

/-- R459: in SEALED with trace_data = 0 trace records carry no data. -/
def State.traceBlank (s : State) : Bool := s.rd Csr.SECSTAT_state == 3 && !bitOf s.sec.policy 16

/-- A record enters the trace ring; with stop_on_full tracing stops when that fills it. -/
def State.traceRing (s : State) (r : TraceRec) : State :=
  let n := s.rd Csr.TRACEPOS_producer
  let s := { s with mgmt := { s.mgmt with ring := SMap.put TraceRec.zero (n % traceLen) r s.mgmt.ring } }
  let s := s.wr Csr.TRACEPOS_producer (n + 1)
  if s.on Csr.TRACECTL_stop_on_full && (n + 1) % traceLen == 0 then s.wr Csr.TRACECTL_stopped 1 else s

/-- The number of the next record of domain `d`. -/
def State.traceSeq (s : State) (d : Nat) : Nat × State :=
  let n := SMap.get 0 d s.mgmt.seqs
  (n, { s with mgmt := { s.mgmt with seqs := SMap.put 0 d ((n + 1) % 2 ^ 32) s.mgmt.seqs } })

/-- A trace unit writes a record: to the ring, or in DEEP to the staging SRAM, where one that finds no space is lost. -/
def State.traceWrite (s : State) (type point d args : Nat) : State :=
  if s.on Csr.TRACECTL_stopped then s
  else if !s.inDeep then
    let (n, s) := s.traceSeq d
    s.traceRing ⟨point, type, d, n, s.stamp, args⟩
  else if s.mgmt.staged.length < stageLen then
    let (n, s) := s.traceSeq d
    { s with mgmt := { s.mgmt with staged := s.mgmt.staged ++ [⟨point, type, d, n, s.stamp, args⟩] } }
  else { s with mgmt := { s.mgmt with lost := SMap.upd 0 d (· + 1) s.mgmt.lost } }

/-- DEEP has ended: staged records enter the ring, and LOST records report what was lost. -/
def State.traceDrain (s : State) : State :=
  let rs := s.mgmt.staged
  let ls := s.mgmt.lost
  let s := { s with mgmt := { s.mgmt with staged := [], lost := [] } }
  let s := rs.foldl State.traceRing s
  ls.foldl (fun (s : State) (x : Nat × Nat) => s.traceWrite 3 0 x.1 (x.2 % 2 ^ 32)) s

/-- R469: before domain `d` goes dark its trace unit writes a sleep marker. No record waits in the unit, so none is dropped. -/
def State.sleepMark (s : State) (d : Nat) : State :=
  if SMap.get 0 d s.mgmt.slept ≠ 0 then s
  else
    let s := s.traceWrite 1 0 d 0
    { s with mgmt := { s.mgmt with slept := SMap.put 0 d (s.stamp + 1) s.mgmt.slept } }

/-- R469: when domain `d` is lit again its trace unit first writes a wake marker, with the stamp of the matching SLEEP. -/
def State.wakeMark (s : State) (d : Nat) : State :=
  let t := SMap.get 0 d s.mgmt.slept
  if t = 0 then s
  else ({ s with mgmt := { s.mgmt with slept := SMap.put 0 d 0 s.mgmt.slept } }).traceWrite 2 0 d (t - 1)

/-- Table 16-2: the optical engine is powered down: the port is DISABLED or in SLEEP. -/
def engineDark (x : Nat) : Bool := x == 0 || x == 5

/-- PORTSTAT.state changes; with it the engine of the port goes dark, or is lit, and its PLL stops or starts. -/
def State.portTo (s : State) (p x : Nat) : State :=
  let was := engineDark (s.rd (Csr.PORTSTAT_state p))
  if engineDark x && !was then
    let s := (s.sleepMark (16 + p)).clrFld Csr.CLKSTAT_port_lock p
    s.wr (Csr.PORTSTAT_state p) x
  else if was && !engineDark x then
    ((s.wr (Csr.PORTSTAT_state p) x).setFld Csr.CLKSTAT_port_lock p).wakeMark (16 + p)
  else s.wr (Csr.PORTSTAT_state p) x

/-- Every port's trace unit writes its sleep marker before the engines are powered down together. -/
def State.portsSleep (s : State) : State :=
  (List.range 8).foldl (fun s p => if engineDark (s.rd (Csr.PORTSTAT_state p)) then s else s.sleepMark (16 + p)) s

/-- Table 16-2: the uncore is lit: main power, a reference, and neither DEEP nor a trip has stopped its clocks. -/
def State.uncoreLit (s : State) : Bool := s.board.main && !s.inDeep && !s.board.trip && !s.board.refGone

/-- The domain is lit (Table 16-2), so its trace unit records. -/
def State.traceLit (s : State) (d : Nat) : Bool :=
  s.board.main && (s.board.reset == none || s.board.reset == some .warm) &&
    (if d < 16 then !s.bit Csr.STALLPWR_gated d && !s.bit Csr.STALLPWR_waking d
     else if d < 24 then !s.inDeep && !engineDark (s.rd (Csr.PORTSTAT_state (d - 16)))
     else if d = 24 then !s.inDeep
     else true)

/-- A trace point whose group is enabled is recorded (R521). -/
def State.tracePoint (s : State) (d point args : Nat) : State :=
  if s.on Csr.TRACECTL_en && s.bit (Csr.TRACEEN_groups d) (point / 1024) && s.traceLit d then
    s.traceWrite 0 point d (if s.traceBlank then 0 else args)
  else s

/-- TRACE_POINT. -/
def execTracePoint (d : Fin 28) (point : BitVec 16) (args : BitVec 128) (s : State) : Outcome State Fault Refusal :=
  .next (s.tracePoint d.val point.toNat args.toNat)

end Sys2Proof.Machine
end

