-- ==== Sys2Proof/Machine/Link.lean ====
section
/-!
DEFINITION. The link layer (chapter 12): states, flits, acknowledgement, replay, retention, receive buffering and failover.

A received flit is its 256 bytes as they arrive; `fec` says that a FEC codeword of it was uncorrectable and `ser` how many symbols
were corrected on each lane (R335). What is sent is kept as messages (State.Link).
-/
namespace Sys2Proof.Machine

/-- Link counter `i` of Table 12-17. -/
def linkCtr (p i : Nat) : Ctr :=
  ⟨⟨0x2000100 + 0x80000 * p + 8 * i, 0, 48, 0, false⟩, Csr.PORTSTAT_cnt_ovf p, i, Ev.LINK_COUNT_OVF, 2, p⟩

/-- LANESERCNT[l] of a port. -/
def laneCtr (p l : Nat) : Ctr := ⟨Csr.LANESERCNT_count p l, Csr.LANESTAT_ser_ovf p, l, Ev.LINK_COUNT_OVF, 2, p⟩

/-- The other port of a pair. -/
def State.mate (s : State) (p : Nat) : Option Nat := (s.pairOf p)[1]?

/-! ### Retention (R351 to R353) -/

/-- Flits in the safety net that wait for their handover (R368). -/
def Drain.spilled (d : Drain) : Nat := (d.flits.filter (·.1)).length

/-- How many of the kept flits, the oldest, are in the safety net. -/
def State.spilledKept (s : State) (p : Nat) : Nat := s.rd (Csr.RETAINSTAT_spilled p) - (s.lnk p).drain.spilled

/-- RETAINSTAT follows the kept flits; the oldest acknowledged flits on chip spill while more than 3,584 are there, and the spill
stalls and resumes under Table 12-9. -/
def State.retain (s : State) (p : Nat) : State :=
  let ks := (s.lnk p).kept
  let d := (s.lnk p).drain
  let sp := min (s.spilledKept p) ks.length
  let excess := ks.length - sp - 3584
  let more := ((ks.drop sp).takeWhile (·.acked)).length
  let n := min (min excess more) (65536 - sp - d.spilled)
  let s := s.count (linkCtr p 6) n
  let sp := sp + n
  let s := s.wr (Csr.RETAINSTAT_spilled p) (sp + d.spilled)
  let s := s.wr (Csr.RETAINSTAT_unacked p) (ks.filter (fun k => !k.acked)).length
  let s := s.wr (Csr.RETAINSTAT_retained p) (ks.length + d.flits.length)
  let chip := ks.length - sp
  let stall := decide (0 < sp) && (decide (4032 ≤ chip) || decide (65536 ≤ sp + d.spilled))
  if stall && !s.on (Csr.PORTSTAT_stalled p) then (s.wr (Csr.PORTSTAT_stalled p) 1).raise Ev.RETAIN_STALL 2 p
  else s.wr (Csr.PORTSTAT_stalled p) (if stall then 1 else 0)

/-- R351, R353: flits that need not be kept leave, oldest first: DATA and CTRL flits once delivered, TAG flits once acknowledged. -/
def State.releaseKept (s : State) (p : Nat) : State :=
  let gone (k : TxFlit) : Bool := k.acked && (k.delivered || k.vc == 4)
  let n := ((s.lnk p).kept.takeWhile gone).length
  let s := s.wr (Csr.RETAINSTAT_spilled p) (s.rd (Csr.RETAINSTAT_spilled p) - n)
  (s.setLnk p (fun l => { l with kept := l.kept.dropWhile gone })).retain p

/-- R346: an ack value advances the acknowledgement when it names an unacknowledged flit. -/
def State.ackFlits (s : State) (p a : Nat) : State :=
  let un := (s.lnk p).kept.filter (fun k => !k.acked)
  match un with
  | [] => s
  | u :: _ =>
    let d := subMod a u.ext 12
    if d < un.length then
      (s.setLnk p (fun l => { l with k := 0, kept := l.kept.map (fun (k : TxFlit) => if k.ext ≤ u.ext + d then { k with acked := true } else k) })).releaseKept p
    else s

/-- R351: a delivery count of a VC. -/
def State.dlvFlits (s : State) (p vc d : Nat) : State :=
  let mine (k : TxFlit) : Bool := k.vc == vc && !k.delivered
  match (s.lnk p).kept.filter mine with
  | [] => s
  | u :: t =>
    let x := subMod (d + 16383) u.nth 14
    if x < t.length + 1 then
      (s.setLnk p (fun l => { l with kept := l.kept.map (fun (k : TxFlit) => if mine k && decide (k.nth ≤ u.nth + x) then { k with delivered := true } else k) })).releaseKept p
    else s

/-! ### States (R338 to R340, R366 to R370) -/

/-- R340: nothing waits to be sent. -/
def State.nothingWaits (s : State) (p : Nat) : Bool :=
  let l := s.lnk p
  l.ctrlq == [] && l.hand == [] && [1, 2, 3].all (fun v => s.txQueue p v == [])

/-- R340: an end that is idle: nothing sent is unacknowledged and nothing waits to be sent. -/
def State.linkIdle (s : State) (p : Nat) : Bool := (s.lnk p).kept.all (·.acked) && s.nothingWaits p

/-- R384: a message that was sent on and whose life has run out. -/
def State.expire (s : State) (m : Msg) : State :=
  ((s.countFab 4 Ev.FAB_EXPIRED).leaveWindow m).undeliverable m Sts.timeout

/-- R384: life `x` less the time `t` in ns, in units of 2 µs, at least `least` units; none when it runs out. -/
def lifeAfter (x t least : Nat) : Option Nat :=
  let u := max least (ceilDiv t 2000)
  if u < x then some (x - u) else none

/-- Routes a message again that its output has returned (R369, R391). -/
def State.reroute (s : State) (m : Msg) : State := (s.leaveWindow m).onward 8 m

/-- R368: the messages that begin in kept flits of one VC, each with its life less the time since it was sent. -/
def handMsgs (now : Nat) (ks : List TxFlit) : List (Msg × Bool) :=
  ks.flatMap (fun k => k.msgs.map (fun m =>
    match lifeAfter m.life (subMod now k.sent 64) 0 with
    | some x => ({ m with life := x }, true)
    | none => (m, false)))

/-- R368: messages of a link that is down go to the other link of its pair, ahead of new ones, or back to the router slice. -/
def State.handOver (s : State) (p v : Nat) (ms : List (Msg × Bool)) : State :=
  let s := (ms.filter (fun x => !x.2)).foldl (fun s x => s.expire x.1) s
  let ms := (ms.filter (·.2)).map (·.1)
  match (s.mate p).filter s.linkUp with
  | some q => s.setLnk q (fun l => { l with hand := SMap.upd [] v (fun h => h ++ ms) l.hand })
  | none => ms.foldl State.reroute s

/-- R370, R368: the link's session is over: what was received in part is dropped, and what was kept, begun or waiting is handed over.
VCs with spilled flits wait until those are read back (FAILOVER_DONE). -/
def State.failover (s : State) (p : Nat) : State :=
  let l := s.lnk p
  let ks := l.kept.zipIdx.map (fun k => (decide (k.2 < s.spilledKept p), k.1))
  let late (v : Nat) : Bool := (l.drain.flits ++ ks).any (fun k => k.1 && k.2.vc == v)
  let s := (s.wr (Csr.PORTSTAT_failover p) 1).raise Ev.FAILOVER_START 2 p
  let keepFlit (k : TxFlit) : Bool := decide (1 ≤ k.vc) && decide (k.vc ≤ 3) && late k.vc
  let s := s.setLnk p (fun x =>
    { x with kept := [], ctrlq := [], hand := [], part := [], replay := none, k := 0, uncovered := [], tagDue := false,
             held := [], rxWait := false, rrDue := false, rxPart := [], lpiReq := false, sleepReq := false, sleepWant := false, greet := false,
             drain := { x.drain with flits := x.drain.flits ++ ks.filter (fun k => keepFlit k.2) },
             buf := x.buf.map (fun (kv : Nat × List RxFlit) => (kv.1, kv.2.map (fun (f : RxFlit) => { f with more := false }))) })
  [1, 2, 3].foldl (fun s v =>
    let q := s.txQueue p v
    let s := s.setTxQueue p v []
    let kept := l.kept.filter (fun k => k.vc == v)
    let hand := SMap.get [] v l.hand
    let begun := if SMap.get 0 v l.part = 0 then [] else hand.take 1
    let rest := if SMap.get 0 v l.part = 0 then hand else hand.drop 1
    let s := if late v then s.setLnk p (fun x => { x with drain := { x.drain with waiting := SMap.upd [] v (· ++ rest ++ q) x.drain.waiting } })
      else s.handOver p v (handMsgs s.stamp kept ++ (rest ++ q).map (fun m => (m, true)))
    if begun.any (fun m => !kept.any (fun k => k.msgs.any (fun x => x == m))) ∧ !late v then
      s.handOver p v (begun.map (fun m => (m, true))) else s) s

/-- Members that a port serves. -/
def State.membersAt (s : State) (p : Nat) : List Nat :=
  (List.range 1024).filter (fun i =>
    s.on (Csr.MEMBER_valid i) && s.on (Csr.MEMBER_rd i) && s.rd (Csr.MEMBER_src_node i) == s.nodeId
      && (s.pairOf p).contains (s.rd (Csr.MEMBER_src_port i)))

/-- R445: the SPDM session of a port ends. -/
def State.spdmEnd (s : State) (p : Nat) : State :=
  let had := s.rd (Csr.PORTSEC_spdm p) == 2
  let s := (s.wr (Csr.PORTSEC_spdm p) 0).wr (Csr.PORTSEC_secured p) 0
  let s := ((s.wr (Csr.PORTSEC_domain p) 0).wr (Csr.PORTSEC_generation p) 0).wr (Csr.PORTSTAT_secured p) 0
  let s := s.setLnk p (fun l => { l with encTx := none, encRx := none, rxGen := 0, genStart := 0, rxFrom := 0, frag := [] })
  let s := { s with sec := { s.sec with sessions := s.sec.sessions.filter (fun (x : Session) => x.port != p) } }
  if had then s.raise Ev.SPDM_SESSION_END 2 p p else s

/-- The session of the link ends (R338, R366): the pair is told and its messages are handed over. -/
def State.linkFall (s : State) (p : Nat) : State :=
  if s.on (Csr.PEERINFO_valid p) then
    let s := (s.wr (Csr.PEERINFO_valid p) 0).raise Ev.LINK_DOWN 2 p
    let s := s.count (linkCtr p 9)
    let s := match (s.mate p).filter s.linkUp with
      | some q => s.ctrl q [(0, 1, 6), (1, 1, p)]
      | none => s
    (s.failover p).retain p
  else s

/-- The link goes down: its session ends, and partners with no path left are lost (R326). -/
def State.linkDown (s : State) (p : Nat) : State :=
  if s.on (Csr.PEERINFO_valid p) then
    let s := s.linkFall p
    if (s.pairOf p).any s.linkUp ∨ s.ringPort p then s else (s.membersAt p).foldl State.agentLost s
  else s

/-- The link enters SEARCHING (R339). -/
def State.linkSearch (s : State) (p : Nat) : State :=
  let s := s.portTo p 1
  let s := s.linkDown p
  let s := (s.wr (Csr.SEARCHSTAT_attempts p) 0).wr (Csr.SEARCHSTAT_next_ms p) 0
  s.raise Ev.LINK_SEARCHING 2 p

/-- The link enters DISABLED; its SPDM session ends (R445). -/
def State.linkDisable (s : State) (p : Nat) : State :=
  if s.link p = 0 then s else
    let s := s.portTo p 0
    (s.linkDown p).spdmEnd p

/-- PORTCTL.enable was written (Table 12-3). -/
def State.linkEnable (s : State) (p : Nat) : State :=
  if !s.on (Csr.PORTCTL_enable p) then s.linkDisable p
  else if s.link p = 0 ∧ !s.board.unwatched.contains p ∧ !s.board.unwatched.contains (8 + p) then s.linkSearch p else s

/-- The link enters RETRAIN; one of a pair is down (R366). -/
def State.linkRetrain (s : State) (p : Nat) : State :=
  let s := (s.portTo p 6).raise Ev.LINK_RETRAIN 2 p
  if (s.mate p).isSome then s.linkDown p else s

/-- R337: whether the trained lanes make a width, and which: narrow, and half B. -/
def State.laneWidth (s : State) (p tx rx : Nat) : Option (Bool × Bool) :=
  let ok := tx % 256 &&& rx % 256
  if ok = 255 then some (false, false)
  else if !s.on (Csr.PORTCTL_narrow_ok p) then none
  else if ok % 16 = 15 then some (true, false)
  else if ok / 16 = 15 then some (true, true)
  else none

/-- The lanes as training left them. -/
def State.setLanes (s : State) (p tx rx : Nat) (w : Bool × Bool) : State :=
  let s := (s.wr (Csr.LANESTAT_tx_ok p) tx).wr (Csr.LANESTAT_rx_ok p) rx
  let s := (s.wr (Csr.PORTSTAT_narrow p) (if w.1 then 1 else 0)).wr (Csr.PORTSTAT_half p) (if w.2 then 1 else 0)
  let s := if tx % 16 = 15 then s.wr (Csr.PORTSTAT_laser_a_low p) 0 else s
  if tx / 16 % 16 = 15 then s.wr (Csr.PORTSTAT_laser_b_low p) 0 else s

/-- R344: the link opens a session: the next session number, every count from zero. -/
def State.openSession (s : State) (p : Nat) (w : Bool × Bool) : State :=
  let s := (s.wr (Csr.PORTSTAT_sess p) ((s.rd (Csr.PORTSTAT_sess p) + 1) % 16)).portTo p 3
  let s := (s.wr (Csr.PEERINFO_valid p) 1).wr (Csr.PORTSTAT_peer_mismatch p) 0
  let s := (s.wr (Csr.PORTSTAT_tx_xoff p) 0).wr (Csr.SEARCHSTAT_next_ms p) 0
  let s := s.setLnk p (fun l =>
    { l with txNext := 0, txVc := [], kept := [], part := [], replay := none, k := 0, uncovered := [], tagDue := false, rxNext := 0, rxWait := false,
             rrDue := false, held := [], tagFail := (0, 0), done := [], stale := l.buf.map (fun q => (q.1, q.2.length)), rxPart := [], greet := true,
             sleepWant := false, encTx := none, encRx := none, genStart := 0, rxFrom := 0 })
  let s := s.raise Ev.LINK_UP 2 p
  let s := if w.1 then s.raise Ev.LINK_NARROW 2 p else s
  let s := match (s.mate p).filter s.linkUp with
    | some q => s.ctrl q [(0, 1, 6), (1, 1, p + 8)]
    | none => s
  s.retryWaiting

/-- R339: the wait in ms after attempt `n`. -/
def searchWait (n : Nat) : Nat := if n = 0 then 0 else if n ≤ 10 then 2 ^ (n - 1) else 1000

/-! ### The receiver (R342, R348, R355 to R357, R363) -/

/-- Header of a flit (Table 12-4). -/
def flitHdr (b : List Nat) : Nat := ofLeBytes (b.take 8)

/-- Payload of a flit. -/
def flitBody (b : List Nat) : List Nat := (b.drop 8).take 240

/-- R342: the check value of a flit whose direction has link fold `f`, or of an INIT. -/
def flitCrc (b : List Nat) (f : Option Nat) : Nat := crcFinal 2 (crcUpdate 2 (crcSeed 2 (crcInit 2) f) (b.take 248))

/-- R342: the flit is of the type, passes its check and belongs to the sender's session. -/
def State.flitOk (s : State) (p type : Nat) (b : List Nat) (fec : Bool) : Bool :=
  let h := flitHdr b
  let l := s.lnk p
  let fold := if type = 5 then none else some (l.peerNonce % 2 ^ 32 + l.nonce % 2 ^ 32 * 2 ^ 32)
  !fec && b.length == 256 && bitsOf h 0 3 == type && !bitOf h 7 && !bitOf h 35 && bitsOf h 56 8 == 0
  && (if type = 1 then bitsOf h 3 2 != 0 else bitsOf h 3 2 == 0)
  && ofLeBytes (b.drop 248) == flitCrc b fold
  && (type == 5 || bitsOf h 36 4 == l.peerSess)

/-- R335: what the lanes' decoders count. -/
def State.fecCounts (s : State) (p : Nat) (fec : Bool) (ser : List Nat) : State :=
  let s := ser.zipIdx.foldl (fun s x => if x.2 < 8 then s.count (laneCtr p x.2) x.1 else s) s
  if fec then s.count (linkCtr p 5) else s

/-- Table 12-7: a discarded flit, one that is ahead, or a NULL or REPLAY_REQ with another number. -/
def State.rxGap (s : State) (p : Nat) : State :=
  let l := s.lnk p
  if !l.rxWait then s.setLnk p (fun l => { l with rxWait := true, rrDue := true })
  else if s.rd (Csr.LINKTMR_rr_hold_ns p) ≤ subMod s.stamp l.rrLast 64 then s.setLnk p (fun l => { l with rrDue := true })
  else s

/-- R342: a flit that is discarded without using any field. -/
def State.flitDiscard (s : State) (p : Nat) : State := (s.count (linkCtr p 2)).rxGap p

/-- Flits of VC `v` (1 to 3) held, and its guaranteed and largest counts. -/
def State.occ (s : State) (p v : Nat) : Nat := s.rd (Csr.RXCAP_occ p (v - 1))
def State.vcMin (s : State) (p v : Nat) : Nat := s.rd (Csr.RXCAP_min p (v - 1))
def State.vcMax (s : State) (p v : Nat) : Nat := s.rd (Csr.RXCAP_max p (v - 1))

/-- R355: slots of the shared pool, and those that the VCs use beyond their guaranteed ones. -/
def State.poolSize (s : State) (p : Nat) : Nat := 6080 - ([1, 2, 3].map (s.vcMin p)).sum
def State.poolUsed (s : State) (p : Nat) : Nat := ([1, 2, 3].map (fun v => s.occ p v - s.vcMin p v)).sum

/-- R355: a DATA flit of VC `v` finds a slot. -/
def State.slotFor (s : State) (p v : Nat) : Bool :=
  decide (s.occ p v < s.vcMin p v) || decide (s.poolUsed p < s.poolSize p + 2048)

/-- R356: the XOFF bits follow the receive buffer. -/
def State.xoffLevel (s : State) (p : Nat) : State :=
  let room := s.poolSize p - s.poolUsed p
  let old := s.rd (Csr.PORTSTAT_rx_xoff p)
  let bit (v : Nat) : Bool :=
    let o := s.occ p v
    let hy := s.rd (Csr.RXCAP_xon_hyst p (v - 1))
    decide (s.vcMax p v ≤ o) || (decide (s.vcMin p v ≤ o) && room == 0)
    || (bitOf old (v - 1) && !(decide (o + hy < s.vcMax p v) && (decide (o < s.vcMin p v) || decide (hy ≤ room))))
  s.wr (Csr.PORTSTAT_rx_xoff p) (([1, 2, 3].map (fun v => if bit v then 2 ^ (v - 1) else 0)).sum)

/-- R375: the units of a payload: how many messages end in it, and the units still to come of the one in progress. -/
def units : Nat → List Nat → Nat → Nat × Nat
  | 0, _, rem => (0, rem)
  | n + 1, b, rem =>
    let h := ofLeBytes (b.take 8)
    let rem' := if rem = 0 then (if h % 256 = 0 then 0 else 1 + bitsOf h 8 9) else rem - 1
    let (e, r) := units n (b.drop 16) rem'
    (e + (if rem ≠ 0 ∧ rem' = 0 then 1 else 0), r)

/-- R351: flits of VC `v` whose messages have all left are delivered; one of an earlier session counts no more. -/
def State.deliver (s : State) (p v : Nat) : State :=
  let q := SMap.get [] v (s.lnk p).buf
  let n := (q.takeWhile (fun f => f.ends == 0 && !f.more)).length
  let old := SMap.get 0 v (s.lnk p).stale
  let s := s.setLnk p (fun l =>
    { l with buf := SMap.put [] v (q.drop n) l.buf, done := SMap.upd 0 v (· + (n - old)) l.done, stale := SMap.put 0 v (old - n) l.stale })
  (s.wr (Csr.RXCAP_occ p (v - 1)) (s.occ p v - n)).xoffLevel p

/-- A message of VC `v` leaves the receive buffer of port `p`. -/
def State.consume (s : State) (p v : Nat) : State :=
  let q := SMap.get [] v (s.lnk p).buf
  if q.any (fun f => f.ends != 0) then
    let before := (q.takeWhile (fun f => f.ends == 0)).map (fun (f : RxFlit) => { f with more := false })
    let rest := match q.dropWhile (fun f => f.ends == 0) with
      | f :: t => { f with ends := f.ends - 1 } :: t
      | [] => []
    (s.setLnk p (fun l => { l with buf := SMap.put [] v (before ++ rest) l.buf })).deliver p v
  else s

/-- A flit is accepted in order; the control message of a CTRL flit is handed on. -/
def State.rxAccept (s : State) (p : Nat) (f : RxFlit) : List (List Nat) × State :=
  let s := s.setLnk p (fun l => { l with rxNext := l.rxNext + 1, rxWait := false, overrun := false })
  let s := s.count (linkCtr p 1)
  if f.vc = 0 then ([f.ctrl], s.setLnk p (fun l => { l with done := SMap.upd 0 0 (· + 1) l.done }))
  else if f.vc = 4 then ([], s)
  else
    let (e, r) := units 15 f.ctrl (SMap.get 0 f.vc (s.lnk p).rxPart)
    let g : RxFlit := { f with ctrl := [], ends := e, more := r != 0 }
    let s := s.setLnk p (fun l => { l with rxPart := SMap.put 0 f.vc r l.rxPart, buf := SMap.upd [] f.vc (fun q => q ++ [g]) l.buf })
    ([], (s.wr (Csr.RXCAP_occ p (f.vc - 1)) (s.occ p f.vc + 1)).deliver p f.vc)

/-- Accepts flits one after another. -/
def State.rxAcceptAll (s : State) (p : Nat) : List RxFlit → List (List Nat) × State
  | [] => ([], s)
  | f :: t =>
    let (a, s) := s.rxAccept p f
    let (b, s) := s.rxAcceptAll p t
    (a ++ b, s)

/-- The number of the next flit expected, counting flits held for their TAG. -/
def State.rxExpect (s : State) (p : Nat) : Nat := ((s.lnk p).rxNext + (s.lnk p).held.length) % 4096

/-- R340, R478: SLEEP is allowed. -/
def State.sleepOn (s : State) (p : Nat) : Bool := s.on (Csr.LINKPWR_sleep_en p) && s.rd Csr.PWRPOL_link_policy == 0

/-- R340: an end that woke its link for SLEEP proposes it once no flit is retained; it gives up when something waits to be sent. -/
def State.sleepAsk (s : State) (p : Nat) : State :=
  let l := s.lnk p
  if !l.sleepWant then s
  else if !s.nothingWaits p || !s.sleepOn p then s.setLnk p (fun l => { l with sleepWant := false })
  else if l.kept.isEmpty then (s.setLnk p (fun l => { l with sleepWant := false, sleepReq := true })).ctrl p [(0, 1, 4)]
  else s

/-- R346, R351, R356: the header fields that every flit which passes R342 carries. -/
def State.flitFields (s : State) (p h : Nat) : State :=
  let s := (s.wr (Csr.PORTSTAT_tx_xoff p) (bitsOf h 32 3)).setLnk p (fun l => { l with greet := false })
  let s := if bitOf h 6 then s.ackFlits p (bitsOf h 20 12) else s
  (s.dlvFlits p (bitsOf h 40 2) (bitsOf h 42 14)).sleepAsk p

/-- The link carries flits. -/
def State.flitsRun (s : State) (p : Nat) : Bool := s.link p == 3

/-- R445: the export master secret of a port's SPDM session. -/
def State.emsAt (s : State) (p : Nat) : Nat := ((s.sec.sessions.find? (fun x => x.port == p)).map (·.ems)).getD 0

/-- R446, R448: the key and IV base of the flit with extended sequence number `ext` that port `p`'s peer sent. -/
def State.rxKey (s : State) (p ext : Nat) : Nat × Nat :=
  let l := s.lnk p
  let g := if ext < l.rxFrom then (l.rxGen + 255) % 256 else l.rxGen
  (flitKey (s.emsAt p) l.peerNonce l.nonce g, flitIvBase (s.emsAt p) l.peerNonce l.nonce g)

/-- R361, R447: the plaintext of a flit's payload. -/
def State.flitPlain (s : State) (p ext : Nat) (b : List Nat) : List Nat :=
  if bitOf (flitHdr b) 5 then
    let k := s.rxKey p ext
    ctrCrypt k.1 (flitIv k.2 ext) (flitBody b)
  else flitBody b

/-- R447: the tag over the flits that port `p` holds: it covers their extended sequence numbers, VCs and ciphertexts. -/
def State.heldTag (s : State) (p : Nat) : List Nat :=
  let l := s.lnk p
  let k := s.rxKey p l.rxNext
  flitTag k.1 k.2 (l.held.zipIdx.map (fun f => (l.rxNext + f.2, f.1.vc, ctrCrypt k.1 (flitIv k.2 (l.rxNext + f.2)) f.1.ctrl)))

/-- Table 12-7: a sequenced DATA or CTRL flit; the control messages it makes deliverable. -/
def State.flitSeq (s : State) (p type : Nat) (b : List Nat) (fec : Bool) (ser : List Nat) : List (List Nat) × State :=
  if !s.flitsRun p then ([], s)
  else
    let s := s.fecCounts p fec ser
    if !s.flitOk p type b fec then ([], s.flitDiscard p)
    else
      let h := flitHdr b
      let s := s.flitFields p h
      let e := s.rxExpect p
      let q := bitsOf h 8 12
      let l := s.lnk p
      if q = e then
        let vc := if type = 1 then bitsOf h 3 2 else 0
        let f : RxFlit := ⟨q, vc, s.flitPlain p (l.rxNext + l.held.length) b, 0, false⟩
        if vc ≠ 0 ∧ !s.slotFor p vc then
          let s := s.count (linkCtr p 7)
          ([], if l.overrun then s else (s.raise Ev.RX_OVERRUN 2 p).setLnk p (fun l => { l with overrun := true }))
        else if bitOf h 5 then ([], s.setLnk p (fun l => { l with held := l.held ++ [f], rxWait := false }))
        else s.rxAccept p f
      else if subMod q e 12 < 2048 then ([], s.rxGap p)
      else ([], if l.rxWait then s.rxGap p else s)

/-- R343: a NULL flit, or the header of a REPLAY_REQ. -/
def State.flitNull (s : State) (p type : Nat) (b : List Nat) (fec : Bool) (ser : List Nat) : Bool × State :=
  if !s.flitsRun p then (false, s)
  else
    let s := s.fecCounts p fec ser
    if !s.flitOk p type b fec then (false, s.flitDiscard p)
    else
      let h := flitHdr b
      let s := s.flitFields p h
      (true, if bitsOf h 8 12 ≠ s.rxExpect p ∨ (s.lnk p).rxWait then s.rxGap p else s)

/-- R363: a TAG flit: the flits it covers are accepted together, or discarded with it. -/
def State.flitTag (s : State) (p : Nat) (b : List Nat) (fec : Bool) (ser : List Nat) : List (List Nat) × State :=
  if !s.flitsRun p then ([], s)
  else
    let s := s.fecCounts p fec ser
    if !s.flitOk p 3 b fec then ([], s.flitDiscard p)
    else
      let h := flitHdr b
      let s := s.flitFields p h
      let e := s.rxExpect p
      let q := bitsOf h 8 12
      let l := s.lnk p
      if q = e then
        let y := s.flitPlain p (l.rxNext + l.held.length) b
        let first := bitsOf (ofLeBytes (y.take 2)) 0 12
        let covers := l.held.length == y.getD 2 0 && l.held.length != 0 && (l.held.head?.map (·.seq)) == some first
        if covers && (y.drop 4).take 16 == s.heldTag p then
          (s.setLnk p (fun l => { l with held := [], tagFail := (0, 0) })).rxAcceptAll p (l.held ++ [⟨q, 4, [], 0, false⟩])
        else
          let n := if l.tagFail.1 = first then l.tagFail.2 + 1 else 1
          let s := (s.count (linkCtr p 8)).raise Ev.TAG_FAIL 2 p
          let s := (s.setLnk p (fun l => { l with held := [], tagFail := (first, n) })).rxGap p
          ([], if 3 ≤ n then (s.setLnk p (fun l => { l with tagFail := (0, 0) })).linkRetrain p else s)
      else if subMod q e 12 < 2048 then ([], s.rxGap p)
      else ([], if l.rxWait then s.rxGap p else s)

/-! ### Replay (R350) -/

/-- A replay begins at extended number `x`; past the limit the link retrains. -/
def State.replayFrom (s : State) (p x : Nat) : State :=
  let s := s.count (linkCtr p 3)
  let s := s.setLnk p (fun l => { l with replay := (l.kept.find? (fun k => decide (x ≤ k.ext))).map (·.ext), k := l.k + 1 })
  if s.rd (Csr.LINKTMR_replay_limit p) < (s.lnk p).k then (s.setLnk p (fun l => { l with replay := none, k := 0 })).linkRetrain p else s

/-- The oldest unacknowledged flit. -/
def Link.oldest (l : Link) : Option TxFlit := l.kept.find? (fun k => !k.acked)

/-- Table 12-8: a REPLAY_REQ whose header has been used; its ack names the flit before the one to resend. -/
def State.replayReq (s : State) (p : Nat) : State :=
  let l := s.lnk p
  match l.oldest with
  | none => s
  | some u =>
    match l.replay with
    | none => s.replayFrom p u.ext
    | some _ =>
      if u.again.any (fun t => decide (subMod s.stamp t 64 ≤ s.rd (Csr.LINKRTT_rtt_ns p))) then s else s.replayFrom p u.ext

/-- REPLAY_TIMER_EXPIRE. -/
def State.replayTimer (s : State) (p : Nat) : State :=
  let l := s.lnk p
  match l.oldest, l.replay with
  | some u, none => if s.flitsRun p then s.replayFrom p u.ext else s
  | _, _ => s

/-! ### The transmitter (R345, R358 to R362) -/

/-- What fills a payload of `n` bytes from the messages `q`, of which `d` bytes of the first are sent: the messages that begin in
it, those left, and the bytes sent of the first of them. -/
def packFlit : Nat → Nat → List Msg → Nat → List Msg × List Msg × Nat
  | 0, _, q, d => ([], q, d)
  | _ + 1, _, [], _ => ([], [], 0)
  | fuel + 1, n, m :: q, d =>
    let left := m.bytes - d
    let begun := if d = 0 then [m] else []
    if left ≤ n then
      if left = n then (begun, q, 0)
      else
        let (a, b, c) := packFlit fuel (n - left) q 0
        (begun ++ a, b, c)
    else (begun, m :: q, d + n)

/-- What VC `v` has to send: messages handed over, then new ones. -/
def State.toSend (s : State) (p v : Nat) : List Msg := SMap.get [] v (s.lnk p).hand ++ s.txQueue p v

/-- R360: the VC that sends DATA next: VC1 to VC3 in rotation, not stopped. -/
def State.nextVc (s : State) (p : Nat) : Option Nat :=
  let r := (s.lnk p).rot
  ((List.range 3).map (fun i => (r + i) % 3 + 1)).find? (fun v => s.toSend p v != [] && !s.bit (Csr.PORTSTAT_tx_xoff p) (v - 1))

/-- The bytes of VC `v`'s stream after `d` bytes of the first message, as a payload (R375). -/
def streamBody (q : List Msg) (d : Nat) : List Nat :=
  let b := (((q.take 9).flatMap Msg.image).drop d).take 240
  b ++ List.replicate (240 - b.length) 0

/-- R446, R448: the key and IV base of the flit with extended sequence number `x` that port `p` sends. -/
def State.txKey (s : State) (p x : Nat) : Nat × Nat :=
  let l := s.lnk p
  let g := s.rd (Csr.PORTSEC_generation p)
  let g := if x < l.genStart then (g + 255) % 256 else g
  (flitKey (s.emsAt p) l.nonce l.peerNonce g, flitIvBase (s.emsAt p) l.nonce l.peerNonce g)

/-- R361, R447: the ciphertext of a payload. -/
def State.txCrypt (s : State) (p x : Nat) (body : List Nat) : List Nat :=
  let k := s.txKey p x
  ctrCrypt k.1 (flitIv k.2 x) body

/-- R362, R447: the payload of the TAG over the flits sent since the last one. -/
def State.tagBody (s : State) (p : Nat) : List Nat :=
  let l := s.lnk p
  let first := l.uncovered.headD 0
  let k := s.txKey p first
  let fs := (l.kept.filter (fun f => l.uncovered.contains f.ext)).map (fun f => (f.ext, f.vc, s.txCrypt p f.ext f.body))
  ctrlBytes [(0, 2, first % 4096), (2, 1, l.uncovered.length), (4, 16, ofLeBytes (Machine.flitTag k.1 k.2 fs))]

/-- The header of a flit (Table 12-4). -/
def FlitOut.header (f : FlitOut) : Nat :=
  f.type + f.vc * 2 ^ 3 + f.enc.toNat * 2 ^ 5 + f.ackV.toNat * 2 ^ 6 + f.seq * 2 ^ 8 + f.ack * 2 ^ 20 + f.xoff * 2 ^ 32 + f.sess * 2 ^ 36
    + f.dlvVc * 2 ^ 40 + f.dlv * 2 ^ 42

/-- R341, R342: the 256 bytes of a flit with this payload, under a link fold or none. -/
def FlitOut.bytes (f : FlitOut) (sent : List Nat) (fold : Option Nat) : List Nat :=
  let b := leBytes 8 f.header ++ sent
  b ++ leBytes 8 (flitCrc b fold)

/-- The flit that goes on the lanes, with the header fields current now (R349). -/
def State.putFlit (s : State) (p type vc x : Nat) (enc : Bool) (body : List Nat) (ms : List Msg) : State :=
  let l := s.lnk p
  let d := l.dlvRot
  let f : FlitOut :=
    { type := type, vc := vc, enc := enc, seq := x % 4096, ackV := l.rxNext != 0, ack := (l.rxNext + 4095) % 4096,
      xoff := s.rd (Csr.PORTSTAT_rx_xoff p), sess := s.rd (Csr.PORTSTAT_sess p), dlvVc := d, dlv := SMap.get 0 d l.done % 16384,
      body := body, msgs := ms, raw := [] }
  let raw := f.bytes (if enc then s.txCrypt p x body else body) (some (l.nonce % 2 ^ 32 + l.peerNonce % 2 ^ 32 * 2 ^ 32))
  s.setLnk p (fun l => { l with last := some { f with raw := raw }, dlvRot := (d + 1) % 4 })

/-- A payload of zeros (Table 12-5). -/
def noBody : List Nat := List.replicate 240 0

/-- The flit with extended number `x` is encrypted (R361, R445). -/
def Link.encFrom (l : Link) (x : Nat) : Bool :=
  match l.encTx with
  | some y => decide (y ≤ x)
  | none => false

/-- A new sequenced flit: 0 CTRL, 1 to 3 DATA, 4 TAG. -/
def State.newFlit (s : State) (p vc : Nat) (body : List Nat) (ms : List Msg) (cont : Bool) : State :=
  let l := s.lnk p
  let x := l.txNext
  let enc := l.encFrom x
  let nth := SMap.get 0 vc l.txVc
  let k : TxFlit := ⟨x, vc, nth, body, ms, s.stamp, false, false, cont, none⟩
  let s := s.setLnk p (fun l =>
    { l with txNext := x + 1, txVc := SMap.put 0 vc (nth + 1) l.txVc, kept := l.kept ++ [k],
             uncovered := if vc = 4 then [] else if enc then l.uncovered ++ [x] else l.uncovered,
             tagDue := if vc = 4 then false else l.tagDue })
  let s := s.wr (Csr.PORTSEC_tx_seq_hi p) ((x + 1) / 65536)
  let s := s.count (linkCtr p 0)
  (s.putFlit p (if vc = 0 then 2 else if vc = 4 then 3 else 1) (if vc = 4 then 0 else vc) x enc body ms).retain p

/-- R344: the hold time of an ECHO_RSP is known when it is sent: bytes 23:16 hold the stamp at which the ECHO arrived. -/
def State.echoHold (s : State) (c : List Nat) : List Nat :=
  if c.getD 0 0 = 8 then c.take 16 ++ leBytes 8 (subMod s.stamp (ofLeBytes ((c.drop 16).take 8)) 64) ++ c.drop 24 else c

/-- R340: both ends enter LPI, or SLEEP, once the accepting acknowledgement is sent. -/
def State.afterCtrl (s : State) (p : Nat) (c : List Nat) : State :=
  if c.getD 0 0 = 3 ∧ c.getD 1 0 % 2 = 1 then s.portTo p 4
  else if c.getD 0 0 = 5 ∧ c.getD 1 0 % 2 = 1 then s.portTo p 5
  else s

/-- SECSTAT.state: 3 SEALED. In SEALED a port that is not secured carries CTRL flits only (R442). -/
def State.dataHeld (s : State) (p : Nat) : Bool := s.rd Csr.SECSTAT_state == 3 && !s.on (Csr.PORTSEC_secured p)

/-- FLIT_SLOT: R360, the first of its cases that applies. -/
def State.flitSlot (s : State) (p : Nat) : State :=
  if !s.flitsRun p then s
  else
    let l := s.lnk p
    match l.replay.bind (fun x => l.kept.find? (fun k => decide (x ≤ k.ext))) with
    | some k =>
      let next := (l.kept.find? (fun j => decide (k.ext < j.ext))).map (·.ext)
      let s := s.setLnk p (fun l =>
        { l with replay := next, kept := l.kept.map (fun (j : TxFlit) => if j.ext = k.ext then { j with again := some s.stamp } else j) })
      let s := s.count (linkCtr p 0)
      s.putFlit p (if k.vc = 0 then 2 else if k.vc = 4 then 3 else 1) (if k.vc = 4 then 0 else k.vc) k.ext (l.encFrom k.ext) k.body k.msgs
    | none =>
      let s := s.setLnk p (fun l => { l with replay := none })
      if l.rrDue then
        let s := (s.setLnk p (fun l => { l with rrDue := false, rrLast := s.stamp })).count (linkCtr p 4)
        s.putFlit p 4 0 l.txNext false noBody []
      else
        let open_ := decide ((l.kept.filter (fun k => !k.acked)).length < 2048)
        let sp := s.spilledKept p
        let full := decide (32 ≤ l.uncovered.length) || (l.uncovered != [] && l.txNext + 1 == l.genStart)
        let tag := l.uncovered != [] && (full || l.tagDue)
        let vc0 := decide ((l.kept.filter (fun k => k.vc == 0 && !k.delivered)).length < s.rd (Csr.PEERINFO_vc0_slots p))
        let chip := decide (l.kept.length - sp < 4096)
        let next := if s.on (Csr.PORTSTAT_stalled p) || s.dataHeld p || full || !open_ then none else s.nextVc p
        match l.ctrlq, next with
        | c :: t, _ =>
          if open_ && vc0 && chip && !full then
            let s := s.setLnk p (fun l => { l with ctrlq := t })
            let c := s.echoHold c
            (s.newFlit p 0 c [] false).afterCtrl p c
          else tail s l tag open_ next
        | [], _ => tail s l tag open_ next
where
  /-- Cases 4 to 6: a TAG, DATA, or NULL. -/
  tail (s : State) (l : Link) (tag open_ : Bool) (next : Option Nat) : State :=
    if tag && open_ then
      s.newFlit p 4 (s.tagBody p) [] false
    else match next with
      | some v =>
        let d := SMap.get 0 v l.part
        let (ms, rest, d') := packFlit 16 240 (s.toSend p v) d
        let body := streamBody (s.toSend p v) d
        let begun := if d' = 0 then [] else rest.take 1
        let rest' := if d' = 0 then rest else rest.drop 1
        let h := (SMap.get [] v l.hand).length
        let used := (s.toSend p v).length - rest.length
        let hand := (SMap.get [] v l.hand).drop (used + begun.length)
        let txq := rest'.drop (h - (used + begun.length))
        let s := (s.setTxQueue p v txq).setLnk p (fun l =>
          { l with hand := SMap.put [] v (begun ++ hand) l.hand, part := SMap.put 0 v d' l.part, rot := v % 3 })
        (s.fabOut.retryWaiting).newFlit p v body ms (d != 0)
      | none => s.putFlit p 0 0 l.txNext false noBody []

/-! ### Failover's end (R354, R368) -/

/-- FAILOVER_DONE: the spilled flits are read back, those at the places `lost` of the handover uncorrectably; each message with bytes in one of them
has no path. -/
def State.failoverDone (s : State) (p : Nat) (lost : List Nat) : State :=
  if !s.on (Csr.PORTSTAT_failover p) then s
  else
    let d := (s.lnk p).drain
    let ks := (d.flits.map (·.2)).zipIdx
    let bad (i : Nat) : Bool := lost.contains i && (d.flits[i]?.map (·.1)).getD false
    let s := (ks.filter (fun x => bad x.2)).foldl (fun s _ => s.raise Ev.FAILOVER_LOSS 2 p) s
    let n := s.spilledKept p
    let s := (s.setLnk p (fun x => { x with drain := ⟨[], []⟩ })).wr (Csr.RETAINSTAT_spilled p) n
    let s := [1, 2, 3].foldl (fun s v =>
      let mine := ks.filter (fun x => x.1.vc == v)
      -- a message that goes on into a lost flit is lost too
      let next (i : Nat) : Bool := ((mine.filter (fun y => decide (i < y.2))).takeWhile (fun y => y.1.cont)).any (fun y => bad y.2)
      let out := mine.flatMap (fun x =>
        let ms := handMsgs s.stamp [x.1]
        ms.zipIdx.map (fun y => (y.1, bad x.2 || (y.2 + 1 == ms.length && next x.2))))
      let s := (out.filter (·.2)).foldl (fun s y => (s.leaveWindow y.1.1).noRoute y.1.1) s
      s.handOver p v ((out.filter (fun y => !y.2)).map (·.1) ++ (SMap.get [] v d.waiting).map (fun m => (m, true)))) s
    ((s.wr (Csr.PORTSTAT_failover p) 0).raise Ev.FAILOVER_DONE 2 p).retain p

/-! ### Keys (R445, R448) -/

/-- R448: the transmit direction goes to the next generation: REKEY names the first flit under it. How far
ahead that is, is a free value (log entry 11). -/
def State.portRekey (s : State) (p : Nat) : State :=
  let g := (s.rd (Csr.PORTSEC_generation p) + 1) % 256
  let l := s.lnk p
  let (d, s) := s.drawFree 32
  let x := l.txNext + l.ctrlq.length + 1 + d
  let s := (s.wr (Csr.PORTSEC_generation p) g).setLnk p (fun l => { l with genStart := x })
  (s.ctrl p [(0, 1, 0x52), (1, 1, g), (8, 8, x)]).raise Ev.PORT_REKEY 2 p

/-- R445: the port is secured once both ends have sent ENC_START. -/
def State.secureCheck (s : State) (p : Nat) : State :=
  let l := s.lnk p
  if l.encTx.isSome && l.encRx.isSome && s.rd (Csr.PORTSEC_spdm p) == 2 then
    (s.wr (Csr.PORTSEC_secured p) 1).wr (Csr.PORTSTAT_secured p) 1
  else s

/-- R445: this end's receive keys are in place: ENC_START. -/
def State.encStart (s : State) (p : Nat) : State :=
  let l := s.lnk p
  let (d, s) := s.drawFree 32
  let x := l.txNext + l.ctrlq.length + 1 + d
  let s := s.setLnk p (fun l => { l with encTx := some x, genStart := x })
  (s.ctrl p [(0, 1, 0x51), (1, 1, s.rd (Csr.PORTSEC_generation p)), (8, 8, x)]).secureCheck p

/-- R453, PORT_END: the port's SPDM session ends and its link searches again. -/
def State.portEnd (s : State) (p : Nat) : State :=
  if s.link p = 0 then s.spdmEnd p else (s.linkDisable p).linkEnable p

end Sys2Proof.Machine
end

