-- ==== Sys2Proof/Machine/Privileged.lean ====
section
/-!
DEFINITION. The privileged group (R135, R136, R411, R413, R453, R455): CARVE, MAP, UNMAP, KEYS, COMMIT, CLAIM and SCRUB.
-/
namespace Sys2Proof.Machine

open Host

/-- The instance whose queue the program runs in (R414). -/
def Env.inst (v : Env) : Bool := rmInst v.qid

/-- R413: the issuer is the holder. -/
def Env.holds (v : Env) (s : State) : Bool := v.inst == s.rmHolder

/-- R416: a privileged instruction of the holder starts with its journal record; `args` are its operands. -/
def Env.start (v : Env) (s : State) (cmd : Nat) (args : List Nat) : State :=
  if v.holds s then s.jOpen v.r v.inst cmd args else s

/-- R135: `n` bytes of a descriptor, list or key blob, and the state after reading them: an operand of a LINEAR window, wholly in the
system region, with the right to read, and without poison; else the status that the instruction ends with. -/
def Env.sysBytes (v : Env) (s : State) (n : Nat) : Sum Nat (List Nat) × State :=
  match v.loc v.i.op 0 n false with
  | .inl st => (.inl st, s)
  | .inr l =>
    let inSys (g : Seg) : Bool :=
      !g.zero && g.addr / 2 ^ 52 == s.nodeId && (List.range (g.len / 64 + 2)).all (fun i =>
        s.region (g.addr % 2 ^ 52 + min (64 * i) (g.len - 1)) == .system)
    if (v.e.wins.getD l.win Win.unused).kind ≠ 1 ∨ !l.segs.all inSys then (.inl Sts.malformed, s)
    else if l.denied then (.inl Sts.permission, s)
    else
      let (bs, s) := l.segs.foldl (fun (a : List PByte × State) g =>
        let (b, s) := a.2.readMem Acc.sys (g.addr % 2 ^ 52) g.len
        (a.1 ++ b, s)) ([], s)
      (if anyPoison bs then .inl Sts.malformed else .inr (bs.map (·.1)), s)

/-- What was read, or nothing. -/
def readOr (x : Sum Nat (List Nat)) : List Nat := match x with
  | .inl _ => []
  | .inr b => b

/-- The read ended with a status. -/
def endsWith (x : Sum Nat (List Nat)) (st : Nat) : Bool := match x with
  | .inl y => y == st
  | .inr _ => false

/-- The pan that s[ra] names: bits 63:6 zero and no poison (Table 04-13). -/
def Env.panArg (v : Env) : Option Nat := if v.poi v.i.ra || decide (64 ≤ v.reg v.i.ra) then none else some (v.reg v.i.ra)

/-! ### KEYS (R453) -/

/-- Pan keys are installed. -/
def State.keysPut (s : State) (n source id : Nat) (ks : PanKeys) : State :=
  let s := (s.wr (Csr.PANKEY_valid n) 1).wr (Csr.PANKEY_source n) source
  let s := s.wr (Csr.PANKEY_key_id n) (id % 2 ^ 32)
  { s.setKeys (fun k => { k with pans := SMap.put PanKeys.none n ks k.pans }) with sec.keyIds := SMap.put 0 n id s.sec.keyIds }

/-- The Ticket Booth generates a pan's keys (R453), under the key_id `id`. -/
def State.keysGenerate (s : State) (n id : Nat) : State :=
  let x := s.drawFree 1024
  x.2.keysPut n 0 id ⟨x.1 % 2 ^ 512, x.1 / 2 ^ 512 % 2 ^ 512⟩

/-- A pan's keys are destroyed. -/
def State.keysDrop (s : State) (n : Nat) : State :=
  let s := ((s.wr (Csr.PANKEY_valid n) 0).wr (Csr.PANKEY_source n) 0).wr (Csr.PANKEY_key_id n) 0
  { s.setKeys (fun k => { k with pans := SMap.put PanKeys.none n PanKeys.none k.pans }) with sec.keyIds := SMap.put 0 n 0 s.sec.keyIds }

/-- KEYSCNT. -/
def State.keysCount (s : State) : State := s.count ⟨Csr.KEYSCNT_count, Csr.SECCNTSTAT_cnt_ovf, 2, Ev.SEC_COUNT_OVF, 0, 0⟩

/-- Fields of a key blob (Table 15-11). -/
def blobField (b : List Nat) (at_ n : Nat) : Nat := ofLeBytes ((b.drop at_).take n)

/-- R453: the secret whose wrap key opens a blob: the seal key, or the master secret of the tenant session that the blob names, while it
lives. -/
def State.blobSecret (s : State) (b : List Nat) : Option Nat :=
  if blobField b 1 1 = 1 then s.sec.keys.seal_
  else (s.sec.sessions.find? (fun x => x.id == blobField b 4 4 && x.mutual_ && x.root == s.sec.tenant)).map (·.ems)

/-- R453: the keys that a wrapped blob holds, if it passes its tag. -/
def State.blobKeys (s : State) (b : List Nat) : Option (Nat × Nat) := (s.blobSecret b).bind (fun x => blobOpen (wrapKey x) b)

/-- R453: the blob is well formed, names pan `n`, passes its tag, and agrees with the keys the pan holds. -/
def State.blobGood (s : State) (n : Nat) (b : List Nat) : Bool :=
  let wrap := blobField b 1 1
  blobField b 0 1 == 1 && decide (wrap ≤ 2) && blobField b 2 1 == n && blobField b 3 1 == 0 && blobField b 28 4 == 0
  && (wrap == 0 || (s.blobKeys b).isSome)
  && (!s.on (Csr.PANKEY_valid n) || SMap.get 0 n s.sec.keyIds == blobField b 8 8)

/-- R453: the keys of a blob are installed, or generated; keys that the pan holds stand. -/
def State.blobInstall (s : State) (n : Nat) (b : List Nat) : State :=
  if s.on (Csr.PANKEY_valid n) then s
  else if blobField b 1 1 = 0 then s.keysGenerate n (blobField b 8 8)
  else match s.blobKeys b with
    | some k => s.keysPut n (blobField b 1 1) (blobField b 8 8) ⟨k.1, k.2⟩
    | none => s

/-- R453: what every KEYS operation checks first, in the order of R10: its fields, what SEALED forbids (`deny`), then the holder. -/
def Env.keys (v : Env) (s : State) (op : Nat) (ok deny : Bool) (go : State → Eff) : Eff :=
  let s := v.start s 5 [op, v.reg v.i.ra, v.i.op]
  if !ok || bitsOf v.i.mod 0 3 != op then .stop Sts.malformed s
  else if deny then .stop Sts.sealedDeny s.sealDenied
  else if !v.holds s then .stop Sts.permission s
  else go s

/-- KEYS PAN_INSTALL. -/
def insnPanInstall (again : Bool) (f : Fetch) (s : State) : State :=
  s.runInsn 0xD0 f (.panInstall f) again fun v s =>
    let n := v.panArg.getD 0
    let x := if v.va v.i.op % 16 = 0 then v.sysBytes s 176 else (.inl Sts.malformed, s)
    let b := readOr x.1
    let late := endsWith x.1 Sts.permission
    v.keys x.2 0 (v.panArg.isSome && (late || s.blobGood n b)) (!late && s.isSealed && blobField b 1 1 != 2) fun s =>
      if late then .stop Sts.permission s else .ok Sts.ok v.ctx (s.blobInstall n b).keysCount

def execPanInstall (f : Fetch) (s : State) : Outcome State Fault Refusal := .next (insnPanInstall false f s)

/-- KEYS PAN_DESTROY: only of a FREE pan. -/
def insnPanDestroy (again : Bool) (f : Fetch) (s : State) : State :=
  s.runInsn 0xD0 f (.panDestroy f) again fun v s =>
    v.keys s 1 v.panArg.isSome false fun s =>
      let n := v.panArg.getD 0
      if s.panFree n then .ok Sts.ok v.ctx (s.keysDrop n).keysCount else .stop Sts.permission s

def execPanDestroy (f : Fetch) (s : State) : Outcome State Fault Refusal := .next (insnPanDestroy false f s)

/-- The port that s[ra] names. -/
def Env.portArg (v : Env) : Option Nat := if v.poi v.i.ra || decide (8 ≤ v.reg v.i.ra) then none else some (v.reg v.i.ra)

/-- KEYS PORT_REKEY. -/
def insnPortRekey (again : Bool) (f : Fetch) (s : State) : State :=
  s.runInsn 0xD0 f (.portRekey f) again fun v s =>
    let p := v.portArg.getD 0
    v.keys s 2 (v.portArg.isSome && s.on (Csr.PORTSEC_secured p)) false fun s => .ok Sts.ok v.ctx (s.portRekey p).keysCount

def execPortRekey (f : Fetch) (s : State) : Outcome State Fault Refusal := .next (insnPortRekey false f s)

/-- KEYS PORT_END. -/
def insnPortEnd (again : Bool) (f : Fetch) (s : State) : State :=
  s.runInsn 0xD0 f (.portEnd f) again fun v s =>
    v.keys s 3 v.portArg.isSome false fun s => .ok Sts.ok v.ctx (s.portEnd (v.portArg.getD 0)).keysCount

def execPortEnd (f : Fetch) (s : State) : Outcome State Fault Refusal := .next (insnPortEnd false f s)

/-! ### CARVE -/

/-- The register offsets and descriptor bytes of CARVE's images (Table 04-14). -/
def carveImages (n : Nat) (b : List Nat) : List (Nat × Nat) :=
  let o := 0x20000 + 0x100 * n
  [(o, blobField b 0 8)] ++ (List.range 4).map (fun t => (o + 0x10 + 8 * t, blobField b (8 + 8 * t) 8))
    ++ [(o + 0x50, blobField b 40 8), (o + 0x58, blobField b 48 8)]

/-- CARVE: the images of a descriptor go to the pan's shadow registers through the claim gate. -/
def insnCarve (again : Bool) (f : Fetch) (s : State) : State :=
  s.runInsn 0xC0 f (.carve f) again fun v s =>
    let n := v.panArg.getD 0
    let x := v.sysBytes s 256
    let im := carveImages n (readOr x.1)
    let s := v.start x.2 2 (n :: im.flatMap (fun x => [x.1, x.2]))
    if v.panArg.isNone || endsWith x.1 Sts.malformed then .stop Sts.malformed s
    else if s.isSealed && !s.on (Csr.PANKEY_valid n) then .stop Sts.sealedDeny s.sealDenied
    else if endsWith x.1 Sts.permission || !v.holds s then .stop Sts.permission s
    else match im.find? (fun y => (s.regWrite (.rm v.inst) y.1 y.2).1 != .done) with
      | some y => .stop Sts.permission (s.regWrite (.rm v.inst) y.1 y.2).2
      | none =>
        let free := s.rd Csr.SECSTAT_state == 0 || s.rd Csr.SECSTAT_state == 1
        let s := if free && !s.on (Csr.PANKEY_valid n) then s.keysGenerate n 0 else s
        .ok Sts.ok v.ctx (im.foldl (fun s y => (s.regWrite (.rm v.inst) y.1 y.2).2) s)

def execCarve (f : Fetch) (s : State) : Outcome State Fault Refusal := .next (insnCarve false f s)

/-! ### MAP -/

/-- One translation of a MAP: the table, made if needed, and the leaf. None is QUOTA. -/
def State.mapLeaf (s : State) (n va k addr : Nat) (rd wr : Bool) : Option State :=
  (State.makeTable n va k 4 (s.ptRoot n) s).map (fun (t, s) =>
    s.writeLeaf n va k t (pteLeaf addr rd wr false (if addr / 2 ^ 52 = s.nodeId then tierOf (addr % 2 ^ 52) else 0)))

/-- R38, R136: MAP with alloc = 1: one allocation for each page, in ascending PVA. None is QUOTA. -/
def State.mapAlloc (n va k t0 : Nat) (rd wr : Bool) : Nat → Nat → State → Option (List Alloc × State)
  | 0, _, s => some ([], s)
  | c + 1, i, s =>
    match s.placeDur n t0 (if k = 2 then 512 else 1) false with
    | none => none
    | some (a, s) =>
      match s.mapLeaf n (va + i * span k) k (s.nodeId * 2 ^ 52 + a.gran * granSize) rd wr with
      | none => none
      | some s => (State.mapAlloc n va k t0 rd wr c (i + 1) s).map (fun (as, s) => (a :: as, s))

/-- R136: MAP with alloc = 0 of the listed addresses. None is QUOTA. -/
def State.mapList (n va k : Nat) (rd wr : Bool) : List Nat → Nat → State → Option State
  | [], _, s => some s
  | a :: t, i, s =>
    match s.mapLeaf n (va + i * span k) k a rd wr with
    | none => none
    | some s => State.mapList n va k rd wr t (i + 1) s

/-- A listed address is aligned to the page, and on this node not in a hole (R27, R136). What another node's address names, that node
checks on every request (R208). -/
def State.addrFits (s : State) (k a : Nat) : Bool :=
  let l := a % 2 ^ 52
  l % span k == 0 && (a / 2 ^ 52 != s.nodeId || (s.region l != .hole && s.region (l + span k - 1) != .hole))

/-- Pan `n` owns every granule of a listed page of this node (R31). -/
def State.addrOwned (s : State) (n k a : Nat) : Bool := a / 2 ^ 52 != s.nodeId || s.ownsRange n (a % 2 ^ 52) (span k)

/-- R289: the catalogue of a durable pan records each page of this node that it maps. -/
def State.catalogue (s : State) (n k : Nat) (pages : List (Nat × Nat)) : State :=
  if s.panDurable n then
    s.setPan n (fun p => { p with durPages := p.durPages ++ (pages.filter (fun x => x.2 / 2 ^ 52 == s.nodeId)).map (fun x =>
      let g := x.2 % 2 ^ 52 / granSize
      (x.1, k, if tierOf (x.2 % 2 ^ 52) = 2 then x.2 % 2 ^ 52 else SMap.get 0 g p.backing * granSize)) })
  else s

/-- R428: the allocations of a mirrored pan are told to the twin, and so is each mapping (R425); the number of the last message. -/
def State.mapTwin (s : State) (n : Nat) (as : List Alloc) (mod x : Nat) (pages : List (Nat × Nat)) : Nat × State :=
  let s := (as.filter (fun a => a.tier == 1)).foldl (fun s a => (s.twinAlloc 0 n a.gran a.n).2) s
  pages.foldl (fun (r : Nat × State) q => r.2.twinMap n mod x q.1 q.2) (0, s)

/-- MAP (R136, R207, R289). -/
def insnMap (again : Bool) (f : Fetch) (s : State) : State :=
  s.runInsn 0xC4 f (.map f) again fun v s =>
    let k := bitsOf v.i.mod 0 2
    let alloc := v.i.m 2
    let va := v.reg v.i.rb
    let c := v.i.imm
    let x := v.i.x0
    let s := v.start s 3 [0, v.i.mod, v.reg v.i.ra, va, c, v.i.op, x]
    let pages := (List.range c).map (fun i => va + i * span k)
    let n := v.panArg.getD 0
    let list := if alloc then (.inr [], s) else v.sysBytes s (8 * c)
    let s := list.2
    let b := readOr list.1
    let as := (List.range (b.length / 8)).map (fun i => blobField b (8 * i) 8)
    let shape := v.panArg.isSome && !endsWith list.1 Sts.malformed && decide (k < 3) && !v.poi v.i.rb && va % span (min k 2) == 0
      && decide (va < 2 ^ 56) && decide (va + c * span k ≤ 2 ^ 56) && !(alloc && k == 0) && !(s.panDurable n && k == 0)
      && onlyBits x [(2, 2)] && v.i.x1 == 0 && (!alloc || v.i.op == 0)
    let ok := shape && as.all (s.addrFits k) && (s.panFree n || pages.all (fun p => !s.mapClash n p k))
    if !ok then .stop Sts.malformed s
    else if endsWith list.1 Sts.permission || !v.holds s || !s.panActive n || !as.all (s.addrOwned n k) then .stop Sts.permission s
    else
      let rd := bitOf x 2
      let wr := bitOf x 3
      let t0 := if v.i.m 5 then bitsOf v.i.mod 3 2 else s.rd (Csr.PANCTL_home_tier n)
      let done := if alloc then State.mapAlloc n va k t0 rd wr c 0 s
        else (State.mapList n va k rd wr as 0 s).map (fun s => ([], s))
      match done with
      | none => .stop Sts.quota (s.quotaRefused n)
      | some (al, s') =>
        let s' := s'.settle s n al
        let addrs := if alloc then al.map (fun a => s.nodeId * 2 ^ 52 + a.gran * granSize) else as
        let s' := s'.catalogue n k (pages.zip addrs)
        if s'.twinFollows n then
          let (q, s') := s'.mapTwin n al v.i.mod x (pages.zip (addrs.map (· % 2 ^ 52)))
          .wait (.twin q) s'
        else .wait .drain (s'.startDrain (some v.r) n [])

def execMap (f : Fetch) (s : State) : Outcome State Fault Refusal := .next (insnMap false f s)

/-! ### UNMAP -/

/-- UNMAP of the pages at `vas` at level `k`: the granules whose last leaf it removes, and the state. -/
def State.unmapAll (s : State) (n : Nat) (vas : List Nat) : List Nat × State :=
  vas.foldl (fun (a : List Nat × State) va =>
    match a.2.leafAt n va with
    | some (k, table, _, e) =>
      let gs := if pteNode e = a.2.nodeId then pageGrans k (pteAddr e) else []
      let s := a.2.writeLeaf n va k table (pteEmpty 0)
      (a.1 ++ gs.filter (fun g => (s.gran g).leaves == 0), s)
    | none => a) ([], s)

/-- UNMAP (R136, R215). -/
def insnUnmap (again : Bool) (f : Fetch) (s : State) : State :=
  s.runInsn 0xC5 f (.unmap f) again fun v s =>
    let k := bitsOf v.i.mod 0 2
    let va := v.reg v.i.rb
    let c := v.i.imm
    let s := v.start s 3 [1, v.i.mod, v.reg v.i.ra, va, c]
    let pages := (List.range c).map (fun i => va + i * span k)
    match v.panArg with
    | none => .stop Sts.malformed s
    | some n =>
      let leaf (p : Nat) : Bool := match s.leafAt n p with
        | some (j, _, _, _) => j == k
        | none => false
      let shape := decide (k < 3) && !v.poi v.i.rb && va % span (min k 2) == 0 && decide (va < 2 ^ 56) && decide (va + c * span k ≤ 2 ^ 56)
      if !shape || !(s.panFree n || pages.all leaf) then .stop Sts.malformed s
      else if !v.holds s || !s.panActive n then .stop Sts.permission s
      else
        let (gs, s) := s.unmapAll n pages
        let s := s.setPan n (fun p => { p with durPages := p.durPages.filter (fun (x : Nat × Nat × Nat) => !(x.2.1 == k && pages.contains x.1)) })
        let old := if v.i.m 2 then gs.eraseDups else []
        let s := if s.twinFollows n then (s.twinPan 2 n [(24, 1, v.i.mod), (25, 7, va), (32, 4, c)]).2 else s
        let s := s.twinRelease n old
        .wait .drain (s.startDrain (some v.r) n old)

def execUnmap (f : Fetch) (s : State) : Outcome State Fault Refusal := .next (insnUnmap false f s)

/-! ### COMMIT and CLAIM (R406, R411, R413) -/

/-- The status of a COMMIT that a block refused with a reason of Table 14-1. -/
def commitStatus (reason : Nat) : Nat := if reason = 1 then Sts.quota else if reason = 11 then Sts.sealedDeny else Sts.malformed

/-- COMMIT. -/
def insnCommit (again : Bool) (f : Fetch) (s : State) : State :=
  s.runInsn 0xE0 f (.commit f) again fun v s =>
    let x := v.reg v.i.ra
    let s := if again then s else v.start s 1 [x, v.i.mod]
    if v.poi v.i.ra || decide (2 ^ 17 ≤ x) then .stop Sts.malformed s
    else if !v.holds s then .stop Sts.permission s
    else if x ≠ s.epochNow then .stop Sts.epochStale s
    else if !s.shadowOpen then .wait .epoch s
    else
      let (r, s) := s.commit (v.i.m 0)
      if r = 0 then .ok Sts.ok (v.ctx.setReg v.i.rb s.epochNow false) s
      else .stop (commitStatus r) (if r = 11 then s.sealDenied else s)

def execCommit (f : Fetch) (s : State) : Outcome State Fault Refusal := .next (insnCommit false f s)

/-- CLAIM. -/
def insnClaim (again : Bool) (f : Fetch) (s : State) : State :=
  s.runInsn 0xE1 f (.claim f) again fun v s =>
    let e := v.reg v.i.ra
    let n := v.reg v.i.rb
    let s := s.jOpen v.r v.inst 0 [e, n]
    if v.poi v.i.ra || v.poi v.i.rb || decide (2 ^ 32 ≤ e) || decide (2 ^ 32 ≤ n) || !isNewer n e 32 then .stop Sts.malformed s
    else if s.rd Csr.CLAIMCUR_claim ≠ e then .stop Sts.permission s
    else .ok Sts.ok v.ctx (s.raiseClaim v.inst n)

def execClaim (f : Fetch) (s : State) : Outcome State Fault Refusal := .next (insnClaim false f s)

end Sys2Proof.Machine
end

