-- ==== Sys2Proof/Machine/HeapCtl.lean ====
section
/-!
DEFINITION. The heap and durable pans (chapter 10): enumeration, failure of SSDs, automatic demotion, the log and its checkpoints,
the power-fail flush and recovery.
-/
namespace Sys2Proof.Machine

open Host

/-! ### Enumeration (R280 to R282, R293, R300) -/

/-- R293: HEAPSTAT.log_limit follows the declared write rate. -/
def State.setLogLimit (s : State) : State := s.wr Csr.HEAPSTAT_log_limit (logLimit (s.rd Csr.HEAPCFG_flush_gbps))

/-- Table 10-1: the namespace that a port uses, where the device at it meets every requirement. -/
def driveSpace (d : Drive) (nsid : Nat) : Option NvmeSpace :=
  if d.nvme && decide (128 ≤ d.mdts) && decide (16 ≤ d.queues) && decide (256 ≤ d.depth) then
    d.spaces.find? (fun x => x.nsid.toNat == nsid && (x.guard16 || x.guard64) && x.type1)
  else none

/-- HEAPPORT.pi of a namespace: a 64b Guard is chosen when both are offered. -/
def spacePi (x : NvmeSpace) : Nat := if x.guard64 then 2 else 1

/-- R280 to R282: the drive that enumeration uses at port `p`. -/
def State.foundAt (s : State) (ds : List Drive) (p : Nat) : Option Found :=
  if s.bit Csr.HEAPCFG_en_mask p then
    (ds.find? (fun d => d.port.val == p)).bind (fun d =>
      (driveSpace d (s.rd (Csr.HEAPPORT_nsid p))).map (fun x => ⟨p, d.rate.val, spacePi x, x.cap.toNat, d.label⟩))
  else none

/-- R282: the layout over the drives named by port and label, each with capacity `c`; a drive of the label that is not there, or is
another, leaves its index FAILED. -/
def State.layOut (s : State) (label : List (Nat × Nat)) (c : Nat) : State :=
  let s := label.zipIdx.foldl (fun s x =>
    let p := x.1.1
    let s := s.wr (Csr.HEAPPORT_index p) x.2
    match s.heap.found.find? (fun d => d.port == p && d.label == x.1.2) with
    | some d =>
      let s := ((s.wr (Csr.HEAPPORT_state p) 2).wr (Csr.HEAPPORT_pi p) d.pi).wr (Csr.HEAPPORT_rate p) d.rate
      (s.wr (Csr.HEAPPORT_cap p) d.cap).raise Ev.HEAP_PORT_UP 4 p
    | none => s.wr (Csr.HEAPPORT_state p) 3) s
  let bad := (List.range 8).any (fun p => s.rd (Csr.HEAPPORT_state p) == 3)
  let s := (s.wr Csr.HEAPSTAT_ndrives label.length).wr Csr.HEAPSTAT_state (if bad then 3 else 2)
  let s := s.wr Csr.HEAPTOP_granules (min (label.length * c) 134217728)
  { s.setLogLimit with heap := { s.heap with label := label, c := c } }

/-- The least capacity among drives. -/
def leastCap (ds : List Found) : Nat :=
  match ds with
  | [] => 0
  | d :: t => t.foldl (fun m x => min m x.cap) d.cap

/-- R282, R300: heap enumeration. The first one labels the drives it finds. -/
def State.enumerate (s : State) (ds : List Drive) : State :=
  let s := (s.wr Csr.HEAPSTAT_state 1).wr Csr.CLKSTAT_pex_lock 1
  let s := (List.range 8).foldl (fun s p =>
    let st := if !s.bit Csr.HEAPCFG_en_mask p then 0
      else if ds.any (fun d => d.port.val == p) then (if (s.foundAt ds p).isSome then 1 else 4)
      else 0
    s.wr (Csr.HEAPPORT_state p) st) s
  let found := (List.range 8).filterMap (s.foundAt ds)
  let s : State := { s with heap := { s.heap with found := found } }
  let s := if s.heap.label = [] then s.layOut (found.map (fun d => (d.port, d.label))) (leastCap found)
    else s.layOut s.heap.label s.heap.c
  (List.range 8).foldl (fun s p => if s.rd (Csr.HEAPPORT_state p) = 1 then s.wr (Csr.HEAPPORT_state p) 4 else s) s

/-- HEAP_ENUMERATE. -/
def execHeapEnumerate (ds : List Drive) (s : State) : Outcome State Fault Refusal := .next (s.enumerate ds)

/-- R300: HEAPCMD REFORMAT, accepted only while no pan is durable. -/
def State.heapReformat (s : State) : State :=
  if (List.range 64).any (fun n => s.panDurable n && !s.panFree n) then s
  else
    let s := { s with heap := { s.heap with cat := [], area := [], label := [] } }
    s.layOut (s.heap.found.map (fun d => (d.port, d.label))) (leastCap s.heap.found)

/-! ### Failure of an SSD (R299) -/

/-- The pan has a backing granule on heap index `i`. -/
def State.backedOn (s : State) (n i : Nat) : Bool :=
  let k := s.rd Csr.HEAPSTAT_ndrives
  (s.pan n).durPages.any (fun x => (List.range (if x.2.1 = 2 then 512 else 1)).any (fun j =>
    (x.2.2 / granSize + j - tierBase 2) % k == i))

/-- A port becomes FAILED. -/
def State.heapPortFails (s : State) (p : Nat) : State :=
  let st := s.rd (Csr.HEAPPORT_state p)
  if st ≠ 2 ∧ st ≠ 1 then s
  else
    let s := ((s.wr (Csr.HEAPPORT_state p) 3).wr Csr.HEAPSTAT_state 3).raise Ev.HEAP_PORT_FAILED 4 p
    let i := s.rd (Csr.HEAPPORT_index p)
    (List.range 64).foldl (fun s n =>
      if s.panDurable n && s.backedOn n i && !s.on (Csr.PANHEAP_dur_degraded n) then
        (s.wr (Csr.PANHEAP_dur_degraded n) 1).raise Ev.DUR_DEGRADED 5 n
      else s) s

/-- HEAP_CMD_TIMEOUT. -/
def execHeapCmdTimeout (p : Fin 8) (s : State) : Outcome State Fault Refusal := .next (s.heapPortFails p.val)

/-- HEAP_CTRL_NOT_READY. -/
def execHeapCtrlNotReady (p : Fin 8) (s : State) : Outcome State Fault Refusal := .next (s.heapPortFails p.val)

/-- HEAP_LINK_DOWN. -/
def execHeapLinkDown (p : Fin 8) (s : State) : Outcome State Fault Refusal := .next (s.heapPortFails p.val)

/-! ### Automatic demotion (R286) -/

/-- The clock: the pages that a sweep takes, in order; a page whose granules have been referenced is passed once. -/
def clockTake : List (Nat × Nat × Nat) → Nat → State → List Mover × State
  | [], _, s => ([], s)
  | x :: t, want, s =>
    if want = 0 then ([], s)
    else
      let a := pteAddr x.2.2
      let gs := pageGrans x.2.1 a
      if gs.any (fun g => SMap.get false g s.dram.refs) then
        clockTake t want { s with dram := { s.dram with refs := gs.foldl (fun m g => SMap.put false g false m) s.dram.refs } }
      else
        let (r, s) := clockTake t (want - gs.length) s
        (⟨x.1, x.2.1, a⟩ :: r, s)

/-- Demotes pages one by one until one ends QUOTA, which counts as a refusal (R42): whether one did. -/
def State.demoteEach (n : Nat) : List Mover → State → Bool × State
  | [], s => (false, s)
  | m :: t, s =>
    match s.startMoves none n 2 [m] [] with
    | none => (true, s.quotaRefused n)
    | some s => State.demoteEach n t s

/-- AUTO_DEMOTE_SWEEP. -/
def State.demoteSweep (s : State) (n : Nat) : State :=
  let used := s.rd (Csr.PANUSE_used n 1)
  let low := s.rd (Csr.PANHEAP_dem_low n)
  let s := if used ≤ low then s.setPan n (fun p => { p with demWarn := false }) else s
  if !s.on (Csr.PANHEAP_auto_demote n) || !s.panActive n || decide (used ≤ s.rd (Csr.PANHEAP_dem_high n)) then s
  else
    let busy (va : Nat) : Bool := s.shoots.any (fun x => x.pan == n && x.copies.any (fun c => c.1 == va))
    let gone := (s.shoots.filter (fun x => x.pan == n)).foldl (fun k x =>
      k + ((x.copies ++ x.switched).filter (fun c => tierOf c.2.2.1 == 1 && tierOf c.2.2.2 != 1)).foldl
        (fun k c => k + (pageGrans c.2.1 c.2.2.1).length) 0) 0
    let ls := (s.leavesWhere n (fun a => tierOf a == 1)).filter (fun x => x.2.1 != 0 && !bitOf x.2.2 4 && !busy x.1)
    let hand := SMap.get 0 n s.dram.hand
    let ring := ls.filter (fun x => decide (hand ≤ x.1)) ++ ls.filter (fun x => decide (x.1 < hand))
    let (ms, s) := clockTake (ring ++ ring) (used - gone - low) s
    let s := { s with dram := { s.dram with hand := SMap.put 0 n ((ms.getLast?.map (fun m => m.va + 1)).getD hand) s.dram.hand } }
    let (q, s) := State.demoteEach n (ms.foldl (fun r m => if r.any (fun y => y.va == m.va) then r else r ++ [m]) []) s
    if q && !(s.pan n).demWarn then
      (s.setPan n (fun p => { p with demWarn := true })).raise Ev.HEAP_AUTO_DEMOTE 5 n
    else s

def execAutoDemoteSweep (n : Fin 64) (s : State) : Outcome State Fault Refusal := .next (s.demoteSweep n.val)

/-! ### The log and its checkpoints (R290 to R292) -/

/-- R291: the writes of a pan for which `p` holds have become durable; a partner's write whose lines all have is answered. -/
def State.becomeDurable (s : State) (n : Nat) (p : Undur → Bool) : State :=
  let ids := ((s.pan n).undur.filter p).filterMap (fun u => match u.owner with
    | .nx i => some i
    | _ => none)
  let s := s.setPan n (fun x => { x with undur := x.undur.filter (fun u => !p u) })
  ids.eraseDups.foldl (fun s i =>
    if s.pans.any (fun kv => kv.2.undur.any (fun u => u.owner == .nx i)) then s
    else match s.fab.durRsps.find? (fun x => x.1 == i) with
      | some x => { s with fab := { s.fab with durRsps := s.fab.durRsps.filter (fun y => y.1 != i) } }.finish x.2
      | none => s) s

/-- LOG_BLOCK_CLOSE. -/
def execLogBlockClose (n : Fin 64) (s : State) : Outcome State Fault Refusal := .next (s.closeBlock n.val)

/-- R291: the oldest block whose ring writes were outstanding has been written to both halves. -/
def State.blockWritten (s : State) (n : Nat) : State :=
  match (s.pan n).ring.find? (fun b => !b.written) with
  | none => s
  | some b =>
    let s := s.setPan n (fun p => { p with ring := p.ring.map (fun x => if x.seq = b.seq then { x with written := true } else x) })
    s.becomeDurable n (fun u => b.lines.any (fun l => l.addr == u.line && decide (u.pos ≤ l.pos)))

/-- LOG_BLOCK_WRITTEN. -/
def execLogBlockWritten (n : Fin 64) (s : State) : Outcome State Fault Refusal := .next (s.blockWritten n.val)

/-- CHECKPOINT_ROUND: the round notes S and the dirty blocks; those on a FAILED SSD are never checkpointed (R299). -/
def State.checkpoint (s : State) (n : Nat) : State :=
  let p := s.pan n
  if !s.panDurable n || !s.panActive n || p.round.isSome then s
  else
    let bs := (p.dirty.map (·.1)).filter (fun b => !s.heapFailed (b / 512))
    s.setPan n (fun p => { p with round := some (p.seq, bs.map (fun b => (b, 0))) })

def execCheckpointRound (n : Fin 64) (s : State) : Outcome State Fault Refusal := .next (s.checkpoint n.val)

/-- The address of the pan's page that block `b` of a backing granule backs. -/
def State.backedAt (s : State) (n b : Nat) : Option Nat :=
  ((s.pan n).backing.find? (fun kv => kv.2 == b / 512)).map (fun kv => kv.1 * granSize + b % 512 * 4096)

/-- A 4 KiB heap block has been written. -/
def State.blockWrite (s : State) (b : Nat) : State :=
  (s.setGran (b / 512) (fun x => { x with written := setBit x.written (b % 512) true })).count (heapCtr 1)

/-- R292: a dirty block is copied to its backing granule. -/
def State.copyBlock (s : State) (n b : Nat) : State :=
  let s := s.setPan n (fun p => { p with dirty := SMap.put false b false p.dirty })
  let s := match s.backedAt n b with
    | some a => s.copyBytes n a (b * 4096) 4096
    | none => s
  (s.blockWrite b).count (heapCtr 4)

/-- CHECKPOINT_ROUND_DONE: every write of the round has completed. A block is copied with its latest content, which the next round's
dirty bit no longer names. While blocks on a FAILED SSD are dirty the ring drops none. -/
def State.checkpointDone (s : State) (n : Nat) : State :=
  match (s.pan n).round with
  | none => s
  | some (sq, bs) =>
    let blocks := bs.map (·.1)
    let s := blocks.foldl (fun s b => s.copyBlock n b) s
    let stuck := (s.pan n).dirty.any (fun kv => s.heapFailed (kv.1 / 512))
    let s := s.setPan n (fun p => { p with round := none, ring := if stuck then p.ring else p.ring.filter (fun b => decide (sq ≤ b.seq)) })
    let s := if (s.pan n).ring.length < s.ringBlocks n then s.setPan n (fun p => { p with logFull := false }) else s
    (s.durPos n).becomeDurable n (fun u => blocks.contains (u.line / 4096))

def execCheckpointRoundDone (n : Fin 64) (s : State) : Outcome State Fault Refusal := .next (s.checkpointDone n.val)

/-! ### Power failure (R294 to R296) -/

/-- Rakes stop at once (Table 03-8, power loss): no instruction completes and no record is written. -/
def State.haltRakes (s : State) : State :=
  let s := { s with rakes := [], waits := [], walks := [], rm := { s.rm with opened := [] } }
  let s := { s with queues := s.queues.map (fun (kv : Nat × Queue) =>
      (kv.1, { kv.2 with ents := kv.2.ents.filter (fun e => e.onRake.isNone) })) }
  s.dropRegs (fun o => match Csr.find o with
    | some r => r.name == "RAKESTAT"
    | none => false)

/-- PWRFAIL_ASSERT. During a tenant switch no ring is flushed (R457). -/
def State.pwrFail (s : State) : State :=
  if s.board.flush ≠ 0 ∨ !s.board.main then s
  else
    let s := s.raise Ev.DUR_FLUSH_START 0 0
    let s := if s.heap.cat = [] then { s with heap := { s.heap with lastFlush := 0 } } else s
    let s := { s.haltRakes with board := { s.board with flush := 1, reset := none } }
    (List.range 64).foldl (fun s n => s.closeBlock n) s

def execPwrfailAssert (s : State) : Outcome State Fault Refusal := .next s.pwrFail

/-- The blocks that a flush writes: each durable pan's live blocks, in seq order. -/
def State.liveBlocks (s : State) : List (Nat × List LogBlock) :=
  if s.rd Csr.SECSTAT_state = 2 then []
  else (List.range 64).filterMap (fun n =>
    if s.panDurable n && !s.panFree n && (s.pan n).ring != [] then some (n, (s.pan n).ring) else none)

/-- DUR_FLUSH_DONE: the last FUA has completed and the marker is written. What the log area holds of pans that are not yet recovered stays
(R296). -/
def State.flushDone (s : State) : State :=
  if s.board.flush ≠ 1 then s
  else
    let s := { s with board := { s.board with flush := 2 } }
    let waits (n : Nat) : Bool := s.heap.cat.any (fun c => c.pan == n)
    let s : State := { s with heap := { s.heap with area := s.heap.area.filter (fun (x : Nat × List LogBlock) => waits x.1) ++ s.liveBlocks } }
    let f := if s.heap.lastFlush = 2 then 2 else 1
    let s := { s with heap := { s.heap with lastFlush := f } }
    (s.wr Csr.DURSTAT_last_flush f).raise Ev.DUR_FLUSH_DONE 0 0

/-- DUR_FLUSH_LATE. -/
def State.flushLate (s : State) : State :=
  if s.board.flush ≠ 1 ∨ s.heap.lastFlush = 2 then s
  else ({ s with heap := { s.heap with lastFlush := 2 } }.wr Csr.DURSTAT_last_flush 2).raise Ev.DUR_FLUSH_LATE 0 0

/-! ### Recovery (R297, R298) -/

/-- RWS fields of pan `n`'s registers. -/
def panFlds (n : Nat) : List Fld :=
  (List.range 32).flatMap (fun i =>
    let o := 0x20000 + 0x100 * n + 8 * i
    match Csr.find o with
    | some r => (r.fields.filter (fun f => f.acc == .rws)).map (fun f => f.fld o)
    | none => [])

/-- R289: the catalogue's record of a durable pan. -/
def State.catPan (s : State) (n : Nat) : CatPan :=
  ⟨n, (panFlds n).zipIdx.map (fun x => (x.2, s.rd x.1)), (s.pan n).durPages, SMap.get 0 n s.sec.keyIds, (SMap.get PanKeys.none n s.sec.keys.pans).heap⟩

/-- The catalogue as the SSDs hold it. -/
def State.catalogueNow (s : State) : List CatPan :=
  s.heap.cat ++ ((List.range 64).filter (fun n => s.panDurable n && s.panActive n)).map s.catPan

/-- R297, step 4: a block is replayed onto the backing granules, poison and all. -/
def State.replayBlock (s : State) (b : LogBlock) : State :=
  b.lines.foldl (fun s l =>
    let s := (s.setBytes l.addr l.data).blockWrite (l.addr / 4096)
    [0, 1].foldl (fun s h => s.recode (l.addr / 64 + h) (bitOf l.pois h)) s) s

/-- R297, step 4: the blocks of pan `n` in the log area that are replayed, and whether a gap or a block that fails its check stops them.
Without a marker that checks there is nothing to replay. -/
def State.replayable (s : State) (n : Nat) (a : AreaRead) : List LogBlock × Bool :=
  let bs := if a.marker then ((s.heap.area.find? (fun x => x.1 == n)).map (·.2)).getD [] else []
  let first := (bs.head?.map (·.seq)).getD 0
  let read (x : LogBlock × Nat) : Option LogBlock :=
    match a.blocks.find? (fun r => r.pan.val == n && r.index == x.2) with
    | none => if x.1.seq = first + x.2 then some x.1 else none
    | some r => if r.err then none else LogBlock.parse n (first + x.2) (leBytes 4096 (ofLeBytes (x.1.bytes n) ^^^ r.flips))
  let got := (bs.zipIdx.map read).takeWhile (·.isSome)
  (got.filterMap id, decide (got.length < bs.length))

/-- R297: one durable pan is re-carved, mapped and replayed. Its leaves allow reads and writes: the catalogue records no rights (log
entry 12). -/
def State.recoverPan (s : State) (c : CatPan) (a : AreaRead) : State :=
  let n := c.pan
  let s := (panFlds n).zipIdx.foldl (fun s x =>
    let v := ((c.regs.find? (fun y => y.1 == x.2)).map (·.2)).getD x.1.rst
    (s.wrSet 0 x.1 v).wrSet 1 x.1 v) s
  let (k, s) := if s.on (Csr.PANKEY_valid n) then (0, s) else s.drawFree 512
  let s := if s.on (Csr.PANKEY_valid n) then s else s.keysPut n 1 c.key ⟨k, c.heapKey⟩
  let s := s.wr (Csr.PANSTAT_state n) 1
  let (g, s) := s.drawFree 16
  let s := { s with pans := SMap.put Pan.fresh n { Pan.fresh with spillArmed := true, gen := g } s.pans }
  let s := (s.takeRoot n (s.rd (Csr.PANQUOTA_hard n 1))).getD s
  let s := c.pages.foldl (fun s x =>
    let gs := pageGrans x.2.1 x.2.2
    let s := gs.foldl (fun s g => s.setGran g (fun y => { y with st := .owned, owner := n, spilled := false, leaves := 0,
                                                                  written := 2 ^ 512 - 1 })) s
    let s := s.chargeUse n 2 gs.length 0
    ((s.mapLeaf n x.1 x.2.1 (s.nodeId * 2 ^ 52 + x.2.2) true true).getD s)) s
  let s := s.setPan n (fun p => { p with durPages := c.pages })
  let (good, gap) := s.replayable n a
  let s := good.foldl State.replayBlock s
  let s := if gap then (s.wr (Csr.PANHEAP_dur_lost n) 1).raise Ev.DUR_RECOVERY_GAP 5 n else s
  let bad := (List.range (s.rd Csr.HEAPSTAT_ndrives)).any (fun i =>
    s.rd (Csr.HEAPPORT_state (s.heapPortOf i)) == 3 && s.backedOn n i)
  let s := if bad then s.wr (Csr.PANHEAP_dur_degraded n) 1 else s
  (s.durPos n).raise Ev.DUR_RECOVERED 5 n

/-- R297, R453: whether the pan can be recovered now: in open mode its key is unwrapped with the seal key, else the tenant has
installed it. -/
def State.recoverable (s : State) (c : CatPan) : Bool :=
  let st := s.rd Csr.SECSTAT_state
  s.on (Csr.PANKEY_valid c.pan) || ((st == 0 || st == 1) && s.on Csr.SECSTAT_seal_valid)

/-- DURSTAT.last_flush as the marker of the log area says it (Table 10-6): the flush completed, or was late; with pans to recover and no
marker the rings were lost. -/
def State.flushSeen (s : State) (a : AreaRead) : Nat :=
  if a.marker && s.heap.lastFlush != 0 then s.heap.lastFlush else if s.heap.cat = [] then 0 else 3

/-- DURABLE_RECOVERY: the pans that can be recovered are; `a` is what the log area reads as. It is cleared when every pan is
recovered. -/
def State.recover (s : State) (a : AreaRead) : State :=
  let (now, later) := s.heap.cat.partition s.recoverable
  let s := s.wr Csr.DURSTAT_last_flush (s.flushSeen a)
  let s := { s with heap := { s.heap with cat := later } }
  let s := now.foldl (fun s c => s.recoverPan c a) s
  let s := if later = [] then { s with heap := { s.heap with area := [], lastFlush := 0 } } else s
  s.wr Csr.DURSTAT_recovering (if later = [] then 0 else 1)

def execDurableRecovery (rs : AreaRead) (s : State) : Outcome State Fault Refusal := .next (s.recover rs)

/-- R298: after a hard reset each ring is replayed onto the pan's own pages. -/
def State.replayRings (s : State) : State :=
  (List.range 64).foldl (fun s n =>
    if !s.panDurable n || s.panFree n then s
    else
      ((s.pan n).ring.flatMap (·.lines)).foldl (fun s l =>
        let a := match s.backedAt n (l.addr / 4096) with
          | some x => x + l.addr % 4096
          | none => l.addr
        let s := s.setBytes a l.data
        let s := s.setPan n (fun p => { p with dirty := SMap.put false (l.addr / 4096) true p.dirty })
        [0, 1].foldl (fun s h => s.recode (a / 64 + h) (bitOf l.pois h)) s) s) s

end Sys2Proof.Machine
end

