-- ==== Sys2Proof/Machine/Reply.lean ====
section
/-!
DEFINITION. What an answer to one of the device's own requests does (R52, R80, R129, R319, R381, R385, R393, R400), and the loss
of the twin (R430).
-/
namespace Sys2Proof.Machine
open Sys2Proof Host

/-! ### Windows (R393) -/

/-- R393: a final response from node `n` passes back through this node, marked or not. -/
def State.windowBack (s : State) (n : Nat) (mark : Bool) : State :=
  let lo := s.rd Csr.FABE2E_e2e_min
  let hi := s.rd Csr.FABE2E_e2e_max
  let hold := 1000 * s.rd Csr.FABE2E_e2e_hold_us
  let now := s.stamp
  s.setE2e n (fun e =>
    let e := { e with out := e.out - 1 }
    if mark then
      let cut := match e.cut with
        | some t => decide (hold ≤ subMod now t 64)
        | none => true
      if cut then { e with w := max lo (e.w - ceilDiv e.w 8), cut := some now, run := 0 } else { e with run := 0 }
    else if e.w ≤ e.run + 1 then { e with w := min hi (e.w + 1), run := 0 }
    else { e with run := e.run + 1 })

/-- A final response (R376, R380): every message of VC2 but notices, RSP_DUR, a holder's answers, GO_ACK, and DATA that does not
grant. -/
def isFinal (m : Msg) : Bool :=
  [0x30, 0x31, 0x61, 0x65, 0x66, 0x67, 0x68].contains m.code || (m.code == 0x60 && bitOf m.q3 11)

/-! ### The twin is lost (R47, R48, R400, R430) -/

/-- An original write has no MIRROR_WR left: its response is sent, or its waiting accesses go on. -/
def State.mirrorDone (s : State) (w : MirrorWait) : State :=
  let s := { s with fab := { s.fab with mirrors := s.fab.mirrors.filter (fun x => x.id != w.id) } }
  let s := match w.rsp with
    | some r => s.finish r
    | none => s
  if w.wait = 0 then s else s.setWait (w.wait - 1) (fun x => { x with left := x.left - 1 })

/-- R430: a SECONDARY takes over: its Ringmaster claims with the last claim seen plus 0x1_0000, and it serves its mirrored pans
unpaired. -/
def State.twinTake (s : State) : State :=
  let b := s.rmHolder
  let n := (s.rd Csr.TWINSTAT_peer_claim + 0x10000) % 2 ^ 32
  let s := s.journaled b 0 [s.rd Csr.CLAIMCUR_claim, n] (fun s => s.raiseClaim b n) (fun _ => Sts.ok)
  let s := (s.wr Csr.TWINSTAT_role 0).wr Csr.TWINSTAT_state 4
  ((List.range 64).foldl State.degrade s).raise Ev.TWIN_TAKEOVER 6 (rmNum b)

/-- R400, R430: the twin is declared lost: writes complete unpaired, and a SECONDARY with auto_takeover takes over at once. -/
def State.twinGone (s : State) : State :=
  if s.rd Csr.TWINSTAT_state = 2 ∨ s.rd Csr.TWINSTAT_state = 3 then
    let second := s.on Csr.TWINSTAT_role
    let s := s.twinLost
    let s := { s with twin := { Twin.none with peerEpoch := s.twin.peerEpoch, peerSeq := s.twin.peerSeq },
                      fab := { s.fab with reqs := s.fab.reqs.filter (fun q => match q.use with
                        | .mirror _ => false
                        | _ => true) } }
    let s := s.fab.mirrors.foldl State.mirrorDone s
    if second && s.on Csr.TWINCTL_auto_takeover then s.twinTake else s
  else s

/-! ### Answers to the device's own requests -/

/-- The request outstanding under a tag and tag epoch (R381). -/
def State.outReq (s : State) (tag epoch : Nat) : Option OutReq :=
  s.fab.reqs.find? (fun q => q.tag == tag && q.epoch == epoch)

/-- A request is outstanding no more. -/
def State.dropReq (s : State) (q : OutReq) : State :=
  { s with fab := { s.fab with reqs := s.fab.reqs.filter (fun x => !(x.tag == q.tag && x.epoch == q.epoch)) } }

/-- R52, R129: a block that a lender delivered goes to the page's new home. -/
def State.moveData (s : State) (n va off : Nat) (data : List PByte) : State :=
  match s.copyOf n va with
  | some (_, c) => if tierOf c.2.2.1 = 3 then (s.writeMem ⟨some n, 10, true, 6⟩ (c.2.2.2 + off) data).2 else s
  | none => s

/-- R80, R380: a write of a rake's entry was accepted: its RSP_DUR is awaited. -/
def State.awaitDur (s : State) (q : OutReq) (id : Nat) : State :=
  match s.wait id with
  | some w =>
    match w.who with
    | .rake r =>
      let k := s.rake r
      let s := s.setEnt k.qid k.pos (fun e => { e with durPos := some (e.durPos.getD 0 + 1) })
      { s with fab := { s.fab with reqs := s.fab.reqs ++ [{ q with use := .durable k.qid k.pos }] } }
    | .msg _ _ => s
  | none => s

/-- One of the device's own requests ends with `status`, and the data that its response brought. -/
def State.reqEnds (s : State) (q : OutReq) (status : Nat) (data : List PByte) (accepted : Bool) : State :=
  match q.use with
  | .wait id addr _ _ =>
    let s := s.dropReq q
    let s := if accepted then s.awaitDur q id else s
    let st := Sts.remote status
    s.setWait id (fun w => { w.take addr data with left := w.left - 1, stat := if st = Sts.okDurable then w.stat else Sts.first w.stat st })
  | .mirror id =>
    let s := s.dropReq q
    if status = Sts.ok then
      match s.fab.mirrors.find? (fun x => x.id == id) with
      | some w =>
        if w.left ≤ 1 then s.mirrorDone w
        else { s with fab := { s.fab with mirrors := s.fab.mirrors.map (fun (x : MirrorWait) => if x.id = id then { x with left := x.left - 1 } else x) } }
      | none => s
    else s.twinGone
  | .line d wr => (s.dropReq q).lineAnswer d status data wr
  | .move n va off =>
    if status = Sts.ok ∨ status = Sts.poison then (s.dropReq q).moveData n va off data
    else { s with fab := { s.fab with reqs := s.fab.reqs.map (fun (x : OutReq) => if x = q then { x with hold := true } else x) } }
  | .durable _ _ => s

/-- R319: an ATOM of the device is answered NAK: it is retried after its backoff, or ends RETRY after nak_limit of them (Table 11-8). -/
def State.reqNak (s : State) (q : OutReq) : State :=
  if s.rd Csr.COHCTL_nak_limit ≤ q.naks + 1 then
    (s.raise Ev.COH_RETRY_EXHAUSTED 0 0).reqEnds { q with hold := false } Sts.retry [] false
  else { s with fab := { s.fab with reqs := s.fab.reqs.map (fun (x : OutReq) => if x = q then { x with naks := x.naks + 1, hold := true } else x) } }

/-- NAK_BACKOFF_EXPIRE: the request is sent again with its retry count. -/
def State.nakRetry (s : State) (tag epoch : Nat) : State :=
  match s.outReq tag epoch with
  | some q =>
    if q.hold ∧ 0 < q.naks then
      let m := { q.msg with q3 := setBits q.msg.q3 4 4 (min 15 q.naks), life := s.lifeInit }
      let s := { s with fab := { s.fab with reqs := s.fab.reqs.map (fun (x : OutReq) => if x = q then { x with hold := false } else x) } }
      match s.send m with
      | (0, s) => s
      | (x, s) => s.reqEnds { q with hold := false } (Sts.ofPath x) [] false
    else s
  | none => s

/-- NX_REQ_TIMEOUT (R385): an accepted write has its final response. -/
def State.reqTimeout (s : State) (tag epoch : Nat) : State :=
  match s.outReq tag epoch with
  | some q =>
    match q.use with
    | .durable _ _ => s
    | _ =>
      let s := s.count (fabCtr 8)
      let mine (x : Nat × Msg) : Bool := s.ownReq x.2 && x.2.tag == tag && x.2.tagEpoch == epoch
      let s := if s.fab.waitq.any mine then { s with fab := { s.fab with waitq := s.fab.waitq.filter (fun x => !mine x) } } else s.leaveWindow q.msg
      s.reqEnds q Sts.timeout [] false
  | none => s

/-- Requests of the device that found no path after they were sent (R386). -/
def State.reqsFail (s : State) : State :=
  let fs := s.fab.failed
  fs.foldl (fun s (t, e, st) =>
    match s.outReq t e with
    | some q => s.reqEnds q st [] false
    | none => s) { s with fab := { s.fab with failed := [] } }

/-- The half-line poison of a message's data whose first byte is at address `a` (Table 13-2). -/
def maskPoison (a mask : Nat) (bs : List Nat) : List PByte := bs.zipIdx.map (fun (b, i) => (b, bitOf mask ((a % 64 + i) / 64)))

/-- R381: a response that answers no request outstanding. -/
def State.rspDiscard (s : State) : State := s.count (fabCtr 9)

/-- RSP and RSP_DATA for the device (R380, R381); one whose mask marks a half-line that its data does not touch is bad (R270). -/
def State.rspArrive (s : State) (m : Msg) : State :=
  match s.outReq m.tag m.tagEpoch with
  | some q =>
    match q.use with
    | .durable _ _ => s.rspDiscard
    | _ =>
      if m.code = 0x31 && decide (2 ^ ((q.msg.q2 % 64 + q.msg.length - 1) / 64 + 1) ≤ m.q3) then s.countFab 10 Ev.NX_BAD_MESSAGE
      else s.reqEnds q m.status (if m.code = 0x31 then maskPoison q.msg.q2 m.q3 (m.data.take q.msg.length) else []) m.accepted
  | none => s.rspDiscard

/-- RSP_DUR: a write of an entry is durable at its node. -/
def State.rspDur (s : State) (m : Msg) : State :=
  match s.outReq m.tag m.tagEpoch with
  | some q =>
    match q.use with
    | .durable qid pos => ((s.dropReq q).setEnt qid pos (fun e => { e with durPos := e.durPos.map (· - 1) })).relist
    | _ => s.rspDiscard
  | none => s.rspDiscard

/-- ATOM_RSP: the old value of an ATOM of the device (R121, R123). -/
def State.atomRsp (s : State) (m : Msg) : State :=
  match s.outReq m.tag m.tagEpoch with
  | some q =>
    match q.use with
    | .wait _ _ len _ =>
      if q.msg.code = 0x47 then
        s.reqEnds q m.status ((m.data.take len).map (fun b => (b, m.status == Sts.poison))) false
      else s.rspDiscard
    | _ => s.rspDiscard
  | none => s.rspDiscard

/-- CMP with a status, for an ATOM of the device that its home refuses. -/
def State.cmpArrive (s : State) (m : Msg) : State :=
  match s.outReq m.tag m.tagEpoch with
  | some q =>
    if q.msg.code = 0x47 ∧ m.status ≠ Sts.ok then s.reqEnds q m.status [] false else s.rspDiscard
  | none => s.rspDiscard

/-- NAK for the device. -/
def State.nakArrive (s : State) (m : Msg) : State :=
  match s.outReq m.tag m.tagEpoch with
  | some q => if q.msg.code = 0x47 ∧ !q.hold then s.reqNak q else s.rspDiscard
  | none => s.rspDiscard

end Sys2Proof.Machine
end

