-- ==== Sys2Proof/Machine/Sluice.lean ====
section
/-!
DEFINITION. Sluice metering (R191 to R195).
-/
namespace Sys2Proof.Machine
open Sys2Proof Host

/-- The meter of port `p` and pan `n`. -/
def State.bucket (s : State) (p n : Nat) : Bucket := SMap.get Bucket.full (64 * p + n) s.sluice

/-- Changes a meter. -/
def State.setBucket (s : State) (p n : Nat) (f : Bucket → Bucket) : State :=
  { s with sluice := SMap.upd Bucket.full (64 * p + n) f s.sluice }

/-- Counter `i` of a meter: 0 SLGRNCNT, 1 SLYELCNT, 2 SLREDCNT, 3 SLDROPCNT. -/
def slCtr (p n i : Nat) : Ctr :=
  ⟨⟨0x2040020 + 0x80000 * p + 0x40 * n + 8 * i, 0, 48, 0, false⟩, Csr.SLSTAT_cnt_ovf p n, i, Ev.SCHED_COUNT_OVF, 2, p⟩

/-- cir and pir of a meter: those of a THROTTLE while it is in force (Table 06-4). -/
def State.slRates (s : State) (p n : Nat) : Nat × Nat :=
  if s.rd (Csr.SLSTAT_cmd p n) = 2 then ((s.bucket p n).rate, (s.bucket p n).rate)
  else (s.rd (Csr.SLRATE_cir p n), s.rd (Csr.SLRATE_pir p n))

/-- R192: one tick refills both buckets of a meter; the time of its command runs (SLSTAT.cmd_left_us). -/
def State.slRefill (s : State) (p n : Nat) : State :=
  let (cir, pir) := s.slRates p n
  let b := s.bucket p n
  let s := s.setBucket p n (fun b => { b with dc := b.dc - cir, dp := b.dp - pir, left := b.left - 1 })
  if b.left = 0 then s else s.wr (Csr.SLSTAT_cmd_left_us p n) (ceilDiv ((b.left - 1) * 80) 1000)

/-- SLUICE_TICK (R192): a bucket that is not listed is full. -/
def State.slTick (s : State) : State := s.sluice.foldl (fun s kv => s.slRefill (kv.1 / 64) (kv.1 % 64)) s

/-- SLUICE_TICK. -/
def execSluiceTick (s : State) : Outcome State Fault Refusal := .next s.slTick

/-- R192, `meter`: the colour (0 GREEN, 1 YELLOW, 2 RED) of `b` bytes that arrive with colour `c`; with en = 0 every message is GREEN. -/
def State.slMeter (s : State) (p n b c : Nat) : Nat × State :=
  let k := s.bucket p n
  let tc := 256 * s.rd (Csr.SLBURST_cbs p n) - k.dc
  let tp := 256 * s.rd (Csr.SLBURST_pbs p n) - k.dp
  let aware := s.on (Csr.SLPOL_aware p n)
  if !s.on (Csr.SLPOL_en p n) then (0, s)
  else if (aware && c == 2) || decide (tp < 256 * b) then (2, s)
  else if (aware && c == 1) || decide (tc < 256 * b) then (1, s.setBucket p n (fun k => { k with dp := k.dp + 256 * b }))
  else (0, s.setBucket p n (fun k => { k with dc := k.dc + 256 * b, dp := k.dp + 256 * b }))

/-- R191: the bytes that a message counts as: 64 and its data payload; the mask unit of a WR_NC is no payload. -/
def meterBytes (m : Msg) : Nat := 64 + (if m.code = 0x44 then 128 else m.data.length)

/-- R191, R193, R194: what a request or doorbell of `b` bytes and colour `c` meets at port `p`: 0 PASS, 1 MARK, 2 DEMOTE, 3 DROP.
A STOP refuses without metering. -/
def State.slAction (s : State) (p n b c : Nat) : Nat × State :=
  if s.rd (Csr.SLSTAT_cmd p n) = 1 then (3, s.count (slCtr p n 3))
  else
    let (col, s) := s.slMeter p n b c
    let s := if col = 2 ∧ s.rd (Csr.SLREDCNT_count p n) = 0 then s.raise Ev.SLUICE_RED 2 p else s
    let s := s.count (slCtr p n col)
    let a := if col = 0 then 0
      else if col = 1 then s.rd (Csr.SLPOL_yellow p n)
      else if s.rd (Csr.SLSTAT_cmd p n) = 2 then 3
      else s.rd (Csr.SLPOL_red p n)
    (a, if a = 3 then s.count (slCtr p n 3) else s)

/-- A Sluice command: its action of Table 06-4 (0 STOP, 1 THROTTLE, 2 RELEASE), ports, pan or all pans, rate and duration. -/
structure SlCmd where
  act : Nat
  ports : Nat
  pan : Nat
  all : Bool
  rate : Nat
  us : Nat
deriving DecidableEq, Repr

/-- No command is in force at a meter any more (R195). -/
def State.slEnd (s : State) (p n : Nat) : State :=
  let s := (s.wr (Csr.SLSTAT_cmd p n) 0).wr (Csr.SLSTAT_cmd_src p n) 0
  (s.wr (Csr.SLSTAT_cmd_left_us p n) 0).setBucket p n (fun b => { b with rate := 0, left := 0 })

/-- Table 06-4: a command at one meter; a later one replaces an earlier one (R195). -/
def State.slSet (s : State) (c : SlCmd) (src p n : Nat) : State :=
  if c.act = 2 then s.slEnd p n
  else
    let s := (s.wr (Csr.SLSTAT_cmd p n) (c.act + 1)).wr (Csr.SLSTAT_cmd_src p n) src
    let s := s.wr (Csr.SLSTAT_cmd_left_us p n) (if c.us = 0 then 0xFFFFFFFF else c.us)
    let capC := 256 * s.rd (Csr.SLBURST_cbs p n)
    let capP := 256 * s.rd (Csr.SLBURST_pbs p n)
    s.setBucket p n (fun b => { dc := min b.dc capC, dp := min b.dp capP, rate := if c.act = 1 then c.rate else 0,
                                left := ceilDiv (c.us * 1000) 80 })

/-- The pans a command names. -/
def SlCmd.pans (c : SlCmd) : List Nat := if c.all then List.range 64 else [c.pan]

/-- R194, R195: a command takes effect at every named port; `src` is 0 from VC0, 1 from the mailbox. Its event at a port carries
`data`. -/
def State.slCommand (s : State) (c : SlCmd) (src data : Nat) : State :=
  ((List.range 8).filter (bitOf c.ports)).foldl (fun s p =>
    let ends := c.act == 2 && c.pans.any (fun n => s.rd (Csr.SLSTAT_cmd p n) != 0)
    let s := c.pans.foldl (fun s n => s.slSet c src p n) s
    if c.act = 2 then (if ends then s.raise Ev.SLUICE_CMD_END 2 p else s) else s.raise Ev.SLUICE_CMD 2 p data) s

/-- The command that bytes 1 to 23 of Table 12-13 spell (first byte at offset 1); none where its action is reserved (R372). -/
def slParse (b : List Nat) : Option SlCmd :=
  let v := ofLeBytes b
  let act := bitsOf v 0 8
  if 3 ≤ act then none
  else some ⟨act, bitsOf v 8 8, bitsOf v 16 6, bitOf v 22, if act = 1 then bitsOf v 56 32 else 0, bitsOf v 24 32⟩

/-- Event data of a Sluice command: origin and cmd_id of Table 12-13 (log entry 13). -/
def slData (b : List Nat) : Nat := bitsOf (ofLeBytes b) 88 12 + bitsOf (ofLeBytes b) 120 64 * 2 ^ 64

/-- The downward ring of the telemetry mailbox has a free entry (R515). -/
def State.downRoom (s : State) : Bool := decide (s.mgmt.down.length < 64)

/-- R455, R515: the switch request with its token is posted; with the ring full it waits. -/
def State.postSwitch (s : State) (token : Nat) : State :=
  if s.downRoom then { s with mgmt := { s.mgmt with down := s.mgmt.down ++ [(2, [token])], waiting := none } }
  else { s with mgmt := { s.mgmt with waiting := some token } }

/-- A switch request that waits is posted once the ring has room. -/
def State.postWaiting (s : State) : State :=
  match s.mgmt.waiting with
  | some t => s.postSwitch t
  | none => s

/-- R515: an entry of the downward ring is read and leaves it. -/
def State.downTake (s : State) (x : Nat × List Nat) : State :=
  ({ s with mgmt := { s.mgmt with down := s.mgmt.down.erase x } } : State).postWaiting

/-- R515: entries of the downward ring whose action is reserved leave it as the command ring meets them (log entry 79). -/
def State.dropBad (s : State) : State :=
  (s.mgmt.down.takeWhile (fun x => x.1 != 1 || (slParse x.2).isNone)).foldl (fun s x => if x.1 = 1 then s.downTake x else s) s

/-- R15, R195, R515: the command ring reads the oldest Sluice command of the mailbox's downward ring; nothing happens when that is not
`c`. -/
def State.slMailbox (s : State) (c : SlCmd) : State :=
  let s := s.dropBad
  match s.mgmt.down.find? (fun x => x.1 == 1) with
  | some x => if slParse x.2 = some c then (s.downTake x).slCommand c 1 (slData x.2) else s
  | none => s

/-- SLUICE_STOP. -/
def execSluiceStop (ports : BitVec 8) (n : Fin 64) (all : Bool) (us : BitVec 32) (s : State) : Outcome State Fault Refusal :=
  .next (s.slMailbox ⟨0, ports.toNat, n.val, all, 0, us.toNat⟩)

/-- SLUICE_THROTTLE. -/
def execSluiceThrottle (ports : BitVec 8) (n : Fin 64) (all : Bool) (rate : BitVec 32) (us : BitVec 32) (s : State) :
    Outcome State Fault Refusal :=
  .next (s.slMailbox ⟨1, ports.toNat, n.val, all, rate.toNat, us.toNat⟩)

/-- SLUICE_RELEASE. -/
def execSluiceRelease (ports : BitVec 8) (n : Fin 64) (all : Bool) (s : State) : Outcome State Fault Refusal :=
  .next (s.slMailbox ⟨2, ports.toNat, n.val, all, 0, 0⟩)

/-- SLUICE_COMMAND_EXPIRE: the command in force at a meter ends; one that holds until RELEASE does not expire. -/
def execSluiceCommandExpire (p : Fin 8) (n : Fin 64) (s : State) : Outcome State Fault Refusal :=
  .next (if s.rd (Csr.SLSTAT_cmd p.val n.val) = 0 ∨ s.rd (Csr.SLSTAT_cmd_left_us p.val n.val) = 0xFFFFFFFF then s
    else (s.slEnd p.val n.val).raise Ev.SLUICE_CMD_END 2 p.val)

/-- SLUICE_CMD (R372): the control message acts at this node when the port accepts it; a reserved action is ignored. -/
def State.sluiceCmd (s : State) (p : Nat) (b : List Nat) : State :=
  match s.on (Csr.PORTCTL_sluice_cmd_en p), slParse ((b.drop 1).take 23) with
  | true, some c => s.slCommand c 0 (slData ((b.drop 1).take 23))
  | _, _ => s.raise Ev.CTRL_IGNORED 2 p

end Sys2Proof.Machine
end

