-- ==== Sys2Proof/Machine/Wake.lean ====
section
/-!
DEFINITION. The power states that work of the uncore changes (Table 16-4), and the wake of a stall (R477).
-/
namespace Sys2Proof.Machine

/-- PWRSTAT.state changes to `x`: PWR_STATE. -/
def State.pwrState (s : State) (x : Nat) : State :=
  if s.rd Csr.PWRSTAT_state = x then s else (s.wr Csr.PWRSTAT_state x).raise Ev.PWR_STATE 0 0 x

/-- Every stall is gated, none of them waking, and every port is in LPI, SLEEP, SEARCHING or DISABLED. -/
def State.allIdle (s : State) : Bool :=
  s.rd Csr.STALLPWR_gated == 0xFFFF && s.rd Csr.STALLPWR_waking == 0
    && (List.range 8).all (fun p => s.link p == 0 || s.link p == 1 || s.link p == 4 || s.link p == 5)

/-- RUN or IDLE, as Table 16-4 has it; DEEP ends by its own command. -/
def State.runOrIdle (s : State) : State := if s.inDeep then s else s.pwrState (if s.allIdle then 1 else 0)

/-- STALL_WAKE: the domain is powered. -/
def State.stallWake (s : State) (k : Nat) : State :=
  if s.bit Csr.STALLPWR_gated k && !s.bit Csr.STALLPWR_waking k && !s.inDeep then (s.setFld Csr.STALLPWR_waking k).runOrIdle else s

end Sys2Proof.Machine
end

