-- ==== Sys2Proof/Machine/Nx.lean ====
section
/-!
DEFINITION. NX messages that arrive at a port (chapter 13): the checks of R378, routing and forwarding (R384, R389 to R391), membership
(R32), metering (R193), the completion cache (R387), and the requests of Table 13-2.

Every command of a message names the port, the message, the time in ns since it arrived at its port tile (w or r of R384), and
whether its bank of the completion cache is full (R388).
-/
namespace Sys2Proof.Machine
open Sys2Proof Host

/-! ### The checks of R378 -/

/-- The codes of Tables 13-2 and 11-2. -/
def nxCodes : List Nat :=
  [0x01, 0x02, 0x08, 0x09, 0x0A, 0x0B, 0x0C, 0x0D, 0x10, 0x20, 0x21, 0x22, 0x23, 0x30, 0x31, 0x32, 0x40, 0x41, 0x42, 0x43, 0x44,
   0x45, 0x46, 0x47, 0x50, 0x51, 0x52, 0x53, 0x54, 0x60, 0x61, 0x62, 0x63, 0x64, 0x65, 0x66, 0x67, 0x68]

/-- Bytes of the units after the header, by code and length (Table 13-2). -/
def nxDataLen (code length : Nat) : Nat :=
  if code = 0x02 ∨ code = 0x10 ∨ code = 0x31 then length
  else if code = 0x20 then 32
  else if code = 0x44 then 144
  else if code = 0x45 ∨ code = 0x60 ∨ code = 0x64 then 128
  else if code = 0x21 ∨ code = 0x47 ∨ code = 0x50 ∨ code = 0x51 ∨ code = 0x52 ∨ code = 0x68 then 16
  else 0

/-- The coherence word's fields are in range and its reserved bits zero (Table 13-3, Table 04-9). -/
def cohWordOk (m : Msg) : Bool :=
  bitsOf m.q3 2 2 == 0 && m.q3 / 2 ^ 32 == 0 && decide (cwState m ≤ 5) &&
  (if m.code = 0x45 then cwState m == 3 || cwState m == 4
   else if m.code = 0x46 then cwState m == 1 || cwState m == 2
   else if m.code = 0x47 then decide (0x30 ≤ cwOp m) && decide (cwOp m ≤ 0x3A) && cwOffset m % cwSize m == 0
   else true)

/-- Reserved bits and ranges of qwords 2 and 3, by code. -/
def nxFieldsOk (m : Msg) : Bool :=
  if m.code = 0x01 then decide (1 ≤ m.length) && decide (m.q2 % 4096 + m.length ≤ 4096) && m.q3 == 0
  else if m.code = 0x02 ∨ m.code = 0x10 then
    decide (1 ≤ m.length) && decide (m.q2 % 4096 + m.length ≤ 4096) && decide (m.q3 < 2 ^ ((m.q2 % 64 + m.length - 1) / 64 + 1))
  else if m.code = 0x08 ∨ m.code = 0x09 then bitsOf m.q2 19 13 == 0 && m.q3 == 0
  else if m.code = 0x0A then decide (m.q2 < 2 ^ 32) && m.q3 == 0
  else if m.code = 0x0B then decide (m.q2 < 2 ^ 58) && m.q3 == 0 && bitsOf m.q2 51 6 == m.pan
  else if m.code = 0x0C then decide (m.q2 < 2 ^ 48) && decide (m.q3 < 2 ^ 23)
  else if m.code = 0x0D then decide (m.q2 < 2 ^ 48) && m.q3 == 0
  else if m.code = 0x20 then decide (m.q2 < 2 ^ 51) && m.q3 == 0
  else if m.code = 0x21 then decide (m.q2 < 2 ^ 51) && decide (m.q3 < 2 ^ 16)
  else if m.code = 0x22 then decide (m.q3 < 2 ^ 32)
  else if m.code = 0x23 then decide (m.q2 < 2 ^ 55) && decide (m.q3 < 2 ^ 50) && decide (bitsOf m.q3 48 2 ≤ 2)
  else if m.code = 0x30 ∨ m.code = 0x32 then decide (m.q2 < 2 ^ 32) && m.q3 == 0
  else if m.code = 0x31 then decide (m.q2 < 2 ^ 32) && decide (m.q3 < 2 ^ ((m.length + 62) / 64 + 1))
  else if m.code < 0x60 then m.q2 % 128 == 0 && cohWordOk m
  else decide (m.q2 < 2 ^ 32) && cohWordOk m

/-- R378: every check of a message that needs nothing of the device. -/
def nxFormOk (m : Msg) : Bool :=
  nxCodes.contains m.code && m.data.length == nxDataLen m.code m.length && decide (m.length ≤ 4096)
    && decide (1 ≤ m.life) && decide (m.life ≤ 63) && decide (m.pan < 64)
    && (if m.isReq then decide (m.colour ≤ 2) && m.status == 0 && !m.accepted && !m.gone && !m.dup && !m.mirrored
        else m.colour == 0 && !m.durWait && !m.nt && !m.lent && Sts.order.contains m.status)
    && (!(vcOf m.code == 1) || !m.dstPartner) && nxFieldsOk m

/-- Requests that name an address. -/
def nxAddressed (code : Nat) : Bool := [0x01, 0x02, 0x10].contains code || (decide (0x40 ≤ code) && decide (code ≤ 0x47))

/-- R376, R378, R379, R399: the checks of a message that has arrived at its destination. -/
def State.nxOk (s : State) (p : Nat) (m : Msg) : Bool :=
  nxFormOk m && !m.lent
    && (if s.twinPort p then m.code == 0x10 || m.code == 0x30 else m.code != 0x10)
    && (!nxAddressed m.code || (m.q2 / 2 ^ 52 == m.dstNode &&
         (match s.region (m.q2 % 2 ^ 52) with
          | .heap => false
          | .hole => false
          | _ => true)))

/-- DOORBELL_INVALID, with the queue ID in bytes 18:16 and the status in byte 19. -/
def State.doorbellInvalid (s : State) (p qid status : Nat) : State :=
  s.raise Ev.DOORBELL_INVALID 2 p (qid + status * 2 ^ 24)

/-- R203: a doorbell of port `p` ends with a status; one of a pan names no queue. -/
def State.doorbellEnds (s : State) (p : Nat) (m : Msg) (status : Nat) : State :=
  if (m.code = 0x08 ∨ m.code = 0x09 ∨ m.code = 0x0A) ∧ (status = Sts.malformed ∨ status = Sts.permission) then
    s.doorbellInvalid p (if m.code = 0x0A then 0 else bitsOf m.q2 0 19) status
  else s

/-- R378: a message that fails a check. -/
def State.nxBad (s : State) (p : Nat) (m : Msg) : State :=
  if m.isReq then (s.doorbellEnds p m Sts.malformed).replyTo m (s.respond m 0x30 Sts.malformed) else s.countFab 10 Ev.NX_BAD_MESSAGE

/-! ### Life (R384) -/

/-- Half the round trip of a partner's link that a request came by. -/
def State.flight (s : State) (p : Nat) (m : Msg) : Nat :=
  if m.isReq && !s.ringPort p && !s.twinPort p then s.rd (Csr.LINKRTT_rtt_ns p) / 2 else 0

/-- R384: the destination's charge of a request; none when its life runs out. -/
def State.charge (s : State) (p : Nat) (m : Msg) (w : Nat) : Option Msg :=
  (lifeAfter m.life (w + s.flight p m) 1).map (fun x => { m with life := x })

/-- R386: a request whose life runs out is answered TIMEOUT. -/
def State.expired (s : State) (m : Msg) : State := (s.countFab 4 Ev.FAB_EXPIRED).answer m Sts.timeout

/-! ### Forwarding (R389 to R393) -/

/-- A message goes on by port `q`: from its own node's partners as an injection, in transit as R392 says. -/
def State.forwardBy (s : State) (p : Nat) (m : Msg) (w q route : Nat) (rev : Bool) : State :=
  match lifeAfter m.life (w + s.flight p m + s.rd (Csr.LINKRTT_rtt_ns q) / 2) 1 with
  | none => s.expired m
  | some x =>
    let m := { m with life := x }
    (s.inject q route rev m p).count (fabCtr 1)

/-- R389 to R391: a message that is not for this node. In spoke topology only VC2 and VC3 messages for a partner on one of its ports
go on. -/
def State.nxForward (s : State) (p : Nat) (m : Msg) (w : Nat) : State :=
  if m.dstPartner && vcOf m.code == 1 then s.nxBad p m
  else if !s.lattice && m.dstNode != s.nodeId then s.nxBad p m
  else if s.lattice && !s.nodeNamed m.dstNode then s.nxBad p m
  else match s.hop m with
    | .here => s
    | .port q r rev => s.forwardBy p m w q r rev
    | .lost => s.noPath.answer m Sts.linkLost
    | .down => s.answer m Sts.nodeDown

/-! ### Membership (R31, R32, R327) -/

/-- The right that a request needs: 0 read, 1 write, 2 read and write. RD_X delivers the line's data and the permission to write
it. -/
def rightOf (code : Nat) : Nat :=
  if code = 0x01 ∨ code = 0x40 ∨ code = 0x43 ∨ code = 0x46 then 0 else if code = 0x41 then 2 else 1

/-- The member that a request's source and pan name, if it holds the right. -/
def State.rightHolder (s : State) (m : Msg) : Option Nat :=
  (s.memberOf m.srcNode m.srcPort m.pan).filter (fun i =>
    let k := rightOf m.code
    (k == 1 || s.on (Csr.MEMBER_rd i)) && (k == 0 || s.on (Csr.MEMBER_wr i)))

/-- The member that a request's source and pan name while its COHGONE bit is set, whether its entry is valid or not. -/
def State.goneMember (s : State) (m : Msg) : Option Nat :=
  firstBelow (fun i => s.gone i && s.rd (Csr.MEMBER_src_node i) == m.srcNode && s.rd (Csr.MEMBER_src_port i) == m.srcPort
    && s.rd (Csr.MEMBER_pan i) == m.pan) 1024

/-- R29, R31: the bytes that a request names belong to its pan. -/
def State.nxOwned (s : State) (m : Msg) : Bool :=
  let a := m.q2 % 2 ^ 52
  (match s.region a with
   | .csr => false
   | .system => false
   | _ => true) && s.panActive m.pan && s.ownsRange m.pan a (if 0x40 ≤ m.code then 128 else m.length)

/-- R426, R496, R499, Table 15-1: requests that this node answers NODE_DOWN: outside SERVICE, in SWITCHING and in SUSPENDED all of them,
on a SECONDARY those for a mirrored pan. -/
def State.nodeDown (s : State) (m : Msg) : Bool :=
  s.rd Csr.BOOTSTAT_stage != 7 || s.rd Csr.SECSTAT_state == 2 || s.rd Csr.SECSTAT_state == 4 ||
  (s.panMirrored m.pan && s.on Csr.TWINSTAT_role && (s.rd Csr.TWINSTAT_state == 2 || s.rd Csr.TWINSTAT_state == 3 || s.rd Csr.TWINSTAT_state == 4))

/-- Table 15-1: in SEALED only what comes by a secured port from a partner in the domain is served. A LEND_OFFER by another port ends
SEALED_DENY (Table 15-8), any other request NODE_DOWN. DESIGN CHOICE (log entry 65): for those the spec gives no answer. -/
def State.outsideDomain (s : State) (p : Nat) : Bool := s.isSealed && !(s.on (Csr.PORTSEC_secured p) && s.on (Csr.PORTSEC_domain p))

/-! ### Memory requests (R379, R380) -/

/-- R407: work of the request with key `k` reads the configuration set it was tagged with. -/
def State.inEpoch (s : State) (k : Nat) (f : State → State) : State :=
  match s.fab.live.find? (fun x => x.1 == k) with
  | some x => let s := f (s.viewSet x.2); s.viewSet s.liveSet
  | none => f s

/-- A waiting request of a partner is over. -/
def State.dropWait (s : State) (id : Nat) : State := { s with waits := s.waits.filter (fun w => w.id != id) }

/-- The response to an MRD that has its bytes. -/
def State.mrdRsp (s : State) (m : Msg) (bs : List PByte) : Msg :=
  let st := if anyPoison bs then Sts.poison else Sts.ok
  let mask := (List.range 65).foldl (fun x h => if (bs.zipIdx).any (fun (b, i) => b.2 && (m.q2 % 64 + i) / 64 == h) then x + 2 ^ h else x) 0
  { s.respond m 0x31 st with length := m.length, q3 := mask, data := bs.map (·.1) }

/-- MRD. -/
def State.mrdServe (s : State) (p : Nat) (m : Msg) : State :=
  let (id, s) := s.needWait (.msg p m)
  match s.gather id (some m.pan) m.nt [⟨m.q2, m.length, 0, false⟩] with
  | .ends st s => (s.dropWait id).finish (s.respond m 0x30 st)
  | .waits s => s
  | .bytes bs s => (s.dropWait id).finish (s.mrdRsp m bs)

/-- The stores of an MWR have been performed and answered: its response, and what follows once it is durable (R380). -/
def State.mwrDone (s : State) (id : Nat) (m : Msg) (status : Nat) : State :=
  let s := s.dropWait id
  if s.pans.any (fun kv => kv.2.undur.any (fun u => u.owner == .nx id)) then
    let later (code : Nat) : State :=
      { s with fab := { s.fab with durRsps := s.fab.durRsps ++ [(id, s.respond m code Sts.okDurable)] } }
    if m.durWait then later 0x30
    else (later 0x32).finish { s.respond m 0x30 status with accepted := true }
  else s.finish (s.respond m 0x30 (if m.durWait && s.panDurable m.pan && status == Sts.ok then Sts.okDurable else status))

/-- MWR (R73, R379, R400). -/
def State.mwrServe (s : State) (p : Nat) (m : Msg) : State :=
  let (id, s) := s.needWait (.msg p m)
  match s.wait id with
  | none => s
  | some w =>
    if w.sent then
      (if w.left = 0 then s.mwrDone id m (Sts.first w.stat ((w.rsp.map (·.status)).getD Sts.ok)) else s)
    else match s.stores id (some m.pan) m.nt (.nx id) [(⟨m.q2, m.length, 0, false⟩, maskPoison m.q2 m.q3 m.data)] with
      | .waits s => s
      | .ends st s => (s.dropWait id).finish (s.respond m 0x30 st)
      | .sent poison s =>
        match s.wait id with
        | some w =>
          let st := Sts.first w.stat (if poison then Sts.poison else Sts.ok)
          if w.left = 0 then s.mwrDone id m st else s.setWait id (fun w => { w with rsp := some (s.respond m 0x30 st) })
        | none => s

/-- MRD and MWR of a partner, when they arrive and when what they wait for has come. -/
def State.memServe (s : State) (p : Nat) (m : Msg) : State :=
  s.inEpoch (reqKey m) (fun s => if m.code = 0x01 then s.mrdServe p m else s.mwrServe p m)

/-! ### Doorbells (R181, R382) -/

/-- Table 06-2, row 2: the sender is the queue's owner port or its pair partner, with the submit right of its pan, which is ACTIVE. -/
def State.doorAllowed (s : State) (q : Queue) (m : Msg) : Bool :=
  let own := m.srcNode == q.ownNode && m.srcPort == q.ownPort
  let pair := m.srcNode == q.ownNode && q.ownNode == s.nodeId && m.srcPort / 2 == q.ownPort / 2 && s.on (Csr.PORTCTL_pair (m.srcPort / 2 * 2))
  (own || pair) && s.panActive q.pan
    && ((s.memberOf m.srcNode m.srcPort q.pan).any (fun i => s.on (Csr.MEMBER_submit i)))

/-- R181: a submission doorbell; `a` is what the Sluice makes of it. -/
def State.dbSq (s : State) (p : Nat) (m : Msg) (a : Nat) : Nat × State :=
  let qid := bitsOf m.q2 0 19
  let t := bitsOf m.q2 32 32
  let q := s.queue qid
  if q.st = .free then (Sts.malformed, s)
  else
    let refused (st : Nat) (s : State) : Nat × State := (st, s.count (dbRefCtr q.home))
    let good (s : State) : Nat × State := (Sts.ok, (s.setQueue qid (fun q => { q with dbRef := false })).count (dbCtr q.home))
    if !s.doorAllowed q m then refused Sts.permission s
    else if a = 3 then refused Sts.throttled s
    else if t = q.tail then good (s.setQueue qid (fun q => { q with stale := false }))
    else if !isNewer t q.tail 32 then refused Sts.malformed s
    else if q.depth < subMod t q.head 32 then
      let s := if q.dbRef then s else (s.setQueue qid (fun q => { q with dbRef := true })).raise Ev.DOORBELL_REFUSED 2 p
      refused Sts.throttled s
    else good (s.setQueue qid (fun q => { q with tail := t, stale := false, doors := q.doors ++ [(t, m.srcNode * 8 + m.srcPort)] }))

/-- R382: DB_CQ. -/
def State.dbCq (s : State) (m : Msg) : Nat × State :=
  let qid := bitsOf m.q2 0 19
  let c := bitsOf m.q2 32 32
  let q := s.queue qid
  if q.st = .free then (Sts.malformed, s)
  else if !s.doorAllowed q m then (Sts.permission, s)
  else if !isNewer c q.cqCons 32 then (Sts.ok, s)
  else if isNewer c q.cqProd 32 then (Sts.malformed, s)
  else (Sts.ok, s.setQueue qid (fun q => { q with cqCons := c }))

/-- The member of a pan that sent a message holds the submit right. -/
def State.maySubmit (s : State) (m : Msg) : Bool :=
  s.panActive m.pan && (s.memberOf m.srcNode m.srcPort m.pan).any (fun i => s.on (Csr.MEMBER_submit i))

/-- R382: DB_FQ. -/
def State.dbFq (s : State) (m : Msg) : Nat × State :=
  let c := bitsOf m.q2 0 32
  if !s.maySubmit m then (Sts.permission, s)
  else if !isNewer c (s.rd (Csr.FQPOS_consumer m.pan)) 32 then (Sts.ok, s)
  else if isNewer c (s.rd (Csr.FQPOS_producer m.pan)) 32 then (Sts.malformed, s)
  else (Sts.ok, s.wr (Csr.FQPOS_consumer m.pan) c)

/-- R181: a doorbell of port `p` that reaches its home stall: one for a gated stall waits at the port tile and wakes it; DOORBELL_INVALID
is raised for one that ends MALFORMED or PERMISSION (R203). -/
def State.doorbell (s : State) (p : Nat) (m : Msg) (a : Nat) : State :=
  let h := (s.queue (bitsOf m.q2 0 19)).home
  if m.code ≠ 0x0A ∧ (s.queue (bitsOf m.q2 0 19)).st ≠ .free ∧ s.bit Csr.STALLPWR_gated h ∧ !s.stallFailed h then
    ({ s with fab := { s.fab with doors := s.fab.doors ++ [(p, a, m)] } } : State).stallWake h
  else
    let r := if m.code = 0x08 then s.dbSq p m a else if m.code = 0x09 then s.dbCq m else s.dbFq m
    (r.2.doorbellEnds p m r.1).finish (r.2.respond m 0x30 r.1)

/-- The doorbells that wait at the port tiles look again, in order. -/
def State.doorsGo (s : State) : State :=
  s.fab.doors.foldl (fun s d => s.doorbell d.1 d.2.2 d.2.1) { s with fab := { s.fab with doors := [] } }

/-- R221: a resume in the fields of FQRESUME (Table 07-12). -/
def State.fqResume (s : State) (v : Nat) : State :=
  s.faultResume (bitsOf v 51 6) (bitsOf v 0 19) (bitsOf v 19 16) (bitsOf v 35 16) (bitsOf v 57 1)

/-! ### The completion cache (R387, R388) -/

/-- The requests whose stored response is sent again to a duplicate. -/
def resends (code : Nat) : Bool := [0x02, 0x10, 0x0B, 0x0C, 0x0D, 0x44, 0x45, 0x46, 0x47].contains code

/-- R387: a second copy of a Cached request: the entry keeps status, flags and an old value; the claim is that of now (R380). -/
def State.duplicate (s : State) (m : Msg) (e : CcEntry) : State :=
  let s := s.count (fabCtr 2)
  match e.rsp with
  | some r => if resends m.code then s.replyTo m { r with dup := true, life := s.lifeInit, q2 := s.rd Csr.CLAIMCUR_claim } else s
  | none => s

/-- CC_ENTRY_EXPIRE: 200 µs after its response was sent, an entry expires. -/
def State.ccExpire (s : State) (k : Nat) : State :=
  { s with fab := { s.fab with cc := s.fab.cc.filter (fun e => !(e.key == k && e.rsp.isSome)) } }

/-! ### Requests that this node performs -/

/-- A request is answered with a status and no data. -/
def State.refuse (s : State) (m : Msg) (status : Nat) : State := s.reply (s.respond m 0x30 status)

/-- R400: MIRROR_WR on the SECONDARY. -/
def State.mirrorWrite (s : State) (m : Msg) : State :=
  let (oos, s) := s.store ⟨some m.pan, 10, m.nt, 6⟩ (some m.pan) (m.q2 % 2 ^ 52) (maskPoison m.q2 m.q3 m.data) .other
  let r := s.respond m 0x30 (if oos then Sts.poison else Sts.ok)
  (s.conclude r).mirrorReply r

/-- R387: a Cached request makes its entry; a coherent one makes it when it is taken up. One that the Sluice demotes reads memory as
requester 13 of Table 08-4, and any other as that of its port (R193). -/
def State.perform (s : State) (p : Nat) (m : Msg) (a : Nat) : State :=
  let answer (r : Nat × State) : State := r.2.finish (r.2.respond m 0x30 r.1)
  let q := if a = 2 then 13 else p
  if m.code = 0x01 ∨ m.code = 0x02 then ((s.ccMake m).nxEnter m).memServe q m
  else if m.code = 0x10 then (s.ccMake m).mirrorWrite m
  else if m.code = 0x08 ∨ m.code = 0x09 ∨ m.code = 0x0A then s.doorbell p m a
  else if m.code = 0x0B then (let s := s.ccMake m; answer (Sts.ok, s.fqResume m.q2))
  else if m.code = 0x0C then answer ((s.ccMake m).lendOffer m)
  else if m.code = 0x0D then answer ((s.ccMake m).lendRecall m)
  else match (s.goneMember m).orElse (fun _ => s.rightHolder m) with
    | some r => (s.nxEnter m).cohServe q m r
    | none => s.refuse m Sts.permission

/-- R384, R387, R388: a request that may be performed: its life is charged and its copies are removed; with its bank full it waits.
A waiting request looks again. -/
def State.nxCached (s : State) (p : Nat) (m : Msg) (w a : Nat) (full : Bool) : State :=
  match s.charge p m w with
  | none => (s.consume p (vcOf m.code)).expired m
  | some m' =>
    if !isCached m.code then (s.consume p (vcOf m.code)).perform p m' a
    else match s.fab.cc.find? (fun e => e.key == reqKey m) with
      | some e => (s.consume p (vcOf m.code)).duplicate m e
      | none =>
        if full then
          let s := s.count (fabCtr 3)
          let s := if s.fab.ccFull then s else s.raise Ev.FAB_CC_FULL 0 0
          { s with fab := { s.fab with ccWait := s.fab.ccWait ++ [(⟨p, w, s.stamp, a, m⟩ : CcHeld)], ccFull := true } }.wr Csr.FABSTAT_cc_wait 1
        else (s.consume p (vcOf m.code)).perform p m' a

/-- R32, R191 to R194: a request for this node that passed R378: who may send it, and what the Sluice makes of it. -/
def State.nxAdmit (s : State) (p : Nat) (m : Msg) (w : Nat) (full : Bool) : State :=
  let gone (s : State) : State := s.consume p (vcOf m.code)
  if s.outsideDomain p then
    if m.code = 0x0C then (gone s).sealDenied.refuse m Sts.sealedDeny else (gone s).refuse m Sts.nodeDown
  else if m.code = 0x10 then
    let (a, s) := s.slAction p m.pan (meterBytes m) m.colour
    if a = 3 then (s.consume p (vcOf m.code)).refuse m Sts.throttled
    else s.nxCached p (if a = 1 then { m with mark := true } else m) w a full
  else if s.board.reset = some .warm then gone s
  else if s.nodeDown m then (gone s).refuse m Sts.nodeDown
  else
    let addressed := nxAddressed m.code
    let coh := decide (0x40 ≤ m.code)
    if addressed && !(coh && (s.goneMember m).isSome) && (!s.nxOwned m || (s.rightHolder m).isNone) then (gone s).refuse m Sts.permission
    else if m.code = 0x0B && !s.maySubmit m then (gone s).refuse m Sts.permission
    else
      let (a, s) := s.slAction p m.pan (meterBytes m) m.colour
      let m := if a = 1 then { m with mark := true } else m
      if a = 3 ∧ m.code ≠ 0x08 then (gone s).refuse m Sts.throttled
      else s.nxCached p m w a full

/-- R327, R376, R378, R389: a message for this node. -/
def State.nxHere (s : State) (p : Nat) (m : Msg) (w : Nat) (full : Bool) : State :=
  if vcOf m.code = 2 then
    let s := s.consume p 2
    if !s.nxOk p m then s.nxBad p m
    else if m.code = 0x30 ∨ m.code = 0x31 then s.rspArrive m
    else if m.code = 0x32 then s.rspDur m
    else if m.code = 0x62 then s.goAckArrive m
    else if m.code = 0x63 then s.ackArrive m none
    else if m.code = 0x64 then s.ackArrive m (some (withPoison m.data (cwPoison m)))
    else if m.code = 0x65 then s.nakArrive m
    else if m.code = 0x67 then s.cmpArrive m
    else if m.code = 0x68 then s.atomRsp m
    else s.rspDiscard
  else if vcOf m.code = 1 then
    let s := s.count (fabCtr 0)
    if !s.nxOk p m then (s.consume p 1).nxBad p m else s.nxAdmit p m w full
  else (s.consume p 3).nxBad p m

/-- A message arrives at port `p`: it is for this node, or goes on. Its final response, if it is one, leaves the window of its source
(R393). -/
def State.nxIn (s : State) (p : Nat) (m : Msg) (w : Nat) (full : Bool) : State :=
  let s := if s.ringPort p && isFinal m && m.dstNode == s.nodeId then s.windowBack m.srcNode m.mark else s
  if m.dstNode = s.nodeId ∧ !m.dstPartner then s.nxHere p m w full
  else (s.consume p (vcOf m.code)).nxForward p m w

/-- CC_ENTRY_WAIT_DONE: the oldest request that waits for an entry finds one. -/
def State.ccWaitDone (s : State) : State :=
  match s.fab.ccWait with
  | [] => s
  | h :: t =>
    let s := { s with fab := { s.fab with ccWait := t, ccFull := false } }.wr Csr.FABSTAT_cc_wait (if t = [] then 0 else 1)
    s.nxCached h.port h.msg (h.waited + subMod s.stamp h.since 64) h.act false

end Sys2Proof.Machine
end

