-- ==== Sys2Proof/Machine/Fabric.lean ====
section
/-!
DEFINITION. Holds, table changes and congestion maps of the fabric (R395 to R398), lost agents and sweeps (R326), and the timers of the
device's own requests.
-/
namespace Sys2Proof.Machine
open Sys2Proof Host

/-! ### Holds (R396) -/

/-- R396: no remote request is outstanding and every ring queue is empty. -/
def State.fabEmpty (s : State) : Bool := s.rd Csr.FABOUT_outstanding == 0 && s.rd Csr.FABOUT_queued == 0

/-- DRAIN_STAT on the accepting link. -/
def State.drainStat (s : State) : State :=
  match s.fab.drainPort with
  | some p => s.ctrl p [(0, 1, 0x41), (1, 2, s.rd Csr.FABSTAT_drain_id), (3, 2, s.nodeId), (5, 1, s.rd Csr.FABSTAT_held + 2 * s.rd Csr.FABSTAT_drained),
      (6, 4, s.rd Csr.FABOUT_outstanding), (10, 4, s.rd Csr.FABOUT_queued)]
  | none => s

/-- A hold takes effect, from port `p` or from FABCMD; the DRAIN_HOLD of the hold in force repeats its DRAIN_STAT. -/
def State.drainHold (s : State) (p : Option Nat) (id : Nat) : State :=
  let was := s.on Csr.FABSTAT_held
  if was && s.rd Csr.FABSTAT_drain_id == id then
    (match p with
     | some _ => { s with fab := { s.fab with drainPort := p } }.drainStat
     | none => s)
  else
    let s := { s with fab := { s.fab with drainPort := p } }
    let s := (s.wr Csr.FABSTAT_held 1).wr Csr.FABSTAT_drain_id id
    let s := if was then s else s.raise Ev.FAB_DRAIN_HELD 0 0
    s.drainStat

/-- The hold ends, and what waited for it goes on. -/
def State.holdEnd (s : State) (ev : Nat) : State :=
  if s.on Csr.FABSTAT_held then
    let s := ((s.wr Csr.FABSTAT_held 0).wr Csr.FABSTAT_drained 0).wr Csr.FABSTAT_drain_id 0
    ({ s with fab := { s.fab with drainPort := none } }.raise ev 0 0).retryWaiting
  else s

/-- DRAIN_HOLD and DRAIN_RELEASE act only from a port in fm_port_mask (R395). -/
def State.fmPort (s : State) (p : Nat) : Bool := s.bit Csr.FABCTL_fm_port_mask p

/-- R371, R395: a control message that is not accepted. -/
def State.ctrlIgnored (s : State) (p : Nat) : State := s.raise Ev.CTRL_IGNORED 2 p

/-- Bytes `[i, i + n)` of a control message. -/
def ctrlField (b : List Nat) (i n : Nat) : Nat := ofLeBytes ((b.drop i).take n)

/-- DRAIN_HOLD. -/
def State.drainHoldMsg (s : State) (p : Nat) (b : List Nat) : State :=
  if s.fmPort p then s.drainHold (some p) (ctrlField b 1 2) else s.ctrlIgnored p

/-- DRAIN_RELEASE: of the hold it names. -/
def State.drainReleaseMsg (s : State) (p : Nat) (b : List Nat) : State :=
  if s.fmPort p then
    (if s.rd Csr.FABSTAT_drain_id = ctrlField b 1 2 then s.holdEnd Ev.FAB_DRAIN_RELEASED else s)
  else s.ctrlIgnored p

/-- FAB_DRAINED. -/
def State.fabDrained (s : State) : State :=
  if s.on Csr.FABSTAT_held && !s.on Csr.FABSTAT_drained && s.fabEmpty then
    ((s.wr Csr.FABSTAT_drained 1).raise Ev.FAB_DRAINED 0 0).drainStat
  else s

/-- FAB_DRAINED. -/
def execFabDrained (s : State) : Outcome State Fault Refusal := .next s.fabDrained

/-- DRAIN_HOLD_TIMEOUT. -/
def execDrainHoldTimeout (s : State) : Outcome State Fault Refusal := .next (s.holdEnd Ev.FAB_DRAIN_TIMEOUT)

/-! ### Nodes marked down (R397) -/

/-- ROUTE[n].down is set or cleared at once. -/
def State.routeDown (s : State) (n : Nat) (down : Bool) : State :=
  if s.on (Csr.ROUTE_down n) = down then s
  else ((s.wr (Csr.ROUTE_down n) (if down then 1 else 0)).raise Ev.FAB_NODE_STATE 0 0).retryWaiting

/-- NODE_STATE. -/
def State.nodeStateMsg (s : State) (p : Nat) (b : List Nat) : State :=
  if s.fmPort p then s.routeDown (bitsOf (ctrlField b 1 2) 0 12) (!bitOf (ctrlField b 3 1) 0) else s.ctrlIgnored p

/-! ### Congestion maps (R398) -/

/-- Table 13-6: entries that are admitted and wait for a rake, on stall `k`. -/
def State.entriesWaiting (s : State) (k : Nat) : Nat :=
  ((s.queues.filter (fun (kv : Nat × Queue) => kv.2.home == k)).map (fun kv => (kv.2.ents.filter (fun e => e.st == .admitted)).length)).sum % 2 ^ 32

/-- Table 13-6: the map of the interval that ends now. What passed during the interval (occupancies, fractions of time, tallies by port,
loads, overdue reads) are free values (log entry 1). -/
def State.mapNow (s : State) : CongMap :=
  let v (i w : Nat) := Config.freeValue (s.freeCount + i) % 2 ^ w
  ⟨s.fab.mapSeq, s.fab.mapStart, subMod s.stamp s.fab.mapStart 64, (List.range 8).map (fun p => ⟨s.link p, v p 496⟩),
   (List.range 16).map (fun k => ⟨v (8 + k) 16, s.entriesWaiting k, v (24 + k) 32⟩)⟩

/-- CONGESTION_MAP: a map of the interval that ends now replaces the one in the mailbox. -/
def State.congestionMap (s : State) : State :=
  { s with freeCount := s.freeCount + 40,
           fab := { s.fab with map := some s.mapNow, mapSeq := (s.fab.mapSeq + 1) % 2 ^ 32, mapStart := s.stamp } }

/-- CONGESTION_MAP. -/
def execCongestionMap (s : State) : Outcome State Fault Refusal := .next s.congestionMap

/-! ### Lost agents (R326) -/

/-- SNOOP_TIMEOUT: members that left a snoop, or the GO_ACK of a grant, of this line unanswered are lost. -/
def State.snoopTimeout (s : State) (d : Nat) : State :=
  match s.txn d with
  | none => s
  | some t =>
    let late := (t.snoops.map (·.member)).eraseDups
    let late := if t.goAck && t.snoops.isEmpty && t.out.isEmpty then (match t.who with
      | .req _ _ r => [r]
      | _ => late) else late
    late.foldl State.agentLost s

end Sys2Proof.Machine
end

