-- ==== Sys2Proof/Machine/LinkCtl.lean ====
section
/-!
DEFINITION. Link states and the link control messages (R336 to R340, R344, R371, R441, R445, R448).
-/
namespace Sys2Proof.Machine
open Sys2Proof Host

/-! ### Training and sessions (Table 12-3, R344) -/

/-- TRAINING begins. -/
def State.trainBegin (s : State) (p : Nat) : State :=
  let (n, s) := s.drawFree 32
  let s := (s.portTo p 2).wr (Csr.SEARCHSTAT_next_ms p) 0
  s.setLnk p (fun l => { l with nonce := n, peerNonce := 0, init := (0, 0) })

/-- PARTNER_SIGNAL_DETECT: TRAINING begins, with a fresh nonce. -/
def State.signalDetect (s : State) (p : Nat) : State := if s.link p = 1 then s.trainBegin p else s

/-- FAST_RETRAIN_FAIL: a link in SLEEP goes to TRAINING. -/
def State.fastFail (s : State) (p : Nat) : State := if s.link p = 5 then s.trainBegin p else s

/-- INIT flags of this end (Table 12-6): encryption capable, twin link, lattice topology. -/
def State.initFlags (s : State) (p : Nat) : Nat := 1 + (if s.twinPort p then 2 else 0) + (if s.lattice then 4 else 0)

/-- An INIT flit (Table 12-6) that names session number `sess` goes out. -/
def State.initOut (s : State) (p sess : Nat) : State :=
    let l := s.lnk p
    let pl := ctrlBytes [(0, 1, 1), (1, 1, s.initFlags p), (2, 2, s.nodeId + p * 4096), (4, 4, l.nonce), (8, 4, l.peerNonce), (12, 8, s.stamp),
      (20, 8, l.init.1), (28, 4, if l.peerNonce = 0 then 0 else subMod s.stamp l.init.2 64), (32, 1, sess),
      (33, 2, 64), (35, 2, ([1, 2, 3].map (s.vcMax p)).foldl max 0)]
    let f : FlitOut := ⟨5, 0, false, 0, false, 0, 0, s.rd (Csr.PORTSTAT_sess p), 0, 0, pl, [], []⟩
    s.setLnk p (fun l => { l with last := some { f with raw := f.bytes pl none } })

/-- INIT_SEND. -/
def State.initSend (s : State) (p : Nat) : State :=
  if s.link p = 2 then s.initOut p ((s.rd (Csr.PORTSTAT_sess p) + 1) % 16) else s

/-- R344: until the partner's first flit of the session, its INIT flits are answered. -/
def State.initAnswer (s : State) (p : Nat) (b : List Nat) : State :=
  let f (i n : Nat) : Nat := ctrlField (flitBody b) i n
  if s.link p = 3 ∧ (s.lnk p).greet = true ∧ f 4 4 = (s.lnk p).peerNonce then
    (s.setLnk p (fun l => { l with init := (f 12 8, s.stamp) })).initOut p (s.rd (Csr.PORTSTAT_sess p))
  else s

/-- R344, R423, R445: the link opens its session; a twin link greets the twin, and a port with an SPDM session starts its
encryption anew. -/
def State.openLink (s : State) (p : Nat) (w : Bool × Bool) : State :=
  let s := (s.openSession p w).setLnk p (fun l => { l with rxGen := 0 })
  let s := (s.wr (Csr.PORTSEC_secured p) 0).wr (Csr.PORTSTAT_secured p) 0
  let s := if s.rd (Csr.PORTSEC_spdm p) = 2 then s.encStart p else s
  let x := s.rd Csr.TWINSTAT_state
  if s.twinPort p && (x == 1 || x == 4) && s.rd Csr.TWINCTL_port == p && bitOf (s.rd (Csr.PEERINFO_flags p)) twinFlag then s.twinHello else s

/-- INIT_FLIT: an INIT that passes R342, with the lanes that trained. -/
def State.initFlit (s : State) (p : Nat) (b : List Nat) (fec : Bool) (ser : List Nat) (tx rx : Nat) : State :=
  let s := s.fecCounts p fec ser
  if !s.flitOk p 5 b fec then s.count (linkCtr p 2)
  else if s.link p ≠ 2 then s.initAnswer p b
  else
    let f (i n : Nat) : Nat := ctrlField (flitBody b) i n
    let mine := (s.lnk p).nonce
    let now := s.stamp
    let s := s.setLnk p (fun l => { l with peerNonce := f 4 4, init := (f 12 8, now), peerSess := f 32 1 % 16 })
    let good := f 0 1 == 1 && bitsOf (f 1 1) 1 2 == bitsOf (s.initFlags p) 1 2
    let enc := !s.on (Csr.PORTCTL_enc_req p) && s.rd Csr.SECSTAT_state != 3 || bitOf (f 1 1) 0
    if !good then (s.wr (Csr.PORTSTAT_peer_mismatch p) 1).raise Ev.PEER_MISMATCH 2 p
    else if !enc then s
    else if f 8 4 ≠ mine ∨ mine = 0 ∧ f 8 4 = 0 then s
    else
      let s := s.wr (Csr.LINKRTT_rtt_ns p) (subMod (subMod now (f 20 8) 64) (f 28 4) 64)
      match s.laneWidth p tx rx with
      | none => s.linkSearch p
      | some w =>
        let id := f 2 2
        let s := ((s.wr (Csr.PEERINFO_node p) (id % 4096)).wr (Csr.PEERINFO_port p) (bitsOf id 12 3)).wr (Csr.PEERINFO_version p) (f 0 1)
        let s := (s.wr (Csr.PEERINFO_flags p) (f 1 1 % 8)).wr (Csr.PEERINFO_vc0_slots p) (f 33 2)
        (s.setLanes p tx rx w).openLink p w

/-- TRAINING_TIMEOUT. -/
def State.trainTimeout (s : State) (p : Nat) : State := if s.link p = 2 then s.linkSearch p else s

/-- SEARCH_ATTEMPT (R339): an attempt is made, and the wait that follows. -/
def State.searchAttempt (s : State) (p : Nat) : State :=
  if s.link p = 1 then
    let n := min (s.rd (Csr.SEARCHSTAT_attempts p) + 1) 0xFFFFFFFF
    (s.wr (Csr.SEARCHSTAT_attempts p) n).wr (Csr.SEARCHSTAT_next_ms p) (searchWait n)
  else s

/-- PORTCMD.search_now: the wait in SEARCHING ends. -/
def State.searchNow (s : State) (p : Nat) : State := if s.link p = 1 then s.wr (Csr.SEARCHSTAT_next_ms p) 0 else s

/-- PORTCMD.retrain, and SIGNAL_LOSS. -/
def State.retrainCmd (s : State) (p : Nat) : State := if s.link p = 3 then s.linkRetrain p else s

/-- LASER_LOW (R336): input A, or B, is low; its four transmit lanes are failed. -/
def State.laserLow (s : State) (p : Nat) (half : Bool) : State :=
  let s := (s.wr (if half then Csr.PORTSTAT_laser_b_low p else Csr.PORTSTAT_laser_a_low p) 1).raise Ev.LASER_LOW 2 p
  let s := s.wr (Csr.LANESTAT_tx_ok p) (setBits (s.rd (Csr.LANESTAT_tx_ok p)) (if half then 4 else 0) 4 0)
  s.retrainCmd p

/-- RETRAIN_DONE: the lanes have trained again: the session goes on with a replay from the oldest unacknowledged flit, or, for one
of a pair, a new session opens (R366, R370). -/
def State.retrainDone (s : State) (p tx rx : Nat) : State :=
  if s.link p = 6 then
    match s.laneWidth p tx rx with
    | none => s
    | some w =>
      let s := s.setLanes p tx rx w
      if s.on (Csr.PEERINFO_valid p) then
        let s := s.portTo p 3
        match (s.lnk p).oldest with
        | some k => s.setLnk p (fun l => { l with replay := some k.ext })
        | none => s
      else s.openLink p w
  else s

/-- RETRAIN_EXPIRE. -/
def State.retrainExpire (s : State) (p : Nat) : State := if s.link p = 6 then s.linkSearch p else s

/-! ### LPI and SLEEP (R340, R478) -/

/-- LPI is allowed by LINKPWR and PWRPOL.link_policy. -/
def State.lpiOn (s : State) (p : Nat) : Bool := s.on (Csr.LINKPWR_lpi_en p) && s.rd Csr.PWRPOL_link_policy != 2

/-- LPI_IDLE_EXPIRE: the end proposes LPI. -/
def State.lpiIdle (s : State) (p : Nat) : State :=
  if s.link p == 3 && s.linkIdle p && s.lpiOn p && !(s.lnk p).lpiReq then
    (s.setLnk p (fun l => { l with lpiReq := true })).ctrl p [(0, 1, 2)]
  else s

/-- SLEEP_IDLE_EXPIRE: the end wakes the link and proposes SLEEP, at once or when no flit is retained any more. -/
def State.sleepIdle (s : State) (p : Nat) : State :=
  if s.link p == 4 && s.nothingWaits p && s.sleepOn p && !(s.lnk p).sleepReq then
    ((s.portTo p 3).setLnk p (fun l => { l with sleepWant := true })).sleepAsk p
  else s

/-- What a request of the other end meets: none outstanding here; crossed with one that stands here (`some true`), or with one that is
withdrawn and not answered (`some false`). -/
def State.crossed (s : State) (p : Nat) (mine : Bool) : Option Bool :=
  let l := s.lnk p
  if !mine then none
  else if l.nonce < l.peerNonce then some true
  else if l.nonce = l.peerNonce then some false
  else none

/-- LPI_REQ. -/
def State.lpiReq (s : State) (p : Nat) : State :=
  let c := s.crossed p (s.lnk p).lpiReq
  if c = some true then s
  else
    let s := s.setLnk p (fun l => { l with lpiReq := false })
    if c = some false then s
    else s.ctrl p [(0, 1, 3), (1, 1, if s.linkIdle p && s.lpiOn p then 1 else 0)]

/-- LPI_ACK: the answer to the outstanding request; an accepted link enters LPI. -/
def State.lpiAck (s : State) (p : Nat) (b : List Nat) : State :=
  if (s.lnk p).lpiReq then
    let s := s.setLnk p (fun l => { l with lpiReq := false })
    if bitOf (ctrlField b 1 1) 0 ∧ s.link p = 3 then s.portTo p 4 else s
  else s

/-- SLEEP_REQ. -/
def State.sleepReq (s : State) (p : Nat) : State :=
  let c := s.crossed p (s.lnk p).sleepReq
  if c = some true then s
  else
    let s := s.setLnk p (fun l => { l with sleepReq := false })
    if c = some false then s
    else s.ctrl p [(0, 1, 5), (1, 1, if s.linkIdle p && s.sleepOn p && (s.lnk p).kept.isEmpty then 1 else 0)]

/-- SLEEP_ACK. -/
def State.sleepAck (s : State) (p : Nat) (b : List Nat) : State :=
  if (s.lnk p).sleepReq then
    let s := s.setLnk p (fun l => { l with sleepReq := false })
    if bitOf (ctrlField b 1 1) 0 ∧ s.link p = 3 then s.portTo p 5 else s
  else s

/-- LPI_REQ_TIMEOUT: outstanding requests count as refused. -/
def State.lpiTimeout (s : State) (p : Nat) : State := s.setLnk p (fun l => { l with lpiReq := false, sleepReq := false })

/-- WAKE_PATTERN: a link in LPI or SLEEP is ACTIVE again. -/
def State.wakePattern (s : State) (p : Nat) : State :=
  if s.link p = 4 ∨ s.link p = 5 then (s.portTo p 3).retryWaiting else s

/-! ### ECHO (R344) -/

/-- ECHO_TIMER. -/
def State.echoTimer (s : State) (p : Nat) : State := if s.link p = 3 then s.ctrl p [(0, 1, 7), (8, 8, s.stamp)] else s

/-- ECHO: its stamp goes back; bytes 23:16 hold the arrival until the ECHO_RSP is sent. -/
def State.echo (s : State) (p : Nat) (b : List Nat) : State := s.ctrl p [(0, 1, 8), (8, 8, ctrlField b 8 8), (16, 8, s.stamp)]

/-- ECHO_RSP. -/
def State.echoRsp (s : State) (p : Nat) (b : List Nat) : State :=
  s.wr (Csr.LINKRTT_rtt_ns p) (subMod (subMod s.stamp (ctrlField b 8 8) 64) (ctrlField b 16 8) 64)

/-! ### Encryption and SPDM fragments (R362, R441, R445, R448) -/

/-- TAG_TIMER_EXPIRE: covered flits wait for their TAG. -/
def State.tagTimer (s : State) (p : Nat) : State := s.setLnk p (fun l => { l with tagDue := l.tagDue || !l.uncovered.isEmpty })

/-- TX_REKEY_DUE: 2^34 flits have been sent under one generation. -/
def State.rekeyDue (s : State) (p : Nat) : State :=
  let l := s.lnk p
  if s.on (Csr.PORTSEC_secured p) && decide (l.genStart + 2 ^ 34 ≤ l.txNext) then s.portRekey p else s

/-- ENC_START of the other end. -/
def State.encStartMsg (s : State) (p : Nat) (b : List Nat) : State :=
  if s.rd (Csr.PORTSEC_spdm p) = 2 then
    (s.setLnk p (fun l => { l with encRx := some (ctrlField b 8 8), rxGen := ctrlField b 1 1, rxFrom := ctrlField b 8 8 })).secureCheck p
  else s

/-- REKEY: the receive direction goes to the next generation. -/
def State.rekeyMsg (s : State) (p : Nat) (b : List Nat) : State :=
  if s.on (Csr.PORTSEC_secured p) && ctrlField b 1 1 == ((s.lnk p).rxGen + 1) % 256 then
    (s.setLnk p (fun l => { l with rxGen := ctrlField b 1 1, rxFrom := ctrlField b 8 8 })).raise Ev.PORT_REKEY 2 p
  else s

/-- SPDM_FRAG: fragments of one direction join up; a finished message goes to the Ticket Booth, one that is too long is discarded. -/
def State.spdmFrag (s : State) (p : Nat) (b : List Nat) : State :=
  let fl := ctrlField b 1 1
  let dir := bitsOf fl 2 1
  let n := ctrlField b 4 2
  if n = 0 ∨ 232 < n then s
  else
    let old := if bitOf fl 0 then [] else SMap.get [] dir (s.lnk p).frag
    let new := old ++ (b.drop 8).take n
    let keep := if bitOf fl 1 ∨ 65536 < new.length then [] else new
    s.setLnk p (fun l => { l with frag := SMap.put [] dir keep l.frag })

end Sys2Proof.Machine
end

