-- ==== Sys2Proof/Machine/QueueOps.lean ====
section
/-!
DEFINITION. DURABLE.SYNC (R131) and the queue instructions SUBMIT, NOTIFY and QSTAT (R132 to R134).
-/
namespace Sys2Proof.Machine

open Host

/-! ### DURABLE.SYNC -/

/-- R131, R291: the writes in scope are all in the log: scope 0 those of the entry, scope 1 those of the pan before `pos`. -/
def State.synced (s : State) (v : Env) (scope pos : Nat) : Bool :=
  if scope = 0 then s.entryDurable v.qid v.e
  else (s.pan v.pan).undur.all (fun u => decide (pos ≤ u.pos))

/-- R131: the writes in scope touch a durable pan. -/
def State.syncTouches (s : State) (v : Env) (scope : Nat) : Bool :=
  if scope = 0 then v.e.durPos.isSome else s.panDurable v.pan && (s.pan v.pan).pos != 0

/-- R131: DURABLE.SYNC starts its wait, or completes at once. -/
def insnDurableSync (again : Bool) (f : Fetch) (s : State) : State :=
  s.runInsn 0x73 f (.durableSync f) again fun v s =>
    let scope := bitsOf v.i.mod 0 1
    let pos := (s.pan v.pan).pos
    if !s.syncTouches v scope then .ok Sts.ok v.ctx s
    else if s.synced v scope pos then .ok Sts.okDurable v.ctx s
    else .wait (.durable scope pos) s

def execDurableSync (f : Fetch) (s : State) : Outcome State Fault Refusal := .next (insnDurableSync false f s)

/-- DURABLE_SYNC_DONE: the log has covered the writes in scope, or the path to a node that was to report some is lost. -/
def State.durableSyncDone (s : State) (r : Nat) : State :=
  match (s.rake r).wait with
  | .durable scope pos =>
    s.resumeInsn r fun v s =>
      let down := (s.fab.reqs.filter (fun q => q.use == .durable v.qid v.e.pos)).map (fun q => s.nodePath q.node)
      if s.synced v scope pos then .ok Sts.okDurable v.ctx s
      else if down.contains 2 then .stop Sts.nodeDown s
      else if down.contains 1 then .stop Sts.linkLost s
      else .wait (.durable scope pos) s
  | _ => s

def execDurableSyncDone (r : Fin 256) (s : State) : Outcome State Fault Refusal := .next (s.durableSyncDone r)

/-- DURABLE_SYNC_TIMEOUT: a non-zero timeout expires. -/
def State.durableSyncTimeout (s : State) (r : Nat) : State :=
  match (s.rake r).wait with
  | .durable scope pos =>
    s.resumeInsn r fun v s => if v.i.imm = 0 then .wait (.durable scope pos) s else .stop Sts.timeout s
  | _ => s

def execDurableSyncTimeout (r : Fin 256) (s : State) : Outcome State Fault Refusal := .next (s.durableSyncTimeout r)

/-! ### SUBMIT -/

/-- Occupied slots of a queue (R179). -/
def Queue.occupied (q : Queue) : Nat := subMod q.tail q.head 32

/-- R132, R56: an image enters the slot at the tail with the phase of that slot, the tail advances, and admission stopped at a
wrong phase restarts. -/
def State.submitTo (s : State) (qid port : Nat) (bs : List PByte) : Nat × State :=
  let q := s.queue qid
  let slot := q.tail % q.depth
  let img := match bs with
    | b :: t => (setBits b.1 0 1 (lapBit q.tail q.depthLog), b.2) :: t
    | [] => []
  let s := s.devWrite (q.body + 256 * slot) img
  let t := (q.tail + 1) % 2 ^ 32
  (slot, s.setQueue qid (fun q => { q with tail := t, doors := q.doors ++ [(t, port)], stale := false }))

/-- R132: SUBMIT of an image that has been read. -/
def Env.submit (v : Env) (s : State) (bs : List PByte) : Eff :=
  let qid := v.reg v.i.ra
  let q := s.queue qid
  let bad := anyPoison bs
  if bad && v.i.sp == 0 then .stop Sts.malformed s
  else if q.pan ≠ v.pan then .stop Sts.permission s
  else if q.depth ≤ q.occupied then (if v.i.m 0 then .wait .slot s else .stop Sts.throttled s)
  else if bad then .ok Sts.ok (v.setSp v.ctx true) s
  else
    let (slot, s) := s.submitTo qid v.e.port bs
    .ok Sts.ok (v.setSp (v.ctx.setReg v.i.rb slot false) false) s

/-- The queue that SUBMIT names is full. -/
def Env.submitFull (v : Env) (s : State) : Bool :=
  let q := s.queue (v.reg v.i.ra)
  decide (q.depth ≤ q.occupied)

/-- R132: SUBMIT. In the order of R10 the queue's pan is checked with the rights of the operand, and a full queue before what reaching an image
that is not this node's own memory may come to. -/
def insnSubmit (again : Bool) (f : Fetch) (s : State) : State :=
  s.runInsn 0x80 f (.submit f) again fun v s =>
    let qid := v.reg v.i.ra
    let ok := v.aligned v.i.op 256 && !v.poi v.i.ra && decide (qid < 2 ^ 19) && (s.queue qid).st != .free
    let locs : Sum Nat (List Loc) := match v.loc v.i.op 0 256 false with
      | .inl st => .inl st
      | .inr l => .inr [{ l with denied := l.denied || (s.queue qid).pan != v.pan }]
    v.access s ok false locs fun ls s =>
      if v.submitFull s && !ls.all s.allLocal then (if v.i.m 0 then .wait .slot s else .stop Sts.throttled s)
      else v.read s false ls fun bs s => v.submit s bs

def execSubmit (f : Fetch) (s : State) : Outcome State Fault Refusal := .next (insnSubmit false f s)

/-- SUBMIT_SLOT_FREED: a SUBMIT that waits for a free slot looks again. -/
def State.submitSlotFreed (s : State) (r : Nat) : State :=
  match (s.rake r).wait, (s.rake r).instr with
  | .slot, some (.submit f) => insnSubmit true f s
  | _, _ => s

def execSubmitSlotFreed (r : Fin 256) (s : State) : Outcome State Fault Refusal := .next (s.submitSlotFreed r)

/-! ### NOTIFY and QSTAT -/

/-- R133, R443: in SEALED, a port whose way out is not secured, or not in the tenant's domain, is denied. -/
def State.notifyDenied (s : State) (node port : Nat) : Bool :=
  s.rd Csr.SECSTAT_state == 3 &&
  (match s.hop { code := 0x21, dstPartner := true, dstPort := port, dstNode := node, srcNode := s.nodeId } with
   | .port p _ _ => !s.on (Csr.PORTSEC_secured p) || !s.on (Csr.PORTSEC_domain p)
   | _ => node == s.nodeId && (!s.on (Csr.PORTSEC_secured port) || !s.on (Csr.PORTSEC_domain port)))

/-- R133: NOTIFY. -/
def insnNotify (again : Bool) (f : Fetch) (s : State) : State :=
  s.runInsn 0x81 f (.notify f) again fun v s =>
    let sel := v.i.m 0
    if sel && (v.poi v.i.ra || decide (8 ≤ v.reg v.i.ra)) then .stop Sts.malformed s
    else
      let node := if sel then s.nodeId else v.e.port / 8
      let port := if sel then v.reg v.i.ra else v.e.port % 8
      if s.notifyDenied node port then .stop Sts.sealedDeny s.sealDenied
      else
        let data := leBytes 8 (v.reg v.i.rb) ++ leBytes 8 (v.reg ((v.i.rb + 1) % 32))
        match s.notice 0x21 node port v.qid 0 (v.e.pos % (s.queue v.qid).depth) v.pan data with
        | (true, s) => .ok Sts.ok (v.setSp v.ctx false) s
        | (false, s) => if v.i.sp = 0 then .stop Sts.linkLost s else .ok Sts.ok (v.setSp v.ctx true) s

def execNotify (f : Fetch) (s : State) : Outcome State Fault Refusal := .next (insnNotify false f s)

/-- R134: QSTAT. -/
def insnQstat (again : Bool) (f : Fetch) (s : State) : State :=
  s.runInsn 0x82 f (.qstat f) again fun v s =>
    let qid := v.reg v.i.rb
    let q := s.queue qid
    if v.poi v.i.rb || decide (2 ^ 19 ≤ qid) || q.st == .free then .stop Sts.malformed s
    else if q.pan ≠ v.pan then .stop Sts.permission s
    else .ok Sts.ok (v.ctx.setReg v.i.ra (q.occupied + (q.depth - q.occupied) * 2 ^ 32) false) s

def execQstat (f : Fetch) (s : State) : Outcome State Fault Refusal := .next (insnQstat false f s)

end Sys2Proof.Machine
end

