-- ==== Sys2Proof/Machine/Sched.lean ====
section
/-!
DEFINITION. Granules that return to FREE, pans that drain, and the steps of the schedulers (R13, R33, R34, R59, R63, R80,
R185, R189, R210, R218, R219).
-/
namespace Sys2Proof.Machine
open Sys2Proof Host

/-! ### Drop records (R13) -/

/-- DROP_RECORD_WRITE: the destination has room again, and the drops of a class are reported there. -/
def State.dropReport (s : State) (aon : Bool) (c : Nat) : State :=
  let d := SMap.get DropCount.zero c (if aon then s.log.aonDrops else s.log.drops)
  if d = DropCount.zero then s
  else if aon then
    if s.aonAdmits c then
      let s := s.aonWrite (dropRecord c s.stamp d)
      { s with log := { s.log with aonDrops := SMap.put DropCount.zero c DropCount.zero s.log.aonDrops } }
    else s
  else if s.log.staging.length < 2048 && !(s.inDeep && decide (2047 ≤ s.log.staging.length)) then
    let s := { s with log := { s.log with drops := SMap.put DropCount.zero c DropCount.zero s.log.drops } }
    s.pushRing (dropRecord c s.stamp d)
  else s

/-- DROP_RECORD_WRITE. -/
def execDropRecordWrite (aon : Bool) (c : Fin 256) (s : State) : Outcome State Fault Refusal := .next (s.dropReport aon c.val)

/-! ### Granules and pans -/

/-- R33: a lent granule is zeroed by writes to its lender, once it has a path; it returns to FREE when every one has been answered. -/
def State.zeroLent (s : State) (g : Nat) : State :=
  let k := (g - tierBase 3) / 4194304
  let off := g * granSize - lentBase - k * lentSlotSize
  if s.fab.zeroing.contains g then
    (if s.moveWaits 64 g then s
     else ({ s with fab := { s.fab with zeroing := s.fab.zeroing.filter (fun x => x != g) } } : State).zeroDone g)
  else if s.lentPath k = 0 then
    (List.range 512).foldl (fun s i =>
      (s.lender k 0x02 (off + 4096 * i) 4096 (List.replicate 4096 (0, false)) (.move 64 g (4096 * i))).2)
      { s with fab := { s.fab with zeroing := g :: s.fab.zeroing } }
  else s

/-- GRANULE_ZEROING_DONE: of a granule that an engine works on. -/
def State.granZeroed (s : State) (g : Nat) : State :=
  if s.beingZeroed g then (if tierOf (g * granSize) = 3 then s.zeroLent g else s.zeroDone g) else s

/-- Granules that pan `n` owns. -/
def State.pansGrans (s : State) (n : Nat) : List Nat :=
  (s.grans.filter (fun kv => kv.2.st == .owned && kv.2.owner == n)).map (·.1)

/-- Queues of pan `n` that exist. -/
def State.pansQueues (s : State) (n : Nat) : List Nat :=
  (s.queues.filter (fun kv => kv.2.pan == n && kv.2.st != .free && !isRm kv.1)).map (·.1)

/-- R34: nothing of pan `n` is in flight: its entries have their records, its requests their responses, its changes of translations
their drains. -/
def State.panQuiet (s : State) (n : Nat) : Bool :=
  (s.pansQueues n).all (fun q => (s.queue q).ents.isEmpty)
    && s.shoots.all (fun x => x.pan != n)
    && s.waits.all (fun w => match w.who with
        | .msg _ m => m.pan != n
        | .rake _ => true)
    && (s.pan n).undur.isEmpty

/-- What the pan keeps is freed: page tables, fault queue and caches; enable is cleared in both sets. -/
def State.panClear (s : State) (n : Nat) : State :=
  let s := (s.pansQueues n).foldl State.destroyQueue s
  let s := (s.twinRelease n ((s.pansGrans n).filter (fun g => tierOf (g * granSize) == 1)))
  let s := (s.pansGrans n).foldl State.releaseOne s
  let s := { s with pans := SMap.put Pan.fresh n Pan.fresh s.pans, runCache := s.runCache.filter (fun e => e.pan != n),
                    walkCache := s.walkCache.filter (fun e => e.pan != n), walks := s.walks.filter (fun w => w.pan != n) }.grantWalks
  let s := ((s.wr (Csr.PANPTROOT_root n) 0).wr (Csr.PANSCHED_park_alloc n) 0).wr (Csr.FQSTAT_pending n) 0
  let s := ((s.wr (Csr.FQSTAT_full n) 0).wr (Csr.FQPOS_producer n) 0).wr (Csr.FQPOS_consumer n) 0
  let s := (s.wrSet 0 (Csr.PANCTL_enable n) 0).wrSet 1 (Csr.PANCTL_enable n) 0
  (s.wr (Csr.PANSTAT_state n) 0).panLevels n

/-- PAN_DRAIN_COMPLETE. Partner copies of the lines to be released are recalled first (R331). -/
def State.panDrained (s : State) (n : Nat) : State :=
  if s.rd (Csr.PANSTAT_state n) ≠ 2 ∨ !s.panQuiet n then s
  else
    let gs := s.pansGrans n
    let held := gs.flatMap (fun g => s.heldIn (g * granSize) granSize)
    if held ≠ [] then held.foldl (fun s d => s.recall d true) s
    else if s.coh.txns.any (fun t => gs.contains (t.line * 128 / granSize)) then s
    else s.panClear n

/-! ### Schedulers -/

/-- Turns that `pick` needs at most: each queue of the list is visited until its quanta have repaid its debt. -/
def State.pickFuel (s : State) (k : Nat) : Nat :=
  ((s.actList k).map (fun q => (s.queue q).deficit.natAbs / max (s.queue q).quantum 1 + 3)).sum + 1

/-- ENTRY_DISPATCH (R63, R186, R187): the scheduler of a stall that serves wins a free rake in the stall's rake dispatch, and the entry of
the queue that `pick` names takes it. A scheduler with no queue in its list does not request. -/
def State.entryDispatch (s : State) (r : Nat) : State :=
  let k := r / 16
  if (s.rake r).busy || (s.rake r).helps != 0 || s.stallFailed k || s.bit Csr.STALLPWR_gated k || s.bit Csr.STALLPWR_waking k then s
  else
    let s := s.relist
    if s.actList k = [] then s
    else match s.rakeGrant k 0 with
      | none => s
      | some s => match State.pick k (s.pickFuel k) s with
        | (some q, s) => (s.dispatchTo q r).relist
        | (none, s) => s

/-- ENTRY_DISPATCH. -/
def execEntryDispatch (r : Fin 256) (s : State) : Outcome State Fault Refusal := .next (s.entryDispatch r.val)

/-- DURABLE_RECORD_WRITE. -/
def execDurableRecordWrite (q : Fin 524288) (pos : Nat) (s : State) : Outcome State Fault Refusal :=
  .next (s.durableRecord q.val pos).relist

/-- QUEUE_MOVE_DONE. -/
def execQueueMoveDone (q : Fin 524288) (s : State) : Outcome State Fault Refusal := .next (s.moveDone q.val).relist

/-- TOKEN_REFILL (R189). -/
def State.refillTokens (s : State) (q : Nat) : State :=
  let x := s.queue q
  if x.st = .free ∨ x.tbRate = 0 then s
  else (s.setQueue q (fun x => { x with tokens := min (x.tokens + x.tbRate) (65536 * x.tbBurst) })).relist

/-- TOKEN_REFILL. -/
def execTokenRefill (q : Fin 524288) (s : State) : Outcome State Fault Refusal := .next (s.refillTokens q.val)

/-- PAGE_WALK_DONE (R209, R210): the walk's reads complete; the run that holds the missed page enters the run cache, and the entry that
missed goes on with its resolution. -/
def State.walkDone (s : State) (key va : Nat) : State :=
  match s.walks.find? (fun w => w.key == key && w.va == va && w.found.isNone && !w.waits) with
  | none => s
  | some w =>
    let (o, s) := s.walk w.pan va
    let s := s.cacheRun w.pan o
    { s with walks := s.walks.map (fun (x : Walk) => if x = w then { x with found := some o } else x) }.grantWalks

/-- PAGE_WALK_DONE. -/
def execPageWalkDone (key va : Nat) (s : State) : Outcome State Fault Refusal := .next (s.walkDone key va)

/-- FAULT_BATCH_CLOSE: the open batch of a pan closes; a batch of 256 records has closed already (R218). -/
def State.batchClose (s : State) (n : Nat) : State := s.setPan n (fun p => { p with batches := closeLast 1 p.batches })

/-- FAULT_BATCH_CLOSE. -/
def execFaultBatchClose (n : Fin 64) (s : State) : Outcome State Fault Refusal := .next (s.batchClose n.val)

/-- FAULT_BATCH_POST. -/
def execFaultBatchPost (n : Fin 64) (s : State) : Outcome State Fault Refusal := .next (s.postBatch n.val)

/-- LEND_OFFER_TIMEOUT. -/
def execLendOfferTimeout (k : Fin 64) (s : State) : Outcome State Fault Refusal := .next (s.offerTimeout k.val)

/-- LENT_RECALL_DONE. -/
def execLentRecallDone (k : Fin 64) (s : State) : Outcome State Fault Refusal := .next (s.recallDone k.val)

/-- LENT_LOST_CLEARED. -/
def execLentLostCleared (k : Fin 64) (s : State) : Outcome State Fault Refusal := .next (s.lostCleared k.val)

/-- RESV_LAPSE. -/
def execResvLapse (line : Nat) (s : State) : Outcome State Fault Refusal := .next (s.resvLapse line)

end Sys2Proof.Machine
end

