-- ==== Sys2Proof/Machine/Switch.lean ====
section
/-!
DEFINITION. The tenant switch: its start, SCRUB, and the state after it (R434, R435, R439, R452, R455 to R457, R462).
-/
namespace Sys2Proof.Machine
open Sys2Proof Host

/-! ### Records and what is measured -/

/-- R435: the tenancy record is rewritten with a state. -/
def State.putRecordState (s : State) (x : Nat) : State := { s with sec := { s.sec with record := x, recordOk := true } }

/-- MGMTSTAT follows the management sessions and the subscriber slots (Table 18-14). -/
def State.mgmtLevels (s : State) : State :=
  let s := s.wr Csr.MGMTSTAT_sessions ((s.sec.sessions.filter (fun x => x.port == 8)).length)
  s.wr Csr.MGMTSTAT_subscribers (((List.range 4).map (fun k => if (SMap.get none k s.mgmt.subs).isSome then 2 ^ k else 0)).sum)

/-- An SPDM session ends (R445): over a port its flit keys go too; publications inside it stop (R516). -/
def State.sessionEnd (s : State) (x : Session) : State :=
  if x.port < 8 then s.spdmEnd x.port
  else
    let mine (v : Option Sub) : Bool := match v with
      | some y => y.sess == x.id
      | none => false
    let s := { s with sec := { s.sec with sessions := s.sec.sessions.filter (fun (y : Session) => y.id != x.id) },
                      mgmt := { s.mgmt with subs := s.mgmt.subs.filter (fun (kv : Nat × Option Sub) => !mine kv.2) } }
    (s.raise Ev.SPDM_SESSION_END 0 0 0xFF).mgmtLevels

/-- The session is the tenant's: mutual authentication ended at the tenant root (R440). -/
def State.ofTenant (s : State) (x : Session) : Bool := x.mutual_ && x.root == s.sec.tenant

/-- R439: measurement block 8 or 9 changes: while a session is open POLICY_CHANGED is raised, and every session but the tenant's
ends. -/
def State.measured (s : State) : State :=
  if s.sec.sessions.isEmpty then s
  else
    let s := s.raise Ev.POLICY_CHANGED 0 0
    (s.sec.sessions.filter (fun x => !s.ofTenant x)).foldl State.sessionEnd s

/-! ### The start of a switch -/

/-- R455, R457: SCRUB is armed with a new token, and its request is posted; requests of older tokens leave the ring. -/
def State.armScrub (s : State) : State :=
  let (t, s) := s.drawFree 32
  let s := { s with sec := { s.sec with armed := some t, scrubbed := 0 },
                    mgmt := { s.mgmt with down := s.mgmt.down.filter (fun (x : Nat × List Nat) => x.1 != 2), waiting := none } }
  s.postSwitch t

/-- R455: the Ticket Booth enters SWITCHING: the keys of pans and port flits are destroyed, the record is written and SCRUB is armed. `after` is 0 for OPEN, 3
for SEALED, 5 for an owner clear. -/
def State.switchStart (s : State) (after : Nat) (full : Bool) : State :=
  let s := (s.wr Csr.SECSTAT_state 2).raise Ev.SWITCH_START 0 0
  let s := (List.range 64).foldl State.keysDrop s
  let s := if s.sec.record = 3 then s.setKeys (fun k => { k with sysHeap := 0 }) else s
  let s := s.putRecordState 2
  let lose (x : Session) : Session := if x.port < 8 then { x with ems := 0 } else x
  let s := { s with sec := { s.sec with after := after, full := full, began := s.stamp, sessions := s.sec.sessions.map lose } }
  s.armScrub.measured

/-- R456: the ending policy asks for zeroing on exit (Table 15-6, byte 2). -/
def State.zeroOnExit (s : State) : Bool := bitOf s.sec.policy 18

/-! ### SCRUB (Table 15-12) -/

/-- Every program but the one on rake `keep` stops at once, without a record (Table 03-8); contexts of the Ringmaster's queues stay. -/
def State.scrubRakes (s : State) (keep : Option Nat) : State :=
  let stays (r : Nat) : Bool := keep == some r
  let ents (q : Queue) : Queue := { q with ents := q.ents.filter (fun e => match e.onRake with
                                                                      | some r => stays r
                                                                      | none => false),
                                           resumeQ := [], resolving := none }
  let idle (s : State) (r : Nat) : State :=
    (((s.wr (Csr.RAKESTAT_state (r / 16) (r % 16)) 0).wr (Csr.RAKESTAT_pan (r / 16) (r % 16)) 0).wr
      (Csr.RAKESTAT_qid (r / 16) (r % 16)) 0).wr (Csr.RAKESTAT_pc (r / 16) (r % 16)) 0
  let s := ((List.range 256).filter (fun r => ((s.rake r).busy || (s.rake r).helps != 0) && !stays r)).foldl idle s
  { s with rakes := s.rakes.filter (fun (kv : Nat × Rake) => stays kv.1),
           queues := (s.queues.filter (fun (kv : Nat × Queue) => isRm kv.1)).map (fun (kv : Nat × Queue) => (kv.1, ents kv.2)),
           lists := s.lists.map (fun (kv : Nat × List Nat) => (kv.1, kv.2.filter isRm)),
           waits := [], walks := [], walkTurn := 0, shoots := [], stopQ := [], runCache := [], walkCache := [], icache := [],
           rm := { s.rm with opened := s.rm.opened.filter (fun (o : Nat × Nat) => stays o.1) } }

/-- Every tagged work item has ended: EPOCHINFL reads zero, but for the SCRUB itself. -/
def State.scrubWork (s : State) (keep : Option Nat) : State :=
  let s := s.wr Csr.EPOCHINFL_previous 0
  let s := s.wr Csr.EPOCHINFL_current (if keep.isSome then min 1 (s.rd Csr.EPOCHINFL_current) else 0)
  { s with fab := { Fab.idle with tag := s.fab.tag, epoch := s.fab.epoch, nextId := s.fab.nextId, mapSeq := s.fab.mapSeq, map := s.fab.map,
                                  mapStart := s.fab.mapStart, drainPort := s.fab.drainPort } }.fabOut

/-- A node-local address of the stacked DRAM. -/
def inStk (a : Nat) : Bool := decide (stkBase ≤ a) && decide (a < stkBase + 0x800000000)

/-- A node-local address of the heap. -/
def inHeap (a : Nat) : Bool := decide (heapBase ≤ a) && decide (a < lentBase)

/-- Stacked DRAM is written with zeros, SRAM is cleared, and heap granules become unwritten (R452). -/
def State.scrubMem (s : State) : State :=
  let gone (a : Nat) : Bool := inStk a || inHeap a
  let d := s.dram
  let s := { s with mem := s.mem.filter (fun (c : Cell) => !gone c.1), coh := Coh.idle,
                    dram := { d with poison := d.poison.filter (fun (kv : Nat × Bool) => !gone (kv.1 * 64)),
                                     faults := d.faults.filter (fun (kv : Nat × HalfFault) => !gone (kv.1 * 64)),
                                     cache := [], brine := [], filter := [], sweeps := [], refs := [], hand := [] } }
  s.wr Csr.STKSTAT_sweeping 0

/-- What the switch makes of a granule: an owned or zeroing DDR5 granule is to be zeroed, one of the stacked DRAM or the heap is FREE,
one whose retirement waits is SYSTEM, and lent granules leave the table. -/
def scrubGran (kv : Nat × Granule) : Option (Nat × Granule) :=
  let t := tierOf (kv.1 * granSize)
  let x := kv.2
  if x.st ≠ .owned ∧ x.st ≠ .zeroing then some kv
  else if x.retire then some (kv.1, { Granule.fresh with st := .system })
  else if t = 1 then some (kv.1, { Granule.fresh with st := .zeroing, remap := x.remap })
  else if t = 3 then none
  else some (kv.1, { Granule.fresh with remap := x.remap })

/-- Every pan is FREE without draining, and every granule of a pan is released. -/
def State.scrubPans (s : State) : State :=
  let late := (s.grans.filter (fun (kv : Nat × Granule) => kv.2.st == .owned && kv.2.retire)).map (·.1)
  let q := (s.grans.filter (fun (kv : Nat × Granule) => kv.2.st == .owned && !kv.2.retire && tierOf (kv.1 * granSize) == 1)).map (·.1)
  let keep := s.zeroQ.filter (fun g => tierOf (g * granSize) == 1)
  let gs := (s.grans.filterMap scrubGran).filter (fun (kv : Nat × Granule) => kv.2 != Granule.fresh)
  let s := { s with grans := gs, zeroQ := keep ++ q, pans := [], heap := { s.heap with cat := [], area := [] } }
  late.foldl State.noteRetired s

/-- Lent slots become EMPTY, and each lender is told once a session is open again (log entry 65). -/
def State.scrubSlots (s : State) : State :=
  ((List.range 64).filter (fun k => s.rd (Csr.LENTSTAT_state k) != 0)).foldl (fun s k => (s.lendReply k 2 0).slotEmpty k) s

/-- Registers of pans, MEMBER, lent slots, queues, Sluice, and what counts lines of pans and lost members. -/
def scrubReg (o : Nat) : Bool :=
  (decide (0x10000 ≤ o) && decide (o < 0x40000))
  || (decide (0x4100 ≤ o) && decide (o < 0x4180))
  || (decide (0x1000000 ≤ o) && decide (o < 0x2000000) && decide (0x6000 ≤ o % 0x100000) && decide (o % 0x100000 < 0x7000))
  || (decide (0x2040000 ≤ o) && decide (o < 0x2400000) && decide (0x40000 ≤ o % 0x80000) && decide (o % 0x80000 < 0x41000))
  || (decide (0x2A01000 ≤ o) && decide (o < 0x2A01200))

/-- The buffers of a port's link are cleared (Table 15-12): retained, received and half-sent flits, and the safety net. -/
def State.scrubLink (s : State) (p : Nat) : State :=
  let s := s.setLnk p (fun l =>
    { l with hand := [], part := [], kept := [], replay := none, uncovered := [], tagDue := false, held := [], buf := [], stale := [],
             rxPart := [], drain := ⟨[], []⟩, frag := [] })
  ((List.range 3).foldl (fun s v => s.wr (Csr.RXCAP_occ p v) 0) (s.wr (Csr.RETAINSTAT_spilled p) 0)).retain p

/-- The steps of SCRUB up to the zeroing of DDR5 (Table 15-12). -/
def State.scrub (s : State) (keep : Option Nat) : State :=
  let s := (((s.scrubRakes keep).scrubWork keep).scrubMem).scrubSlots
  let s := s.scrubPans
  let s := { s with sluice := [] }.dropRegs scrubReg
  let s := s.wr Csr.COHSTAT_sweeping 0
  let s := (List.range 16).foldl (fun s k => s.wr (Csr.COHSLSTAT_resv_used k) 0) s
  let s := (List.range 8).foldl (fun s p => (s.scrubLink p).portEnd p) s
  { s with sec := { s.sec with scrubbed := 1 } }

/-- A DDR5 granule is being zeroed. -/
def State.zeroing (s : State) : Bool := s.zeroQ.any (fun g => tierOf (g * granSize) == 1)

/-- Byte `i` to `i + 7` registers of a digest. -/
def State.putDigest (s : State) (f : Nat → Fld) (x : Nat) : State := (List.range 6).foldl (fun s i => s.wr (f i) (bitsOf x (64 * i) 64)) s

/-- SCRUB completes: the state after the switch is entered (R440, R455, R462). -/
def State.switchEnd (s : State) : State :=
  let x := s.sec
  let s := s.wr Csr.SWITCHSTAT_full_zero (if x.full then 1 else 0)
  let s := s.wr Csr.SWITCHSTAT_last_us (min (subMod s.stamp x.began 64 / 1000) 0xFFFFFFFF)
  let s := s.wr Csr.SWITCHSTAT_zeroing (if s.zeroing then 1 else 0)
  let s := { s with sec := { s.sec with armed := none, scrubbed := 0, full := false, after := 0 } }
  if x.after = 3 then
    let (k, s) := s.drawFree 512
    let s := s.setKeys (fun y => { y with sysHeap := k })
    let s := (s.putRecordState 3).wr Csr.SECSTAT_state 3
    let s := s.wr Csr.SECPOLICY_policy (x.policy % 2 ^ 64)
    let s := (s.putDigest Csr.SECPOLDIG_digest (Config.digest (leBytes 64 x.policy))).putDigest Csr.TENANTDIG_digest x.tenant
    ((s.raise Ev.SWITCH_DONE 0 0).raise Ev.TENANCY_SEALED 0 0).measured
  else
    let s := { s with sec := { s.sec with policy := 0, tenant := 0, offered := 0 } }
    let s := (s.putRecordState 0).wr Csr.SECSTAT_state 0
    let s := s.wr Csr.SECPOLICY_policy 0
    let s := (s.putDigest Csr.SECPOLDIG_digest 0).putDigest Csr.TENANTDIG_digest 0
    let s := s.raise Ev.SWITCH_DONE 0 0
    let s := if x.after = 5 then
        let (k, s) := s.drawFree 256
        let s := { s.setKeys (fun y => { y with seal_ := some k }) with sec := { s.sec with owner := none } }
        let s := (s.wr Csr.SECSTAT_owner_set 0).wr Csr.SECSTAT_seal_valid 1
        if x.owner.isSome then s.raise Ev.OWNER_CHANGED 0 0 else s
      else s
    let s := s.setKeys (fun y => { y with sysHeap := Config.systemHeapKey (y.seal_.getD 0) })
    s.measured

/-- R456: SCRUB with its steps done completes: at once, or with full zeroing when every granule is FREE. -/
def State.scrubFinish (s : State) : State :=
  if s.sec.scrubbed = 1 ∧ !(s.sec.full && s.zeroing) then
    let s := s.switchEnd
    if s.zeroing then s else s.raise Ev.ZERO_DONE 0 0
  else s

/-- SCRUB waits while DDR5 granules are zeroed that must be. -/
def scrubEff (v : Env) (s : State) : Eff := if s.sec.scrubbed == 1 then .wait .zero s else .ok Sts.ok v.ctx s

/-- SCRUB (R455). -/
def insnScrub (again : Bool) (f : Fetch) (s : State) : State :=
  s.runInsn 0xF0 f (.scrub f) again fun v s =>
    let x := v.reg v.i.ra
    let s := if again then s else v.start s 6 [v.i.mod, x]
    if again then
      scrubEff v s
    else if v.poi v.i.ra || decide (2 ^ 32 ≤ x) then .stop Sts.malformed s
    else if s.sec.armed != some x || s.sec.scrubbed == 1 then .stop Sts.sealedDeny s.sealDenied
    else if !v.holds s then .stop Sts.permission s
    else
      let full := s.sec.full || v.i.m 0
      scrubEff v (({ s with sec := { s.sec with full := full } } : State).scrub (some v.r)).scrubFinish

def execScrub (f : Fetch) (s : State) : Outcome State Fault Refusal := .next (insnScrub false f s)

/-- SWITCH_REQUEST: the active Ringmaster takes the request from the mailbox and runs SCRUB with its token; one of an older token is
dropped. -/
def State.switchRequest (s : State) : State :=
  match s.rmActive, s.mgmt.down.find? (fun x => x.1 == 2) with
  | some b, some x =>
    let s := s.downTake x
    if s.sec.armed = x.2.head? ∧ s.sec.armed ≠ none ∧ s.sec.scrubbed = 0 then
      s.journaled b 6 [if s.sec.full then 1 else 0, x.2.headD 0] (fun s => (s.scrub none).scrubFinish) (fun _ => Sts.ok)
    else s
  | _, _ => s

/-- SWITCH_REQUEST. -/
def execSwitchRequest (s : State) : Outcome State Fault Refusal := .next s.switchRequest

/-- ZERO_DONE: the last DDR5 granule after a switch is FREE; a switch with full zeroing completes. -/
def State.zeroEnd (s : State) : State :=
  if s.zeroing then s
  else if s.sec.scrubbed = 1 then s.scrubFinish
  else if s.on Csr.SWITCHSTAT_zeroing then (s.wr Csr.SWITCHSTAT_zeroing 0).raise Ev.ZERO_DONE 0 0
  else s

end Sys2Proof.Machine
end

