-- ==== Sys2Proof/Machine/Reset.lean ====
section
/-!
DEFINITION. The three kinds of reset (R494 to R498) and the loss and return of main power (R295, R475).
-/
namespace Sys2Proof.Machine
open Sys2Proof Host

/-- Counters of Table 17-12: 0 WARMCNT, 1 HARDCNT. -/
def resetCtr (i : Nat) : Ctr :=
  ⟨if i = 0 then Csr.WARMCNT_count else Csr.HARDCNT_count, Csr.BOOTSTAT_cnt_ovf, i, Ev.BOOT_COUNT_OVF, 0, 0⟩

/-! ### What every reset does -/

/-- R445, R458: every SPDM session ends, and the debug port is locked. -/
def State.endSessions (s : State) : State :=
  let s := s.sec.sessions.foldl State.sessionEnd s
  { s.wr Csr.SECSTAT_debug_unlocked 0 with debugLevel := 0 }

/-- R457: a tenant switch that was running resumes: SCRUB is armed with a new token and requested again. -/
def State.resumeSwitch (s : State) : State := if s.rd Csr.SECSTAT_state = 2 then s.armScrub else s

/-- R506: the stage that follows: RECOVERY when it was requested, which clears the request; else `x`. -/
def State.enterStage (s : State) (x : Nat) : State :=
  if s.on Csr.RSTCAUSE_recovery_req then
    ((s.wr Csr.RSTCAUSE_recovery_req 0).wr Csr.BOOTSTAT_stage 9).raise Ev.RECOVERY_ENTERED 0 0
  else s.wr Csr.BOOTSTAT_stage x

/-- R502: a CANDIDATE that has not been tried yet. -/
def State.untried (s : State) : Option Nat := [0, 1].find? (fun i => s.rd (Csr.IMGSLOT_state i) == 1 && s.rd (Csr.IMGSLOT_tries i) == 0)

/-- R496, R502: where a warm or hard reset starts the firmware from: the image cache, or the loader when a new CANDIDATE waits for a
hard reset, or when there is no cache; the ROM, while no boot since power-up has got past the loader. -/
def State.restart (s : State) (hard : Bool) : State :=
  if !s.board.loaded then (s.raise Ev.BOOT_START 0 0 (s.rd Csr.RSTCAUSE_cause)).enterStage 0
  else if !s.board.cache || (hard && s.untried.isSome) then s.enterStage 1
  else (s.wr Csr.BOOTSTAT_source 3).enterStage 2

/-- R221, R381: after every reset the tag epoch, and each pan's counter of fault episodes, start at random values. -/
def State.reseed (s : State) : State :=
  let (e, s) := s.drawFree 16
  let s := { s with fab := { s.fab with epoch := e } }
  (s.pans.map (fun (kv : Nat × Pan) => kv.1)).foldl (fun s n =>
    let (g, s) := s.drawFree 16
    s.setPan n (fun p => { p with gen := g })) s

/-- R494: a reset is in progress: it ends in SERVICE, HALTED or RECOVERY. -/
def State.resetting (s : State) : Bool := s.board.reset.isSome && s.rd Csr.BOOTSTAT_stage != 9

/-! ### Warm reset (R496) -/

/-- An entry has been admitted, or is held, but was not dispatched. -/
def Entry.undispatched (e : Entry) : Bool := e.st == .admitted || e.st == .held

/-- Table 03-8: entries of a queue admitted but not dispatched lose their shadows and stay in the body, to be admitted again; admission
goes back to the first of them. -/
def State.unadmit (s : State) (qid : Nat) : State :=
  let q := s.queue qid
  let back := q.ents.filter Entry.undispatched
  match back.head? with
  | none => s
  | some e0 =>
    let s := (back.filter (fun e => e.st == .admitted)).foldl (fun s e => s.epochLeave e.set) s
    let s := { s with walks := s.walks.filter (fun w => w.key / 2 ^ 32 != qid) }
    s.setQueue qid (fun q =>
      { q with admPos := e0.pos, ents := q.ents.filter (fun e => !e.undispatched), resolving := none,
               shUsed := q.shUsed - (back.map (·.shadow)).sum, cqResv := q.cqResv - (back.map (·.reserved)).sum })

/-- Table 03-8, warm reset: dispatched entries end ABORTED, the others go back. -/
def State.warmQueue (s : State) (qid : Nat) : State :=
  let s := s.unadmit qid
  ((s.queue qid).ents.filter (fun e => !e.done)).foldl (fun s e => s.endBad qid e.pos Sts.aborted e.ctx.pc) s

/-- R222, R496: pending fault records are discarded, log blocks close and are written, and with them the DURABLE records. -/
def State.warmPan (s : State) (n : Nat) : State :=
  let s := ((s.setPan n (fun p => { p with batches := [], fqFull := false })).fqPending n).wr (Csr.FQSTAT_full n) 0
  let s := s.closeBlock n
  (List.range (s.pan n).ring.length).foldl (fun s _ => s.blockWritten n) s

/-- A warm reset begins (steps 1, 2, 4 and 5 of R496): programs stop, logs are written, Sluice commands end, brine drains. -/
def State.warmReset (s : State) (cause : Nat) : State :=
  if s.resetting || !s.board.main || s.board.flush != 0 then s
  else
    let s := ((s.wr Csr.RSTCAUSE_cause cause).raise Ev.RESET_WARM 0 0).count (resetCtr 0)
    let qs := (s.queues.filter (fun (kv : Nat × Queue) => kv.2.st != .free)).map (·.1)
    let s := qs.foldl State.warmQueue s
    let s := (List.range 64).foldl State.warmPan s
    let s := qs.foldl (fun s q => ((s.queue q).ents.map (·.pos)).foldl (fun s p => s.durableRecord q p) s) s
    let s := (List.range 512).foldl (fun s i => if s.rd (Csr.SLSTAT_cmd (i / 64) (i % 64)) = 0 then s else s.slEnd (i / 64) (i % 64)) s
    let s := { s with mgmt := { s.mgmt with down := [], waiting := none } }
    let s := s.dram.brine.foldl State.evictBrine s
    let s := s.endSessions
    let s := { s with board := { s.board with reset := some .warm, since := s.stamp, memDone := false, heapDone := false, selfRefresh := true },
                      rm := { s.rm with opened := [], writing := none, reissue := [], moving := [] } }
    let s := ((s.setRmState false 1).setRmState true 0).wr Csr.TRPSTAT_recovering 0
    let s := (s.wr Csr.PWRSTAT_state 0).resumeSwitch
    s.reseed.restart false

/-- Step 3 of R496 is over: no line is busy. The brine drains, link sessions end and the ports retrain; no partner is lost, since its
copies stay valid (R329). -/
def State.warmEnd (s : State) : State :=
  let s := s.dram.brine.foldl State.evictBrine s
  let s := (List.range 8).foldl (fun s p =>
    if s.link p < 2 then s
    else
      let s := (s.portTo p 1).linkFall p
      ((s.wr (Csr.SEARCHSTAT_attempts p) 0).wr (Csr.SEARCHSTAT_next_ms p) 0).raise Ev.LINK_SEARCHING 2 p) s
  { s with board := { s.board with selfRefresh := false } }

/-! ### Hard reset (Table 17-4) -/

/-- R329: every line whose entry names an owner is written poisoned, and the directory is emptied. -/
def State.dirReset (s : State) : State :=
  let es := s.dirAll
  let s := { s with coh := Coh.idle }
  let s := (es.filter (fun e => entSt e == 2 || entSt e == 3)).foldl (fun s e =>
    if (s.lineSlot (entLine e)).isSome then s else s.linePoisoned (entPan e) (entLine e)) s
  { s with mem := s.mem.filter (fun (c : Cell) => !(decide (dirBase ≤ c.1) && decide (c.1 < dirBase + 0x80000000))) }

/-- R267: brine buffers are discarded, and each half-line with pending bytes is written poisoned. -/
def State.brineReset (s : State) : State :=
  let s := s.dram.brine.foldl (fun s b =>
    let k := match s.wayOf b.line with
      | some w => wayAddr w / 64
      | none => 2 * b.line
    [0, 1].foldl (fun s h => if halfMask b.mask h = 0 then s else s.recode (k + h) true) s) s
  { s with dram := { s.dram with brine := [] } }

/-- Registers that a hard reset keeps: those Table 17-4 names, the blocks that it does not reset (always-on, security), what the boot
record, the flash and the latches hold, and the rank maps. -/
def hardKeeps (o : Nat) : Bool :=
  o == 0x1000 || (decide (0x1020 ≤ o) && decide (o < 0x1040))
  || (decide (0x2000 ≤ o) && decide (o < 0x3000))
  || (decide (0x5000 ≤ o) && decide (o < 0x6000))
  || (decide (0x10000 ≤ o) && decide (o < 0x100000))
  || (decide (0x100000 ≤ o) && decide (o < 0x200000))
  || (decide (0x200068 ≤ o) && decide (o < 0x200098))
  || o == 0x2000B0 || o == 0x2000B8
  || o == 0x200208 || o == 0x200218 || o == 0x200220 || o == 0x200228 || o == 0x200240 || o == 0x200248
  || o == 0x500010 || o == 0x500018 || o == 0x500020
  || (decide (0x2800000 ≤ o) && decide (o < 0x2A00000) && (o % 0x20000 == 0x20 || o % 0x20000 == 0x28))
  || (decide (0x3000000 ≤ o) && decide (o < 0x3100000))
  || o == 0x3100040

/-- What a pan keeps across a hard reset: its structures and its log ring. -/
def Pan.hardKept (p : Pan) : Pan :=
  { p with batches := [], fqFull := false, parkWait := false, ring := p.ring.filter (·.written), openLines := [], undur := [],
           round := none, logFull := false, demWarn := false }

/-- What a channel keeps: that it was trained, and a migration to go on with. -/
def State.hardChan (s : State) (c : Nat) : Channel :=
  { Channel.idle with kept := (s.chan c).kept, mig := s.rd (Csr.DDRSTAT_state c) == 3 }

/-- R244, R249, R273: the slot that migrates, a used spare, the lines that each pan holds in the stacked cache and the retired granules
outlive the registers of `t`, the state before. -/
def State.keepDram (s t : State) : State :=
  let s := (List.range 16).foldl (fun s c =>
    (s.wr (Csr.DDRSTAT_mig_slot c) (t.rd (Csr.DDRSTAT_mig_slot c))).wr (Csr.DDRSTAT_spare_used c) (t.rd (Csr.DDRSTAT_spare_used c))) s
  let s := s.wr Csr.RETIRESTAT_retired s.dram.retired.length
  let ws := s.dram.cache.flatMap (fun kv => kv.2)
  (ws.map (·.pan)).eraseDups.foldl (fun s n => s.wr (Csr.STKPANLINES_lines n) (ws.filter (fun w => w.pan == n)).length) s.setCaps

/-- Everything in SRAM and in the registers that a hard reset does not keep is lost. -/
def State.hardClear (s : State) : State :=
  let s := { s.portsSleep.haltRakes with queues := [], lists := [], stopQ := [], runCache := [], walkCache := [],
                                             icache := [], walkTurn := 0 }
  let s := s.shoots.foldl State.dropCopies s
  let s := s.shoots.foldl (fun s x => s.releaseGrans x.pan x.old.eraseDups) s
  let s := { s with shoots := [] }
  let s := (List.range 239).foldl (fun s k => if s.bit (Csr.STKSEGSTAT_seg (k / 64)) (k % 64) then s.segFlipped k else s) s
  let s := s.brineReset.dirReset
  let d := s.dram
  let chans := (List.range 16).foldl (fun m c => SMap.put Channel.idle c (s.hardChan c) m) []
  let s := { s with dram := { d with upsets := [], chans := chans, errFull := false, filter := [], repair := none, refs := [], hand := [], sramPos := 0 },
                    fab := Fab.idle, links := [], rm := Ringmaster.idle, twin := Twin.none, sluice := [], cars := [],
                    pans := s.pans.map (fun (kv : Nat × Pan) => (kv.1, kv.2.hardKept)),
                    log := { s.log with staging := [], drops := [] },
                    mgmt := { s.mgmt with down := [], waiting := none, staged := [], seqs := [], lost := [],
                                          slept := s.mgmt.slept.filter (fun (kv : Nat × Nat) => decide (16 ≤ kv.1) && decide (kv.1 < 24)) } }
  let s := (s.copyShadow.dropRegs (fun o => !hardKeeps o)).keepDram s
  let s := if s.dram.sweeps.isEmpty then s else s.wr Csr.STKSTAT_sweeping 1
  ((List.range 64).foldl State.degrade s.fabOut).reseed

/-- A hard reset with a cause of Table 17-3. Durable rings are replayed once memory serves (R298). -/
def State.hardReset (s : State) (cause : Nat) : State :=
  if !s.board.main || s.board.flush == 1 || s.board.reset == some .powerUp || s.board.reset == some .hard && s.resetting then s
  else
    let s := s.endSessions.hardClear
    let s := ((s.wr Csr.RSTCAUSE_cause cause).raise Ev.RESET_HARD 0 0).count (resetCtr 1)
    let b := s.board
    let s := { s with board := { Board.start with main := b.main, vaon := b.vaon, vbat := b.vbat, aonStamp := b.aonStamp, acc := b.acc, aonLost := b.aonLost,
                                                  prst := b.prst, prstAt := b.prstAt, prstIgnored := b.prstIgnored,
                                                  railOrder := b.railOrder, test := b.test, trip := b.trip, refGone := b.refGone,
                                                  reset := some .hard, since := s.stamp, cache := b.cache, netImage := b.netImage,
                                                  reads := b.reads, alarmPin := b.alarmPin, rtcLoad := b.rtcLoad, rtcHold := b.rtcHold, ageDue := b.ageDue,
                                                  selfRefresh := true, tap := b.tap, loaded := b.loaded, strapped := b.strapped } }
    s.resumeSwitch.restart true

/-! ### Power -/

/-- Registers that outlive main power: the always-on block, the calibration that its stamp uses, and what the latches, the boot record
and the flash hold. -/
def powerKeeps (o : Nat) : Bool :=
  (decide (0x100000 ≤ o) && decide (o < 0x200000)) || o == 0x2000B0 || o == 0x2000B8 || o == 0x200208 || o == 0x200220 || o == 0x200228
  || o == 0x3100040

/-- Bytes that the SSDs keep: the backing granules of the catalogue's pages. -/
def State.ssdBytes (s : State) (cat : List CatPan) : List Cell :=
  let gs := cat.flatMap (fun c => c.pages.flatMap (fun x => pageGrans x.2.1 x.2.2))
  s.mem.filter (fun (c : Cell) => inHeap c.1 && gs.contains (c.1 / granSize))

/-- Main power is lost: volatile tiers, running work, keys and sessions with it; what the SSDs, the flash and the always-on domain keep
stays. The always-on copy of the stamp takes over (R295, R473). -/
def State.powerLost (s : State) : State :=
  let cat := s.catalogueNow
  let kept := s.regs.filter (fun (kv : Nat × Nat) => powerKeeps (kv.1 / 128))
  let b := s.board
  let n : State :=
    { State.reset with
        pending := s.pending, stamp := b.aonStamp, freeCount := s.freeCount, regs := kept, mem := s.ssdBytes cat,
        log := { EventLog.empty with aon := s.log.aon, aonSeq := s.log.aonSeq, aonDrops := s.log.aonDrops },
        heap := { s.heap with cat := cat, found := [] }, flash := s.flash,
        sec := { Sec.idle with owner := s.sec.owner, offered := s.sec.offered, policy := s.sec.policy, tenant := s.sec.tenant,
                               after := s.sec.after, full := s.sec.full, record := s.sec.record, recordOk := s.sec.recordOk,
                               rollback := s.sec.rollback,
                               keys := { Keys.none with seal_ := s.sec.keys.seal_, sysHeap := if s.sec.record = 3 then s.sec.keys.sysHeap else 0 },
                               evidence := s.sec.evidence },
        board := { Board.start with main := false, vaon := b.vaon, vbat := b.vbat, aonStamp := b.aonStamp, acc := b.acc, aonLost := b.aonLost, reset := none,
                                    prst := false, alarmPin := b.alarmPin, rtcLoad := b.rtcLoad, rtcHold := b.rtcHold, flush := b.flush },
        mgmt := { Mgmt.idle with out := s.mgmt.out, pubs := s.mgmt.pubs, dumps := s.mgmt.dumps } }
  let n := (n.wr Csr.SECSTAT_tamper_latched (s.rd Csr.SECSTAT_tamper_latched)).wr Csr.SECSTAT_seal_valid (s.rd Csr.SECSTAT_seal_valid)
  n.wr Csr.DUMPSTAT_lost 0

/-- Main power is lost: MAIN_POWER_LOSS. A flush that runs is late when power goes (Table 10-3). -/
def State.mainLoss (s : State) : State :=
  if s.board.main then
    let s := if s.board.flush = 1 ∧ s.heap.cat = [] then { s with heap := { s.heap with lastFlush := 0 } } else s
    let s := s.powerLost
    let s := { s with board := { s.board with flush := 0 } }
    if s.board.vaon then s else (s.wr Csr.STAMPSTAT_on_vbat 1)
  else s

/-- R475: the always-on domain has lost both supplies: its fields take their reset values, and the seal key is lost with it. -/
def State.aonLoss (s : State) : State :=
  let s := { s with board := { s.board with vaon := false, vbat := false } }
  let s := s.dropRegs (fun o => decide (0x100000 ≤ o) && decide (o < 0x200000))
  let s := ((s.wr Csr.SECSTAT_seal_valid 0).wr Csr.SECSTAT_tamper_latched 0)
  let s := (s.wr Csr.RSTCAUSE_prst_stuck 0).wr Csr.RSTCAUSE_recovery_req 0
  { s with log := { s.log with aon := [], aonSeq := 0, aonDrops := [] }, sec := { s.sec with recordOk := false, keys := { s.sec.keys with seal_ := none } },
           board := { s.board with aonStamp := 0, acc := 0, aonLost := true, alarmPin := 0, rtcLoad := none, rtcHold := 0 } }

/-- R499: BOOT_START, when the device leaves the power-up reset; in factory test it does not boot (R561). -/
def State.bootStart (s : State) : State :=
  if s.board.prst || s.board.railOrder || s.board.refGone || s.board.trip || s.board.test then s
  else if s.board.reset = some .powerUp then
    let s := { s.reseed with board := { s.board with reset := none, since := s.stamp } }
    (s.raise Ev.BOOT_START 0 0 (s.rd Csr.RSTCAUSE_cause)).enterStage 0
  else s

/-- R460: PRES_N found asserted at power-up counts as absent. -/
def State.presFound (s : State) (pres : Bool) : State :=
  if pres then (s.wr Csr.SECSTAT_pres_stuck 1).raise Ev.PRESENCE_STUCK 0 0 else s

/-- What the device finds at power-up in the always-on domain (R471, R475, R529, R532). -/
def State.aonFound (s : State) (lost : Bool) : State :=
  let s := (s.wr Csr.STAMPSTAT_xtal_fail 0).wr Csr.STAMPCAL_cal 0
  let s := if lost then (s.wr Csr.STAMPSTAT_restarted 1).raise Ev.STAMP_RESTARTED 7 0 else s
  let s := if s.on Csr.RTCSEC_valid then s else s.raise Ev.RTC_INVALID 7 0
  if s.on Csr.MISSED_valid then
    s.raise Ev.RTC_ALARM_MISSED 7 0 (s.rd Csr.MISSED_alarm_sec + s.rd Csr.MISSED_which * 2 ^ 48 + s.rd Csr.MISSED_count * 2 ^ 50
      + s.rd Csr.MISSED_valid * 2 ^ 63 + s.rd Csr.MISSEDLAST_last_sec * 2 ^ 64)
  else s

/-- The power-up reset: `held` says that PRST_N is asserted. -/
def State.powerReset (s : State) (cause : Nat) (held lost : Bool) : State :=
  let s := { s with stamp := s.board.aonStamp, board := { s.board with main := true, reset := some .powerUp, prst := held, prstAt := s.board.aonStamp,
                                                                       flush := 0, since := s.board.aonStamp } }
  let s := (s.wr Csr.RSTCAUSE_cause cause).wr Csr.BOOTSTAT_stage 0
  let s := s.wr Csr.STAMPSTAT_on_vbat 0
  (s.aonFound lost).bootStart

/-- POWER_UP: main power rises, with PRST_N asserted (R491); the supply of the always-on domain returns with it. -/
def State.powerUp (s : State) (pres : Bool) : State :=
  if s.board.main then s
  else
    let lost := s.board.aonLost
    let s := { s with board := { s.board with vaon := true, aonLost := false } }
    (s.presFound pres).powerReset 0 true lost

/-- PWRFAIL_RECOVERED (R296): PWRFAIL_N deasserts after a flush with main power still present: a power-up reset. VIO has stood, so the
straps hold until they are sampled again (R493). -/
def State.pwrRecovered (s : State) : State :=
  if s.board.main && s.board.flush == 2 then
    let t := s.powerLost.wr Csr.STRAPS_topo (s.rd Csr.STRAPS_topo)
    let t := (t.wr Csr.STRAPS_boot (s.rd Csr.STRAPS_boot)).wr Csr.STRAPS_mgmt (s.rd Csr.STRAPS_mgmt)
    t.powerReset 11 false false
  else s

/-! ### PRST_N (R498) -/

/-- The pin is seen: the device is held, and reset unless a flush runs. -/
def State.prstSeen (s : State) : State :=
  let s := { s with board := { s.board with prst := true, prstAt := s.stamp } }
  if s.board.flush = 1 then s else (s.hardReset 1)

/-- PRST_ASSERT: the pin has been asserted for 10 µs. -/
def State.prstAssert (s : State) : State :=
  if !s.board.main || s.board.prst || s.board.prstIgnored then s else s.prstSeen

/-- PRST_STUCK: asserted for more than 30 s: the device is released and completes a hard reset with cause 2. -/
def State.prstStuck (s : State) : State :=
  if s.board.main && s.board.prst then
    let s := { s with board := { s.board with prst := false, prstIgnored := true } }
    let s := (s.wr Csr.RSTCAUSE_prst_stuck 1).raise Ev.PRST_STUCK 7 0
    let s := { s with board := { s.board with reset := none } }
    s.hardReset 2
  else s

/-- PRST_RELEASE: the hold ends; TEST_MODE is sampled; a stuck pin counts again. -/
def State.prstRelease (s : State) (test : Bool) : State :=
  if !s.board.main then s
  else if s.board.prstIgnored then { s with board := { s.board with prstIgnored := false } }
  else if s.board.prst then
    let late := s.board.railOrder
    let s := { s with board := { s.board with prst := false, test := test, railOrder := false } }
    let s := s.bootStart
    if late then s.wr Csr.BOOTSTAT_rail_order 1 else s
  else s

/-- REF_ABSENT (R472): without the reference the device is held as PRST_N would hold it. -/
def State.refSeen (s : State) : State :=
  let s := { s.wr Csr.CLKSTAT_ref_present 0 with board := { s.board with refGone := true } }
  if s.board.flush = 1 ∨ s.board.reset = some .powerUp then s else s.endSessions.hardClear

/-- A flush has ended: PRST_N that is still asserted takes effect as a hard reset, and its stuck timer starts (R494); so does an absent
reference. -/
def State.flushOver (s : State) : State :=
  if s.board.flush ≠ 2 then s
  else if s.board.prst then s.prstSeen
  else if s.board.refGone then s.refSeen
  else s

/-- DUR_FLUSH_DONE. -/
def execDurFlushDone (s : State) : Outcome State Fault Refusal := .next s.flushDone.flushOver

/-- DUR_FLUSH_LATE. -/
def execDurFlushLate (s : State) : Outcome State Fault Refusal := .next s.flushLate.flushOver

/-- PWRFAIL_RECOVERED. -/
def execPwrfailRecovered (s : State) : Outcome State Fault Refusal := .next s.pwrRecovered

/-- MAIN_POWER_LOSS. -/
def execMainPowerLoss (s : State) : Outcome State Fault Refusal := .next s.mainLoss

/-- AON_SUPPLY_LOSS. -/
def execAonSupplyLoss (s : State) : Outcome State Fault Refusal := .next s.aonLoss

/-- POWER_UP. -/
def execPowerUp (pres : Bool) (s : State) : Outcome State Fault Refusal := .next (s.powerUp pres)

/-- RAIL_ORDER: while PRST_N is asserted, a rail of a later group is in range before one of an earlier group (R492); the rails are
numbered as Table 16-1 lists them. -/
def execRailOrder (late early : Fin 12) (s : State) : Outcome State Fault Refusal :=
  .next (if s.board.main && s.board.prst then
      { s with board := { s.board with railOrder := true } }.raise Ev.RAIL_ORDER 7 0 (late.val + 256 * early.val)
    else s)

/-- STRAP_SAMPLE (R493): once per power-up; reserved codes are taken as Table 17-2 says. -/
def execStrapSample (topo : Bool) (boot mgmt : BitVec 2) (s : State) : Outcome State Fault Refusal :=
  .next (if s.board.main && !s.board.strapped && s.rd Csr.BOOTSTAT_stage == 0 then
      let s := { s with board := { s.board with strapped := true } }
      ((s.wr Csr.STRAPS_topo (if topo then 1 else 0)).wr Csr.STRAPS_boot (if boot = 3 then 1 else boot.toNat)).wr
        Csr.STRAPS_mgmt (if mgmt = 3 then 0 else mgmt.toNat)
    else s)

/-- PRST_ASSERT. -/
def execPrstAssert (s : State) : Outcome State Fault Refusal := .next s.prstAssert

/-- PRST_STUCK. -/
def execPrstStuck (s : State) : Outcome State Fault Refusal := .next s.prstStuck

/-- PRST_RELEASE. -/
def execPrstRelease (test : Bool) (s : State) : Outcome State Fault Refusal := .next (s.prstRelease test)

/-- R497: RSTCMD, once its key has been checked: op 1 WARM, 2 HARD; `recovery` also sets the recovery request. -/
def State.rstCmd (s : State) (op : Nat) (recovery : Bool) : State :=
  if op ≠ 1 ∧ op ≠ 2 then s
  else
    let s := if recovery then s.wr Csr.RSTCAUSE_recovery_req 1 else s
    if op = 1 then s.warmReset 3 else s.hardReset 4

end Sys2Proof.Machine
end

