-- ==== Sys2Proof/Machine/Boot.lean ====
section
/-!
DEFINITION. Boot stages, image slots and the settings store (R499 to R507).
-/
namespace Sys2Proof.Machine
open Sys2Proof Host

/-! ### Which image boots (R500, R503, R505) -/

/-- Table 17-2, R500: the boot source that the straps select: 0 NET, 1 FLASH, 2 NET_ONLY. -/
def State.bootStrap (s : State) : Nat :=
  if s.rd Csr.STRAPS_mgmt = 2 then 1 else s.rd Csr.STRAPS_boot

/-- R503: a slot may boot: it holds a complete image whose security version is not below the floor. -/
def State.slotBoots (s : State) (i : Nat) : Bool :=
  s.flash.whole.contains i && decide (s.flash.floor ≤ s.rd (Csr.IMGSLOT_svn i))

/-- The slot in a state of Table 17-7. -/
def State.slotIn (s : State) (x : Nat) : Option Nat := [0, 1].find? (fun i => s.rd (Csr.IMGSLOT_state i) == x)

/-- R505: an image with three consecutive unreadable boots gives way to the other slot, if that may boot. -/
def State.revert (s : State) (src i : Nat) : Nat × Nat × State :=
  if 3 ≤ SMap.get 0 i s.flash.unread ∧ s.slotBoots (1 - i) then
    (1, 1 - i, s.raise Ev.SETTINGS_REVERT 0 0)
  else (src, i, s)

/-- R503: a CANDIDATE boots once more. -/
def State.tryCandidate (s : State) (i : Nat) : State := s.wr (Csr.IMGSLOT_tries i) (s.rd (Csr.IMGSLOT_tries i) + 1)

/-- R503: the third unproven try has marked a CANDIDATE FAILED. -/
def State.failTried (s : State) : State :=
  match s.slotIn 1 with
  | some i => if 3 ≤ s.rd (Csr.IMGSLOT_tries i) then s.wr (Csr.IMGSLOT_state i) 4 else s
  | none => s

/-- R503: the flash image: the CANDIDATE that has been tried fewer than three times, else the GOOD slot; source and slot. -/
def State.flashImage (s : State) : Option (Nat × Nat × State) :=
  let good (s : State) : Option (Nat × Nat × State) :=
    ((s.slotIn 2).filter s.slotBoots).map (fun i => s.revert 1 i)
  match s.slotIn 1 with
  | some i =>
    if s.rd (Csr.IMGSLOT_tries i) < 3 ∧ s.slotBoots i then some ((s.tryCandidate i).revert 2 i)
    else if 3 ≤ s.rd (Csr.IMGSLOT_tries i) then
      (good s.failTried).map (fun (a, b, s) => (a, b, (s.wr Csr.BOOTSTAT_fallback 1).raise Ev.IMAGE_FALLBACK 0 0))
    else good s
  | none => good s

/-- R500, R461: the image set that the loader boots: source of BOOTSTAT and slot. An owner's rollback comes first, then a new CANDIDATE
after a hard reset. -/
def State.chooseImage (s : State) : Option (Nat × Nat × State) :=
  let back := s.sec.rollback.filter s.slotBoots
  let s := { s with sec := { s.sec with rollback := none } }.wr Csr.SECVER_rollback_pending 0
  match back, (if s.board.reset = some .hard then s.untried.filter s.slotBoots else none) with
  | some i, _ => some (1, i, s)
  | none, some i => some (2, i, s.tryCandidate i)
  | none, none =>
    if s.bootStrap = 1 then s.flashImage
    else match s.board.netImage with
      | some _ => some (0, 0, s)
      | none => if s.bootStrap = 0 ∧ s.on Csr.BOOTSTAT_fallback then s.flashImage else none

/-- IMAGE_FETCH_DONE (R500): an image set is accepted, or refused and counted as a failed fetch. In RECOVERY it is written to the slot
that is not GOOD as CANDIDATE (R506). -/
def State.writeSlot (s : State) (i : Nat) (svn build : Nat) (st : Nat) : State :=
  let s := ((s.wr (Csr.IMGSLOT_state i) st).wr (Csr.IMGSLOT_tries i) 0).wr (Csr.IMGSLOT_svn i) svn
  let s := s.wr (Csr.IMGSLOT_build i) build
  { s with flash := { s.flash with whole := if s.flash.whole.contains i then s.flash.whole else s.flash.whole ++ [i],
                                   unread := SMap.put 0 i 0 s.flash.unread } }

/-- The slot that a new image is written to: the one that is not GOOD. -/
def State.spareSlot (s : State) : Nat := if s.rd (Csr.IMGSLOT_state 0) = 2 then 1 else 0

/-- R500: the network is given up: the flash image boots, or with NET_ONLY the device halts. -/
def State.halt (s : State) (r : Nat) : State :=
  let s := (s.wr Csr.BOOTSTAT_stage 8).wr Csr.BOOTSTAT_halt_reason r
  { s with board := { s.board with reset := none } }.raise Ev.BOOT_HALTED 0 0 r

/-- R500: no more fetches: fall back to flash, or halt with reason 1. -/
def State.fetchEnd (s : State) : State :=
  if s.bootStrap = 2 then s.halt 1
  else if s.bootStrap = 0 ∧ !s.on Csr.BOOTSTAT_fallback then (s.wr Csr.BOOTSTAT_fallback 1).raise Ev.IMAGE_FALLBACK 0 0
  else s

/-- IMAGE_FETCH_DONE. -/
def State.fetched (s : State) (i : Image) : State :=
  let st := s.rd Csr.BOOTSTAT_stage
  if st ≠ 1 ∧ st ≠ 9 then s
  else if i.good && decide (s.flash.floor ≤ i.svn.toNat) then
    if st = 9 then s.writeSlot s.spareSlot i.svn.toNat i.build.toNat 1
    else { s with board := { s.board with netImage := some (i.svn.toNat, i.build.toNat) } }
  else
    let n := s.board.fetches + 1
    let s := { s with board := { s.board with fetches := n } }.raise Ev.IMAGE_REFUSED 0 0
    if st = 1 ∧ s.rd Csr.BOOTCTL_net_tries ≤ n then s.fetchEnd else s

/-- IMAGE_FETCH_DONE. -/
def execImageFetchDone (i : Image) (s : State) : Outcome State Fault Refusal := .next (s.fetched i)

/-- NET_FETCH_TIMEOUT: 60 s, or net_tries failures, without an image. -/
def State.fetchTimeout (s : State) : State :=
  if s.rd Csr.BOOTSTAT_stage = 1 ∧ s.bootStrap ≠ 1 ∧ s.board.netImage = none then s.fetchEnd else s

/-- NET_FETCH_TIMEOUT. -/
def execNetFetchTimeout (s : State) : Outcome State Fault Refusal := .next s.fetchTimeout

/-! ### The end of each stage (Table 17-5) -/

/-- BOOT_STAGE, and the stage that follows. -/
def State.stageDone (s : State) (x next : Nat) : State := (s.raise Ev.BOOT_STAGE 0 0 x).wr Csr.BOOTSTAT_stage next

/-- R506: the loader has no image it may boot. -/
def State.toRecovery (s : State) : State :=
  let s := { s with board := { s.board with reset := none } }
  ((s.wr Csr.RSTCAUSE_recovery_req 0).wr Csr.BOOTSTAT_stage 9).raise Ev.RECOVERY_ENTERED 0 0

/-- R431: the claim after a power-up. -/
def State.loadClaim (s : State) : State :=
  let n := match s.flash.claim with
    | some c => (c + 0x10000) % 2 ^ 32
    | none => 1
  let s := ((s.wr Csr.CLAIMCUR_claim n).wr Csr.CLAIMCUR_holder 0).wr Csr.CLAIMA_claim n
  let s := s.wr Csr.CLAIMB_claim (subMod n 1 32)
  { s with gateClaim := (List.range 50).foldl (fun m k => SMap.put 1 k n m) s.gateClaim }

/-- Table 15-3: what keys a power-up makes: the free key and the DDR5 system key; a seal key where there is none; and in open mode the
system heap key, derived from the seal key. That of a sealed tenancy stands until its switch. -/
def State.makeKeys (s : State) : State :=
  let (f, s) := s.drawFree 512
  let (y, s) := s.drawFree 512
  let (x, s) := match s.sec.keys.seal_ with
    | some x => (x, s)
    | none => s.drawFree 256
  let s := s.wr Csr.SECSTAT_seal_valid 1
  s.setKeys (fun k => { k with free := f, sys := y, seal_ := some x, sysHeap := if s.sec.record = 3 then k.sysHeap else Config.systemHeapKey x })

/-- Table 15-2: the tenancy state after a power-up, by the record. A seal key that was wiped is made anew (R436). -/
def State.loadTenancy (s : State) : State :=
  let s := s.wr Csr.SECSTAT_owner_set (if s.sec.owner.isSome then 1 else 0)
  let s := s.wr Csr.SECVER_floor s.flash.floor
  let s := s.makeKeys
  if s.sec.record = 2 ∨ !s.sec.recordOk then s.switchStart s.sec.after (s.sec.full || s.zeroOnExit)
  else if s.sec.record = 3 then
    let s := s.wr Csr.SECPOLICY_policy (s.sec.policy % 2 ^ 64)
    let s := (s.putDigest Csr.SECPOLDIG_digest (Config.digest (leBytes 64 s.sec.policy))).putDigest Csr.TENANTDIG_digest s.sec.tenant
    (s.wr Csr.SECSTAT_state 4).raise Ev.TENANCY_SUSPENDED 0 0
  else s.wr Csr.SECSTAT_state s.sec.record

/-- The base and Midway PLLs lock to the reference. -/
def State.locksOn (s : State) : State := ((s.wr Csr.CLKSTAT_base_lock 1).wr Csr.CLKSTAT_mid_lock 1).wr Csr.CLKSTAT_ref_present 1

/-- LOADER ends: PLLs have locked, the security section has been read, and an image set is chosen. -/
def State.loaderDone (s : State) : State :=
  match s.chooseImage with
  | none => s
  | some (src, i, s) =>
    let s := s.locksOn
    let s := if s.board.loaded then s
      else
        let s := s.loadClaim.loadTenancy
        { s with board := { s.board with loaded := true } }
    let s := (s.wr Csr.BOOTSTAT_source src).wr Csr.BOOTSTAT_slot i
    let s := s.wr Csr.SECVER_running (if src = 0 then (s.board.netImage.map (·.1)).getD 0 else s.rd (Csr.IMGSLOT_svn i))
    let s := if src = 0 then { s with flash := { s.flash with last := none, unread := if s.flash.last = none then s.flash.unread else [] } }
      else { s with flash := { s.flash with last := some i, unread := if s.flash.last = some i then s.flash.unread else [] },
                    board := { s.board with netImage := none } }
    s.stageDone 1 2

/-- R528: a plan of so many steps above the codes of the beginning of life is in force: a point whose code would pass the ceiling is
withdrawn, but for point 0, which stays there. -/
def State.usePlan (s : State) (steps : Nat) : State :=
  let vmax := s.rd Csr.HLFUSE_vcore_max
  let fits (j : Nat) : Bool := decide (300 + 10 * j + steps ≤ vmax)
  let oks := ((List.range 5).map (fun j => if j == 0 || fits j then 2 ^ j else 0)).sum
  let s := (List.range 5).foldl (fun s j =>
    if fits j then s.wr (Csr.VCOREOP_code j) (300 + 10 * j + steps)
    else if j = 0 then s.wr (Csr.VCOREOP_code 0) vmax
    else s) s
  ((s.wr Csr.AGEPLAN_steps steps).wr Csr.AGEPLAN_points_ok oks).wr Csr.AGEPLAN_limit (if fits 0 then 0 else 1)

/-- R504, R505: the general section is read: the record is used, or there is none, or it is in a format the firmware does not read. The
registers of a record that is used take its values in both sets at the `first` start of firmware since power-up. -/
def State.readSettings (s : State) (first : Bool) : State :=
  match s.newestSettings with
  | none => s.wr Csr.SETSTAT_empty 1
  | some (k, r) =>
    let s := ((s.wr Csr.SETSTAT_empty 0).wr Csr.SETSTAT_region k).wr Csr.SETSTAT_fmt_found r.fmt
    if s.board.reads.1 ≤ r.fmt ∧ r.fmt ≤ s.board.reads.2 then
      let s : State := { s with dram := { s.dram with rows := r.rows } }
      let s : State := match r.plan with
        | some n => s.usePlan n
        | none => s
      if !first then s
      else r.regs.foldl (fun (s : State) (x : Nat × Nat) => match Csr.find x.1 with
        | some q => (q.fields.filter (fun f => f.acc == .rw || f.acc == .rws)).foldl (fun s f =>
            (s.wrSet 0 (f.fld x.1) (bitsOf x.2 f.lo f.w)).wrSet 1 (f.fld x.1) (bitsOf x.2 f.lo f.w)) s
        | none => s) s
    else
      let i := (s.flash.last).getD 2
      let n := min 3 (SMap.get 0 i s.flash.unread + 1)
      let s := { s with flash := { s.flash with unread := SMap.put 0 i n s.flash.unread } }
      ((s.wr Csr.BOOTSTAT_settings_unreadable 1).wr Csr.BOOTSTAT_unread_boots n).raise Ev.SETTINGS_UNREADABLE 0 0

/-- R520: records written to the always-on log since the last copy enter the event ring with their own stamps. -/
def State.copyAonLog (s : State) : State :=
  let a := s.rd Csr.AONLOGPOS_copied
  let n := min 2048 (subMod (s.rd Csr.AONLOGPOS_producer) a 16)
  let s := (rangeFrom (a + (subMod (s.rd Csr.AONLOGPOS_producer) a 16 - n)) n).foldl (fun s k =>
    s.pushRing (SMap.get EventRec.zero (k % 2048) s.log.aon)) s
  s.wr Csr.AONLOGPOS_copied (s.rd Csr.AONLOGPOS_producer)

/-- FIRMWARE ends. During a warm reset it waits until no line is busy (R496). -/
def State.firmwareDone (s : State) (lo hi own : Nat) (mhz : List (BitVec 16)) : State :=
  let warm := s.board.reset == some .warm
  if warm && !s.coh.txns.isEmpty then s
  else
    let s := if warm then s.warmEnd else s
    let first := s.board.reset.isNone || !s.board.cache
    let s := { s with board := { s.board with reads := (lo, hi), cache := true } }.wr Csr.SETSTAT_fmt_own own
    let s := (s.locksOn).wr Csr.CLKSTAT_rake_lock 0xFFFF
    let s := ((mhz.take 64).zipIdx).foldl (fun s (x, i) => s.wr (Csr.PMON_mhz i) x.toNat) s
    (s.readSettings first).copyAonLog.stageDone 2 3

/-- R273: the retired granules of the record are SYSTEM again; those of a CACHE segment are, once it turns DIRECT. -/
def State.applyRetired (s : State) : State :=
  if s.on Csr.BOOTSTAT_settings_unreadable then s
  else match s.newestSettings with
    | none => s
    | some (_, r) =>
      let new := r.retired.filter (fun g => !s.dram.retired.contains g)
      let s := { s with dram := { s.dram with retired := s.dram.retired ++ new } }.wr Csr.RETIRESTAT_retired (s.dram.retired.length + new.length)
      new.foldl (fun s g =>
        if tierOf (g * granSize) = 0 ∧ !s.segDirect ((g - tierBase 0) / 64) then s
        else if (s.gran g).st = .free then s.setGran g (fun x => { x with st := .system, owner := 0 })
        else s.setGran g (fun x => { x with retire := true })) s

/-- Every DDR5 channel has been trained, or is out of service. -/
def State.ddrServes (s : State) : Bool := (List.range 16).all (fun c => decide (2 ≤ s.rd (Csr.DDRSTAT_state c)))

/-- MEMORY ends: hard repairs have been applied in a power-up (R274). -/
def State.memoryDone (s : State) : State :=
  if !s.ddrServes then s
  else
    let s := if s.board.reset = none ∧ s.dram.rows ≠ [] then { s with dram := { s.dram with rows := [] } }.saveSettings false else s
    let s := { s with board := { s.board with memDone := true, selfRefresh := false } }.wr Csr.CLKSTAT_stk_lock 3
    s.stageDone 3 (if s.board.heapDone then 5 else 4)

/-- HEAP ends. -/
def State.heapStageDone (s : State) : State :=
  if s.board.heapDone then s
  else
    let s := { s with board := { s.board with heapDone := true } }
    s.stageDone 4 (if s.board.memDone then 5 else 3)

/-- DURABLE ends: retired granules apply; after a hard reset the rings are replayed (R298). -/
def State.durableDone (s : State) : State :=
  let s := if s.board.reset = some .hard then s.replayRings else s
  s.applyRetired.stageDone 5 6

/-- CONTROL ends (R507): instance A is ACTIVE and holds the claim, B is SYNCING if it passed its self-test, ports are enabled, and the
device serves. -/
def State.controlDone (s : State) (bOk : Bool) : State :=
  let n := s.rd Csr.CLAIMCUR_claim
  let s := ((s.wr Csr.CLAIMCUR_holder 0).wr Csr.TRPSTAT_holder 0).wr Csr.CLAIMA_claim n
  let s := s.wr Csr.CLAIMB_claim (subMod n 1 32)
  let s := { s with gateClaim := (List.range 50).foldl (fun m k => SMap.put 1 k n m) s.gateClaim, rm := { s.rm with fulls := 0 } }
  let s := ((s.setRmState false 4).wr (Csr.RMSTAT_cores_up 0) 15).wr Csr.TRPSTAT_mode 1
  let s := if bOk then ((s.setRmState true 2).wr Csr.TRPCTL_b_present 1).wr (Csr.RMSTAT_cores_up 1) 15
    else (((s.setRmState true 0).wr Csr.TRPCTL_b_present 0).wr Csr.BOOTSTAT_b_fail 1).raise Ev.RM_B_ABSENT 6 1
  let s := (List.range 8).foldl State.linkEnable s
  let ms := min 0xFFFFFFFF (subMod s.stamp s.board.since 64 / 1000000)
  let s := (s.stageDone 6 7).wr Csr.BOOTSTAT_service_ms ms
  { s with board := { s.board with reset := none } }.rmLevels.raise Ev.BOOT_SERVICE 0 0

/-- Something holds the device in reset, or it is in factory test (R561). -/
def State.heldInReset (s : State) : Bool :=
  !s.board.main || s.board.prst || s.board.test || s.board.trip || s.board.refGone || s.board.railOrder || s.board.reset == some .powerUp
    || s.board.flush != 0

/-- BOOT_STAGE_END. That a core has no image means in stage 2 that the image cache fails its check: the boot goes on from the loader
(R496). -/
def State.bootStageEnd (s : State) (e : StageEnd) : State :=
  let st := s.rd Csr.BOOTSTAT_stage
  if s.heldInReset then s
  else match e with
    | .done =>
      if st = 0 then s.stageDone 0 1
      else if st = 1 then s.loaderDone
      else if st = 3 then s.memoryDone
      else if st = 4 then s.heapStageDone
      else if st = 5 then s.durableDone
      else if st = 6 then s.controlDone true
      else s
    | .heap => if st = 3 ∨ st = 4 then s.heapStageDone else s
    | .firmware lo hi own mhz => if st = 2 then s.firmwareDone lo.toNat hi.toNat own.toNat mhz else s
    | .noLoader => if st = 0 then s.toRecovery else s
    | .noImage =>
      if st = 1 then (if s.bootStrap = 2 then s.halt 1 else s.failTried.toRecovery)
      else if st = 2 ∧ s.rd Csr.BOOTSTAT_source = 3 then { s with board := { s.board with cache := false } }.wr Csr.BOOTSTAT_stage 1
      else if st = 9 then s.halt (if s.board.fetches = 0 then 1 else 2)
      else s
    | .pll => if 1 ≤ st ∧ st ≤ 3 then s.halt 3 else s
    | .ddr => if st = 3 then s.halt 4 else s
    | .stk => if st = 3 then s.halt 5 else s
    | .selfTest => if st ≤ 6 then s.halt 6 else s
    | .bFails => if st = 6 then s.controlDone false else s

/-- BOOT_STAGE_END. -/
def execBootStageEnd (e : StageEnd) (s : State) : Outcome State Fault Refusal := .next (s.bootStageEnd e)

/-! ### Proven images and settings (R503, R505) -/

/-- A slot becomes GOOD, and the former GOOD slot PREVIOUS. -/
def State.makeGood (s : State) (i : Nat) : State :=
  let s := if s.rd (Csr.IMGSLOT_state (1 - i)) = 2 then s.wr (Csr.IMGSLOT_state (1 - i)) 3 else s
  (s.wr (Csr.IMGSLOT_state i) 2).raise Ev.IMAGE_CONFIRMED 0 0

/-- IMAGE_CONFIRM: the running image has been in SERVICE for confirm_s. -/
def State.imageConfirm (s : State) : State :=
  if s.rd Csr.BOOTSTAT_stage ≠ 7 then s
  else match s.board.netImage, s.flash.last with
    | some (svn, build), _ =>
      let i := s.spareSlot
      if s.rd (Csr.IMGSLOT_state (1 - i)) = 2 ∧ s.rd (Csr.IMGSLOT_svn (1 - i)) = svn ∧ s.rd (Csr.IMGSLOT_build (1 - i)) = build then s
      else (s.writeSlot i svn build 0).makeGood i
    | none, some i => if s.rd (Csr.IMGSLOT_state i) = 2 then s else s.makeGood i
    | none, none => s

/-- IMAGE_CONFIRM. -/
def execImageConfirm (s : State) : Outcome State Fault Refusal := .next s.imageConfirm

/-- R505: BOOTCTL.settings_commit. -/
def State.settingsCommit (s : State) : State :=
  let s := s.saveSettings true
  let s := { s with flash := { s.flash with unread := [] } }
  ((s.wr Csr.BOOTSTAT_settings_unreadable 0).wr Csr.BOOTSTAT_unread_boots 0).raise Ev.SETTINGS_COMMITTED 0 0

/-- R502: a PLDM update: an image set with its size in whole for the slot that is not GOOD, its activation as CANDIDATE, or, in ROM
recovery, a boot loader (R506). -/
def State.pldm (s : State) (u : Pldm) : State :=
  let i := s.spareSlot
  match u with
  | .image x => if x.good then s.writeSlot i x.svn.toNat x.build.toNat 0 else s.raise Ev.IMAGE_REFUSED 0 0
  | .activate => if s.flash.whole.contains i ∧ s.rd (Csr.IMGSLOT_state i) ≠ 2 then s.wr (Csr.IMGSLOT_state i) 1 else s
  | .loader good => if good && s.rd Csr.BOOTSTAT_stage == 9 then s.stageDone 0 1 else s

end Sys2Proof.Machine
end

