-- ==== Sys2Proof/Machine/Power.lean ====
section
/-!
DEFINITION. Gating, DEEP, the budget, the hard-limit block, clocks and the always-on domain (chapter 16).
-/
namespace Sys2Proof.Machine
open Sys2Proof Host

/-- Counters of Table 16-10: 0 GATECNT, 1 WAKECNT, 2 THROTCNT, 3 HLCNT. -/
def pwrCtr (i : Nat) : Ctr := ⟨⟨0x200100 + 8 * i, 0, 48, 0, false⟩, Csr.PWRSTAT_cnt_ovf, i, Ev.PWR_COUNT_OVF, 0, 0⟩

/-! ### Gating (R476, R477) -/

/-- R476: no rake of stall `k` runs or helps, no entry of its queues may be dispatched, and no move or resumption involves it. -/
def State.stallIdle (s : State) (k : Nat) : Bool :=
  (List.range 16).all (fun r => !(s.rake (16 * k + r)).busy && (s.rake (16 * k + r)).helps == 0)
    && (s.actList k).isEmpty
    && s.queues.all (fun (kv : Nat × Queue) =>
        kv.2.moving != some k && (kv.2.home != k || kv.2.moving.isNone && kv.2.resumeQ.isEmpty))

/-- RAKESTAT.state of the 16 rakes of stall `k`. -/
def State.stallRakes (s : State) (k x : Nat) : State := (List.range 16).foldl (fun s r => s.wr (Csr.RAKESTAT_state k r) x) s

/-- R476: the stall's requester is masked, or unmasked, at its rake-dispatch Carousel; a grant parked on it is released (R198). -/
def State.maskRake (s : State) (k : Fin 16) (m : Bool) : State :=
  let b := carBase (.rake k)
  let s := s.wr (Csr.CARSTATE_masked b) (setBit (s.rd (Csr.CARSTATE_masked b)) 0 m)
  if m && s.rd (Csr.CARSTATE_owner b) == 0 then s.wr (Csr.CARSTATE_parked b) 0 else s

/-- STALL_GATE. -/
def State.stallGate (s : State) (k : Fin 16) : State :=
  let s := s.relist
  if s.bit Csr.STALLPWR_gated k || s.bit Csr.STALLPWR_waking k || s.stallFailed k || !s.stallIdle k || !s.uncoreLit || s.board.reset.isSome
  then s
  else
    let s := ((s.sleepMark k).maskRake k true).setFld Csr.STALLPWR_gated k
    ((s.stallRakes k 3).count (pwrCtr 0)).runOrIdle

/-- STALL_GATE. -/
def execStallGate (k : Fin 16) (s : State) : Outcome State Fault Refusal := .next (s.stallGate k)

/-- STALL_WAKE. -/
def execStallWake (k : Fin 16) (s : State) : Outcome State Fault Refusal := .next (s.stallWake k.val)

/-- STALL_WAKE_DONE: isolation is released; the stall runs work. -/
def State.stallAwake (s : State) (k : Fin 16) : State :=
  if s.bit Csr.STALLPWR_waking k then
    let s := (s.clrFld Csr.STALLPWR_waking k).clrFld Csr.STALLPWR_gated k
    ((((s.wakeMark k).maskRake k false).stallRakes k 0).count (pwrCtr 1)).doorsGo
  else s

/-- STALL_WAKE_DONE. -/
def execStallWakeDone (k : Fin 16) (s : State) : Outcome State Fault Refusal := .next (s.stallAwake k)

/-! ### DEEP (R479, R481) -/

/-- R481: what must hold before DEEP is entered. -/
def State.deepReady (s : State) : Bool :=
  s.on Csr.PWRPOL_deep_en && s.rd Csr.PWRSTAT_state == 1 && s.allIdle && s.rd Csr.BOOTSTAT_stage == 7 && s.board.reset.isNone
    && s.board.flush == 0
    && (List.range 8).all (fun p => s.link p == 0 || s.link p == 1 || s.link p == 5)
    && s.rd Csr.TWINSTAT_state != 2 && s.rd Csr.TWINSTAT_state != 3
    && s.pans.all (fun (kv : Nat × Pan) => kv.2.ring.isEmpty && kv.2.openLines.isEmpty && kv.2.round.isNone)
    && s.shoots.isEmpty && (List.range 16).all (fun c => s.rd (Csr.DDRSTAT_state c) != 3)
    && s.dram.sweeps.isEmpty && s.coh.sweeps.isEmpty && s.twin.resync.isEmpty
    && s.rd Csr.SECSTAT_state != 2 && s.rd Csr.TRPSTAT_mode == 0 && !s.on Csr.STAMPSTAT_xtal_fail

/-- All DRAM enters self-refresh (`x` 2) or leaves it (0) together (R479). -/
def State.dramLow (s : State) (x : Nat) : State :=
  let s := (List.range 48).foldl (fun s c => s.setChan c (fun y => { y with low := x })) s
  { s with board := { s.board with selfRefresh := x == 2 } }

/-- Locks of the PLLs that run only while the uncore is lit. -/
def State.deepLocks (s : State) (on : Bool) : State :=
  let s := (s.wr Csr.CLKSTAT_base_lock (if on then 1 else 0)).wr Csr.CLKSTAT_mid_lock (if on then 1 else 0)
  let s := (s.wr Csr.CLKSTAT_rake_lock (if on then 0xFFFF else 0)).wr Csr.CLKSTAT_stk_lock (if on then 3 else 0)
  s.wr Csr.CLKSTAT_ddr_lock (if on then ((List.range 16).map (fun c => if 1 ≤ s.rd (Csr.DDRSTAT_state c) ∧ s.rd (Csr.DDRSTAT_state c) ≤ 3
    then 2 ^ c else 0)).sum else 0)

/-- DEEP_ENTER. -/
def State.deepEnter (s : State) : State :=
  if s.deepReady then
    let s := (s.pwrState 2).wr Csr.PWRSTAT_state 1
    let s := (s.portsSleep.sleepMark 24).wr Csr.PWRSTAT_state 2
    let s := (s.dramLow 2).deepLocks false
    { s with board := { s.board with aonStamp := s.stamp, acc := 0 } }
  else s

/-- DEEP_ENTER. -/
def execDeepEnter (s : State) : Outcome State Fault Refusal := .next s.deepEnter

/-- Wake markers of the uncore and of the engines that are powered again, and then the records that waited (R469, R521). -/
def State.deepMarks (s : State) : State :=
  let s := (s.wakeMark 24).traceDrain
  (List.range 8).foldl (fun s p => if engineDark (s.link p) then s else s.wakeMark (16 + p)) s

/-- DEEP_EXIT: the uncore continues from the always-on copy of the stamp (R473). -/
def State.deepExit (s : State) : State :=
  if s.inDeep then
    let s := (({ s with stamp := s.board.aonStamp }.dramLow 0).deepLocks true).wr Csr.PWRSTAT_state 1
    (s.deepMarks.raise Ev.PWR_STATE 0 0 1).runOrIdle
  else s

/-- DEEP_EXIT. -/
def execDeepExit (s : State) : Outcome State Fault Refusal := .next s.deepExit

/-! ### Operating points and limits (R482 to R488) -/

/-- R485, R528: point `j` may be used: it is planned, within the fused clock and voltage limits. -/
def State.pointOk (s : State) (j : Nat) : Bool :=
  s.bit Csr.AGEPLAN_points_ok j && decide (s.rd (Csr.VCOREOP_mhz j) ≤ s.rd Csr.HLFUSE_f_rake_max_mhz)
    && decide (s.rd Csr.HLFUSE_vcore_min ≤ s.rd (Csr.VCOREOP_code j)) && decide (s.rd (Csr.VCOREOP_code j) ≤ s.rd Csr.HLFUSE_vcore_max)

/-- R525: the range of the VCORE monitors follows the point: the planned voltage ± 25 mV. -/
def State.vcoreRange (s : State) (j : Nat) : State :=
  let mv := s.rd (Csr.VCOREOP_code j) * 5 / 2
  (List.range 8).foldl (fun s i => (s.wr (Csr.VMON_low_mv i) (mv - 25)).wr (Csr.VMON_high_mv i) (mv + 25)) s

/-- The rake clock is that of point `j`. -/
def State.setPoint (s : State) (j : Nat) : State :=
  ((s.clockRakes.wr Csr.PWRSTAT_point j).wr Csr.PWRSTAT_boost (if j = 0 then 0 else 1)).vcoreRange j

/-- The limits in force: the power core's own, under the settings that the hard-limit block imposes (R486, R488). -/
def State.inForce (s : State) (x : Limits) : Limits :=
  let hp := s.on Csr.PWRSTAT_hl_power
  let ht := s.on Csr.PWRSTAT_hl_thermal
  { x with point := if hp || ht then 0 else x.point,
           duty := if hp || ht then min x.duty (s.rd Csr.PWRCAP_min_duty) else x.duty,
           mem := if ht then min x.mem (s.rd Csr.PWRCAP_mem_floor_pct) else x.mem }

/-- The limits as PWRSTAT reports them. -/
def State.limits (s : State) : Limits :=
  ⟨s.rd Csr.PWRSTAT_point, s.rd Csr.PWRSTAT_duty, s.rd Csr.PWRSTAT_heap_pct, s.rd Csr.PWRSTAT_mem_pct⟩

/-- Limits take effect. A lower point changes the clock at once; a higher one waits until VCORE has settled (R482). -/
def State.applyLimits (s : State) : State :=
  let x := s.inForce s.board.own
  let s := ((s.wr Csr.PWRSTAT_duty x.duty).wr Csr.PWRSTAT_heap_pct x.heap).wr Csr.PWRSTAT_mem_pct x.mem
  let j0 := s.rd Csr.PWRSTAT_point
  if x.point = j0 then { s with board := { s.board with raising := none } }
  else if x.point < j0 then { s with board := { s.board with raising := none } }.setPoint x.point
  else { s with board := { s.board with raising := some x.point } }

/-- RAKE_CLOCK_CHANGE. -/
def State.clockChange (s : State) : State :=
  match s.board.raising with
  | some j => { s with board := { s.board with raising := none } }.setPoint j
  | none => s

/-- RAKE_CLOCK_CHANGE. -/
def execRakeClockChange (s : State) : Outcome State Fault Refusal := .next s.clockChange

/-- f(j) V(j)^2 duty, to which the rakes' power is proportional (R483). -/
def State.rakeScale (s : State) (x : Limits) : Nat :=
  s.rd (Csr.VCOREOP_mhz x.point) * s.rd (Csr.VCOREOP_code x.point) ^ 2 * x.duty

/-- R483: the total in mW predicted when the limits go from `a` to `b`, with the subsystems at `p`. -/
def State.powerThen (s : State) (p : List Nat) (a b : Limits) : Nat :=
  let g (i : Nat) : Nat := p.getD i 0
  let rake := ceilDiv (g 3 * s.rakeScale b) (max 1 (s.rakeScale a))
  let mem := if a.mem = b.mem then g 1 + g 2 else Config.cutPred (g 1 + g 2) a.mem b.mem
  let heap := if a.heap = b.heap then g 6 else Config.cutPred (g 6) a.heap b.heap
  g 0 + mem + rake + g 4 + g 5 + heap + g 7

/-- The limits one cut further: 1 the rake point, 2 the duty, 3 the heap rate, 4 the DRAM command rate; none when all are at their
floors. -/
def State.cutOnce (s : State) (x : Limits) : Option Limits :=
  let lo := s.rd Csr.PWRCAP_min_duty
  let fl := s.rd Csr.PWRCAP_mem_floor_pct
  if 0 < x.point then some { x with point := ((List.range x.point).reverse.find? s.pointOk).getD 0 }
  else if lo < x.duty then some { x with duty := x.duty - 1 }
  else if 10 < x.heap then some { x with heap := max 10 (x.heap - 10) }
  else if fl < x.mem then some { x with mem := max fl (x.mem - 10) }
  else none

/-- The limits one step restored, in reverse order of the cuts. -/
def restoreOnce (x : Limits) : Option Limits :=
  if x.mem < 100 then some { x with mem := min 100 (x.mem + 10) }
  else if x.heap < 100 then some { x with heap := min 100 (x.heap + 10) }
  else if x.duty < 16 then some { x with duty := x.duty + 1 }
  else none

/-- Restores while a prediction fits `cap`. -/
def State.restoreAll (s : State) (p : List Nat) (a : Limits) (cap : Nat) : Nat → Limits → Limits
  | 0, x => x
  | n + 1, x =>
    match restoreOnce x with
    | some y => if s.powerThen p a (s.inForce y) ≤ cap then s.restoreAll p a cap n y else x
    | none => x

/-- Cuts until a prediction fits `cap`. -/
def State.cutAll (s : State) (p : List Nat) (a : Limits) (cap : Nat) : Nat → Limits → Limits
  | 0, x => x
  | n + 1, x =>
    if s.powerThen p a (s.inForce x) ≤ cap then x
    else match s.cutOnce x with
      | some y => s.cutAll p a cap n y
      | none => x

/-- The cap in mW (R483, R487). -/
def State.capMw (s : State) (hot : Nat) : Nat :=
  1000 * min (s.rd Csr.PWRCAP_p_cap_w) (min (s.rd Csr.PWRMCAP_mgmt_cap_w) (s.rd Csr.HLFUSE_p_max_w)) - 2000 * hot

/-- Degrees in steps of 0.125 °C that sensor `i` reads. -/
def State.temp (s : State) (i : Nat) : Int := toSigned 12 (s.rd (Csr.TEMP_reading i))

/-- Sensors that work. -/
def State.sensors (s : State) : List Nat := (List.range 48).filter (fun i => !s.on (Csr.TEMP_fail i))

/-- Some sensor reads `c` °C or more. -/
def State.hotter (s : State) (c : Nat) : Bool := s.sensors.any (fun i => decide (((8 * c : Nat) : Int) ≤ s.temp i))

/-- R483, `budget`: the power core's limits after an interval with mean powers `p` in mW. -/
def State.budget (s : State) (p : List Nat) (cap : Nat) : Limits :=
  let own := s.board.own
  let now := s.limits
  let hl := s.on Csr.PWRSTAT_hl_power || s.on Csr.PWRSTAT_hl_thermal
  let x := if hl then own else s.restoreAll p now cap 64 own
  let x := s.cutAll p now cap 64 x
  if !s.on Csr.PWRCAP_boost_en then { x with point := 0 }
  else if hl || decide (cap < s.powerThen p now (s.inForce x)) then x
  else
    match (List.range 5).reverse.find? (fun j =>
      s.pointOk j && decide (s.powerThen p now { x with point := j } + 1000 * s.rd Csr.PWRCAP_guard_w ≤ cap)) with
    | some j => { x with point := j }
    | none => x

/-- R484: cuts 2 to 4 in force, with their events. -/
def State.throttleState (s : State) (x : Limits) : State :=
  let t := decide (x.duty < 16) || decide (x.heap < 100) || decide (x.mem < 100)
  let was := s.on Csr.PWRSTAT_throttled
  let s := s.wr Csr.PWRSTAT_throttled (if t then 1 else 0)
  let s := if t && !was then s.raise Ev.PWR_THROTTLE 0 0 else if was && !t then s.raise Ev.PWR_THROTTLE_END 0 0 else s
  if t then s.count (pwrCtr 2) else s

/-- BUDGET_INTERVAL: the means of the interval that ends are recorded, and `budget` runs. -/
def State.budgetInterval (s : State) (mw : List (BitVec 20)) : State :=
  if !s.uncoreLit || s.board.reset.isSome then s
  else
    let p := (List.range 8).map (fun i => (mw.getD i 0).toNat)
    let s := p.zipIdx.foldl (fun s (x, i) => s.wr (Csr.PWRMEAS_mw i) x) s
    let total := min p.sum 0xFFFFF
    let s := (s.wr Csr.PWRTOT_avg_mw total).wr Csr.PWRTOT_peak_mw (max (s.rd Csr.PWRTOT_peak_mw) total)
    let floors := (s.cutOnce s.board.own).isNone
    let hot := if s.hotter (s.rd Csr.PWRPOL_t_target) then (if floors then s.board.hot else s.board.hot + 1) else 0
    let x := s.budget p (s.capMw hot)
    let s := { s with board := { s.board with hot := hot, own := x } }
    (s.applyLimits.throttleState x).runOrIdle

/-- BUDGET_INTERVAL. -/
def execBudgetInterval (mw : List (BitVec 20)) (s : State) : Outcome State Fault Refusal := .next (s.budgetInterval mw)

/-- HL_POWER_CHECK (R486): the mean of the last 10 µs is above p_max_w. -/
def State.hlCheck (s : State) (mw : Nat) : State :=
  if 1000 * s.rd Csr.HLFUSE_p_max_w < mw ∧ !s.on Csr.PWRSTAT_hl_power then
    let s := (s.wr Csr.PWRSTAT_hl_power 1).wr Csr.HLSTAT_power_active 1
    ((s.applyLimits).raise Ev.HL_POWER 0 0).count (pwrCtr 3)
  else s

/-- HL_POWER_CHECK. -/
def execHlPowerCheck (mw : Nat) (s : State) : Outcome State Fault Refusal := .next (s.hlCheck mw)

/-- HL_POWER_RELEASE. -/
def State.hlRelease (s : State) : State :=
  if s.on Csr.PWRSTAT_hl_power then ((s.wr Csr.PWRSTAT_hl_power 0).wr Csr.HLSTAT_power_active 0).applyLimits else s

/-- HL_POWER_RELEASE. -/
def execHlPowerRelease (s : State) : Outcome State Fault Refusal := .next s.hlRelease

/-! ### Reference, crystal and the always-on supplies (R470 to R475) -/

/-- REF_ABSENT. -/
def State.refAbsent (s : State) : State := if s.board.main && !s.board.refGone then s.refSeen else s

/-- REF_ABSENT. -/
def execRefAbsent (s : State) : Outcome State Fault Refusal := .next s.refAbsent

/-- REF_RETURN: the reference has been present for 1 ms. -/
def State.refReturn (s : State) : State :=
  if s.board.main && s.board.refGone then
    let s := { s.wr Csr.CLKSTAT_ref_present 1 with board := { s.board with refGone := false } }
    if s.board.reset = some .powerUp then s.bootStart else s.hardReset 10
  else s

/-- REF_RETURN. -/
def execRefReturn (s : State) : Outcome State Fault Refusal := .next s.refReturn

/-- XTAL_MISSING (R471). -/
def State.xtalMissing (s : State) : State :=
  if s.uncoreLit && !s.on Csr.STAMPSTAT_xtal_fail then (s.wr Csr.STAMPSTAT_xtal_fail 1).raise Ev.XTAL_FAIL 7 0 else s

/-- XTAL_MISSING. -/
def execXtalMissing (s : State) : Outcome State Fault Refusal := .next s.xtalMissing

/-- VAON_LOW: the always-on domain goes to VBAT. -/
def State.vaonLow (s : State) : State :=
  if s.board.vaon then
    let s := { s with board := { s.board with vaon := false, vbat := true } }
    (s.wr Csr.STAMPSTAT_on_vbat 1).raise Ev.AON_ON_VBAT 7 0
  else s

/-- VAON_LOW. -/
def execVaonLow (s : State) : Outcome State Fault Refusal := .next s.vaonLow

/-- VAON_RETURN. -/
def State.vaonReturn (s : State) : State :=
  if s.board.vaon then s else { s with board := { s.board with vaon := true } }.raise Ev.AON_ON_MAIN 7 0

/-- VAON_RETURN. -/
def execVaonReturn (s : State) : Outcome State Fault Refusal := .next s.vaonReturn

/-- R529: one tick of the calendar; a RTC_SET that waits takes effect at it. A negative trim holds it back (R530). -/
def State.calendarTick (s : State) : State :=
  match s.board.rtcLoad with
  | some t =>
    let s := { s with board := { s.board with rtcLoad := none, rtcHold := 0 } }
    (((s.wr Csr.RTCSEC_seconds t).wr Csr.RTCSUB_ticks 0).wr Csr.RTCSEC_valid 1).raise Ev.RTC_SET 7 0
  | none =>
    if 0 < s.board.rtcHold then { s with board := { s.board with rtcHold := s.board.rtcHold - 1 } }
    else
      let n := s.rd Csr.RTCSUB_ticks + 1
      if n < 32768 then s.wr Csr.RTCSUB_ticks n
      else (s.wr Csr.RTCSUB_ticks (n - 32768)).wr Csr.RTCSEC_seconds (s.rd Csr.RTCSEC_seconds + 1)

/-- R473: what acc becomes at a tick while the uncore is dark, before the carry: acc + 1,953,125 + cal. -/
def State.aonAcc (s : State) : Nat := (((s.board.acc + 1953125 : Nat) : Int) + toSigned 8 (s.rd Csr.STAMPCAL_cal)).toNat

/-- AON_TICK. -/
def State.aonTick (s : State) : State :=
  if !s.board.vaon && !s.board.vbat then s
  else
    let s := s.calendarTick
    if s.uncoreLit then { s with board := { s.board with aonStamp := s.stamp, acc := 0 } }
    else
      let a := s.aonAcc
      let t := (s.board.aonStamp + a / 64) % 2 ^ 64
      { s with stamp := t, board := { s.board with aonStamp := t, acc := a % 64 } }

/-- AON_TICK. -/
def execAonTick (s : State) : Outcome State Fault Refusal := .next s.aonTick

/-- STAMP_CALIBRATE (R474): `m` reference cycles over 32,768 ticks. The crystal error also gives the calendar's trim (R530). -/
def State.stampCal (s : State) (m : Nat) : State :=
  if !s.uncoreLit then s
  else
    let c : Int := ((5 * m + 128) / 256 : Nat) - 1953125
    if -128 ≤ c ∧ c ≤ 127 then
      let t : Int := (2 * c * 1048576 + 1953125) / (2 * 1953125)
      (s.wr Csr.STAMPCAL_cal (ofSigned 8 c)).wr Csr.RTCTRIM_trim (ofSigned 8 t)
    else s.raise Ev.XTAL_FAIL 7 0

/-- STAMP_CALIBRATE. -/
def execStampCalibrate (m : Nat) (s : State) : Outcome State Fault Refusal := .next (s.stampCal m)

/-- What happens when no command waits: one nanosecond passes on the stamp while the uncore runs (R473; DESIGN CHOICE, log entry 14). -/
def State.tick (s : State) : State := if s.uncoreLit then { s with stamp := (s.stamp + 1) % 2 ^ 64 } else s

end Sys2Proof.Machine
end

