-- ==== Sys2Proof/Machine/Monitor.lean ====
section
/-!
DEFINITION. Monitors, ageing, the calendar, alarms, crash dumps and the presence and tamper pins (R460, R463, R488, R517, R522 to R533).
-/
namespace Sys2Proof.Machine
open Sys2Proof Host

/-! ### Temperature (R488, R524) -/

/-- The largest reading and its sensor, among the sensors that work; sensor 0 when none does. -/
def State.hottest (s : State) : Nat × Int :=
  s.sensors.foldl (fun (m : Nat × Int) (i : Nat) => if m.2 < s.temp i then (i, s.temp i) else m) (0, -2048)

/-- HLSTAT names the hottest sensor and its reading in whole degrees, 0 to 127. -/
def State.hotReport (s : State) : State :=
  let h := s.hottest
  (s.wr Csr.HLSTAT_hot_sensor h.1).wr Csr.HLSTAT_hot_c (min 127 (h.2 / 8).toNat)

/-- The two sensors of an optical engine: port p at 16 + 2p and 17 + 2p; the port that sensor `i` watches. -/
def enginePort (i : Nat) : Option Nat := if 16 ≤ i ∧ i < 32 then some ((i - 16) / 2) else none

/-- R524: a port whose engine has no sensor left is held DISABLED, until one works again. -/
def State.watchEngine (s : State) (i : Nat) : State :=
  match enginePort i with
  | none => s
  | some p =>
    let dead := s.on (Csr.TEMP_fail (16 + 2 * p)) && s.on (Csr.TEMP_fail (17 + 2 * p))
    if dead && !s.board.unwatched.contains p then
      ({ s with board := { s.board with unwatched := s.board.unwatched ++ [p] } }).linkDisable p
    else if !dead && s.board.unwatched.contains p then
      let s := { s with board := { s.board with unwatched := s.board.unwatched.erase p } }
      if s.rd Csr.BOOTSTAT_stage = 7 then s.linkEnable p else s
    else s

/-- TEMP_HIGH, once until the sensor falls 3 °C below t_warn. -/
def State.warnTemp (s : State) (i : Nat) (r : Int) : State :=
  let w : Int := (8 * s.rd Csr.MONCTL_t_warn : Nat)
  if s.board.warm.contains i then
    if r ≤ w - 24 then { s with board := { s.board with warm := s.board.warm.erase i } } else s
  else if w ≤ r then ({ s with board := { s.board with warm := s.board.warm ++ [i] } }).raise Ev.TEMP_HIGH 8 i
  else s

/-- R488, throttle: imposed at t_throttle on any sensor, released when all are below 97 °C. -/
def State.hlThermal (s : State) : State :=
  let was := s.on Csr.PWRSTAT_hl_thermal
  if !was && s.hotter (s.rd Csr.HLFUSE_t_throttle) then
    let s := (s.wr Csr.PWRSTAT_hl_thermal 1).wr Csr.HLSTAT_thermal_active 1
    ((s.applyLimits).raise Ev.HL_THERMAL 0 0).count (pwrCtr 3)
  else if was && !s.hotter 97 then ((s.wr Csr.PWRSTAT_hl_thermal 0).wr Csr.HLSTAT_thermal_active 0).applyLimits
  else s

/-- R488, trip: the device is shut down and held. During a power-fail flush it waits. -/
def State.hlTrip (s : State) (i : Nat) : State :=
  if s.board.trip || s.board.flush == 1 then s
  else
    let s := (s.raise Ev.HL_TRIP 8 i i).count (pwrCtr 3)
    let s := if s.board.reset = some .powerUp then s
      else
        let s := s.endSessions.hardClear
        { s with board := { s.board with reset := none } }
    { s with board := { s.board with trip := true, selfRefresh := true, aonStamp := s.stamp, acc := 0 } }

/-- SENSOR_SAMPLE: sensor `i` reads `v`; `bad` says that its self-check fails, or that it has not moved for 10 s while a neighbour
has. -/
def State.sensorSample (s : State) (i : Nat) (v : Nat) (bad : Bool) : State :=
  if !s.board.main then s
  else
    let r := toSigned 12 v
    let fail := bad || decide (r < -400) || decide (1200 < r)
    let was := s.on (Csr.TEMP_fail i)
    let s := (s.wr (Csr.TEMP_reading i) v).wr (Csr.TEMP_fail i) (if fail then 1 else 0)
    let s := if fail && !was then s.raise Ev.TEMP_SENSOR_FAIL 8 i else s
    let s := s.watchEngine i
    if fail then s.hotReport
    else
      let c := r / 8
      let s := if toSigned 8 (s.rd (Csr.TEMP_max_c i)) < c then s.wr (Csr.TEMP_max_c i) (ofSigned 8 (min c 127)) else s
      let s := ((s.warnTemp i r).hotReport).hlThermal
      if ((8 * s.rd Csr.HLFUSE_t_trip : Nat) : Int) ≤ r then s.hlTrip i else s

/-- SENSOR_SAMPLE. -/
def execSensorSample (i : Fin 48) (v : BitVec 12) (bad : Bool) (s : State) : Outcome State Fault Refusal :=
  .next (s.sensorSample i.val v.toNat bad)

/-- TRIP_RESTART: every sensor has read below 90 °C for 1 s. -/
def State.tripRestart (s : State) : State :=
  if s.board.main && s.board.trip && !s.hotter 90 then
    let s := { s with stamp := s.board.aonStamp, board := { s.board with trip := false } }
    if s.board.reset = some .powerUp then s.bootStart else (s.hardReset 7).wr Csr.HLSTAT_trip_seen 1
  else s

/-- TRIP_RESTART. -/
def execTripRestart (s : State) : Outcome State Fault Refusal := .next s.tripRestart

/-! ### Voltage (R525, R569) -/

/-- Rail monitor `i` finds its rail out of range: VOLT_OUT_OF_RANGE once until it returns. -/
def State.railOut (s : State) (i : Nat) : State :=
  let s := s.wr (Csr.VMON_out i) 1
  if s.board.out.contains i then s
  else ({ s with board := { s.board with out := s.board.out ++ [i] } }).raise Ev.VOLT_OUT_OF_RANGE 8 i

/-- VMON_SAMPLE. -/
def State.vmonSample (s : State) (i mv : Nat) : State :=
  if !s.board.main then s
  else
    let s := s.wr (Csr.VMON_mv i) mv
    if mv < s.rd (Csr.VMON_low_mv i) ∨ s.rd (Csr.VMON_high_mv i) < mv then s.railOut i
    else { s with board := { s.board with out := s.board.out.erase i } }

/-- VMON_SAMPLE. -/
def execVmonSample (i : Fin 24) (mv : BitVec 11) (s : State) : Outcome State Fault Refusal := .next (s.vmonSample i.val mv.toNat)

/-- PMB_ALERT: the VCORE regulator asserts PMB_ALERT_N. -/
def execPmbAlert (s : State) : Outcome State Fault Refusal := .next (if s.board.main then s.railOut 0 else s)

/-! ### Ageing (R527, R528) -/

/-- AGE_MEASURE: what the 32 monitors report; in DEEP the measurement stays due. -/
def State.ageMeasure (s : State) (d : List (BitVec 24)) : State :=
  if s.inDeep then { s with board := { s.board with ageDue := true } }
  else if !s.uncoreLit then s
  else
    let xs := (List.range 32).map (fun i => (d.getD i 0).toNat)
    let s := xs.zipIdx.foldl (fun s (x, i) => s.wr (Csr.AGE_d_ppm i) x) s
    let s := s.wr Csr.AGELAST_stamp s.stamp
    ({ s with board := { s.board with ageDue := false } }).raise Ev.AGE_MEASURED 0 0 (xs.foldl max 0)

/-- AGE_MEASURE. -/
def execAgeMeasure (d : List (BitVec 24)) (s : State) : Outcome State Fault Refusal := .next (s.ageMeasure d)

/-- R528: steps of the new plan. -/
def planSteps (dMax prev : Nat) : Nat := max (min (ceilDiv (dMax - 500) 1250) (prev + 4)) (prev - 1)

/-- MARGIN_REPLAN. -/
def State.replan (s : State) : State :=
  if !s.uncoreLit then s
  else
    let dMax := ((List.range 32).map (fun i => s.rd (Csr.AGE_d_ppm i))).foldl max 0
    let steps := planSteps dMax (s.rd Csr.AGEPLAN_steps)
    let vmax := s.rd Csr.HLFUSE_vcore_max
    let ok (j : Nat) : Bool := j == 0 || decide (300 + 10 * j + steps ≤ vmax)
    let limit := decide (vmax < 300 + steps)
    let old := s.rd Csr.AGEPLAN_points_ok
    let news := ((List.range 5).any (fun j => bitOf old j && !ok j)) || (limit && !s.on Csr.AGEPLAN_limit)
    let s := s.usePlan steps
    let s := (s.wr Csr.AGEPLAN_d_max dMax).vcoreRange (s.rd Csr.PWRSTAT_point)
    let s := s.raise Ev.MARGIN_PLAN 0 0 (steps + s.rd Csr.AGEPLAN_points_ok * 2 ^ 64)
    (if news then s.raise Ev.MARGIN_LIMIT 0 0 else s).saveSettings false

/-- MARGIN_REPLAN. -/
def execMarginReplan (s : State) : Outcome State Fault Refusal := .next s.replan

/-! ### Calendar and alarms (R529 to R532) -/

/-- RTC_TRIM: at each 32-second boundary. -/
def State.rtcTrim (s : State) : State :=
  let t := toSigned 8 (s.rd Csr.RTCTRIM_trim)
  if s.rd Csr.RTCSEC_seconds % 32 ≠ 0 ∨ s.rd Csr.RTCSUB_ticks ≠ 0 ∨ s.board.rtcHold ≠ 0 ∨ (!s.board.vaon && !s.board.vbat) then s
  else if t < 0 then { s with board := { s.board with rtcHold := t.natAbs } }
  else s.wr Csr.RTCSUB_ticks t.natAbs

/-- RTC_TRIM. -/
def execRtcTrim (s : State) : Outcome State Fault Refusal := .next s.rtcTrim

/-- RTC_SNAPSHOT; the seconds left of a presence window count with it. -/
def State.rtcSnapshot (s : State) : State :=
  let s := ((s.wr Csr.RTCSNAPSTAMP_stamp s.stamp).wr Csr.RTCSNAPSEC_seconds (s.rd Csr.RTCSEC_seconds)).wr
    Csr.RTCSNAPSEC_ticks (s.rd Csr.RTCSUB_ticks)
  match s.sec.window with
  | some e => s.wr Csr.PRESSTAT_window_s (min 60 (ceilDiv (e - s.stamp) 1000000000))
  | none => s

/-- RTC_SNAPSHOT. -/
def execRtcSnapshot (s : State) : Outcome State Fault Refusal := .next (if s.board.vaon || s.board.vbat then s.rtcSnapshot else s)

/-- ALARMSTAT.pin_asserted follows the alarms that hold ALARM_N. -/
def State.alarmPinOut (s : State) (m : Nat) : State :=
  { s with board := { s.board with alarmPin := m } }.wr Csr.ALARMSTAT_pin_asserted (if m = 0 then 0 else 1)

/-- R532: an alarm that fires without main power. -/
def State.missAlarm (s : State) (k : Nat) : State :=
  let s := if s.on Csr.MISSED_valid then s
    else ((s.wr Csr.MISSED_alarm_sec (s.rd (Csr.ALARM_at_sec k))).wr Csr.MISSED_which k).wr Csr.MISSED_valid 1
  (s.wr Csr.MISSEDLAST_last_sec (s.rd Csr.RTCSEC_seconds)).wr Csr.MISSED_count (min 255 (s.rd Csr.MISSED_count + 1))

/-- ALARM_FIRE: an armed alarm whose time has come. -/
def State.alarmFire (s : State) (k : Nat) : State :=
  if s.on Csr.RTCSEC_valid && s.on (Csr.ALARM_en k) && decide (s.rd (Csr.ALARM_at_sec k) ≤ s.rd Csr.RTCSEC_seconds) then
    let s := (s.wr (Csr.ALARM_en k) 0).setFld Csr.ALARMSTAT_fired k
    if s.board.main then
      let s := s.raise Ev.RTC_ALARM 7 0 (k + s.rd (Csr.ALARM_at_sec k) * 2 ^ 64)
      if s.on (Csr.ALARM_pin k) then s.alarmPinOut (setBit s.board.alarmPin k true) else s
    else (s.missAlarm k).alarmPinOut (setBit s.board.alarmPin k true)
  else s

/-- ALARM_FIRE. -/
def execAlarmFire (k : Fin 2) (s : State) : Outcome State Fault Refusal := .next (s.alarmFire k.val)

/-! ### Outputs to the board (R555, R562) -/

/-- LSR_EN[p]: high while port p is enabled and not DISABLED; low through every reset, in a thermal trip and from the power-fail sequence on.
It stays high in SLEEP, whose wake leaves no time for a laser to start. -/
def State.lsrEn (s : State) (p : Nat) : Bool :=
  s.board.main && s.board.reset.isNone && !s.board.trip && !s.board.prst && !s.board.refGone && s.board.flush == 0
    && s.on (Csr.PORTCTL_enable p) && s.rd (Csr.PORTSTAT_state p) != 0

/-- THERMTRIP_N is asserted: from a thermal trip until the hard reset that ends it. -/
def State.thermtrip (s : State) : Bool := s.board.trip

/-- PEX_PERST_N of every heap port is asserted: until stage HEAP of start-up, which begins with stage MEMORY. The 100 ms of a controller's reset
are no state (log entry 72). -/
def State.perst (s : State) : Bool := s.heldInReset || decide (s.rd Csr.BOOTSTAT_stage < 3) || decide (8 ≤ s.rd Csr.BOOTSTAT_stage)

/-- ALARM_N is asserted (R531). -/
def State.alarmN (s : State) : Bool := s.board.alarmPin != 0

/-! ### Crash dumps (R517, R522) -/

/-- A dump slot's state. -/
def State.dumpSlot (s : State) (k : Nat) : Nat := s.rd (if k = 0 then Csr.DUMPSTAT_slot0 else Csr.DUMPSTAT_slot1)

/-- Sets a dump slot's state. -/
def State.setDumpSlot (s : State) (k x : Nat) : State := s.wr (if k = 0 then Csr.DUMPSTAT_slot0 else Csr.DUMPSTAT_slot1) x

/-- The number of a firmware core in event data and dumps: 0 Ticket Booth, 1 power core, 2 and 3 Ringmaster A and B, 4 + k stall
core k. Log entry 13. -/
def coreNum : FwCore → Nat
  | .booth => 0
  | .power => 1
  | .rm b => if b then 3 else 2
  | .stall k => 4 + k.val

/-- A dump is written to the DDR5 buffer: of core `core`, or of none for DUMPCMD. In SEALED with dump_data = 0 it leaves out memory
(R459). -/
def State.takeDump (s : State) (core : Option FwCore) : State :=
  let blank := s.rd Csr.SECSTAT_state == 3 && !bitOf s.sec.policy 17
  let d : Dump := ⟨if core.isSome then 1 else 0, (core.map coreNum).getD 0, s.stamp, s.rd Csr.RTCSEC_seconds, blank⟩
  (({ s with mgmt := { s.mgmt with buffer := some d } }).wr Csr.DUMPSTAT_pending 1).raise Ev.DUMP_TAKEN 0 0

/-- A firmware core fails: CORE_FAULT, and a dump for those that Table 18-5 lists with one. -/
def State.coreFails (s : State) (c : FwCore) : State :=
  let s := s.raise Ev.CORE_FAULT 0 0 (coreNum c)
  match c with
  | .booth => s.raise Ev.TB_FAULT 0 0
  | _ => s.takeDump (some c)

/-- DUMP_COPY_DONE. -/
def State.dumpCopied (s : State) : State :=
  match s.mgmt.buffer with
  | none => s
  | some d =>
    let s := { s with mgmt := { s.mgmt with buffer := none } }.wr Csr.DUMPSTAT_pending 0
    match [0, 1].find? (fun k => s.dumpSlot k != 1) with
    | some k => (({ s with mgmt := { s.mgmt with dumps := SMap.put none k (some d) s.mgmt.dumps } }).setDumpSlot k 1).raise Ev.DUMP_SAVED 0 0
    | none => (s.wr Csr.DUMPSTAT_lost (min 255 (s.rd Csr.DUMPSTAT_lost + 1))).raise Ev.DUMP_LOST 0 0

/-- DUMP_COPY_DONE. -/
def execDumpCopyDone (s : State) : Outcome State Fault Refusal := .next (if s.heldInReset then s else s.dumpCopied)

/-- DUMPCMD.mark_read: slots that hold an unread dump. -/
def State.markRead (s : State) (mask : Nat) : State :=
  [0, 1].foldl (fun s k => if bitOf mask k && s.dumpSlot k == 1 then s.setDumpSlot k 2 else s) s

/-- WATCHDOG_EXPIRE: of the Ticket Booth, or of the power core. -/
def State.watchdog (s : State) (booth : Bool) : State :=
  if s.heldInReset then s else (s.coreFails (if booth then .booth else .power)).hardReset 9

/-- WATCHDOG_EXPIRE. -/
def execWatchdogExpire (booth : Bool) (s : State) : Outcome State Fault Refusal := .next (s.watchdog booth)

/-- EVENT_STAGE_DRAIN (R519): the oldest staged record enters the event ring, which lies in DRAM. -/
def execEventStageDrain (s : State) : Outcome State Fault Refusal := .next (if s.uncoreLit then s.stageDrain else s)

/-! ### Presence and tamper pins (R460, R463, R464) -/

/-- PRES_PRESS: a press ends; `rearmed` says that PRES_N had been deasserted for 1 s before it. -/
def State.presPress (s : State) (rearmed : Bool) : State :=
  if !s.board.main || (s.on Csr.SECSTAT_pres_stuck && !rearmed) then s
  else
    let s := (s.wr Csr.SECSTAT_pres_stuck 0).wr Csr.PRESSTAT_presses (min 0xFFFF (s.rd Csr.PRESSTAT_presses + 1))
    let s := { s with sec := { s.sec with window := some (s.stamp + 60000000000) } }
    ((s.wr Csr.SECSTAT_pres_window 1).wr Csr.PRESSTAT_window_s 60).raise Ev.PRESENCE_WINDOW 0 0

/-- PRES_PRESS. -/
def execPresPress (rearmed : Bool) (s : State) : Outcome State Fault Refusal := .next (s.presPress rearmed)

/-- PRES_LONG_PRESS: held for 10 s: a request for recovery boot. -/
def execPresLongPress (s : State) : Outcome State Fault Refusal :=
  .next (if s.board.main && !s.on Csr.SECSTAT_pres_stuck then
      (s.wr Csr.PRESSTAT_long_press 1).wr Csr.RSTCAUSE_recovery_req 1
    else s)

/-- The presence window closes. -/
def State.windowClose (s : State) : State :=
  (({ s with sec := { s.sec with window := none } }).wr Csr.SECSTAT_pres_window 0).wr Csr.PRESSTAT_window_s 0

/-- PRESENCE_WINDOW_EXPIRE: 60 s after the release. -/
def execPresenceWindowExpire (s : State) : Outcome State Fault Refusal := .next s.windowClose

/-- R533: the tamper record, latched while it is clear. -/
def State.tamperRecord (s : State) (wiped : Bool) : State :=
  if s.on Csr.TAMPERREC_valid then s
  else
    let s := (s.wr Csr.TAMPERREC_rtc_sec (s.rd Csr.RTCSEC_seconds)).wr Csr.TAMPERREC_on_vbat (if s.board.main then 0 else 1)
    ((s.wr Csr.TAMPERREC_key_wiped (if wiped then 1 else 0)).wr Csr.TAMPERREC_valid 1).wr Csr.TAMPERSTAMP_stamp s.stamp

/-- TAMPER_EVENT: TAMPER_N asserted for 100 µs. On VBAT alone the seal key is wiped, and the tenancy record fails its check (R436). -/
def State.tamper (s : State) : State :=
  if !s.board.main && !s.board.vaon && !s.board.vbat then s
  else
    let wiped := !s.board.main && !s.board.vaon && s.on Csr.SECSTAT_seal_valid
    let changed := !s.on Csr.SECSTAT_tamper_latched
    let s := (s.wr Csr.SECSTAT_tamper_latched 1).raise Ev.TAMPER 7 0
    let s := if wiped then { (s.wr Csr.SECSTAT_seal_valid 0).setKeys (fun k => { k with seal_ := none }) with sec := { s.sec with recordOk := false } }
      else s
    let s := s.tamperRecord wiped
    let s := if s.board.main then s else s.raise Ev.TAMPER_ON_VBAT 7 0
    let s := if changed && s.board.main then s.measured else s
    if s.board.main && s.rd Csr.SECSTAT_state == 3 && bitOf s.sec.policy 19 then s.switchStart 0 s.zeroOnExit else s

/-- TAMPER_EVENT. -/
def execTamperEvent (s : State) : Outcome State Fault Refusal := .next s.tamper

end Sys2Proof.Machine
end

