-- ==== Sys2Proof/Machine/Mgmt.lean ====
section
/-!
DEFINITION. The management service, SPDM sessions, the tenant's and the owner's commands, and Barker (R434 to R445, R458, R461, R462,
R510 to R516).
-/
namespace Sys2Proof.Machine
open Sys2Proof Host

/-- Counters of Table 15-16: 0 SPDMREQCNT, 1 SEALDENYCNT, 2 KEYSCNT, 3 PRESREFCNT. -/
def secCtr (i : Nat) : Ctr := ⟨⟨0x3000400 + 8 * i, 0, 48, 0, false⟩, Csr.SECCNTSTAT_cnt_ovf, i, Ev.SEC_COUNT_OVF, 0, 0⟩

/-- Counters of Table 18-14: 0 MGMTREQCNT, 1 MGMTERRCNT, 2 PUBCNT. -/
def mgmtCtr (i : Nat) : Ctr := ⟨⟨0x3100200 + 8 * i, 0, 48, 0, false⟩, Csr.MGMTSTAT_cnt_ovf, i, Ev.MGMT_COUNT_OVF, 0, 0⟩

/-! ### SPDM (R437, R442, R445) -/

/-- The session with an ID. -/
def State.session (s : State) (id : Nat) : Option Session := s.sec.sessions.find? (fun x => x.id == id)

/-- R437: one session for each fabric port, whose link must be up, and four over MCTP (port 8). -/
def State.sessionRoom (s : State) (port id : Nat) : Bool :=
  let n := (s.sec.sessions.filter (fun x => x.port == port)).length
  (s.session id).isNone && (if port < 8 then s.linkUp port && n == 0 else decide (n < 4))

/-- The 48 bytes of a digest that six registers hold. -/
def State.digestOf (s : State) (f : Nat → Fld) : List Nat := (List.range 6).flatMap (fun i => leBytes 8 (s.rd (f i)))

/-- Build number of the running image set (R500, R505). -/
def State.runBuild (s : State) : Nat :=
  if s.rd Csr.BOOTSTAT_source = 0 then (s.board.netImage.map (·.2)).getD 0 else s.rd (Csr.IMGSLOT_build (s.rd Csr.BOOTSTAT_slot))

/-- The digest of image `i` of Table 15-5: ROM and boot loader are not of the running set. -/
def State.imageDigest (s : State) (i : Nat) : Nat :=
  if i ≤ 2 then Config.imageDigest i 0 0 else Config.imageDigest i (s.rd Csr.SECVER_running) s.runBuild

/-- R438: block `i` of Table 15-5. The order of what blocks 7 and 9 list is the model's: log entry 80. -/
def State.measureBlock (s : State) (i : Nat) : List Nat :=
  if i ≤ 6 then leBytes 48 (s.imageDigest i)
  else if i = 7 then (List.replicate 4 (leBytes 2 (s.rd Csr.SECVER_running))).flatten ++ leBytes 2 (s.rd Csr.SECVER_floor)
  else if i = 8 then leBytes 2 (s.rd Csr.SECSTAT_state) ++ s.digestOf Csr.TENANTDIG_digest ++ s.digestOf Csr.SECPOLDIG_digest
  else leBytes 8 (s.regRead 0x200218).1 ++ leBytes 8 (s.regRead 0x200090).1 ++ [(s.regRead 8).1 % 256, s.rd Csr.SECSTAT_debug_unlocked,
    s.rd Csr.SECSTAT_tamper_latched] ++ leBytes 48 (s.sec.owner.getD 0)

/-- R438: block 0xF0: the signature over the requester's nonce and blocks 1 to 9. -/
def State.measureSign (s : State) (nonce : Nat) : List Nat :=
  let msg := leBytes 32 nonce ++ (rangeFrom 1 9).flatMap s.measureBlock
  leBytes 4627 (Config.aliasSign ((rangeFrom 1 6).map s.imageDigest) (Config.digest msg))

/-- R438: MEASUREMENTS: the block that the request names, or all. -/
def State.measurements (s : State) (nonce : Nat) (block : Option Nat) : List (Nat × List Nat) :=
  let all := (rangeFrom 1 9).map (fun i => (i, s.measureBlock i)) ++ [(0xF0, s.measureSign nonce)]
  match block with
  | some i => all.filter (fun x => x.1 == i)
  | none => all

/-- A key exchange completes: the session opens. Over a port the flit keys are bound and ENC_START is sent, in SEALED only with a peer
in the domain (R442). -/
def State.sessionOpen (s : State) (port id : Nat) (mutual_ : Bool) (root : Nat) (domain : Bool) : State :=
  if !s.sessionRoom port id then s
  else
    let (k, s) := s.drawFree 384
    let s := { s with sec := { s.sec with sessions := s.sec.sessions ++ [(⟨id, port, mutual_, root, k⟩ : Session)] } }
    let s := s.raise Ev.SPDM_SESSION_UP (if port < 8 then 2 else 0) (if port < 8 then port else 0) (if port < 8 then port else 0xFF)
    if port < 8 then
      let s := (s.wr (Csr.PORTSEC_spdm port) 2).wr (Csr.PORTSEC_domain port) (if domain then 1 else 0)
      let s := (s.wr (Csr.PORTSEC_generation port) 0).setLnk port (fun l => { l with rxGen := 0, encRx := none, rxFrom := 0 })
      if s.rd Csr.SECSTAT_state = 3 ∧ !domain then s else s.encStart port
    else s.mgmtLevels

/-- SPDM_REQUEST: a request over a fabric port, or over MCTP (port 8), is answered. -/
def State.spdmRequest (s : State) (port : Nat) (r : Spdm) : State :=
  if s.heldInReset ∨ (port < 8 ∧ !s.linkUp port) then s
  else
    let s := if port = 8 then s.deepExit else s
    let s := s.count (secCtr 0)
    match r with
    | .other => s
    | .measurements nonce block =>
      { s with sec := { s.sec with evidence := s.sec.evidence ++ [(⟨port, s.measurements nonce.toNat block⟩ : Evidence)] } }
    | .keyExchange id mu root domain => s.sessionOpen port id mu root domain
    | .endSession id =>
      match s.session id with
      | some x => if x.port = port then s.sessionEnd x else s
      | none => s

/-- SPDM_REQUEST. -/
def execSpdmRequest (port : Fin 9) (r : Spdm) (s : State) : Outcome State Fault Refusal := .next (s.spdmRequest port.val r)

/-- SPDM_HEARTBEAT_LOSS. -/
def State.heartbeatLoss (s : State) (id : Nat) : State :=
  match s.session id with
  | some x => s.sessionEnd x
  | none => s

/-- SPDM_HEARTBEAT_LOSS. -/
def execSpdmHeartbeatLoss (id : Nat) (s : State) : Outcome State Fault Refusal := .next (s.heartbeatLoss id)

/-! ### Tenancy (R434, R440) -/

/-- Table 15-6: a policy of 64 bytes with version 1, a debug level and zeros where it must have them. -/
def policyOk (b : List Nat) : Bool :=
  let v := ofLeBytes b
  b.length == 64 && bitsOf v 0 8 == 1 && decide (bitsOf v 8 8 ≤ 2) && bitsOf v 20 44 == 0 && bitsOf v 448 64 == 0

/-- The open session `id`, if it used mutual authentication and its chain ends at root `root`. -/
def State.tenantAt (s : State) (id root : Nat) : Bool :=
  match s.session id with
  | some x => x.mutual_ && x.root == root
  | none => false

/-- SEAL (Table 15-2). -/
def State.sealReq (s : State) (sess : Nat) (policy : List Nat) : State :=
  let s := if (s.session sess).isSome then s.count (secCtr 0) else s
  if s.rd Csr.SECSTAT_state == 1 && s.tenantAt sess s.sec.offered && policyOk policy then
    let s := { s with sec := { s.sec with policy := ofLeBytes policy, tenant := s.sec.offered } }
    s.switchStart 3 false
  else s

/-- SEAL. -/
def execSeal (sess : Nat) (policy : List Nat) (s : State) : Outcome State Fault Refusal := .next (s.sealReq sess policy)

/-- UNSEAL (Table 15-2). -/
def State.unseal (s : State) (sess : Nat) : State :=
  let s := if (s.session sess).isSome then s.count (secCtr 0) else s
  if (s.rd Csr.SECSTAT_state == 3 || s.rd Csr.SECSTAT_state == 4) && s.tenantAt sess s.sec.tenant then s.switchStart 0 s.zeroOnExit else s

/-- UNSEAL. -/
def execUnseal (sess : Nat) (s : State) : Outcome State Fault Refusal := .next (s.unseal sess)

/-- RESUME (Table 15-2). -/
def State.resume (s : State) (sess : Nat) : State :=
  let s := if (s.session sess).isSome then s.count (secCtr 0) else s
  if s.rd Csr.SECSTAT_state == 4 && s.tenantAt sess s.sec.tenant then
    (((s.putRecordState 3).wr Csr.SECSTAT_state 3).raise Ev.TENANCY_SEALED 0 0).measured
  else s

/-- RESUME. -/
def execResume (sess : Nat) (s : State) : Outcome State Fault Refusal := .next (s.resume sess)

/-! ### Management requests (R510 to R513) -/

/-- R510: the path is there: Ethernet enabled and not strapped away, or the I3C target enabled. -/
def State.mgmtPath (s : State) (eth : Bool) : Bool :=
  if eth then s.on Csr.MGMTCTL_eth_en && s.rd Csr.STRAPS_mgmt != 2 else s.on Csr.MGMTCTL_i3c_en

/-- R512: the message is accepted: inside a session with mutual authentication, whose chain ends at the owner digest when an owner is
set; on I3C outside a session while no owner is set. -/
def State.mgmtAccepts (s : State) (r : Req) : Bool :=
  match r.sess with
  | some id =>
    match s.session id with
    | some x => x.port == 8 && x.mutual_ && (match s.sec.owner with
        | some o => x.root == o
        | none => true)
    | none => false
  | none => !r.eth && s.sec.owner.isNone

/-- R511: a response goes out and is counted. -/
def State.mgmtReply (s : State) (op id status : Nat) (body : List Nat) : State :=
  let s := { s with mgmt := { s.mgmt with out := s.mgmt.out ++ [(⟨op, id, status, body⟩ : MgmtRsp)] } }.count (mgmtCtr 0)
  let s := if status = 0 then s else s.count (mgmtCtr 1)
  if status = 2 ∨ status = 3 then s.raise Ev.MGMT_REFUSED 0 0 else s

/-- A management request that reaches the power core is answered with what `f` gives: status, body and the state after it. A reserved
op or version is UNSUPPORTED, a bad header or body MALFORMED, and one that R512 does not accept DENIED. -/
def State.mgmtReq (s : State) (op : Nat) (r : Req) (open_ : Bool) (f : State → Nat × List Nat × State) : State :=
  if s.heldInReset || !s.mgmtPath r.eth then s
  else
    let s := s.deepExit.upRead
    if !r.known then s.mgmtReply op r.id.toNat 5 []
    else if !r.good then s.mgmtReply op r.id.toNat 1 []
    else if !open_ && !s.mgmtAccepts r then s.mgmtReply op r.id.toNat 3 []
    else
      let x := f s
      x.2.2.mgmtReply op r.id.toNat x.1 x.2.1

/-- R541: in HALTED and RECOVERY a block whose clock has stopped reads as zero: that of a stall, a port, a DDR5 channel, the stacked DRAM, the
heap or Midway whose PLL is not locked. Which clock feeds a block's registers is the model's reading: DEDUCED from Table 16-3, log entry 85. -/
def State.clockStopped (s : State) (o : Nat) : Bool :=
  decide (8 ≤ s.rd Csr.BOOTSTAT_stage) &&
    (if 0x1000000 ≤ o ∧ o < 0x2000000 then !s.bit Csr.CLKSTAT_rake_lock ((o - 0x1000000) / 0x100000)
     else if 0x2000000 ≤ o ∧ o < 0x2400000 then !s.bit Csr.CLKSTAT_port_lock ((o - 0x2000000) / 0x80000)
     else if 0x2400000 ≤ o ∧ o < 0x2800000 then !s.on Csr.CLKSTAT_mid_lock
     else if 0x2800000 ≤ o ∧ o < 0x2A00000 then !s.bit Csr.CLKSTAT_ddr_lock ((o - 0x2800000) / 0x20000)
     else if 0x2A00000 ≤ o ∧ o < 0x2C00000 then s.rd Csr.CLKSTAT_stk_lock == 0
     else if 0x2C00000 ≤ o ∧ o < 0x3000000 then !s.on Csr.CLKSTAT_pex_lock
     else false)

/-- Words read one after another, each with its RC fields cleared (R4). -/
def State.readWords : Nat → Nat → State → List Nat × State
  | 0, _, s => ([], s)
  | n + 1, o, s =>
    let x := if s.clockStopped o then (0, s) else s.regRead o
    let y := State.readWords n (o + 8) x.2
    (leBytes 8 x.1 ++ y.1, y.2)

/-- CSR_READ. -/
def State.csrReadReq (s : State) (r : Req) (off count : Nat) : State :=
  s.mgmtReq 1 r false fun s =>
    if off % 8 ≠ 0 ∨ count = 0 ∨ 64 < count ∨ 0x4000000 < off + 8 * count then (1, [], s)
    else
      let x := State.readWords count off s
      (0, x.1, x.2)

/-- CSR_READ. -/
def execCsrRead (r : Req) (off : Nat) (count : Nat) (s : State) : Outcome State Fault Refusal := .next (s.csrReadReq r off count)

/-- RESET (R514): the response is sent before the reset begins. -/
def State.resetReq (s : State) (r : Req) (kind : Nat) (recovery : Bool) : State :=
  let busy := s.resetting
  let ok := !s.heldInReset && s.mgmtPath r.eth && r.known && r.good && s.mgmtAccepts r && (kind == 1 || kind == 2) && !busy
  let s := s.mgmtReq 3 r false fun s => if kind ≠ 1 ∧ kind ≠ 2 then (1, [], s) else if busy then (4, [], s) else (0, [], s)
  if !ok then s
  else
    let s := if recovery then s.wr Csr.RSTCAUSE_recovery_req 1 else s
    if kind = 1 then s.warmReset 5 else s.hardReset 6

/-- RESET. -/
def execReset (r : Req) (kind : Nat) (recovery : Bool) (s : State) : Outcome State Fault Refusal := .next (s.resetReq r kind recovery)

/-- SLUICE (R514, R515): the command enters the downward ring. -/
def State.sluiceReq (s : State) (r : Req) (b : List Nat) : State :=
  s.mgmtReq 4 r false fun s =>
    if b.length ≠ 23 then (1, [], s)
    else if s.downRoom then (0, [], { s with mgmt := { s.mgmt with down := s.mgmt.down ++ [(1, b)] } })
    else (4, [], s)

/-- SLUICE. -/
def execSluice (r : Req) (b : List Nat) (s : State) : Outcome State Fault Refusal := .next (s.sluiceReq r b)

/-- The 32 bytes of an event record (Table 18-6). -/
def EventRec.bytes (e : EventRec) : List Nat :=
  leBytes 2 e.id ++ [e.srcKind % 256, e.srcIndex % 256] ++ leBytes 4 e.seq ++ leBytes 8 e.stamp ++ leBytes 16 e.data

/-- The 32 bytes of an error record (Table 09-4). -/
def ErrRec.bytes (e : ErrRec) : List Nat :=
  leBytes 8 (e.kind + e.store * 2 ^ 4 + e.source * 2 ^ 6 + e.pan.getD 0 * 2 ^ 10 + (if e.pan.isSome then 2 ^ 16 else 0) + e.half * 2 ^ 17
    + e.nsym * 2 ^ 24 + e.repeats * 2 ^ 32) ++ leBytes 8 e.place ++ leBytes 8 e.addr ++ leBytes 8 e.stamp

/-- The record at a position of a log: 0 the event ring, 1 the always-on log, 2 the error log. -/
def State.logRecord (s : State) (log pos : Nat) : List Nat :=
  if log = 0 then (SMap.get EventRec.zero (pos % 32768) s.log.ring).bytes
  else if log = 1 then (SMap.get EventRec.zero (pos % 2048) s.log.aon).bytes
  else (SMap.get ErrRec.zero (pos % 8192) s.dram.errRing).bytes

/-- LOG_READ. -/
def State.logReadReq (s : State) (r : Req) (log start count : Nat) : State :=
  s.mgmtReq 5 r false fun s =>
    if 2 < log ∨ count = 0 ∨ 32 < count then (1, [], s) else (0, (rangeFrom start count).flatMap (s.logRecord log), s)

/-- LOG_READ. -/
def execLogRead (r : Req) (log start count : Nat) (s : State) : Outcome State Fault Refusal := .next (s.logReadReq r log start count)

/-- A byte of a dump; what a dump of a stall core leaves out under R459 reads zero. -/
def Dump.byte (d : Dump) (off : Nat) : Nat :=
  if d.blank && decide (4 ≤ d.core) && decide (0x10000 ≤ off) && decide (off < 0x210000) then 0
  else Config.dumpByte [d.cause, d.core, d.stamp, d.rtc] off % 256

/-- DUMP_READ; what a slot without a dump reads as is open. -/
def State.dumpReadReq (s : State) (r : Req) (slot off len : Nat) : State :=
  s.mgmtReq 6 r false fun s =>
    if 1 < slot ∨ len = 0 ∨ 1024 < len ∨ 0x800000 < off + len then (1, [], s)
    else match SMap.get none slot s.mgmt.dumps with
      | some d => (0, (rangeFrom off len).map d.byte, s)
      | none =>
        let x := s.drawFree (8 * len)
        (0, leBytes len x.1, x.2)

/-- DUMP_READ. -/
def execDumpRead (r : Req) (slot off len : Nat) (s : State) : Outcome State Fault Refusal := .next (s.dumpReadReq r slot off len)

/-- Position of the next record of the event ring to be written, the staged ones counted. -/
def State.evEnd (s : State) : Nat := s.rd Csr.EVPOS_producer + s.log.staging.length

/-- SUBSCRIBE (R516): an all-zero address ends a slot's publications; they need the session that asks for them. -/
def State.subscribeReq (s : State) (r : Req) (slot addr port mask : Nat) (maps events : Bool) : State :=
  s.mgmtReq 7 r false fun s =>
    let put (x : Option Sub) : Nat × List Nat × State :=
      (0, [], { s with mgmt := { s.mgmt with subs := SMap.put none slot x s.mgmt.subs } }.mgmtLevels)
    if 3 < slot then (1, [], s)
    else if addr = 0 then put none
    else match r.sess with
      | some id => put (some ⟨addr, port, mask, maps, events, id, 0, s.evEnd⟩)
      | none => (3, [], s)

/-- SUBSCRIBE. -/
def execSubscribe (r : Req) (slot : Nat) (addr : BitVec 128) (port mask : BitVec 16) (maps events : Bool) (s : State) :
    Outcome State Fault Refusal := .next (s.subscribeReq r slot addr.toNat port.toNat mask.toNat maps events)

/-- RTC_SET (R529): it takes effect at the next tick edge. -/
def State.rtcSetReq (s : State) (r : Req) (sec : Nat) : State :=
  s.mgmtReq 8 r false fun s => (0, [], { s with board := { s.board with rtcLoad := some sec } })

/-- RTC_SET. -/
def execRtcSet (r : Req) (sec : BitVec 48) (s : State) : Outcome State Fault Refusal := .next (s.rtcSetReq r sec.toNat)

/-- NONCE: a fresh nonce for one owner command. -/
def State.nonceReq (s : State) (r : Req) : State :=
  s.mgmtReq 9 r true fun s =>
    let x := s.drawFree 256
    (0, leBytes 32 x.1, { x.2 with sec := { x.2.sec with nonces := x.2.sec.nonces ++ [x.1] } })

/-- NONCE. -/
def execNonce (r : Req) (s : State) : Outcome State Fault Refusal := .next (s.nonceReq r)

/-- PLDM_FIRMWARE_UPDATE (R502, R506, R510, R512): a boot loader is accepted in ROM recovery over I3C. -/
def State.pldmReq (s : State) (r : Req) (u : Pldm) : State :=
  if s.heldInReset || !s.mgmtPath r.eth || !r.known || !r.good then s
  else
    let s := s.deepExit
    match u with
    | .loader _ => if r.eth then s else s.pldm u
    | _ => if s.mgmtAccepts r then s.pldm u else s

/-- PLDM_FIRMWARE_UPDATE. -/
def execPldmFirmwareUpdate (r : Req) (u : Pldm) (s : State) : Outcome State Fault Refusal := .next (s.pldmReq r u)

/-! ### Owner commands (R461, Table 15-13) -/

/-- Who must have signed: the owner; the current owner, or nobody when none is set; nobody. -/
inductive Signer where
  | owner | ownerIfAny | nobody
deriving DecidableEq, Repr

/-- The signature verifies over the command and its nonce, and the nonce was issued and not used. -/
def State.signed (s : State) (o : Owner) (cmd : List Nat) (by_ : Signer) : Bool :=
  let good (k : Nat) : Bool := s.sec.nonces.contains o.nonce && Config.signatureOk k (cmd ++ leBytes 32 o.nonce ++ o.sig)
  match by_, s.sec.owner with
  | .nobody, _ => true
  | .ownerIfAny, none => true
  | _, some k => good k
  | .owner, none => false

/-- R461: presence: a window is open, tamper is not latched, and for OWNER_CLEAR OWNCLR_N is asserted. -/
def State.present (s : State) (pin : Bool) : Bool := s.sec.window.isSome && !s.on Csr.SECSTAT_tamper_latched && pin

/-- A presence command is refused; the window closes. -/
def State.presRefuse (s : State) : State := (s.windowClose.raise Ev.PRESENCE_REFUSED 0 0).count (secCtr 3)

/-- An owner command: `cmd` is what is signed, `pres` that it needs presence, `pin` that the presence needs OWNCLR_N; `can` says
whether the device's state admits it. The nonce is used up. A refusal other than for presence is answered DENIED. -/
def State.ownerCmd (s : State) (o : Owner) (cmd : List Nat) (by_ : Signer) (pres pin : Bool) (can : State → Bool) (f : State → State) : State :=
  if s.heldInReset then s
  else
    let s := s.deepExit.wr Csr.SECSTAT_ownclr (if o.pin then 1 else 0)
    let ok := s.signed o cmd by_
    let s := { s with sec := { s.sec with nonces := s.sec.nonces.erase o.nonce } }
    let reply (x : Nat) (s : State) : State := s.mgmtReply 0x0A o.id.toNat x []
    if s.resetting || (s.rd Csr.SECSTAT_state == 2 && decide (4 ≤ s.sec.after)) then reply 4 s
    else if pres && !s.present (!pin || o.pin) then reply 6 s.presRefuse
    else if !ok || !can s then reply 3 (if pres then s.windowClose.count (secCtr 3) else s)
    else
      let s := if pres then s.windowClose.raise Ev.PRESENCE_CMD 0 0 else s
      reply 0 (f s)

/-- OFFER_TENANCY: OPEN to OFFERED. -/
def State.offerTenancy (s : State) (o : Owner) (root : Nat) : State :=
  s.ownerCmd o (1 :: leBytes 48 root) .owner false false (fun s => s.rd Csr.SECSTAT_state == 0) fun s =>
    let s := { s with sec := { s.sec with offered := root } }.putRecordState 1
    ((s.wr Csr.SECSTAT_state 1).raise Ev.TENANCY_OFFERED 0 0).measured

/-- OFFER_TENANCY. -/
def execOfferTenancy (o : Owner) (root : Nat) (s : State) : Outcome State Fault Refusal := .next (s.offerTenancy o root)

/-- WITHDRAW_OFFER: OFFERED to OPEN. -/
def State.withdrawOffer (s : State) (o : Owner) : State :=
  s.ownerCmd o [2] .owner false false (fun s => s.rd Csr.SECSTAT_state == 1) fun s =>
    let s := { s with sec := { s.sec with offered := 0 } }.putRecordState 0
    (s.wr Csr.SECSTAT_state 0).measured

/-- WITHDRAW_OFFER. -/
def execWithdrawOffer (o : Owner) (s : State) : Outcome State Fault Refusal := .next (s.withdrawOffer o)

/-- EVICT: SEALED or SUSPENDED to SWITCHING, then OPEN. -/
def State.ownerEvict (s : State) (o : Owner) : State :=
  s.ownerCmd o [3] .owner false false (fun s => s.rd Csr.SECSTAT_state == 3 || s.rd Csr.SECSTAT_state == 4)
    (fun s => s.switchStart 4 s.zeroOnExit)

/-- OWNER_EVICT. -/
def execOwnerEvict (o : Owner) (s : State) : Outcome State Fault Refusal := .next (s.ownerEvict o)

/-- The security-version floor is recorded. -/
def State.putFloor (s : State) (v : Nat) : State := { s with flash := { s.flash with floor := v } }.wr Csr.SECVER_floor v

/-- FLOOR_RAISE. -/
def State.floorRaise (s : State) (o : Owner) (v : Nat) : State :=
  s.ownerCmd o (4 :: leBytes 2 v) .owner false false (fun s => decide (s.flash.floor ≤ v)) (fun s => s.putFloor v)

/-- FLOOR_RAISE. -/
def execFloorRaise (o : Owner) (v : BitVec 16) (s : State) : Outcome State Fault Refusal := .next (s.floorRaise o v.toNat)

/-- FLOOR_LOWER: not below the fused minimum. -/
def State.floorLower (s : State) (o : Owner) (v : Nat) : State :=
  s.ownerCmd o (5 :: leBytes 2 v) .owner true false (fun s => decide (v ≤ s.flash.floor) && decide (Config.minFloor.toNat ≤ v))
    (fun s => s.putFloor v)

/-- FLOOR_LOWER. -/
def execFloorLower (o : Owner) (v : BitVec 16) (s : State) : Outcome State Fault Refusal := .next (s.floorLower o v.toNat)

/-- FIRMWARE_ROLLBACK: the next boot uses the named slot, if its version is not below the floor. -/
def State.rollback (s : State) (o : Owner) (slot : Nat) : State :=
  s.ownerCmd o [6, slot] .owner true false (fun s => s.slotBoots slot) fun s =>
    { s with sec := { s.sec with rollback := some slot } }.wr Csr.SECVER_rollback_pending 1

/-- FIRMWARE_ROLLBACK. -/
def execFirmwareRollback (o : Owner) (slot : Fin 2) (s : State) : Outcome State Fault Refusal := .next (s.rollback o slot.val)

/-- OWNERSHIP_TRANSFER: the new owner digest is recorded. -/
def State.transfer (s : State) (o : Owner) (digest : Nat) : State :=
  s.ownerCmd o (7 :: leBytes 48 digest) .ownerIfAny true false (fun _ => true) fun s =>
    let s := { s with sec := { s.sec with owner := some digest } }.wr Csr.SECSTAT_owner_set 1
    (s.raise Ev.OWNER_CHANGED 0 0).measured

/-- OWNERSHIP_TRANSFER. -/
def execOwnershipTransfer (o : Owner) (digest : Nat) (s : State) : Outcome State Fault Refusal := .next (s.transfer o digest)

/-- OWNER_CLEAR (R462): a tenant switch with full zeroing, whatever the tenancy; the owner and the seal key follow at its end. -/
def State.ownerClear (s : State) (o : Owner) : State :=
  s.ownerCmd o [8] .nobody true true (fun _ => true) (fun s => s.switchStart 5 true)

/-- OWNER_CLEAR. -/
def execOwnerClear (o : Owner) (s : State) : Outcome State Fault Refusal := .next (s.ownerClear o)

/-- R458: the level that DEBUG_UNLOCK opens: all in open mode, under sealed tenancy what policy debug allows. -/
def State.debugGrant (s : State) : Nat :=
  let st := s.rd Csr.SECSTAT_state
  if st ≤ 1 then 2 else if st = 2 then 0 else bitsOf s.sec.policy 8 8

/-- DEBUG_UNLOCK. -/
def State.debugUnlock (s : State) (o : Owner) : State :=
  s.ownerCmd o [9] .owner true false (fun s => s.debugGrant != 0) fun s =>
    let s := { s with debugLevel := s.debugGrant }.wr Csr.SECSTAT_debug_unlocked 1
    (s.raise Ev.DEBUG_UNLOCKED 0 0).measured

/-- DEBUG_UNLOCK. -/
def execDebugUnlock (o : Owner) (s : State) : Outcome State Fault Refusal := .next (s.debugUnlock o)

/-- TAMPER_CLEAR: by the owner, or with OWNCLR_N asserted when no owner is set, while TAMPER_N is deasserted (`tamper` says that it is
asserted). -/
def State.tamperClear (s : State) (o : Owner) (tamper : Bool) : State :=
  s.ownerCmd o [10] .ownerIfAny false false (fun s => !tamper && (s.sec.owner.isSome || o.pin)) fun s =>
    (s.wr Csr.SECSTAT_tamper_latched 0).measured

/-- TAMPER_CLEAR. -/
def execTamperClear (o : Owner) (tamper : Bool) (s : State) : Outcome State Fault Refusal := .next (s.tamperClear o tamper)

/-! ### Barker (R516) -/

/-- A publication of a slot goes out. -/
def State.publish (s : State) (k : Nat) (x : Sub) (kind : Nat) (map : Option CongMap) (recs : List EventRec) : State :=
  let rtc := if s.on Csr.RTCSEC_valid then s.rd Csr.RTCSEC_seconds else 0
  let p : Pub := ⟨k, kind, x.seq, s.stamp, rtc, map, recs⟩
  let y : Sub := { x with seq := (x.seq + 1) % 2 ^ 32 }
  { s with mgmt := { s.mgmt with pubs := s.mgmt.pubs ++ [p], subs := SMap.put none k (some y) s.mgmt.subs } }.count (mgmtCtr 2)

/-- MAP_PUBLISH: the last congestion map goes to subscriber slot `k`, if it takes maps. -/
def State.mapPublish (s : State) (k : Nat) : State :=
  match SMap.get none k s.mgmt.subs, s.fab.map with
  | some x, some m => if x.maps && s.uncoreLit && !s.heldInReset then s.upRead.publish k x 1 (some m) [] else s
  | _, _ => s

/-- MAP_PUBLISH. -/
def execMapPublish (k : Fin 4) (s : State) : Outcome State Fault Refusal := .next (s.mapPublish k.val)

/-- Records of the event ring and its staging queue from position `a` on, with the position after each. -/
def State.eventsFrom (s : State) (a : Nat) : List (EventRec × Nat) :=
  let p := s.rd Csr.EVPOS_producer
  let a := max a (p - 32768)
  (rangeFrom a (s.evEnd - a)).map (fun i =>
    (if i < p then SMap.get EventRec.zero (i % 32768) s.log.ring else s.log.staging.getD (i - p) EventRec.zero, i + 1))

/-- EVENT_BATCH_PUBLISH: up to 40 records of the subscribed classes. -/
def State.batchPublish (s : State) (k : Nat) : State :=
  match SMap.get none k s.mgmt.subs with
  | none => s
  | some x =>
    let xs := ((s.eventsFrom x.next).filter (fun y => bitOf x.mask (y.1.id / 256))).take 40
    if !x.events || xs.isEmpty || !s.uncoreLit || s.heldInReset then s
    else s.upRead.publish k { x with next := (xs.getLast?.map (·.2)).getD x.next } 2 none (xs.map (·.1))

/-- EVENT_BATCH_PUBLISH. -/
def execEventBatchPublish (k : Fin 4) (s : State) : Outcome State Fault Refusal := .next (s.batchPublish k.val)

end Sys2Proof.Machine
end

