-- ==== Sys2Proof/Machine/Twin.lean ====
section
/-!
DEFINITION. The twin (R423 to R430): what its control messages do, the heartbeat, its loss and TWINCMD.
-/
namespace Sys2Proof.Machine
open Sys2Proof Host

/-- R424: the answer to a message that carries sequence number `q`: 0 OK, 1 MISMATCH. -/
def State.twinReply (s : State) (q code : Nat) : State := s.twinCtrl 0x63 [(1, 1, code), (16, 8, q)]

/-- R428: TWIN_ALLOC: the same granules become OWNED by the same pan, or are released. The result says that all agree. -/
def State.twinAllocMsg (s : State) (b : List Nat) : Bool × State :=
  let n := ctrlField b 2 1 % 64
  let gs := rangeFrom (ctrlField b 4 4) (ctrlField b 8 4)
  if ctrlField b 1 1 = 0 then
    if gs.all (fun g => (s.gran g).st == .free) then (true, gs.foldl (fun s g => s.take n 1 1 false (g, none)) s) else (false, s)
  else (true, s.releaseGrans n (gs.filter (s.owns n)))

/-- R425, R429: TWIN_PAN MAP: the granules of the page are the pan's, FREE ones are allocated, and the leaf names this node. -/
def State.twinMapMsg (s : State) (b : List Nat) : Bool × State :=
  let n := ctrlField b 2 1 % 64
  let k := min 2 (ctrlField b 24 1 % 4)
  let x := ctrlField b 40 8
  let a := ctrlField b 48 8 % 2 ^ 52
  let gs := pageGrans k a
  if s.panFree n || !gs.all (fun g => (s.gran g).st == .free || s.owns n g) then (false, s)
  else
    let s := (gs.filter (fun g => (s.gran g).st == .free)).foldl (fun s g => s.take n 1 1 false (g, none)) s
    match s.mapLeaf n (ctrlField b 25 7) k (s.nodeId * 2 ^ 52 + a) (bitOf x 2) (bitOf x 3) with
    | some s => (true, s)
    | none => (false, s)

/-- R425: TWIN_PAN UNMAP. -/
def State.twinUnmapMsg (s : State) (b : List Nat) : State :=
  let k := min 2 (ctrlField b 24 1 % 4)
  let va := ctrlField b 25 7
  (s.unmapAll (ctrlField b 2 1 % 64) ((List.range (ctrlField b 32 4)).map (fun i => va + i * span k))).2

/-- The RWS fields of a register in the active set, as a word. -/
def State.activeWord (s : State) (o : Nat) : Nat :=
  match Csr.find o with
  | some r => ((r.fields.filter (fun f => f.acc == .rws)).map (fun f => s.rd (f.fld o) * 2 ^ f.lo)).sum
  | none => 0

/-- R425: TWIN_PAN images: the Ringmaster writes them to the shadow and commits them; images that the active set holds already need
no commit. -/
def State.twinImagesMsg (s : State) (b : List Nat) : Bool × State :=
  let im := carveImages (ctrlField b 2 1 % 64) (b.drop 24)
  if im.all (fun x => s.activeWord x.1 == x.2) then (true, s)
  else
    let h := s.rmHolder
    let s := s.journaled h 2 (im.flatMap (fun x => [x.1, x.2])) (fun s => im.foldl (fun s x => (s.regWrite (.rm h) x.1 x.2).2) s) (fun _ => Sts.ok)
    let (q, s) := s.jStart h 1 [s.epochNow, 0]
    let (r, s) := s.commit false
    (r == 0, s.jDone h q (if r = 0 then Sts.ok else commitStatus r))

/-- R429 step 2: the pan's mappings are dropped before the PRIMARY's come. -/
def State.resyncStart (s : State) (n : Nat) : State :=
  let s := (s.panLeaves n).foldl (fun s l => s.unmapLeaf n 0 l) s
  s.wr Csr.TWINSTAT_state 3

/-- R429: granules of the pan that no mapping of the PRIMARY names are released. -/
def State.resyncEnd (s : State) (n : Nat) : State :=
  let s := s.releaseGrans n ((s.mirrorGrans n).filter (fun g => (s.gran g).leaves == 0))
  s.wr Csr.TWINSTAT_state 2

/-- One message with a sequence number, at the SECONDARY: what it does, and whether the nodes agree. -/
def State.twinAct (s : State) (b : List Nat) : Bool × State :=
  let code := ctrlField b 0 1
  let n := ctrlField b 2 1 % 64
  if code = 0x62 then s.twinAllocMsg b
  else if code = 0x64 then
    if ctrlField b 1 1 = 0 then s.twinImagesMsg b
    else if ctrlField b 1 1 = 1 then s.twinMapMsg b
    else (true, s.twinUnmapMsg b)
  else if code = 0x65 then (true, if ctrlField b 1 1 = 0 then s.resyncStart n else s.resyncEnd n)
  else (true, (s.wr Csr.TWINSTAT_peer_claim (ctrlField b 4 4)).twinTake)

/-- The message needs the shadow, which is not OPEN. -/
def State.twinBlocked (s : State) (b : List Nat) : Bool :=
  ctrlField b 0 1 == 0x64 && ctrlField b 1 1 == 0 && !s.shadowOpen
    && !(carveImages (ctrlField b 2 1 % 64) (b.drop 24)).all (fun x => s.activeWord x.1 == x.2)

/-- Messages are acted on in order, each once, and acknowledged, until one needs a shadow that is not OPEN. -/
def State.twinRun : List (List Nat) → State → State
  | [], s => s
  | b :: t, s =>
    if s.twinBlocked b then { s with twin := { s.twin with later := b :: t } }
    else
      let q := ctrlField b 16 8
      if s.twin.seen.contains q then State.twinRun t (s.twinReply q 0)
      else
        let (ok, s) := ({ s with twin := { s.twin with seen := s.twin.seen ++ [q] } }).twinAct b
        State.twinRun t (s.twinReply q (if ok then 0 else 1))

/-- The messages that waited go on once the shadow is OPEN. -/
def State.twinGo (s : State) : State := State.twinRun s.twin.later { s with twin := { s.twin with later := [] } }

/-- R428, R429: TWIN_ACK: the message is done; a mirrored allocation that the twin cannot match ends the pairing. -/
def State.twinAckMsg (s : State) (b : List Nat) : State :=
  let q := ctrlField b 16 8
  match s.twin.wait.find? (fun w => w.1 == q) with
  | none => s
  | some w =>
    let ok := ctrlField b 1 1 == 0
    let s := ({ s with twin := { s.twin with wait := s.twin.wait.filter (fun (x : Nat × List Nat) => x.1 != q) } }).jDone
      ((s.rmActive).getD false) q (if ok then 0 else 1)
    if !ok then (s.raise Ev.TWIN_MISMATCH 6 s.holderNum).twinGone
    else if ctrlField w.2 0 1 = 0x65 ∧ ctrlField w.2 1 1 = 1 then
      let n := ctrlField w.2 2 1
      let s := (s.wr (Csr.PANSTAT_mirror_degraded n) 0).raise Ev.TWIN_RESYNC_DONE 5 n
      ({ s with twin := { s.twin with resync := s.twin.resync.filter (· != n) } }).resyncNext
    else s

/-- R423: TWIN_HELLO. Before pairing is enabled it is kept. -/
def State.twinHelloMsg (s : State) (b : List Nat) : State :=
  if s.rd Csr.TWINSTAT_state = 0 then { s with twin := { s.twin with hello := some b } } else s.twinMeet b

/-- This node is the SECONDARY of a pair. -/
def State.isSecond (s : State) : Bool :=
  (s.rd Csr.TWINSTAT_state == 2 || s.rd Csr.TWINSTAT_state == 3) && s.on Csr.TWINSTAT_role

/-- R425: TWIN_HB records what the PRIMARY says of itself. -/
def State.twinHbMsg (s : State) (b : List Nat) : State :=
  if s.isSecond then
    let s := s.wr Csr.TWINSTAT_peer_claim (ctrlField b 4 4)
    { s with twin := { s.twin with peerEpoch := ctrlField b 8 4, peerSeq := ctrlField b 16 8 } }
  else s

/-- R399, R424: a control message with a code of Table 14-8. -/
def State.twinMsg (s : State) (p : Nat) (b : List Nat) : State :=
  let code := ctrlField b 0 1
  if !s.twinPort p then s.ctrlIgnored p
  else if code = 0x60 then s.twinHelloMsg b
  else if code = 0x61 then s.twinHbMsg b
  else if code = 0x63 then s.twinAckMsg b
  else if !s.isSecond then s
  else if s.twin.later = [] then State.twinRun [b] s
  else { s with twin := { s.twin with later := s.twin.later ++ [b] } }

/-- TWIN_HB_SEND: every 100 µs, from the PRIMARY (R425). -/
def State.twinHb (s : State) : State :=
  if s.twinUp then (s.twinCtrl 0x61 [(4, 4, s.rd Csr.CLAIMCUR_claim), (8, 4, s.epochNow), (16, 8, s.rm.seq)]) else s

/-- TWIN_HB_SEND. -/
def execTwinHbSend (s : State) : Outcome State Fault Refusal := .next s.twinHb

/-- R423, R430: no TWIN_HB within twin_to_ms: a SECONDARY loses its twin, as does a PRIMARY whose twin link is down; a twin that never
answered leaves the node UNPAIRED. -/
def State.twinTimeout (s : State) : State :=
  if s.rd Csr.TWINSTAT_state = 1 then (List.range 64).foldl State.degrade (s.wr Csr.TWINSTAT_state 4)
  else if s.isSecond || !s.linkUp (s.rd Csr.TWINCTL_port) then s.twinGone
  else s

/-- R430: TWINCMD TAKEOVER, at a SECONDARY whose twin is lost. -/
def State.takeoverCmd (s : State) : State := if s.rd Csr.TWINSTAT_state = 4 ∧ s.on Csr.TWINSTAT_role then s.twinTake else s

/-- R429: TWINCMD RESYNC, at the PRIMARY of a pair. -/
def State.resyncCmd (s : State) : State := if s.rd Csr.TWINSTAT_state = 2 ∧ !s.on Csr.TWINSTAT_role then s.resyncAll else s

/-- R433: TWINCMD UNPAIR ends the pairing: the mirrored pans run unpaired. -/
def State.unpairCmd (s : State) : State :=
  if s.rd Csr.TWINSTAT_state = 2 ∨ s.rd Csr.TWINSTAT_state = 3 then
    let s := (List.range 64).foldl State.degrade (s.wr Csr.TWINSTAT_state 4)
    let s := { s with twin := { Twin.none with peerEpoch := s.twin.peerEpoch, peerSeq := s.twin.peerSeq },
                      fab := { s.fab with reqs := s.fab.reqs.filter (fun q => match q.use with
                        | .mirror _ => false
                        | _ => true) } }
    s.fab.mirrors.foldl State.mirrorDone s
  else if s.rd Csr.TWINSTAT_state = 1 then (List.range 64).foldl State.degrade (s.wr Csr.TWINSTAT_state 4)
  else s

end Sys2Proof.Machine
end

