-- ==== Sys2Proof/Machine/CsrEff.lean ====
section
/-!
DEFINITION. What a register write starts beside the fields that it changes (Table 19-1 and the register tables of the chapters).
-/
namespace Sys2Proof.Machine

/-- A write that its block discards although its gate performs it: DDRCFG unless the channel is OFF (Table 08-9), ECCERASE naming a
device above 9 (Table 09-10). -/
def State.writeDiscarded (s : State) (o v : Nat) : Bool :=
  if 0x2800000 ≤ o ∧ o < 0x2A00000 then
    let c := (o - 0x2800000) / 0x20000
    let i := o % 0x20000
    (i == 0 && s.rd (Csr.DDRSTAT_state c) != 0)
    || ((i == 0x408 || i == 0x410) && (List.range 8).any (fun k => decide (9 < bitsOf v (5 * k) 4)))
  else false

/-- What DDRLAT[i] or STKLAT[i] holds after a write of `v`: a target of zero is taken as 1, and the reserved targets of the last one
stay zero (R4, Tables 08-10 and 08-13). -/
def clampTargets (i v : Nat) : Nat :=
  ((List.range (if i = 3 then 2 else 4)).map (fun j => max 1 (bitsOf v (16 * j) 16) * 2 ^ (16 * j))).sum

/-- A written RWS field takes what its block makes of the written value. -/
def State.rectify (s : State) (f : Fld) (v : Nat) : State := if s.shadowOpen then s.wrSet (1 - s.activeSet) f v else s

/-- R323: the predictor counters of the slices that stall `k` serves restart at 0. -/
def State.predClear (s : State) (k : Nat) : State :=
  { s with coh := { s.coh with pred := s.coh.pred.filter (fun c => bitsOf (s.rd Csr.SLICEMAP_stall) (4 * (c.1 / 4096)) 4 != k) } }

/-- Registers of a stall. A failed stall's act on nothing (R541). -/
def State.stallEffect (s : State) (k i v : Nat) : State :=
  if s.stallFailed k then s
  else if i = 0x4000 ∧ bitOf v 2 then s.icFlush (fun r => r / 16 == k) (fun _ => true)
  else if i = 0x6000 then s.qcmd k (bitsOf v 0 4) (bitsOf v 4 19) (bitsOf v 24 4)
  else if i = 0x8000 ∧ bitOf v 16 then s.predClear k
  else s

/-- Registers of a port. -/
def State.portEffect (old s : State) (p i v : Nat) : State :=
  if i = 0 then
    let s := if p % 2 = 1 then s.wrSet (1 - s.activeSet) (Csr.PORTCTL_pair p) 0 else s
    if old.on (Csr.PORTCTL_enable p) = s.on (Csr.PORTCTL_enable p) then s else s.linkEnable p
  else if i = 0x10 then
    let s := if bitOf v 0 then s.retrainCmd p else s
    if bitOf v 1 then s.searchNow p else s
  else s

/-- Registers of a DDR5 channel. One out of service acts on nothing (R541). -/
def State.ddrEffect (s : State) (c i v : Nat) : State :=
  if i = 0x10 then
    if s.chanOos c then s
    else if bitsOf v 0 4 = 1 then s.ddrTrain c
    else if bitsOf v 0 4 = 2 then s.startMigration c (bitsOf v 4 3)
    else s
  else if 0x38 ≤ i ∧ i < 0x58 then s.rectify (Csr.DDRLAT_target c ((i - 0x38) / 8)) (clampTargets ((i - 0x38) / 8) v)
  else s

/-- R529: RTCSEC is loaded at the next tick edge. -/
def State.rtcLoad (s : State) (sec : Nat) : State := { s with board := { s.board with rtcLoad := some sec } }

/-- Registers of the blocks that have one instance. -/
def State.blockEffect (old s : State) (w : Writer) (o v : Nat) : State :=
  if o = 0x1038 then s.rectify (Csr.STKSEGMAP_seg 3) (bitsOf v 0 47)
  else if o = 0x2000 then (if bitOf v 9 then s.flushXlat else s)
  else if o = 0x2040 then s.fqResume v
  else if o = 0x3018 then s.errLogLevel
  else if o = 0x3040 then s.retireCmd v
  else if o = 0x5018 then
    if bitsOf v 0 2 = 1 then s.drainHold none (bitsOf v 16 16)
    else if bitsOf v 0 2 = 2 then s.holdEnd Ev.FAB_DRAIN_RELEASED
    else s
  else if 0x40000 ≤ o ∧ o < 0x48000 then
    let n := (o - 0x40000) / 8
    let down := s.on (Csr.ROUTE_down n)
    (s.wr (Csr.ROUTE_down n) (old.rd (Csr.ROUTE_down n))).routeDown n down
  else if o = 0x100000 then
    match w with
    | .rm _ => s.rtcLoad (bitsOf v 0 48)
    | _ => s
  else if o = 0x100040 then
    let m := bitsOf v 0 2
    s.alarmPinOut (((List.range 2).map (fun k => if bitOf s.board.alarmPin k && !bitOf m k then 2 ^ k else 0)).sum)
  else if o = 0x100068 then (if 64 ≤ 2048 - s.aonBacklog then s.wr Csr.AONLOGPOS_reserve 0 else s)
  else if o = 0x200200 then
    if bitsOf v 8 8 = 0xA5 then s.rstCmd (bitsOf v 0 2) (bitOf v 16) else s
  else if o = 0x200238 then (if bitOf v 20 then s.settingsCommit else s)
  else if o = 0x500000 then s.rmLevels
  else if o = 0x500118 then
    if bitsOf v 0 2 = 1 then s.takeoverCmd
    else if bitsOf v 0 2 = 2 then s.resyncCmd.rmLevels
    else if bitsOf v 0 2 = 3 then s.unpairCmd.rmLevels
    else s
  else if 0x2A00018 ≤ o ∧ o < 0x2A00038 then s.rectify (Csr.STKLAT_target ((o - 0x2A00018) / 8)) (clampTargets ((o - 0x2A00018) / 8) v)
  else if o = 0x2A00100 then s.stkSelect
  else if o = 0x2A00110 then
    let s := if bitOf v 1 then s.stkClear else s
    if bitOf v 0 then s.stkRun else s
  else if o = 0x2C00010 then (if bitsOf v 0 4 = 1 then s.heapReformat else s)
  else if o = 0x3100038 then
    let s := s.markRead (bitsOf v 1 2)
    if bitOf v 0 then s.takeDump none else s
  else s

/-- What the performed write of `v` at offset `o` starts; `old` is the state before it. -/
def State.regEffect (old s : State) (w : Writer) (o v : Nat) : State :=
  if 0x1000000 ≤ o ∧ o < 0x2000000 then s.stallEffect ((o - 0x1000000) / 0x100000) (o % 0x100000) v
  else if 0x2000000 ≤ o ∧ o < 0x2400000 then State.portEffect old s ((o - 0x2000000) / 0x80000) (o % 0x80000) v
  else if 0x2800000 ≤ o ∧ o < 0x2A00000 then s.ddrEffect ((o - 0x2800000) / 0x20000) (o % 0x20000) v
  else State.blockEffect old s w o v

/-- A write with what it starts, but for TRPCTL.yield. -/
def State.writeEff (s : State) (w : Writer) (o v : Nat) : WriteResult × State :=
  match s.regWrite w o v with
  | (.done, t) => (.done, if s.writeDiscarded o v then s else State.regEffect s t w o v)
  | r => r

end Sys2Proof.Machine
end

