-- ==== Sys2Proof/Machine/Ringmaster.lean ====
section
/-!
DEFINITION. The Ringmaster pair: snapshots (R415, R417), takeover and the replay of the journal (R418 to R421), and the failure of a
stall (R422).
-/
namespace Sys2Proof.Machine
open Sys2Proof Host

/-- The standby of the active instance `a`: the other, in SYNCING or STANDBY. -/
def State.rmStandby (s : State) (a : Bool) : Option Bool := if s.rmState (!a) = 2 ∨ s.rmState (!a) = 3 then some (!a) else none

/-- RMSTAT.buf0_valid or buf1_valid of an instance. -/
def bufValid (b : Bool) (i : Nat) : Fld := if i = 0 then Csr.RMSTAT_buf0_valid (rmNum b) else Csr.RMSTAT_buf1_valid (rmNum b)

/-! ### Snapshots (R415, R417) -/

/-- SNAPSHOT_START: the commit word of the target buffer is zeroed and the data follow. -/
def State.snapStart (s : State) : State :=
  let s := s.rmLevels
  match s.rmActive with
  | none => s
  | some a =>
    match s.rmStandby a, s.rm.writing with
    | some x, none =>
      let k := 2 * rmNum x + s.rm.target
      { s with rm := { s.rm with bufs := SMap.put none k none s.rm.bufs, writing := some (s.rm.snapSeq + 1, s.rm.seq, k) } }.wr
        (bufValid x s.rm.target) 0
    | _, _ => s

/-- SNAPSHOT_START. -/
def execSnapshotStart (s : State) : Outcome State Fault Refusal := .next s.snapStart

/-- A standby in SYNCING has committed a snapshot: after three consecutive FULL ones it is STANDBY. -/
def State.synced1 (s : State) (x : Bool) : State :=
  if s.rmState x ≠ 2 then s
  else if !s.on Csr.TRPSTAT_mode then { s with rm := { s.rm with fulls := 0 } }
  else if s.rm.fulls < 2 then { s with rm := { s.rm with fulls := s.rm.fulls + 1 } }
  else (({ s with rm := { s.rm with fulls := 0 } }.setRmState x 3).raise Ev.RM_STANDBY_READY 6 (rmNum x)).rmLevels

/-- RMJRNL.snapped: the slot after the last record that a committed snapshot includes. -/
def State.snapped (s : State) (j : Nat) : State :=
  [0, 1].foldl (fun s k => s.wr (Csr.RMJRNL_snapped k) ((s.rd (Csr.RMJRNL_producer k) + 16384 - (s.rm.seq - j) % 16384) % 16384)) s

/-- SNAPSHOT_COMMIT: every data write has been acknowledged, and the commit word is written. -/
def State.snapCommit (s : State) : State :=
  match s.rmActive, s.rm.writing with
  | some a, some (n, j, k) =>
    match s.rmStandby a with
    | some x =>
      let snap : Snap := ⟨n, j, s.claimOf a, s.epochNow⟩
      let s := { s with rm := { s.rm with bufs := SMap.put none k (some snap) s.rm.bufs, writing := none, snapSeq := n, target := 1 - k % 2 } }
      let s := (s.wr (bufValid x (k % 2)) 1).wr Csr.TRPSTAT_snap_seq (n % 2 ^ 32)
      (s.snapped j).synced1 x
    | none => { s with rm := { s.rm with writing := none } }
  | _, _ => s

/-- SNAPSHOT_COMMIT. -/
def execSnapshotCommit (s : State) : Outcome State Fault Refusal := .next s.snapCommit

/-- RM_HEARTBEAT: CLAIMCUR, EPOCHCUR and the last journal number go to the standby. -/
def State.heartbeat (s : State) : State :=
  match s.rmActive with
  | some a => match s.rmStandby a with
    | some _ => { s with rm := { s.rm with beat := (s.rd Csr.CLAIMCUR_claim, s.epochNow, s.rm.seq) } }
    | none => s
  | none => s

/-- RM_HEARTBEAT. -/
def execRmHeartbeat (s : State) : Outcome State Fault Refusal := .next s.heartbeat

/-! ### Replay (Table 14-7) -/

/-- Offsets and values of the registers that a START of class 2 writes; CARVE's args begin with its pan. -/
def regPairs : List Nat → List (Nat × Nat)
  | o :: v :: t => (o, v) :: regPairs t
  | _ => []

/-- The state that queue command `op` asks for already holds (Table 14-7). -/
def State.queueHolds (s : State) (op q t : Nat) : Bool :=
  let st := (s.queue q).st
  if op = 1 then st != .free
  else if op = 2 then st == .enabled
  else if op = 3 then st == .paused
  else if op = 4 then st == .stopped
  else if op = 5 then st == .free
  else if op = 6 then (s.queue q).home == t || (s.queue q).moving == some t
  else false

/-- MAP or UNMAP: the pages whose entries differ from what the command asks are done again. -/
def State.replayMap (s : State) (x : List Nat) : State :=
  let f (i : Nat) : Nat := x.getD i 0
  let mod := f 1
  let k := min 2 (mod % 4)
  let n := f 2 % 64
  let pages := (List.range (f 4)).map (fun i => f 3 + i * span k)
  if f 0 = 1 then (s.unmapAll n (pages.filter (fun p => match s.leafAt n p with
    | some (j, _, _, _) => j == k
    | none => false))).2
  else if bitOf mod 2 && s.panActive n then
    (pages.filter (fun p => !s.mapClash n p k)).foldl (fun s p =>
      match State.mapAlloc n p k (if bitOf mod 5 then bitsOf mod 3 2 else s.rd (Csr.PANCTL_home_tier n)) (bitOf (f 6) 2) (bitOf (f 6) 3) 1 0 s with
      | some (as, s') => s'.settle s n as
      | none => s) s
  else s

/-- KEYS is idempotent (R454): destroying, rekeying and ending are issued again. -/
def State.replayKeys (s : State) (op a : Nat) : State :=
  if op = 1 then (if a < 64 ∧ s.panFree a then s.keysDrop a else s)
  else if op = 2 then (if a < 8 ∧ s.on (Csr.PORTSEC_secured a) then s.portRekey a else s)
  else if op = 3 then (if a < 8 then s.portEnd a else s)
  else s

/-- One START with no DONE, at the new holder `b`: its status, or none where the command goes on. -/
def State.replayOne (s : State) (b : Bool) (r : JRec) : Option Nat × State :=
  let f (i : Nat) : Nat := r.args.getD i 0
  if r.cmd = 1 then
    if f 0 ≠ s.epochNow then (some (if isNewer (s.rd Csr.EPOCHCUR_counter) (f 0) 16 then Sts.ok else Sts.epochStale), s)
    else if !s.shadowOpen then (none, { s with rm := { s.rm with reissue := s.rm.reissue ++ [r.seq] } })
    else (let (x, s) := s.commit (bitOf (f 1) 0); (some (if x = 0 then Sts.ok else commitStatus x), s))
  else if r.cmd = 2 then
    let ps := regPairs (if r.args.length % 2 = 1 then r.args.drop 1 else r.args)
    (some Sts.ok, ps.foldl (fun s p => (s.writeEff (.rm b) p.1 p.2).2) s)
  else if r.cmd = 3 then (some Sts.ok, s.replayMap r.args)
  else if r.cmd = 4 then (some Sts.ok, if s.queueHolds (f 1) (f 2) (f 3) then s else s.qcmd (f 0) (f 1) (f 2) (f 3))
  else if r.cmd = 5 then (some Sts.ok, s.replayKeys (f 0) (f 1))
  else if r.cmd = 6 then
    if s.sec.armed = some (f 1) then (if s.sec.scrubbed = 0 then (some Sts.ok, (s.scrub none).scrubFinish) else (none, s)) else (some Sts.ok, s)
  else if r.cmd = 7 then
    (none, match s.twin.wait.find? (fun w => w.1 == r.seq) with
      | some w => if s.linkUp (s.rd Csr.TWINCTL_port) then
          s.setLnk (s.rd Csr.TWINCTL_port) (fun l => { l with ctrlq := l.ctrlq ++ [w.2] }) else s
      | none => s)
  else (some Sts.ok, s)

/-- Records of instance `x`'s journal after number `j`, and those of them that are STARTs with no DONE. -/
def State.tailOf (s : State) (x : Bool) (j : Nat) : List JRec :=
  (s.rm.jrnl.filter (fun e => e.1 == rmNum x && decide (j < e.2.2.seq))).map (fun e => e.2.2)

/-- R419 step 5: the journal after the snapshot is replayed in order. -/
def State.replayAll (s : State) (x : Bool) (j : Nat) : State :=
  let rs := s.tailOf x j
  let opens := rs.filter (fun r => r.kind == 1 && !rs.any (fun d => d.kind == 2 && d.ref == r.seq))
  opens.foldl (fun s r =>
    match s.replayOne x r with
    | (some st, s) => s.jDone x r.seq st
    | (none, s) => s) s

/-- COMMITs that a takeover re-issued and that waited for the shadow go on. -/
def State.reissueGo (s : State) : State :=
  let b := s.rmHolder
  s.rm.reissue.foldl (fun s q =>
    match (s.rm.jrnl.map (fun e => e.2.2)).find? (fun r => r.seq == q && r.kind == 1) with
    | some r => match s.replayOne b r with
      | (some st, s) => s.jDone b q st
      | (none, s) => s
    | none => s) { s with rm := { s.rm with reissue := [] } }

/-! ### Takeover (R418 to R420) -/

/-- The committed buffer of instance `x` with the newer number. -/
def State.newest (s : State) (x : Bool) : Option Snap :=
  let b (i : Nat) : Option Snap := SMap.get none (2 * rmNum x + i) s.rm.bufs
  match b 0, b 1 with
  | some p, some q => if p.seq < q.seq then some q else some p
  | some p, none => some p
  | none, q => q

/-- TAKEOVERCNT. -/
def takeCtr : Ctr := ⟨Csr.TAKEOVERCNT_count, Csr.RMCNTSTAT_cnt_ovf, 1, Ev.RM_COUNT_OVF, 6, 0⟩

/-- Queues of instance `b` that are not STOPPED. -/
def State.rmQueues (s : State) (b : Bool) : List Nat :=
  (s.queues.filter (fun kv => isRm kv.1 && rmInst kv.1 == b && kv.2.st != .free && kv.2.st != .stopped)).map (·.1)

/-- Table 14-6: instance `x` takes over from the other. With no valid snapshot it does not claim. -/
def State.takeover (s : State) (x : Bool) : State :=
  let s := match s.rm.writing with
    | some _ => { s with rm := { s.rm with writing := none } }.raise Ev.RM_SNAPSHOT_DISCARDED 6 (rmNum x)
    | none => s
  match s.newest x with
  | none => s.raise Ev.RM_NONE 6 (rmNum x)
  | some snap =>
    let count := (s.tailOf x snap.jrnl).length
    let e := s.rd Csr.CLAIMCUR_claim
    let n := (e + 1) % 2 ^ 32
    let (q, s) := s.jStart x 0 [e, n]
    let s := (s.raiseClaim x n).jDone x q Sts.ok
    let s := (s.rmQueues (!x)).foldl (fun s q =>
      s.journaled x 4 [(s.queue q).home, 4, q, 0] (fun s => s.stopQueue q) (fun _ => Sts.ok)) s
    let s := { s with rm := { s.rm with opened := [] } }
    let s := s.replayAll x snap.jrnl
    let s := ((s.setRmState x 4).wr Csr.TRPSTAT_mode 1).count takeCtr
    (s.raise Ev.RM_TAKEOVER 6 (rmNum x)).raise Ev.RM_JOURNAL_REPLAYED 6 (rmNum x) count

/-- Instance `a` is declared failed. -/
def State.rmFails (s : State) (a : Bool) : State :=
  ((s.setRmState a 5).wr (Csr.RMSTAT_cores_up (rmNum a)) 0).raise Ev.RM_FAILED 6 (rmNum a)

/-- RM_HB_TIMEOUT: the standby has heard nothing for hb_timeout_us. -/
def State.hbTimeout (s : State) : State :=
  match s.rmActive with
  | some a => if s.rmState (!a) = 3 then (s.rmFails a).takeover (!a) else s
  | none => s

/-- RM_HB_TIMEOUT. -/
def execRmHbTimeout (s : State) : Outcome State Fault Refusal := .next s.hbTimeout

/-- RM_MACHINE_CHECK: the Ticket Booth reports a machine check of the active's cores. -/
def State.machineCheck (s : State) : State :=
  match s.rmActive with
  | some a =>
    let s := (s.coreFails (.rm a)).rmFails a
    if s.rmState (!a) = 3 then s.takeover (!a) else s.raise Ev.RM_NONE 6 (rmNum a)
  | none => s

/-- RM_MACHINE_CHECK. -/
def execRmMachineCheck (s : State) : Outcome State Fault Refusal := .next s.machineCheck

/-- TRPCTL.yield: the active takes a last snapshot and yields to the standby, and becomes its standby in turn. -/
def State.rmYield (s : State) : State :=
  match s.rmActive with
  | some a =>
    if s.rmState (!a) = 3 then
      let s := ({ s with rm := { s.rm with writing := none } }.snapStart).snapCommit
      let s := (s.setRmState a 2).takeover (!a)
      { s with rm := { s.rm with fulls := 0 } }.rmLevels
    else s
  | none => s

/-- RM_RELOAD: a failed instance is reloaded; its images check, or it stays FAILED. -/
def State.rmReload (s : State) (b ok : Bool) : State :=
  if s.rmState b = 5 ∧ ok then
    ((({ s with rm := { s.rm with fulls := 0 } }.setRmState b 2).wr (Csr.RMSTAT_cores_up (rmNum b)) 15).wr (bufValid b 0) 0).wr (bufValid b 1) 0
      |>.rmLevels
  else s

/-- RM_RELOAD. -/
def execRmReload (b ok : Bool) (s : State) : Outcome State Fault Refusal := .next (s.rmReload b ok)

/-! ### Failure of a stall (R422) -/

/-- The first in-service stall of `k + 1`, `k + 2`, … -/
def State.nextStall (s : State) (k : Nat) : Option Nat :=
  ((List.range 16).map (fun i => (k + 1 + i) % 16)).find? (fun j => s.bit Csr.STALLSVC_in_service j)

/-- Step 3: a busy line of a slice that has failed: its request is answered NAK, unless it has its answer, and the line is recalled. -/
def State.sliceTxn (s : State) (t : Txn) : State :=
  let s := s.setTxns (fun ts => ts.filter (fun x => x.line != t.line))
  let back (m : Msg) (s : State) : State :=
    ({ s with fab := { s.fab with cc := s.fab.cc.filter (fun c => !(c.key == reqKey m && c.rsp == none)) } }).nak m
  let s := match t.who with
    | .req _ m _ => if t.goAck then s else back m s
    | .evict _ m _ => s.nak m
    | _ => s
  s.recall t.line false

/-- Step 3: slice `i` of a failed stall goes to stall `j`. -/
def State.sliceMove (s : State) (i j : Nat) : State :=
  let ts := s.coh.txns.filter (fun t => dirSlice t.line == i)
  let s := s.wr Csr.SLICEMAP_stall (setBits (s.rd Csr.SLICEMAP_stall) (4 * i) 4 j)
  let s := { s with coh := { s.coh with pred := s.coh.pred.filter (fun c => c.1 / 4096 != i),
                                        cache := s.coh.cache.filter (fun c => c.1 / 2048 != i),
                                        resv := s.coh.resv.filter (fun r => dirSlice r.line != i),
                                        rot := s.coh.rot.filter (fun c => c.1 != i) } }
  ts.foldl State.sliceTxn (s.resvLevel i)

/-- R89, R190: the park slot of an entry lies on DDR5 channel `k`. -/
def State.slotOn (s : State) (k qid pos : Nat) : Bool :=
  let n := (s.queue qid).pan
  match ((s.queue qid).ent pos).bind (·.slot) with
  | some i =>
    let g := SMap.get 0 (i / 31) (s.pan n).parkGrans
    s.on (Csr.PANCTL_placement n) && g != 0 && (s.ddr5Map ((g - 1) * granSize)).1 == k
  | none => false

/-- Step 4: a queue homed in the failed stall `k` moves to stall `j`, and its parked entries resume (R89). -/
def State.queueRehome (s : State) (a : Bool) (k qid j : Nat) : State :=
  let s := s.journaled a 4 [k, 6, qid, j] (fun s =>
    (s.setActList k ((s.actList k).filter (fun x => x != qid))).setQueue qid (fun q => { q with moving := some j })) (fun _ => Sts.ok)
  let parked := (s.queue qid).ents.filter (fun e => e.st == .parked && !e.done)
  (parked.foldl (fun s e =>
    if s.slotOn k qid e.pos then s.endBad qid e.pos Sts.aborted e.ctx.pc
    else (s.setEnt qid e.pos (fun e => { e with gen := none })).reresolve qid e.pos []) s).relist

/-- Step 4: every queue of the stall, in ascending order, to the in-service stalls in rotation. -/
def State.rehomeAll (s : State) (a : Bool) (k : Nat) : List Nat → Nat → State
  | [], _ => s
  | q :: t, j =>
    match s.nextStall j with
    | some j' => (s.queueRehome a k q j').rehomeAll a k t j'
    | none => s

/-- STALL_FAIL (R422): the active performs its steps, journaling each one. -/
def State.stallFail (s : State) (k : Fin 16) : State :=
  match s.rmActive with
  | none => s
  | some a =>
    if s.stallFailed k then s
    else
      let bits (s : State) : Nat := s.rd Csr.STALLSVC_in_service + s.rd Csr.STALLSVC_failed * 65536
      let note (s : State) (o v : Nat) (f : State → State) : State := s.journaled a 2 [o, v] f (fun _ => Sts.ok)
      let s := note s 0x500200 (bits ((s.setFld Csr.STALLSVC_failed k).clrFld Csr.STALLSVC_in_service k)) (fun s =>
        let s := (s.setFld Csr.STALLSVC_failed k).clrFld Csr.STALLSVC_in_service k
        let b := carBase (.rake k)
        let s := s.wr (Csr.CARSTATE_masked b) (setBit (setBit (s.rd (Csr.CARSTATE_masked b)) 0 true) 1 true)
        let s := if s.rd (Csr.CARSTATE_owner b) < 2 then s.wr (Csr.CARSTATE_parked b) 0 else s
        let s := (s.sleepMark k).setFld Csr.STALLPWR_gated k
        (s.clrFld Csr.STALLPWR_waking k).raise Ev.STALL_FAILED 1 k)
      let s := s.coreFails (.stall k)
      let s := note s (0x2800018 + 0x20000 * k) 4 (fun s => s.chanOut k)
      let slices := (List.range 16).filter (fun i => bitsOf (s.rd Csr.SLICEMAP_stall) (4 * i) 4 == k.val)
      let s := match s.nextStall k with
        | some j => note s 0x500208 (slices.foldl (fun m i => setBits m (4 * i) 4 j) (s.rd Csr.SLICEMAP_stall)) (fun s =>
            slices.foldl (fun s i => s.sliceMove i j) s)
        | none => s
      let s := (List.range 16).foldl (fun s i => if (s.rake (16 * k + i)).busy then s.cutOff (16 * k + i) else s) s
      let helping := (s.rakes.filter (fun kv => kv.1 / 16 == k.val && kv.2.helps != 0)).map (·.1)
      let s := (helping.foldl (fun s r => s.setRake r (fun x => { x with helps := 0 })) s).stallRakes k 3
      let s := s.icFlush (fun r => r / 16 == k.val) (fun _ => true)
      let qs := (s.queues.filter (fun kv => kv.2.st != .free && kv.2.home == k.val)).map (·.1)
      let come := (s.queues.filter (fun kv => kv.2.st != .free && kv.2.home != k.val && kv.2.moving == some k.val)).map (·.1)
      let s := s.rehomeAll a k (qs ++ come) k
      ({ s with rm := { s.rm with moving := s.rm.moving ++ qs ++ come } } : State).rmLevels.doorsGo

/-- STALL_FAIL. -/
def execStallFail (k : Fin 16) (s : State) : Outcome State Fault Refusal := .next (s.stallFail k)

/-- STALL_POLL: the active polls each stall control core; `bad` names those that have not answered for 1 ms. -/
def State.stallPoll (s : State) (bad : List (Fin 16)) : State := bad.foldl State.stallFail s

/-- STALL_POLL. -/
def execStallPoll (bad : List (Fin 16)) (s : State) : Outcome State Fault Refusal := .next (s.stallPoll bad)

/-- STALL_QUEUES_MOVED: the last queue of a failed stall has moved. -/
def State.queuesMoved (s : State) : State :=
  if s.rm.moving ≠ [] ∧ s.rm.moving.all (fun q => (s.queue q).moving.isNone) = true then
    ({ s with rm := { s.rm with moving := [] } }.raise Ev.STALL_QUEUES_MOVED 6 s.holderNum).rmLevels
  else s

/-- STALL_QUEUES_MOVED. -/
def execStallQueuesMoved (s : State) : Outcome State Fault Refusal := .next s.queuesMoved

/-! ### Clocks that fail (R472) -/

/-- PLL_LOCK_TIMEOUT: the PLL's domain is treated as failed. Before SERVICE a Base, Midway or stacked PLL stops the boot (R499). -/
def State.pllFail (s : State) (p : Pll) : State :=
  if !s.board.main then s
  else
    let e (kind i : Nat) : State := s.raise Ev.PLL_LOCK_FAIL kind i
    let core (s : State) : State := if s.rd Csr.BOOTSTAT_stage = 7 ∧ s.board.reset = none then s.hardReset 8 else s
    match p with
    | .base => core (e 0 0)
    | .mid => core (e 0 0)
    | .stk _ => core (e 0 0)
    | .rake k => (e 1 k).stallFail k
    | .ddr c => ((e 3 c).clrFld Csr.CLKSTAT_ddr_lock c).chanOut c
    | .port p =>
      let s := e 2 p
      { s with board := { s.board with unwatched := (8 + p.val) :: s.board.unwatched.filter (· != 8 + p.val) } }.linkDisable p
    | .pex => e 0 0

/-- PLL_LOCK_TIMEOUT. -/
def execPllLockTimeout (p : Pll) (s : State) : Outcome State Fault Refusal := .next (s.pllFail p)

end Sys2Proof.Machine
end

