-- ==== Sys2Proof/Machine/CsrWrite.lean ====
section
/-!
DEFINITION. Register writes by every path (R2, R410, R416, R537), the commands that are writes of one register, the scalar store
(R108) and CSR_WRITE (R511).
-/
namespace Sys2Proof.Machine
open Sys2Proof Host

/-- Class and operands of the journal record of a write (Table 14-7): a write of QCMD is a queue command. -/
def journalOf (o v : Nat) : Nat × List Nat :=
  if 0x1000000 ≤ o ∧ o < 0x2000000 ∧ o % 0x100000 = 0x6000 then (4, [(o - 0x1000000) / 0x100000, bitsOf v 0 4, bitsOf v 4 19, bitsOf v 24 4])
  else (2, [o, v])

/-- R416: a write of the active instance through a gate, between its START and DONE. A reset that it starts leaves no DONE. -/
def State.writeJournaled (s : State) (b : Bool) (o v : Nat) : State :=
  let j := journalOf o v
  let (q, s) := s.jStart b j.1 j.2
  let s := (s.writeEff (.rm b) o v).2
  if s.board.reset.isSome && (o == 0x200200) then s else s.jDone b q Sts.ok

/-- R421: an active whose write is refused because CLAIMCUR is newer than its claim becomes the standby. -/
def State.oldActive (s : State) (b : Bool) : State :=
  if s.rmState b = 4 ∧ s.claimOf b ≠ s.rd Csr.CLAIMCUR_claim then (s.setRmState b 2).rmLevels else s

/-- R410, R537: a register write, with everything that it starts. Nothing is written while the uncore is dark or the device is held in
reset (R541). -/
def State.csrWrite (s : State) (w : Writer) (o v : Nat) : WriteResult × State :=
  if !s.uncoreLit || s.heldInReset then (.refused, s)
  else
    let r : WriteResult × State := match w with
      | .rm b =>
        if (s.regWrite w o v).1 = .done ∧ (gateOf o).isSome ∧ s.rmState b = 4 then (.done, s.writeJournaled b o v)
        else match s.writeEff w o v with
          | (.refused, s) => (.refused, s.oldActive b)
          | r => r
      | _ => s.writeEff w o v
    if r.1 = .done ∧ o = 0x500000 ∧ bitOf v 33 then (.done, r.2.rmYield) else r

/-- The word that a read of a register returns, with nothing cleared. -/
def State.readWord (s : State) (o : Nat) : Nat :=
  match Csr.find o with
  | some r => (r.fields.map (fun f => s.readField o f * 2 ^ f.lo)).sum
  | none => 0

/-- A write of a register that leaves its other fields as they are read. -/
def State.csrUpdate (s : State) (w : Writer) (o : Nat) (f : Nat → Nat) : State := (s.csrWrite w o (f (s.readWord o))).2

/-! ### Consumer counts (R581) -/

/-- EVPOS_CONSUMER_WRITE. -/
def execEvposConsumerWrite (w : Writer) (v : Word) (s : State) : Outcome State Fault Refusal := .next (s.csrWrite w 0x3100018 v.toNat).2

/-- ERRLOGPOS_CONSUMER_WRITE. -/
def execErrlogposConsumerWrite (w : Writer) (v : Word) (s : State) : Outcome State Fault Refusal := .next (s.csrWrite w 0x3018 v.toNat).2

/-- FQPOS_CONSUMER_WRITE. -/
def execFqposConsumerWrite (w : Writer) (n : Fin 64) (v : Word) (s : State) : Outcome State Fault Refusal :=
  .next (s.csrWrite w (0x200A0 + 0x100 * n.val) v.toNat).2

/-- AONLOGPOS_CONSUMER_WRITE. -/
def execAonlogposConsumerWrite (w : Writer) (v : Word) (s : State) : Outcome State Fault Refusal := .next (s.csrWrite w 0x100068 v.toNat).2

/-! ### Queue commands (R182, R183) -/

/-- A write of QCMD of stall `k`: op, queue and target (Table 06-7). -/
def State.qcmdWrite (s : State) (w : Writer) (k op q t : Nat) : State := (s.csrWrite w (0x1006000 + 0x100000 * k) (op + q * 16 + t * 2 ^ 24)).2

/-- CREATE. -/
def execCreate (w : Writer) (k : Fin 16) (q : Fin 524288) (s : State) : Outcome State Fault Refusal := .next (s.qcmdWrite w k.val 1 q.val 0)

/-- ENABLE. -/
def execEnable (w : Writer) (k : Fin 16) (q : Fin 524288) (s : State) : Outcome State Fault Refusal := .next (s.qcmdWrite w k.val 2 q.val 0)

/-- PAUSE. -/
def execPause (w : Writer) (k : Fin 16) (q : Fin 524288) (s : State) : Outcome State Fault Refusal := .next (s.qcmdWrite w k.val 3 q.val 0)

/-- STOP. -/
def execStop (w : Writer) (k : Fin 16) (q : Fin 524288) (s : State) : Outcome State Fault Refusal := .next (s.qcmdWrite w k.val 4 q.val 0)

/-- DESTROY. -/
def execDestroy (w : Writer) (k : Fin 16) (q : Fin 524288) (s : State) : Outcome State Fault Refusal := .next (s.qcmdWrite w k.val 5 q.val 0)

/-- MOVE. -/
def execMove (w : Writer) (k : Fin 16) (q : Fin 524288) (t : Fin 16) (s : State) : Outcome State Fault Refusal :=
  .next (s.qcmdWrite w k.val 6 q.val t.val)

/-- SETPARAM. -/
def execSetparam (w : Writer) (k : Fin 16) (q : Fin 524288) (s : State) : Outcome State Fault Refusal := .next (s.qcmdWrite w k.val 7 q.val 0)

/-- READ. -/
def execRead (w : Writer) (k : Fin 16) (q : Fin 524288) (s : State) : Outcome State Fault Refusal := .next (s.qcmdWrite w k.val 8 q.val 0)

/-! ### Translation (R221, Table 07-12) -/

/-- A write of FQRESUME. -/
def State.resumeWrite (s : State) (w : Writer) (n q index gen action : Nat) : State :=
  (s.csrWrite w 0x2040 (q + index * 2 ^ 19 + gen * 2 ^ 35 + n * 2 ^ 51 + action * 2 ^ 57)).2

/-- FQRESUME_RESUME. -/
def execFqresumeResume (w : Writer) (n : Fin 64) (q : Fin 524288) (index : BitVec 16) (gen : BitVec 16) (s : State) :
    Outcome State Fault Refusal := .next (s.resumeWrite w n.val q.val index.toNat gen.toNat 0)

/-- FQRESUME_ABORT. -/
def execFqresumeAbort (w : Writer) (n : Fin 64) (q : Fin 524288) (index : BitVec 16) (gen : BitVec 16) (s : State) :
    Outcome State Fault Refusal := .next (s.resumeWrite w n.val q.val index.toNat gen.toNat 1)

/-- XLCTL_FLUSH. -/
def execXlctlFlush (w : Writer) (s : State) : Outcome State Fault Refusal := .next (s.csrUpdate w 0x2000 (fun x => setBits x 9 1 1))

/-! ### DRAM tiers (R226, R243, R250, R272) -/

/-- DDR_TRAIN. -/
def execDdrTrain (w : Writer) (c : Fin 16) (s : State) : Outcome State Fault Refusal := .next (s.csrWrite w (0x2800010 + 0x20000 * c.val) 1).2

/-- DDR_MIGRATE. -/
def execDdrMigrate (w : Writer) (c : Fin 16) (slot : Fin 8) (s : State) : Outcome State Fault Refusal :=
  .next (s.csrWrite w (0x2800010 + 0x20000 * c.val) (2 + 16 * slot.val)).2

/-- STK_TRAIN_RUN. -/
def execStkTrainRun (w : Writer) (s : State) : Outcome State Fault Refusal := .next (s.csrWrite w 0x2A00110 1).2

/-- STK_TRAIN_CLEAR. -/
def execStkTrainClear (w : Writer) (s : State) : Outcome State Fault Refusal := .next (s.csrWrite w 0x2A00110 2).2

/-- RETIRE_GRANULE: the granule that RETIREADDR names. -/
def execRetireGranule (w : Writer) (s : State) : Outcome State Fault Refusal := .next (s.csrWrite w 0x3040 1).2

/-- RETIRE_RANK_GRANULES. -/
def execRetireRankGranules (w : Writer) (c : Fin 16) (k : Fin 8) (s : State) : Outcome State Fault Refusal :=
  .next (s.csrWrite w 0x3040 (2 + c.val * 2 ^ 5 + k.val * 2 ^ 9)).2

/-- RETIRE_ROW. -/
def execRetireRow (w : Writer) (c : Fin 16) (k : Fin 8) (sub : Fin 2) (bg : Fin 8) (bank : Fin 4) (row : BitVec 18) (s : State) :
    Outcome State Fault Refusal :=
  .next (s.csrWrite w 0x3040 (3 + c.val * 2 ^ 5 + k.val * 2 ^ 9 + sub.val * 2 ^ 12 + bg.val * 2 ^ 13 + bank.val * 2 ^ 16 + row.toNat * 2 ^ 18)).2

/-- HEAP_REFORMAT. -/
def execHeapReformat (w : Writer) (s : State) : Outcome State Fault Refusal := .next (s.csrWrite w 0x2C00010 1).2

/-! ### Ports (R338, R339) and fabric (R396, R397) -/

/-- LINK_ENABLE. -/
def execLinkEnable (w : Writer) (p : Fin 8) (s : State) : Outcome State Fault Refusal :=
  .next (s.csrUpdate w (0x2000000 + 0x80000 * p.val) (fun x => setBits x 0 1 1))

/-- LINK_DISABLE. -/
def execLinkDisable (w : Writer) (p : Fin 8) (s : State) : Outcome State Fault Refusal :=
  .next (s.csrUpdate w (0x2000000 + 0x80000 * p.val) (fun x => setBits x 0 1 0))

/-- SEARCH_NOW. -/
def execSearchNow (w : Writer) (p : Fin 8) (s : State) : Outcome State Fault Refusal := .next (s.csrWrite w (0x2000010 + 0x80000 * p.val) 2).2

/-- PORTCMD_RETRAIN. -/
def execPortcmdRetrain (w : Writer) (p : Fin 8) (s : State) : Outcome State Fault Refusal :=
  .next (s.csrWrite w (0x2000010 + 0x80000 * p.val) 1).2

/-- FABCMD_HOLD. -/
def execFabcmdHold (w : Writer) (id : BitVec 16) (s : State) : Outcome State Fault Refusal := .next (s.csrWrite w 0x5018 (1 + id.toNat * 2 ^ 16)).2

/-- FABCMD_RELEASE. -/
def execFabcmdRelease (w : Writer) (s : State) : Outcome State Fault Refusal := .next (s.csrWrite w 0x5018 2).2

/-- ROUTE_DOWN_WRITE. -/
def execRouteDownWrite (w : Writer) (n : Fin 4096) (down : Bool) (s : State) : Outcome State Fault Refusal :=
  .next (s.csrUpdate w (0x40000 + 8 * n.val) (fun x => setBits x 9 1 (if down then 1 else 0)))

/-! ### Trapeze (R418, R430, R433), reset (R497), settings (R505) and dumps (R522) -/

/-- RM_YIELD. -/
def execRmYield (w : Writer) (s : State) : Outcome State Fault Refusal := .next (s.csrUpdate w 0x500000 (fun x => setBits x 33 1 1))

/-- TWIN_TAKEOVER. -/
def execTwinTakeover (w : Writer) (s : State) : Outcome State Fault Refusal := .next (s.csrWrite w 0x500118 1).2

/-- TWINCMD_RESYNC. -/
def execTwincmdResync (w : Writer) (s : State) : Outcome State Fault Refusal := .next (s.csrWrite w 0x500118 2).2

/-- TWINCMD_UNPAIR. -/
def execTwincmdUnpair (w : Writer) (s : State) : Outcome State Fault Refusal := .next (s.csrWrite w 0x500118 3).2

/-- A write of RSTCMD. -/
def State.rstWrite (s : State) (w : Writer) (op key : Nat) (recovery : Bool) : State :=
  (s.csrWrite w 0x200200 (op + key * 2 ^ 8 + (if recovery then 2 ^ 16 else 0))).2

/-- RSTCMD_WARM. -/
def execRstcmdWarm (w : Writer) (key : BitVec 8) (recovery : Bool) (s : State) : Outcome State Fault Refusal :=
  .next (s.rstWrite w 1 key.toNat recovery)

/-- RSTCMD_HARD. -/
def execRstcmdHard (w : Writer) (key : BitVec 8) (recovery : Bool) (s : State) : Outcome State Fault Refusal :=
  .next (s.rstWrite w 2 key.toNat recovery)

/-- SETTINGS_COMMIT. -/
def execSettingsCommit (w : Writer) (s : State) : Outcome State Fault Refusal := .next (s.csrUpdate w 0x200238 (fun x => setBits x 20 1 1))

/-- DUMP_TAKE: a write of DUMPCMD, or a firmware core that fails. -/
def State.dumpTake (s : State) (w : Writer) : Option FwCore → State
  | none => (s.csrWrite w 0x3100038 1).2
  | some .booth => s
  | some c => s.takeDump (some c)

/-- DUMP_TAKE. -/
def execDumpTake (w : Writer) (core : Option FwCore) (s : State) : Outcome State Fault Refusal := .next (s.dumpTake w core)

/-- DUMP_MARK_READ. -/
def execDumpMarkRead (w : Writer) (mask : BitVec 2) (s : State) : Outcome State Fault Refusal := .next (s.csrWrite w 0x3100038 (mask.toNat * 2)).2

/-! ### CSR_WRITE (R511) and STS (R108) -/

/-- CSR_WRITE: REFUSED where the management path may not write, MALFORMED for an unaligned word or one outside the window. -/
def State.csrWriteReq (s : State) (r : Req) (off v : Nat) : State :=
  s.mgmtReq 2 r false fun s =>
    match s.csrWrite .mgmt off v with
    | (.done, s) => (0, [], s)
    | (.refused, s) => (2, [], s)
    | (.malformed, s) => (1, [], s)

/-- CSR_WRITE. -/
def execCsrWrite (r : Req) (off : Nat) (v : Word) (s : State) : Outcome State Fault Refusal := .next (s.csrWriteReq r off v.toNat)

/-- R108: STS. Only Ringmaster programs reach CSRs, and only with size 3 (R5, R410, R539). -/
def insnSts (again : Bool) (f : Fetch) (s : State) : State :=
  s.runInsn 0x0C f (.sts f) again fun v s =>
    let n := 2 ^ bitsOf v.i.mod 0 2
    let x := v.reg v.i.ra
    let go (_ : Unit) : Eff :=
      v.access s (v.aligned v.i.op n) false (v.loc1 v.i.op 0 n true) fun ls s =>
        let bs : List PByte := (leBytes n x).map (fun b => (b, v.poi v.i.ra))
        v.write s false (overSegs (segsOf ls) bs) Sts.ok v.ctx
    match v.loc v.i.op 0 n true with
    | .inr l => match l.csr with
      | some o =>
        if !v.rm || n != 8 || o % 8 != 0 then .stop Sts.malformed s
        else if l.denied then .stop Sts.permission s
        else match s.csrWrite (.rm v.inst) o x with
          | (.done, s) => .ok Sts.ok v.ctx s
          | (.refused, s) => .stop Sts.permission s
          | (.malformed, s) => .stop Sts.malformed s
      | none => go ()
    | .inl _ => go ()

def execSts (f : Fetch) (s : State) : Outcome State Fault Refusal := .next (insnSts false f s)

end Sys2Proof.Machine
end

