-- ==== Sys2Proof/Machine/Attn.lean ====
section
/-!
DEFINITION. The algorithm of context math on values (R146 to R157): key/value layout, scores, segments, partial records and
their reduction.
-/
namespace Sys2Proof.Machine

/-- The shape field (Table 05-6). -/
structure Shape where
  d : Nat
  hkv : Nat
  g : Nat
  kfmt : Nat
  vfmt : Nat
  qfmt : Nat

/-- The shape that imm32 names. -/
def Shape.of (x : Nat) : Shape :=
  ⟨32 * (bitsOf x 0 3 + 1), bitsOf x 3 4 + 1, bitsOf x 7 4 + 1, bitsOf x 11 3, bitsOf x 14 3, bitsOf x 17 2⟩

/-- Query heads. -/
def Shape.hq (z : Shape) : Nat := z.g * z.hkv

/-! ### Layout (R146) -/

/-- Format of a section: 0 K elements, 1 K scales, 2 V elements, 3 V scales. -/
def Shape.fmt (z : Shape) (sec : Nat) : Nat := if sec < 2 then z.kfmt else z.vfmt

/-- Bytes of a row of a section (Table 05-3). -/
def Shape.row (z : Shape) (sec : Nat) : Nat :=
  if sec % 2 = 0 then z.d * fmtBits (z.fmt sec) / 8 else if z.fmt sec = 6 then 0 else z.d / 32

/-- Offset of a section in its head. -/
def Shape.off (z : Shape) (sec : Nat) : Nat := 128 * ((List.range sec).map z.row).sum

/-- head_bytes and group_bytes. -/
def Shape.head (z : Shape) : Nat := z.off 4
def Shape.group (z : Shape) : Nat := z.hkv * z.head

/-- Offset of row `j` of a section of head `h` in group `n`, from the KV operand. -/
def Shape.at (z : Shape) (n h sec j : Nat) : Nat := n * z.group + h * z.head + z.off sec + j * z.row sec

/-- Groups that tokens `[b, b + c)` touch, each with its first row and the row after its last. -/
def groupsOf (b c : Nat) : List (Nat × Nat × Nat) :=
  if c = 0 then []
  else (rangeFrom (b / 128) ((b + c - 1) / 128 - b / 128 + 1)).map (fun n => (n, b - 128 * n, min (b + c - 128 * n) 128))

/-! ### Values -/

/-- The 32 elements of a block from its bytes (R144). -/
def blockElems (fmt : Nat) (bs : List Nat) : List Nat :=
  let x := ofLeBytes bs
  (List.range 32).map (fun i => bitsOf x (fmtBits fmt * i) (fmtBits fmt))

/-- The bytes of a block of 32 elements (R144). -/
def blockBytes (fmt : Nat) (es : List Nat) : List Nat :=
  leBytes (4 * fmtBits fmt) ((es.zipIdx.map (fun (e, i) => e % 2 ^ fmtBits fmt * 2 ^ (fmtBits fmt * i))).sum)

/-- A row of a cache: each block's elements and its scale byte. -/
abbrev KvRow := List (List Nat × Nat)

/-- The row whose element bytes and scale bytes are given. -/
def kvRow (d fmt : Nat) (els scs : List Nat) : KvRow :=
  (List.range (d / 32)).map (fun b => (blockElems fmt ((els.drop (4 * fmtBits fmt * b)).take (4 * fmtBits fmt)), scs.getD b 127))

/-- The exact values of a row (R143). -/
def KvRow.values (fmt : Nat) (r : KvRow) : List Fv := r.flatMap (fun b => b.1.map (fun e => Fv.scaled fmt e b.2))

/-- A query row of `d` values (R148). -/
def queryRow (d qfmt : Nat) (bs : List Nat) : List Fv :=
  if qfmt = 2 then (kvRow d 0 (bs.take d) (bs.drop d)).values 0
  else
    let w := if qfmt = 0 then 2 else 4
    (List.range d).map (fun i =>
      let x := ofLeBytes ((bs.drop (w * i)).take w)
      if qfmt = 0 then Fv.ofElem 6 x else Fv.of32 x)

/-! ### Scores and segments (R150, R153) -/

/-- R150, `score`: `qv` the query row, `k` the key row of format `fmt`. -/
def score (fmt : Nat) (qv : List Fv) (k : KvRow) (sigma : Nat) : Nat :=
  let acc := (k.zipIdx).foldl (fun acc (b, i) =>
    if fmt != 6 && b.2 == 0xFF then 0x7FC00000
    else
      let x := ((qv.drop (32 * i)).zip b.1).foldl (fun (a : Fv) (q, e) => a.add (q.mul (Fv.ofElem fmt e))) (Fv.fin false 0 0)
      add32 acc (if fmt = 6 then x else x.scale ((b.2 : Int) - 127)).to32) 0
  mul32 acc sigma

/-- R153, `tree_sum` of 128 slots: seven levels of pairwise additions. -/
def treeSum (f : Nat → Nat) : Nat → Nat → Nat
  | 0, i => f i
  | l + 1, i => add32 (treeSum f l (2 * i)) (treeSum f l (2 * i + 1))

/-- A partial record (R149). -/
structure Partial where
  m : Nat
  l : Nat
  o : List Nat
deriving DecidableEq

/-- The identity record and the NaN record. -/
def Partial.ident (d : Nat) : Partial := ⟨0xFF800000, 0, List.replicate d 0⟩
def Partial.nanRec (d : Nat) : Partial := ⟨0x7FC00000, 0x7FC00000, List.replicate d 0x7FC00000⟩

/-- The largest of binary32 values, NaN if one of them is; -∞ of none. -/
def max32 (xs : List Nat) : Nat :=
  if xs.any nan32 then 0x7FC00000 else (xs.foldl (fun (m : Fv) x => m.max (Fv.of32 x)) (Fv.inf true)).to32

/-- The o vector of weights `e` at rows `j0 …` with V rows `vs` (R153). -/
def weighted (d fmt j0 : Nat) (e : List Nat) (vs : List KvRow) : List Nat :=
  let rows := vs.map (KvRow.values fmt)
  (List.range d).map (fun c =>
    treeSum (fun j =>
      if j < j0 then 0
      else match e[j - j0]?, rows[j - j0]? with
        | some w, some r => ((Fv.of32 w).mul (r.getD c (.fin false 0 0))).to32
        | _, _ => 0) 7 0)

/-- `a - b` rounded to binary32. -/
def sub32 (a b : Nat) : Nat := ((Fv.of32 a).add (Fv.of32 b).neg).to32

/-- R153, `segment_partial` from the scores of rows `j0 …`. -/
def segmentPartial (d fmt j0 : Nat) (sc : List Nat) (vs : List KvRow) : Partial :=
  let m := max32 sc
  if nan32 m || m == 0x7F800000 then Partial.nanRec d
  else if m = 0xFF800000 then Partial.ident d
  else
    let e := sc.map (fun x => expApprox (sub32 x m))
    ⟨m, treeSum (fun j => if j < j0 then 0 else e.getD (j - j0) 0) 7 0, weighted d fmt j0 e vs⟩

/-! ### Merging and reduction (R154, R155) -/

/-- R154, `merge_part`. -/
def mergePart (d : Nat) (a b : Partial) : Partial :=
  if nan32 a.m || nan32 b.m then Partial.nanRec d
  else if b.m = 0xFF800000 then a
  else if a.m = 0xFF800000 then b
  else
    let m := max32 [a.m, b.m]
    let x := expApprox (sub32 a.m m)
    let y := expApprox (sub32 b.m m)
    let mix (p q : Nat) : Nat := add32 (mul32 x p) (mul32 y q)
    ⟨m, mix a.l b.l, (a.o.zip b.o).map (fun (p, q) => mix p q)⟩

/-- One level of `pair_reduce`. -/
def pairLevel {β : Type} (f : β → β → β) : List β → List β
  | a :: b :: t => f a b :: pairLevel f t
  | l => l

/-- R155, `pair_reduce`: levels until one entry remains. -/
def pairReduce {β : Type} (f : β → β → β) : Nat → List β → List β
  | 0, l => l
  | n + 1, l => if l.length ≤ 1 then l else pairReduce f n (pairLevel f l)

/-- Members of one span or band, `k` groups or spans each, reduced; members come in ascending order with their numbers. -/
def reduceBy {β : Type} (f : β → β → β) (k : Nat) (l : List (Nat × β)) : List (Nat × β) :=
  ((l.map (fun x => x.1 / k)).eraseDups).flatMap (fun i =>
    ((pairReduce f l.length ((l.filter (fun x => x.1 / k == i)).map (·.2)))).map (fun x => (i, x)))

/-- R155: segments by group number, through spans of 32 groups and bands of 32 spans, folded from `z`. -/
def reduceRange {β : Type} (f : β → β → β) (z : β) (l : List (Nat × β)) : β :=
  (reduceBy f 32 (reduceBy f 32 l)).foldl (fun a x => f a x.2) z

/-- A binary32 value is NaN or infinite. -/
def nonfin32 (x : Nat) : Bool := (Fv.of32 x).nonfinite

/-- R157: a record holds a non-finite value other than the m of an identity record. -/
def Partial.nonfinite (d : Nat) (r : Partial) : Bool := decide (r ≠ Partial.ident d) && (r.m :: r.l :: r.o).any nonfin32

/-- The bytes of a record (Table 05-4). -/
def Partial.bytes (r : Partial) : List Nat := (r.m :: r.l :: r.o).flatMap (leBytes 4)

/-- The record in `8 + 4d` bytes. -/
def Partial.ofBytes (d : Nat) (bs : List Nat) : Partial :=
  let w (i : Nat) : Nat := ofLeBytes ((bs.drop (4 * i)).take 4)
  ⟨w 0, w 1, (List.range d).map (fun c => w (c + 2))⟩

end Sys2Proof.Machine
end

