-- ==== Sys2Proof/Machine/CtxMath.lean ====
section
/-!
DEFINITION. The context-math instructions (R160 to R172): their operands, what they write, their counters and events.
-/
namespace Sys2Proof.Machine

open Host

/-! ### Counters (R175, R176) -/

/-- Counter `i` of Table 05-14 of stall `k`: 0 CMATTNCNT, 1 CMCHUNKCNT, 2 CMPASSCNT, 3 CMNONFINCNT, 4 CMNOHELPCNT, 5 CMBYTECNT. -/
def cmCtr (k i : Nat) : Ctr := ⟨⟨0x1005010 + 0x100000 * k + 8 * i, 0, 48, 0, false⟩, ⟨0x1005008 + 0x100000 * k, i, 1, 0, false⟩, 0, Ev.CM_COUNT_OVF, 1, k⟩

/-- Counts `n`, raising `ev` when the counter leaves zero. -/
def State.cmCount (s : State) (k i n ev : Nat) : State :=
  let z := s.rd (cmCtr k i).cnt == 0
  let s := s.count (cmCtr k i) n
  if ev ≠ 0 && z && s.rd (cmCtr k i).cnt != 0 then s.raise ev 1 k else s

/-- R157: the nonfinite condition is counted. -/
def State.cmNonfinite (s : State) (r : Nat) (b : Bool) : State := if b then s.cmCount (r / 16) 3 1 Ev.CM_NONFINITE else s

/-- R140: the instruction on rake `r` has helpers, or some rake may be borrowed. -/
def State.hasHelper (s : State) (r : Nat) : Bool := s.helpersOf r != [] || s.borrowable r != []

/-! ### Operands -/

/-- R161: the token range, or MALFORMED. -/
def Env.tokens (v : Env) : Option (Nat × Nat) :=
  let x := if v.i.m 3 then v.reg v.i.ra else v.i.y0
  let b := bitsOf x 0 32
  let c := bitsOf x 32 32
  if (v.i.m 3 && v.poi v.i.ra) || decide (2 ^ 32 < b + c) then none else some (b, c)

/-- R161: a constant taken from a register or from the word is a finite binary32; from a register its upper bits are zero and it
carries no poison (R269, R583). -/
def Env.finite (v : Env) (fromReg : Bool) (k x : Nat) : Option Nat :=
  let y := if fromReg then v.reg k else x
  if (fromReg && (v.poi k || decide (2 ^ 32 ≤ y))) || nonfin32 (y % 2 ^ 32) then none else some y

/-- R147: alignment of a KV operand. -/
def Env.kvAligned (v : Env) (op : Nat) : Bool :=
  let w := v.e.wins.getD (bitsOf op 48 3) Win.unused
  operandOff v.ctx op % 128 == 0 && (w.kind != 1 || w.base % 128 == 0)

/-- R147: the whole of the groups that a range touches, checked under R58. An empty range is checked with length 0 at the group of its first
token (DESIGN CHOICE, log entry 77: R147 does not say where). -/
def Env.kvAll (v : Env) (z : Shape) (op b c : Nat) (wr : Bool) : Sum Nat Loc :=
  v.loc op (b / 128 * z.group) ((groupsOf b c).length * z.group) wr

/-- A part of the cache that is read or written: its group, head, section, first row and the row after its last, and where it
lies. -/
structure KvPart where
  n : Nat
  h : Nat
  sec : Nat
  j0 : Nat
  j1 : Nat
  loc : Loc

/-- R147: the rows in range of the sections `secs`, of every head. -/
def Env.kvParts (v : Env) (z : Shape) (op b c : Nat) (secs : List Nat) (wr : Bool) : List KvPart :=
  (groupsOf b c).flatMap (fun (n, j0, j1) => (List.range z.hkv).flatMap (fun h => secs.filterMap (fun sec =>
    if z.row sec = 0 then none
    else match v.loc op (z.at n h sec j0) ((j1 - j0) * z.row sec) wr with
      | .inr l => some ⟨n, h, sec, j0, j1, l⟩
      | .inl _ => none)))

/-- A located operand without its zero runs: what is confirmed of bytes that are not read (R216). -/
def Loc.mapped (l : Loc) : Loc := { l with segs := l.segs.filter (fun g => !g.zero) }

/-- Bytes cut into consecutive pieces of the given lengths. -/
def cuts : List Nat → List PByte → List (List PByte)
  | [], _ => []
  | n :: t, bs => bs.take n :: cuts t (bs.drop n)

/-- Cache rows of a section pair, from what was read of head `h` in group `n`; `el` is the number of the element section. -/
def rowsOf (z : Shape) (ps : List (KvPart × List PByte)) (n h el : Nat) : List KvRow :=
  let find (sec : Nat) : Option (KvPart × List PByte) := ps.find? (fun p => p.1.n == n && p.1.h == h && p.1.sec == sec)
  match find el with
  | none => []
  | some (p, bs) =>
    let sc := (find (el + 1)).map (fun x => x.2.map (·.1))
    (List.range (p.j1 - p.j0)).map (fun j =>
      kvRow z.d (z.fmt el) (((bs.drop (j * z.row el)).take (z.row el)).map (·.1))
        ((sc.map (fun y => (y.drop (j * z.row (el + 1))).take (z.row (el + 1)))).getD []))

/-- Length of a located operand. -/
def Loc.len (l : Loc) : Nat := (l.segs.map (·.len)).sum

/-! ### Attention (R160 to R164) -/

/-- The three attention instructions. -/
inductive AttnKind where
  | qk | sv | part
deriving DecidableEq

/-- R160: extra passes and extra chunks. Zero runs are not counted as runs, and the extra chunks of an instruction of several passes are
counted once (DESIGN CHOICE, log entry 77: R160 states neither). -/
def extraPasses (z : Shape) (kv : Loc) (c : Nat) : Nat × Nat :=
  if c = 0 then (0, 0)
  else
    let p := min z.hkv (147456 / (32 * z.g * z.d + 56 * z.g))
    (ceilDiv z.hkv p - 1, ceilDiv (max 1 kv.segs.length) 3072 - 1)

/-- R175, R176, R78: what an attention instruction that completes leaves in counters, events and the entry's notes. -/
def Env.attnDone (v : Env) (helped nf : Bool) (passes chunks lines : Nat) (s : State) : State :=
  let k := v.r / 16
  let s := s.cmCount k 0 1 0
  let s := s.cmCount k 5 lines 0
  let s := if s.on (Csr.CMCTL_helpers_en k) && !helped then s.cmCount k 4 1 Ev.CM_NO_HELPERS else s
  let z1 := s.rd (cmCtr k 1).cnt == 0
  let z2 := s.rd (cmCtr k 2).cnt == 0
  let s := (s.count (cmCtr k 1) chunks).count (cmCtr k 2) passes
  let s := if (z1 && chunks != 0 && s.rd (cmCtr k 1).cnt != 0) || (z2 && passes != 0 && s.rd (cmCtr k 2).cnt != 0) then s.raise Ev.CM_CHUNKED 1 k else s
  let s := if passes + chunks ≠ 0 then s.setEnt v.qid v.e.pos (fun e => { e with notes := e.notes ||| 32 }) else s
  s.cmNonfinite v.r nf

/-- The output rows of an attention instruction over what was read: per query head, its bytes and whether a value in them is not
finite (R157). -/
def attnRows (kind : AttnKind) (z : Shape) (b c sigma wb : Nat) (q : List Nat) (ps : List (KvPart × List PByte)) : List (List Nat × Bool) :=
  (List.range z.hq).map (fun hh =>
    let h := hh / z.g
    let gs := groupsOf b c
    match kind with
    | .sv =>
      let w (t : Nat) : Nat :=
        let x := ofLeBytes ((q.drop (wb * (c * hh + (t - b)))).take wb)
        if wb = 2 then (Fv.ofElem 6 x).to32 else x
      let segs := gs.map (fun (n, j0, j1) =>
        (n, weighted z.d z.vfmt j0 ((rangeFrom j0 (j1 - j0)).map (fun j => w (128 * n + j))) (rowsOf z ps n h 2)))
      let o := reduceRange (fun x y => (x.zip y).map (fun (p, r) => add32 p r)) (List.replicate z.d 0) segs
      (o.flatMap (leBytes 4), o.any nonfin32)
    | .qk =>
      let rb := if z.qfmt = 0 then 2 * z.d else if z.qfmt = 1 then 4 * z.d else z.d + z.d / 32
      let qv := queryRow z.d z.qfmt ((q.drop (rb * hh)).take rb)
      let sc := gs.flatMap (fun (n, _, _) => (rowsOf z ps n h 0).map (fun k => score z.kfmt qv k sigma))
      (sc.flatMap (leBytes 4), sc.any nonfin32)
    | .part =>
      let rb := if z.qfmt = 0 then 2 * z.d else if z.qfmt = 1 then 4 * z.d else z.d + z.d / 32
      let qv := queryRow z.d z.qfmt ((q.drop (rb * hh)).take rb)
      let segs := gs.map (fun (n, j0, _) =>
        (n, segmentPartial z.d z.vfmt j0 ((rowsOf z ps n h 0).map (fun k => score z.kfmt qv k sigma)) (rowsOf z ps n h 2)))
      let r := reduceRange (mergePart z.d) (Partial.ident z.d) segs
      (r.bytes, r.nonfinite z.d))

/-- R161 to R164: an attention instruction. -/
def Env.attn (v : Env) (s : State) (kind : AttnKind) : Eff :=
  let z := Shape.of v.i.imm
  let wb := if v.i.m 1 then 2 else 4
  match v.tokens, (if kind = .sv then some 0 else v.finite true v.i.rb 0) with
  | some (b, c), some sigma =>
    let qrow := if kind = .sv then wb * c else if z.qfmt = 0 then 2 * z.d else if z.qfmt = 1 then 4 * z.d else z.d + z.d / 32
    let orow := if kind = .qk then 4 * c else if kind = .sv then 4 * z.d else 8 + 4 * z.d
    let secs := if kind = .qk then [0, 1] else if kind = .sv then [2, 3] else [0, 1, 2, 3]
    let kv := v.kvAll z v.i.x1 b c false
    let ps := v.kvParts z v.i.x1 b c secs false
    let locs := allLocs [v.loc v.i.op 0 (z.hq * orow) true, v.loc v.i.x0 0 (z.hq * qrow) false, kv]
    let locs : Sum Nat (List Loc) := match locs with
      | .inr [o, q, k] => .inr (o :: k.mapped :: q :: ps.map (·.loc))
      | x => x
    v.access s (v.aligned v.i.op 8 && v.kvAligned v.i.x1) v.zf locs fun ls s =>
      match ls with
      | o :: k :: q :: t =>
        v.read s v.nt (q :: t) fun bs s =>
          let qb := bs.take q.len
          let parts := ps.zip (cuts (t.map Loc.len) (bs.drop q.len))
          let rows := attnRows kind z b c sigma wb (qb.map (·.1)) parts
          let bad (hh : Nat) : Bool := anyPoison ((qb.drop (qrow * hh)).take qrow)
            || parts.any (fun p => p.1.h == hh / z.g && anyPoison p.2)
          let out : List PByte := (rows.zipIdx).flatMap (fun (r, hh) => r.1.map (fun x => (x, bad hh)))
          let nf := rows.any (·.2)
          let lines := (t.map (fun l => (l.segs.map (fun g => (linesOf g.va g.len).length)).sum)).sum
          let (passes, chunks) := extraPasses z k c
          let helped := s.hasHelper v.r
          v.writeThen s v.nt (overSegs o.segs out) (accessStatus (anyPoison bs) (anyZero (q :: t))) (v.setSp v.ctx (anyPoison bs || nf))
            (v.attnDone helped nf passes chunks lines)
      | _ => .stop Sts.malformed s
  | _, _ => v.resume s fun _ => .stop Sts.malformed s

/-- R163: ATTN.QK. -/
def insnAttnQk (again : Bool) (f : Fetch) (s : State) : State := s.runInsn 0x50 f (.attnQk f) again fun v s => v.attn s .qk
def execAttnQk (f : Fetch) (s : State) : Outcome State Fault Refusal := .next (insnAttnQk false f s)

/-- R164: ATTN.SV. -/
def insnAttnSv (again : Bool) (f : Fetch) (s : State) : State := s.runInsn 0x51 f (.attnSv f) again fun v s => v.attn s .sv
def execAttnSv (f : Fetch) (s : State) : Outcome State Fault Refusal := .next (insnAttnSv false f s)

/-- R162: ATTN.PART. -/
def insnAttnPart (again : Bool) (f : Fetch) (s : State) : State := s.runInsn 0x52 f (.attnPart f) again fun v s => v.attn s .part
def execAttnPart (f : Fetch) (s : State) : Outcome State Fault Refusal := .next (insnAttnPart false f s)

/-! ### MERGE.PART (R165) -/

/-- R165: the normalised output of a merged record. -/
def Partial.final (d : Nat) (bf : Bool) (r : Partial) : List Nat × Bool :=
  let o := r.o.map (fun x => if r.l = 0 then Fv.fin false 0 0 else (Fv.of32 x).div (Fv.of32 r.l))
  if bf then (o.flatMap (fun x => leBytes 2 x.toBf), o.any (fun x => (Fv.ofElem 6 x.toBf).nonfinite))
  else (o.flatMap (fun x => leBytes 4 x.to32), decide (o.length = d) && o.any (fun x => nonfin32 x.to32))

/-- R165: MERGE.PART. -/
def insnMergePart (again : Bool) (f : Fetch) (s : State) : State :=
  s.runInsn 0x53 f (.mergePart f) again fun v s =>
    let d := 32 * (bitsOf v.i.imm 0 3 + 1)
    let rows := bitsOf v.i.imm 3 8 + 1
    let final := v.i.m 0
    let bf := v.i.m 1
    let count := bitsOf v.i.x1 0 16
    let stride := bitsOf v.i.x1 16 32
    let rec_ := 8 + 4 * d
    let sz := rows * rec_
    let ok := decide (1 ≤ count) && decide (count ≤ 4096) && stride % 8 == 0 && decide (sz ≤ stride) && v.aligned v.i.op 8
    let src := (List.range (if ok then count else 0)).map (fun i => v.loc v.i.x0 (i * stride) sz false)
    let locs : Sum Nat (List Loc) := match allLocs (v.loc v.i.op 0 (if final then rows * d * (if bf then 2 else 4) else sz) true :: src) with
      | .inr (o :: t) =>
        let overlaps (l : Loc) : Bool := clash l.segs o.segs || (joinSegs l.segs == joinSegs o.segs && o.len != 0)
        if (match t with
            | [] => false
            | a :: u => clash a.segs o.segs || u.any overlaps) then .inl Sts.malformed else .inr (o :: t)
      | x => x
    v.access s ok false locs fun ls s =>
      match ls with
      | o :: t =>
        v.read s false t fun bs s =>
          let sets := cuts (t.map Loc.len) bs
          let res := (List.range rows).map (fun r =>
            let recs := sets.map (fun x => Partial.ofBytes d (((x.drop (r * rec_)).take rec_).map (·.1)))
            let bad := sets.any (fun x => anyPoison ((x.drop (r * rec_)).take rec_))
            let m := (pairReduce (Machine.mergePart d) recs.length recs).headD (Partial.ident d)
            if final then (m.final d bf, bad) else ((m.bytes, m.nonfinite d), bad))
          let nf := res.any (fun x => x.1.2)
          let out : List PByte := res.flatMap (fun x => x.1.1.map (fun y => (y, x.2)))
          v.writeThen s false (overSegs o.segs out) (accessStatus (anyPoison bs) false) (v.setSp v.ctx (anyPoison bs || nf))
            (fun s => s.cmNonfinite v.r nf)
      | [] => .stop Sts.malformed s

def execMergePart (f : Fetch) (s : State) : Outcome State Fault Refusal := .next (insnMergePart false f s)

/-! ### KVQ and KVDQ (R166, R167) -/

/-- The bytes in cache format `fmt` of a block of 32 values: element bytes, scale byte if any, and whether a value in it is not finite (R157). -/
def packBlock (fmt : Nat) (vs : List Fv) : List Nat × List Nat × Bool :=
  if fmt = 6 then (vs.flatMap (fun x => leBytes 2 x.toBf), [], vs.any (fun x => (Fv.ofElem 6 x.toBf).nonfinite))
  else
    let (sc, es, nf) := quantizeBlock fmt vs
    (blockBytes fmt es, [sc], nf)

/-- R166: KVQ. -/
def insnKvq (again : Bool) (f : Fetch) (s : State) : State :=
  s.runInsn 0x58 f (.kvq f) again fun v s =>
    let z := Shape.of v.i.imm
    let w := if z.qfmt = 0 then 2 else 4
    match v.tokens with
    | none => v.resume s fun _ => .stop Sts.malformed s
    | some (b, c) =>
      let ps := v.kvParts z v.i.op b c [0, 1, 2, 3] true
      let locs : Sum Nat (List Loc) := match allLocs [v.loc v.i.x0 0 (c * z.hkv * 2 * z.d * w) false, v.kvAll z v.i.op b c true] with
        | .inr [x, k] => .inr [x, k]
        | x => x
      v.access s (v.kvAligned v.i.op) false locs fun ls s =>
        v.read s false (ls.take 1) fun bs s =>
          let src (t h kvsel blk : Nat) : List PByte := (bs.drop ((((t - b) * z.hkv + h) * 2 + kvsel) * z.d * w + blk * 32 * w)).take (32 * w)
          let vals (x : List PByte) : List Fv := (List.range 32).map (fun i =>
            let y := ofLeBytes (((x.drop (w * i)).take w).map (·.1))
            if w = 2 then Fv.ofElem 6 y else Fv.of32 y)
          let blocks (p : KvPart) : List (List Nat × List Nat × Bool × Bool) :=
            (rangeFrom p.j0 (p.j1 - p.j0)).flatMap (fun j => (List.range (z.d / 32)).map (fun blk =>
              let x := src (128 * p.n + j) p.h (p.sec / 2) blk
              let (e, sc, nf) := packBlock (z.fmt p.sec) (vals x)
              (e, sc, nf, anyPoison x)))
          let ws := ps.flatMap (fun p =>
            overSegs p.loc.segs ((blocks p).flatMap (fun x => (if p.sec % 2 = 0 then x.1 else x.2.1).map (fun y => (y, x.2.2.2)))))
          let nf := ps.any (fun p => p.sec % 2 == 0 && (blocks p).any (fun x => x.2.2.1))
          v.writeThen s false ws (accessStatus (anyPoison bs) false) (v.setSp v.ctx (anyPoison bs || nf)) (fun s => s.cmNonfinite v.r nf)

def execKvq (f : Fetch) (s : State) : Outcome State Fault Refusal := .next (insnKvq false f s)

/-- R167: KVDQ. -/
def insnKvdq (again : Bool) (f : Fetch) (s : State) : State :=
  s.runInsn 0x59 f (.kvdq f) again fun v s =>
    let z := Shape.of v.i.imm
    let bf := v.i.m 1
    match v.tokens with
    | none => v.resume s fun _ => .stop Sts.malformed s
    | some (b, c) =>
      let ps := v.kvParts z v.i.x0 b c [0, 1, 2, 3] false
      let locs : Sum Nat (List Loc) := match allLocs [v.loc v.i.op 0 (c * z.hkv * 2 * z.d * (if bf then 2 else 4)) true, v.kvAll z v.i.x0 b c false] with
        | .inr [o, k] => .inr (o :: k.mapped :: ps.map (·.loc))
        | x => x
      v.access s (v.aligned v.i.op 4 && v.kvAligned v.i.x0) v.zf locs fun ls s =>
        match ls with
        | o :: _ :: t =>
          v.read s v.nt t fun bs s =>
            let parts := ps.zip (cuts (t.map Loc.len) bs)
            let part (n h sec : Nat) : Option (KvPart × List PByte) := parts.find? (fun p => p.1.n == n && p.1.h == h && p.1.sec == sec)
            let dirty (n h sec j lo len : Nat) : Bool := match part n h sec with
              | some (p, x) => anyPoison ((x.drop ((j - p.j0) * z.row sec + lo)).take len)
              | none => false
            let out : List (Nat × Bool × Bool) := (groupsOf b c).flatMap (fun (n, j0, j1) =>
              (rangeFrom j0 (j1 - j0)).flatMap (fun j => (List.range z.hkv).flatMap (fun h => [0, 2].flatMap (fun sec =>
                let row := (rowsOf z parts n h sec).getD (j - j0) []
                (row.zipIdx).flatMap (fun (blk, i) =>
                  let es := 4 * fmtBits (z.fmt sec)
                  let p := dirty n h sec j (es * i) es || dirty n h (sec + 1) j i 1
                  (KvRow.values (z.fmt sec) [blk]).flatMap (fun x =>
                    let (bits, nf) := if bf then (leBytes 2 x.toBf, (Fv.ofElem 6 x.toBf).nonfinite) else (leBytes 4 x.to32, nonfin32 x.to32)
                    bits.map (fun y => (y, p, nf))))))))
            let nf := out.any (fun x => x.2.2)
            v.writeThen s v.nt (overSegs o.segs (out.map (fun x => (x.1, x.2.1)))) (accessStatus (anyPoison bs) (anyZero t))
              (v.setSp v.ctx (anyPoison bs || nf)) (fun s => s.cmNonfinite v.r nf)
        | _ => .stop Sts.malformed s

def execKvdq (f : Fetch) (s : State) : Outcome State Fault Refusal := .next (insnKvdq false f s)

/-! ### TOPK and SCALE (R168, R169) -/

/-- R168: `a` ranks above `b`; NaN ranks below every other key, and equal keys go by index. -/
def ranksAbove (mag : Bool) (a b : Nat × Nat) : Bool :=
  let key (x : Nat) : Fv := Fv.of32 (if mag then x % 2 ^ 31 else x)
  let x := key a.2
  let y := key b.2
  if x.isNan then y.isNan && decide (a.1 < b.1)
  else if y.isNan then true
  else y.lt x || (!x.lt y && decide (a.1 < b.1))

/-- Inserts into a list ordered by rank. -/
def rankIn (mag : Bool) (a : Nat × Nat) : List (Nat × Nat) → List (Nat × Nat)
  | [] => [a]
  | b :: t => if ranksAbove mag a b then a :: b :: t else b :: rankIn mag a t

/-- R168: the entries of the `k` largest of a row's values. -/
def topk (mag : Bool) (k : Nat) (xs : List Nat) : List (Nat × Nat) :=
  (xs.zipIdx).foldl (fun l (x, i) => (rankIn mag (i, x) l).take k) []

/-- R168: TOPK. -/
def insnTopk (again : Bool) (f : Fetch) (s : State) : State :=
  s.runInsn 0x5C f (.topk f) again fun v s =>
    let rows := bitsOf v.i.imm 0 8 + 1
    let k := bitsOf v.i.imm 8 13
    let n := bitsOf v.i.x1 0 24
    let ok := decide (1 ≤ k) && decide (k ≤ 4096) && decide (k ≤ n) && v.aligned v.i.op 8
    v.access s ok false (allLocs [v.loc v.i.op 0 (8 * k * rows) true, v.loc v.i.x0 0 (4 * n * rows) false]) fun ls s =>
      match ls with
      | [o, x] =>
        v.read s false [x] fun bs s =>
          let res := (List.range rows).map (fun r =>
            let row := (bs.drop (4 * n * r)).take (4 * n)
            let xs := (List.range n).map (fun i => ofLeBytes (((row.drop (4 * i)).take 4).map (·.1)))
            (topk (v.i.m 0) k xs, anyPoison row))
          let nf := res.any (fun r => r.1.any (fun e => nonfin32 e.2))
          let out : List PByte := res.flatMap (fun r => r.1.flatMap (fun e => (leBytes 8 (e.1 + e.2 * 2 ^ 32)).map (fun y => (y, r.2))))
          v.writeThen s false (overSegs o.segs out) (accessStatus (anyPoison bs) false) (v.setSp v.ctx (anyPoison bs || nf))
            (fun s => s.cmNonfinite v.r nf)
      | _ => .stop Sts.malformed s

def execTopk (f : Fetch) (s : State) : Outcome State Fault Refusal := .next (insnTopk false f s)

/-- R169: SCALE. -/
def insnScale (again : Bool) (f : Fetch) (s : State) : State :=
  s.runInsn 0x5D f (.scale f) again fun v s =>
    let n := bitsOf v.i.x1 0 32
    let wi := if v.i.m 1 then 2 else 4
    let wo := if v.i.m 2 then 2 else 4
    match v.finite (v.i.m 3) v.i.ra v.i.imm with
    | none => v.resume s fun _ => .stop Sts.malformed s
    | some c =>
      let locs : Sum Nat (List Loc) := match allLocs [v.loc v.i.op 0 (n * wo) true, v.loc v.i.x0 0 (n * wi) false] with
        | .inr [o, x] => if clash x.segs o.segs then .inl Sts.malformed else .inr [o, x]
        | x => x
      v.access s (decide (1 ≤ n) && v.aligned v.i.op 4) v.zf locs fun ls s =>
        match ls with
        | [o, x] =>
          v.read s false [x] fun bs s =>
            let res := (List.range n).map (fun i =>
              let e := (bs.drop (wi * i)).take wi
              let y := ofLeBytes (e.map (·.1))
              let p := (if wi = 2 then Fv.ofElem 6 y else Fv.of32 y).mul (Fv.of32 c)
              let (out, nf) := if wo = 2 then (leBytes 2 p.toBf, (Fv.ofElem 6 p.toBf).nonfinite) else (leBytes 4 p.to32, nonfin32 p.to32)
              (out.map (fun b => (b, anyPoison e)), nf))
            let nf := res.any (·.2)
            v.writeThen s false (overSegs o.segs (res.flatMap (·.1))) (accessStatus (anyPoison bs) (anyZero [x]))
              (v.setSp v.ctx (anyPoison bs || nf)) (fun s => s.cmNonfinite v.r nf)
        | _ => .stop Sts.malformed s

def execScale (f : Fetch) (s : State) : Outcome State Fault Refusal := .next (insnScale false f s)

end Sys2Proof.Machine
end

