-- ==== Sys2Proof/Machine/Flags.lean ====
section
/-!
DEFINITION. The scalar unit: what ALU, CMP and PLOG compute (R105, R106). The ALU of a rake sets no flags; predicates are
written by CMP and PLOG only.
-/
namespace Sys2Proof.Machine

/-- Number of 1 bits among the low `n` bits. -/
def popCount : Nat → Nat → Nat
  | 0, _ => 0
  | n + 1, x => x % 2 + popCount n (x / 2)

/-- Leading zeros of a 64-bit word. -/
def leadingZeros (x : Nat) : Nat := if x = 0 then 64 else 63 - Nat.log2 x

/-- Table 04-5: the result of ALU operation `op` on 64-bit words. -/
def aluOp (op a b : Nat) : Nat :=
  let sa := toSigned 64 a
  let sb := toSigned 64 b
  let r :=
    match op with
    | 0 => a + b
    | 1 => subMod a b 64
    | 2 => a &&& b
    | 3 => a ||| b
    | 4 => a ^^^ b
    | 5 => a * 2 ^ (b % 64)
    | 6 => a / 2 ^ (b % 64)
    | 7 => ofSigned 64 (sa / (2 ^ (b % 64) : Nat))
    | 8 => a * b
    | 9 => a * b / 2 ^ 64
    | 10 => min a b
    | 11 => max a b
    | 12 => if sa ≤ sb then a else b
    | 13 => if sa ≤ sb then b else a
    | 14 => if b = 0 then 2 ^ 64 - 1 else a / b
    | 15 => if b = 0 then a else a % b
    | 16 => b
    | 17 => popCount 64 a
    | _ => leadingZeros a
  r % 2 ^ 64

/-- R106: the condition `cond` of CMP. -/
def cmpCond (cond a b : Nat) : Bool :=
  match cond with
  | 0 => a == b
  | 1 => a != b
  | 2 => decide (a < b)
  | 3 => decide (b ≤ a)
  | 4 => decide (toSigned 64 a < toSigned 64 b)
  | _ => decide (toSigned 64 b ≤ toSigned 64 a)

/-- R106: the operation of PLOG. -/
def plogOp (op : Nat) (a b : Bool) : Bool :=
  match op with
  | 0 => a && b
  | 1 => a || b
  | 2 => a != b
  | _ => a && !b

end Sys2Proof.Machine
end

