-- ==== Sys2Proof/Machine/Scalar.lean ====
section
/-!
DEFINITION. The control and scalar instructions (R103 to R110), whose operands are registers and predicates only.
-/
namespace Sys2Proof.Machine

open Host

/-- The instruction completes OK in the context `c`. -/
def Eff.okc (c : Ctx) (s : State) : Eff := .ok Sts.ok c s

/-- R100: NOP. -/
def insnNop (again : Bool) (f : Fetch) (s : State) : State :=
  s.runInsn 0x00 f (.nop f) again fun v s => .okc v.ctx s

def execNop (f : Fetch) (s : State) : Outcome State Fault Refusal := .next (insnNop false f s)

/-- R103: BR. A target register with poison, or with bits above 15, ends it MALFORMED (R269, R583). -/
def insnBr (again : Bool) (f : Fetch) (s : State) : State :=
  s.runInsn 0x01 f (.br f) again fun v s =>
    if v.i.m 0 then
      if v.poi v.i.ra || decide (2 ^ 16 ≤ v.reg v.i.ra) then .stop Sts.malformed s else .jump (v.reg v.i.ra) v.ctx s
    else .jump (bitsOf v.i.imm 0 16) v.ctx s

def execBr (f : Fetch) (s : State) : Outcome State Fault Refusal := .next (insnBr false f s)

/-- R104: LOOP, `loop_step`. -/
def insnLoop (again : Bool) (f : Fetch) (s : State) : State :=
  s.runInsn 0x02 f (.loop f) again fun v s =>
    if v.i.ra = v.i.rb then .stop Sts.malformed s
    else
      let n := subMod (v.reg v.i.ra) v.i.imm 64
      let c := v.ctx.setReg v.i.ra n (v.poi v.i.ra)
      let c := c.setReg v.i.rb ((v.reg v.i.rb + v.i.imm) % 2 ^ 64) (v.poi v.i.rb)
      if n ≠ 0 then .jump (bitsOf v.i.op 0 16) c s else .okc c s

def execLoop (f : Fetch) (s : State) : Outcome State Fault Refusal := .next (insnLoop false f s)

/-- R72, R110: FENCE. A rake of the model performs its accesses one instruction after another, so nothing is outstanding. -/
def insnFence (again : Bool) (f : Fetch) (s : State) : State :=
  s.runInsn 0x04 f (.fence f) again fun v s => .okc v.ctx s

def execFence (f : Fetch) (s : State) : Outcome State Fault Refusal := .next (insnFence false f s)

/-- R105: ALU. The result carries poison if an operand that it depends on does (R268). -/
def insnAlu (again : Bool) (f : Fetch) (s : State) : State :=
  s.runInsn 0x07 f (.alu f) again fun v s =>
    let b := if v.i.m 5 then ofSigned 64 (toSigned 32 v.i.imm) else v.reg v.i.rb
    let op := bitsOf v.i.mod 0 5
    let usesA := op != 16
    let usesB := decide (op ≤ 16) && !v.i.m 5
    let p := usesA && v.poi v.i.ra || usesB && v.poi v.i.rb
    .okc (v.ctx.setReg (bitsOf v.i.op 0 5) (aluOp op (v.reg v.i.ra) b) p) s

def execAlu (f : Fetch) (s : State) : Outcome State Fault Refusal := .next (insnAlu false f s)

/-- R107: LI. -/
def insnLi (again : Bool) (f : Fetch) (s : State) : State :=
  s.runInsn 0x08 f (.li f) again fun v s => .okc (v.ctx.setReg v.i.ra v.i.op false) s

def execLi (f : Fetch) (s : State) : Outcome State Fault Refusal := .next (insnLi false f s)

/-- R106: CMP. -/
def insnCmp (again : Bool) (f : Fetch) (s : State) : State :=
  s.runInsn 0x09 f (.cmp f) again fun v s =>
    let b := if v.i.m 3 then ofSigned 64 (toSigned 32 v.i.imm) else v.reg v.i.rb
    .okc (v.ctx.setPred (bitsOf v.i.op 0 3) (cmpCond (bitsOf v.i.mod 0 3) (v.reg v.i.ra) b)) s

def execCmp (f : Fetch) (s : State) : Outcome State Fault Refusal := .next (insnCmp false f s)

/-- R106: PLOG. -/
def insnPlog (again : Bool) (f : Fetch) (s : State) : State :=
  s.runInsn 0x0A f (.plog f) again fun v s =>
    let r := plogOp (bitsOf v.i.mod 0 2) (v.ctx.pred (bitsOf v.i.op 4 3)) (v.ctx.pred (bitsOf v.i.op 8 3))
    .okc (v.ctx.setPred (bitsOf v.i.op 0 3) (r != v.i.m 2)) s

def execPlog (f : Fetch) (s : State) : Outcome State Fault Refusal := .next (insnPlog false f s)

/-- R87: running time of the entry on a rake, in ns. -/
def State.runTime (s : State) (r : Nat) (e : Entry) : Nat := e.ran + subMod s.stamp (s.rake r).since 64

/-- Table 04-6. -/
def Env.sysValue (v : Env) (s : State) : Nat :=
  match v.i.imm with
  | 0 => s.stamp
  | 1 => v.r
  | 2 => s.runTime v.r v.e
  | 3 => s.nodeId
  | 4 => s.rakeCycles v.r
  | 5 => v.e.pos % (s.queue v.qid).depth
  | _ => if v.e.limit = 0 then 2 ^ 64 - 1 else v.e.limit - s.runTime v.r v.e

/-- R109: RDSYS. -/
def insnRdsys (again : Bool) (f : Fetch) (s : State) : State :=
  s.runInsn 0x0D f (.rdsys f) again fun v s =>
    .okc (v.ctx.setReg v.i.ra (v.sysValue s) false) s

def execRdsys (f : Fetch) (s : State) : Outcome State Fault Refusal := .next (insnRdsys false f s)

/-! ### The run limit (R87, R88) -/

/-- RUN_LIMIT_EXPIRE: the entry on rake `r` reaches its run limit and is stopped ABORTED, which the record's notes and RUN_LIMIT_ABORT say
(R90). -/
def State.runLimitExpire (s : State) (r : Nat) : State :=
  let k := s.rake r
  match (s.queue k.qid).ent k.pos with
  | some e =>
    if k.busy && e.limit != 0 then
      ((s.setEnt k.qid k.pos (fun e => { e with notes := e.notes ||| 16 })).endBad k.qid k.pos Sts.aborted e.ctx.pc).raise
        Ev.RUN_LIMIT_ABORT 1 (r / 16)
    else s
  | none => s

def execRunLimitExpire (r : Fin 256) (s : State) : Outcome State Fault Refusal := .next (s.runLimitExpire r)

end Sys2Proof.Machine
end

