-- ==== Sys2Proof/Machine/Rerun.lean ====
section
/-!
DEFINITION. Accesses that waited go on (R85, R99, R321, R380): what waits is tried again after every command that can end its wait.
-/
namespace Sys2Proof.Machine

/-- The instruction that waits on a rake is taken up again. -/
def rerun (i : Instr) (s : State) : State :=
  match i with
  | .aadd f => insnAadd true f s
  | .aand f => insnAand true f s
  | .aor f => insnAor true f s
  | .axor f => insnAxor true f s
  | .aminu f => insnAminu true f s
  | .amaxu f => insnAmaxu true f s
  | .amins f => insnAmins true f s
  | .amaxs f => insnAmaxs true f s
  | .aswap f => insnAswap true f s
  | .acas f => insnAcas true f s
  | .afadd f => insnAfadd true f s
  | .signal f => insnSignal true f s
  | .wait f => insnWait true f s
  | .crcInit f => insnCrcInit true f s
  | .crcRun f => insnCrcRun true f s
  | .crcSave f => insnCrcSave true f s
  | .crcLoad f => insnCrcLoad true f s
  | .crcVerify f => insnCrcVerify true f s
  | .crcFinal f => insnCrcFinal true f s
  | .sts f => insnSts true f s
  | .attnQk f => insnAttnQk true f s
  | .attnSv f => insnAttnSv true f s
  | .attnPart f => insnAttnPart true f s
  | .mergePart f => insnMergePart true f s
  | .kvq f => insnKvq true f s
  | .kvdq f => insnKvdq true f s
  | .topk f => insnTopk true f s
  | .scale f => insnScale true f s
  | .copy f => insnCopy true f s
  | .fill f => insnFill true f s
  | .gather f => insnGather true f s
  | .scatter f => insnScatter true f s
  | .stride f => insnStride true f s
  | .tload f => insnTload true f s
  | .tstore f => insnTstore true f s
  | .lds f => insnLds true f s
  | .promote f => insnPromote true f s
  | .demote f => insnDemote true f s
  | .pin f => insnPin true f s
  | .unpin f => insnUnpin true f s
  | .panInstall f => insnPanInstall true f s
  | .panDestroy f => insnPanDestroy true f s
  | .portRekey f => insnPortRekey true f s
  | .portEnd f => insnPortEnd true f s
  | .carve f => insnCarve true f s
  | .map f => insnMap true f s
  | .unmap f => insnUnmap true f s
  | .commit f => insnCommit true f s
  | .claim f => insnClaim true f s
  | .durableSync f => insnDurableSync true f s
  | .submit f => insnSubmit true f s
  | .notify f => insnNotify true f s
  | .qstat f => insnQstat true f s
  | .nop f => insnNop true f s
  | .br f => insnBr true f s
  | .loop f => insnLoop true f s
  | .fence f => insnFence true f s
  | .alu f => insnAlu true f s
  | .li f => insnLi true f s
  | .cmp f => insnCmp true f s
  | .plog f => insnPlog true f s
  | .rdsys f => insnRdsys true f s
  | .scrub f => insnScrub true f s
  | _ => s

/-- The waiting instruction of rake `r` is taken up again. -/
def State.rerunRake (s : State) (r : Nat) : State :=
  match (s.rake r).instr with
  | some i => rerun i s
  | none => s

/-- What waits for memory: an instruction of a rake, or a partner's request. A WAIT looks again only at what it had asked for. -/
def State.goOn (s : State) (w : Wait) : State :=
  match w.who with
  | .msg p m => s.memServe p m
  | .rake r =>
    match (s.rake r).wait with
    | .mem => s.rerunRake r
    | .counter _ => if w.lines = [] ∧ w.got = [] then s else s.rerunRake r
    | _ => s

/-- What rake `r` waits for beside memory: the twin's answer (R428), an OPEN shadow (R406), zeroed granules (R456). -/
def State.rakeGoOn (s : State) (r : Nat) : State :=
  match (s.rake r).wait with
  | .twin q => if s.twin.wait.any (fun w => w.1 == q) then s
    else s.resumeInsn r (fun v s => .wait .drain (s.startDrain (some r) (v.panArg.getD 0) []))
  | .epoch => if s.shadowOpen then s.rerunRake r else s
  | .zero => if s.sec.scrubbed = 1 then s else s.rerunRake r
  | _ => s

/-- Everything that waits is tried once, in order. -/
def State.runWaits (s : State) : State :=
  let s := s.reqsFail.heldGo
  let s := s.waits.foldl (fun (s : State) (w : Wait) =>
    match s.wait w.id with
    | some w => s.goOn w
    | none => s) s
  let s := (s.rakes.map (·.1)).foldl State.rakeGoOn s
  s.lateGo

end Sys2Proof.Machine
end

