-- ==== Sys2Proof/Machine/Rows.lean ====
section
/-!
DEFINITION. The commands that bring something from outside a node's own programs: NX messages, control messages, flits and link events
(chapters 12 and 13), and the ends of what runs in the background. What waited for them goes on in the same command.
-/
namespace Sys2Proof.Machine
open Sys2Proof Host

/-! ### NX messages (R375 to R400) -/

/-- A message with its code. -/
def msgAs (m : Msg) (code : Nat) : Msg := { m with code := code }

/-- The port carries a session and the device is out of reset, so that something can arrive at it. -/
def State.portHears (s : State) (p : Nat) : Bool := s.linkUp p && s.uncoreLit && !s.heldInReset

/-- A message arrives at port `p`, `u` ns before it is looked at. -/
def State.nxRow (s : State) (p : Nat) (m : Msg) (u : Nat) (z : Bool) : State := if s.portHears p then (s.nxIn p m u z).runWaits else s

/-- LEND_OFFER. -/
def execLendOffer (p : Fin 8) (m : Msg) (u : Nat) (z : Bool) (s : State) : Outcome State Fault Refusal :=
  .next (s.nxRow p.val (msgAs m 0x0C) u z)

/-- LEND_RECALL. -/
def execLendRecall (p : Fin 8) (m : Msg) (u : Nat) (z : Bool) (s : State) : Outcome State Fault Refusal :=
  .next (s.nxRow p.val (msgAs m 0x0D) u z)

/-- FQ_RESUME. -/
def execFqResume (p : Fin 8) (m : Msg) (u : Nat) (z : Bool) (s : State) : Outcome State Fault Refusal :=
  .next (s.nxRow p.val (msgAs m 0x0B) u z)

/-- DB_SQ. -/
def execDbSq (p : Fin 8) (m : Msg) (u : Nat) (z : Bool) (s : State) : Outcome State Fault Refusal :=
  .next (s.nxRow p.val (msgAs m 0x08) u z)

/-- DB_CQ. -/
def execDbCq (p : Fin 8) (m : Msg) (u : Nat) (z : Bool) (s : State) : Outcome State Fault Refusal :=
  .next (s.nxRow p.val (msgAs m 0x09) u z)

/-- DB_FQ. -/
def execDbFq (p : Fin 8) (m : Msg) (u : Nat) (z : Bool) (s : State) : Outcome State Fault Refusal :=
  .next (s.nxRow p.val (msgAs m 0x0A) u z)

/-- RD_S. -/
def execRdS (p : Fin 8) (m : Msg) (u : Nat) (z : Bool) (s : State) : Outcome State Fault Refusal :=
  .next (s.nxRow p.val (msgAs m 0x40) u z)

/-- RD_X. -/
def execRdX (p : Fin 8) (m : Msg) (u : Nat) (z : Bool) (s : State) : Outcome State Fault Refusal :=
  .next (s.nxRow p.val (msgAs m 0x41) u z)

/-- UPG. -/
def execUpg (p : Fin 8) (m : Msg) (u : Nat) (z : Bool) (s : State) : Outcome State Fault Refusal :=
  .next (s.nxRow p.val (msgAs m 0x42) u z)

/-- RD_NC. -/
def execRdNc (p : Fin 8) (m : Msg) (u : Nat) (z : Bool) (s : State) : Outcome State Fault Refusal :=
  .next (s.nxRow p.val (msgAs m 0x43) u z)

/-- WR_NC. -/
def execWrNc (p : Fin 8) (m : Msg) (u : Nat) (z : Bool) (s : State) : Outcome State Fault Refusal :=
  .next (s.nxRow p.val (msgAs m 0x44) u z)

/-- WB. -/
def execWb (p : Fin 8) (m : Msg) (u : Nat) (z : Bool) (s : State) : Outcome State Fault Refusal :=
  .next (s.nxRow p.val (msgAs m 0x45) u z)

/-- EVICT. -/
def execEvict (p : Fin 8) (m : Msg) (u : Nat) (z : Bool) (s : State) : Outcome State Fault Refusal :=
  .next (s.nxRow p.val (msgAs m 0x46) u z)

/-- ATOM. -/
def execAtom (p : Fin 8) (m : Msg) (u : Nat) (z : Bool) (s : State) : Outcome State Fault Refusal :=
  .next (s.nxRow p.val (msgAs m 0x47) u z)

/-- SNP_ACK. -/
def execSnpAck (p : Fin 8) (m : Msg) (u : Nat) (z : Bool) (s : State) : Outcome State Fault Refusal :=
  .next (s.nxRow p.val (msgAs m 0x63) u z)

/-- SNP_ACK_D. -/
def execSnpAckD (p : Fin 8) (m : Msg) (u : Nat) (z : Bool) (s : State) : Outcome State Fault Refusal :=
  .next (s.nxRow p.val (msgAs m 0x64) u z)

/-- GO_ACK. -/
def execGoAck (p : Fin 8) (m : Msg) (u : Nat) (z : Bool) (s : State) : Outcome State Fault Refusal :=
  .next (s.nxRow p.val (msgAs m 0x62) u z)

/-- DATA. -/
def execData (p : Fin 8) (m : Msg) (u : Nat) (z : Bool) (s : State) : Outcome State Fault Refusal :=
  .next (s.nxRow p.val (msgAs m 0x60) u z)

/-- GO. -/
def execGo (p : Fin 8) (m : Msg) (u : Nat) (z : Bool) (s : State) : Outcome State Fault Refusal :=
  .next (s.nxRow p.val (msgAs m 0x61) u z)

/-- NAK. -/
def execNak (p : Fin 8) (m : Msg) (u : Nat) (z : Bool) (s : State) : Outcome State Fault Refusal :=
  .next (s.nxRow p.val (msgAs m 0x65) u z)

/-- WB_ACK. -/
def execWbAck (p : Fin 8) (m : Msg) (u : Nat) (z : Bool) (s : State) : Outcome State Fault Refusal :=
  .next (s.nxRow p.val (msgAs m 0x66) u z)

/-- COH_CMP. -/
def execCohCmp (p : Fin 8) (m : Msg) (u : Nat) (z : Bool) (s : State) : Outcome State Fault Refusal :=
  .next (s.nxRow p.val (msgAs m 0x67) u z)

/-- ATOM_RSP. -/
def execAtomRsp (p : Fin 8) (m : Msg) (u : Nat) (z : Bool) (s : State) : Outcome State Fault Refusal :=
  .next (s.nxRow p.val (msgAs m 0x68) u z)

/-- MRD. -/
def execMrd (p : Fin 8) (m : Msg) (u : Nat) (z : Bool) (s : State) : Outcome State Fault Refusal :=
  .next (s.nxRow p.val (msgAs m 0x01) u z)

/-- MWR. -/
def execMwr (p : Fin 8) (m : Msg) (u : Nat) (z : Bool) (s : State) : Outcome State Fault Refusal :=
  .next (s.nxRow p.val (msgAs m 0x02) u z)

/-- MIRROR_WR. -/
def execMirrorWr (p : Fin 8) (m : Msg) (u : Nat) (z : Bool) (s : State) : Outcome State Fault Refusal :=
  .next (s.nxRow p.val (msgAs m 0x10) u z)

/-- RSP. -/
def execRsp (p : Fin 8) (m : Msg) (u : Nat) (z : Bool) (s : State) : Outcome State Fault Refusal :=
  .next (s.nxRow p.val (msgAs m 0x30) u z)

/-- RSP_DATA. -/
def execRspData (p : Fin 8) (m : Msg) (u : Nat) (z : Bool) (s : State) : Outcome State Fault Refusal :=
  .next (s.nxRow p.val (msgAs m 0x31) u z)

/-- RSP_DUR. -/
def execRspDur (p : Fin 8) (m : Msg) (u : Nat) (z : Bool) (s : State) : Outcome State Fault Refusal :=
  .next (s.nxRow p.val (msgAs m 0x32) u z)

/-- MESSAGE_FORWARD. -/
def execMessageForward (p : Fin 8) (m : Msg) (u : Nat) (z : Bool) (s : State) : Outcome State Fault Refusal := .next (s.nxRow p.val m u z)

/-- PARTNER_MESSAGE_FORWARD. -/
def execPartnerMessageForward (p : Fin 8) (m : Msg) (u : Nat) (z : Bool) (s : State) : Outcome State Fault Refusal := .next (s.nxRow p.val m u z)

/-! ### Control messages (R371, Tables 12-11, 13-5, 14-8 and 15-8) -/

/-- R371, R399: what a control message does, by its code. A twin link carries only those of links, security and twins. -/
def State.ctrlAct (s : State) (p : Nat) (b : List Nat) : State :=
  let code := ctrlField b 0 1
  if code = 1 then s.sluiceCmd p b
  else if code = 2 then s.lpiReq p
  else if code = 3 then s.lpiAck p b
  else if code = 4 then s.sleepReq p
  else if code = 5 then s.sleepAck p b
  else if code = 6 then s
  else if code = 7 then s.echo p b
  else if code = 8 then s.echoRsp p b
  else if code = 0x50 then s.spdmFrag p b
  else if code = 0x51 then s.encStartMsg p b
  else if code = 0x52 then s.rekeyMsg p b
  else if 0x60 ≤ code ∧ code ≤ 0x66 then (s.twinMsg p b).rmLevels
  else if s.twinPort p then s.ctrlIgnored p
  else if code = 0x40 then s.drainHoldMsg p b
  else if code = 0x42 then s.drainReleaseMsg p b
  else if code = 0x43 then s.nodeStateMsg p b
  else s.ctrlIgnored p

/-- A control message of code `code` is delivered at port `p`. -/
def State.ctrlRow (s : State) (p code : Nat) (b : List Nat) : State := if s.portHears p then (s.ctrlAct p (code :: b.drop 1)).runWaits else s

/-- SLUICE_CMD. -/
def execSluiceCmd (p : Fin 8) (b : List Nat) (s : State) : Outcome State Fault Refusal := .next (s.ctrlRow p.val 0x01 b)

/-- LPI_REQ. -/
def execLpiReq (p : Fin 8) (b : List Nat) (s : State) : Outcome State Fault Refusal := .next (s.ctrlRow p.val 0x02 b)

/-- LPI_ACK. -/
def execLpiAck (p : Fin 8) (b : List Nat) (s : State) : Outcome State Fault Refusal := .next (s.ctrlRow p.val 0x03 b)

/-- SLEEP_REQ. -/
def execSleepReq (p : Fin 8) (b : List Nat) (s : State) : Outcome State Fault Refusal := .next (s.ctrlRow p.val 0x04 b)

/-- SLEEP_ACK. -/
def execSleepAck (p : Fin 8) (b : List Nat) (s : State) : Outcome State Fault Refusal := .next (s.ctrlRow p.val 0x05 b)

/-- LINK_NOTICE. -/
def execLinkNotice (p : Fin 8) (b : List Nat) (s : State) : Outcome State Fault Refusal := .next (s.ctrlRow p.val 0x06 b)

/-- ECHO. -/
def execEcho (p : Fin 8) (b : List Nat) (s : State) : Outcome State Fault Refusal := .next (s.ctrlRow p.val 0x07 b)

/-- ECHO_RSP. -/
def execEchoRsp (p : Fin 8) (b : List Nat) (s : State) : Outcome State Fault Refusal := .next (s.ctrlRow p.val 0x08 b)

/-- DRAIN_HOLD. -/
def execDrainHold (p : Fin 8) (b : List Nat) (s : State) : Outcome State Fault Refusal := .next (s.ctrlRow p.val 0x40 b)

/-- DRAIN_RELEASE. -/
def execDrainRelease (p : Fin 8) (b : List Nat) (s : State) : Outcome State Fault Refusal := .next (s.ctrlRow p.val 0x42 b)

/-- NODE_STATE. -/
def execNodeState (p : Fin 8) (b : List Nat) (s : State) : Outcome State Fault Refusal := .next (s.ctrlRow p.val 0x43 b)

/-- SPDM_FRAG. -/
def execSpdmFrag (p : Fin 8) (b : List Nat) (s : State) : Outcome State Fault Refusal := .next (s.ctrlRow p.val 0x50 b)

/-- ENC_START. -/
def execEncStart (p : Fin 8) (b : List Nat) (s : State) : Outcome State Fault Refusal := .next (s.ctrlRow p.val 0x51 b)

/-- REKEY. -/
def execRekey (p : Fin 8) (b : List Nat) (s : State) : Outcome State Fault Refusal := .next (s.ctrlRow p.val 0x52 b)

/-- TWIN_HELLO. -/
def execTwinHello (p : Fin 8) (b : List Nat) (s : State) : Outcome State Fault Refusal := .next (s.ctrlRow p.val 0x60 b)

/-- TWIN_HB. -/
def execTwinHb (p : Fin 8) (b : List Nat) (s : State) : Outcome State Fault Refusal := .next (s.ctrlRow p.val 0x61 b)

/-- TWIN_ALLOC. -/
def execTwinAlloc (p : Fin 8) (b : List Nat) (s : State) : Outcome State Fault Refusal := .next (s.ctrlRow p.val 0x62 b)

/-- TWIN_ACK. -/
def execTwinAck (p : Fin 8) (b : List Nat) (s : State) : Outcome State Fault Refusal := .next (s.ctrlRow p.val 0x63 b)

/-- TWIN_PAN. -/
def execTwinPan (p : Fin 8) (b : List Nat) (s : State) : Outcome State Fault Refusal := .next (s.ctrlRow p.val 0x64 b)

/-- TWIN_RESYNC. -/
def execTwinResync (p : Fin 8) (b : List Nat) (s : State) : Outcome State Fault Refusal := .next (s.ctrlRow p.val 0x65 b)

/-- TWIN_YIELD. -/
def execTwinYield (p : Fin 8) (b : List Nat) (s : State) : Outcome State Fault Refusal := .next (s.ctrlRow p.val 0x66 b)

/-! ### Flits and links (chapter 12) -/

/-- The control messages that a flit made deliverable are delivered in order. -/
def State.delivered (_ : State) (p : Nat) (r : List (List Nat) × State) : State := r.1.foldl (fun s b => s.ctrlAct p b) r.2

/-- REPLAY_REQ: a NULL flit that also asks for a replay (Table 12-8). -/
def State.replayFlit (s : State) (p : Nat) (b : List Nat) (fec : Bool) (ser : List Nat) : State :=
  let (ok, s) := s.flitNull p 4 b fec ser
  if ok then s.replayReq p else s

/-- SEARCH_ATTEMPT. -/
def execSearchAttempt (p : Fin 8) (s : State) : Outcome State Fault Refusal := .next (s.searchAttempt p.val).runWaits

/-- PARTNER_SIGNAL_DETECT. -/
def execPartnerSignalDetect (p : Fin 8) (s : State) : Outcome State Fault Refusal := .next (s.signalDetect p.val).runWaits

/-- TRAINING_TIMEOUT. -/
def execTrainingTimeout (p : Fin 8) (s : State) : Outcome State Fault Refusal := .next (s.trainTimeout p.val).runWaits

/-- INIT_SEND. -/
def execInitSend (p : Fin 8) (s : State) : Outcome State Fault Refusal := .next (s.initSend p.val).runWaits

/-- INIT_FLIT. -/
def execInitFlit (p : Fin 8) (b : List Nat) (fec : Bool) (ser : List Nat) (tx rx : BitVec 8) (s : State) : Outcome State Fault Refusal := .next (s.initFlit p.val b fec ser tx.toNat rx.toNat).runWaits

/-- NULL_FLIT. -/
def execNullFlit (p : Fin 8) (b : List Nat) (fec : Bool) (ser : List Nat) (s : State) : Outcome State Fault Refusal := .next ((s.flitNull p.val 0 b fec ser).2).runWaits

/-- DATA_FLIT. -/
def execDataFlit (p : Fin 8) (b : List Nat) (fec : Bool) (ser : List Nat) (s : State) : Outcome State Fault Refusal := .next (s.delivered p.val (s.flitSeq p.val 1 b fec ser)).runWaits

/-- CTRL_FLIT. -/
def execCtrlFlit (p : Fin 8) (b : List Nat) (fec : Bool) (ser : List Nat) (s : State) : Outcome State Fault Refusal := .next (s.delivered p.val (s.flitSeq p.val 2 b fec ser)).runWaits

/-- TAG_FLIT. -/
def execTagFlit (p : Fin 8) (b : List Nat) (fec : Bool) (ser : List Nat) (s : State) : Outcome State Fault Refusal := .next (s.delivered p.val (s.flitTag p.val b fec ser)).runWaits

/-- REPLAY_REQ. -/
def execReplayReq (p : Fin 8) (b : List Nat) (fec : Bool) (ser : List Nat) (s : State) : Outcome State Fault Refusal := .next (s.replayFlit p.val b fec ser).runWaits

/-- REPLAY_TIMER_EXPIRE. -/
def execReplayTimerExpire (p : Fin 8) (s : State) : Outcome State Fault Refusal := .next (s.replayTimer p.val).runWaits

/-- FLIT_SLOT. -/
def execFlitSlot (p : Fin 8) (s : State) : Outcome State Fault Refusal := .next (s.flitSlot p.val).runWaits

/-- TAG_TIMER_EXPIRE. -/
def execTagTimerExpire (p : Fin 8) (s : State) : Outcome State Fault Refusal := .next (s.tagTimer p.val).runWaits

/-- TX_REKEY_DUE. -/
def execTxRekeyDue (p : Fin 8) (s : State) : Outcome State Fault Refusal := .next (s.rekeyDue p.val).runWaits

/-- LPI_IDLE_EXPIRE. -/
def execLpiIdleExpire (p : Fin 8) (s : State) : Outcome State Fault Refusal := .next (s.lpiIdle p.val).runWaits

/-- SLEEP_IDLE_EXPIRE. -/
def execSleepIdleExpire (p : Fin 8) (s : State) : Outcome State Fault Refusal := .next (s.sleepIdle p.val).runWaits

/-- LPI_REQ_TIMEOUT. -/
def execLpiReqTimeout (p : Fin 8) (s : State) : Outcome State Fault Refusal := .next (s.lpiTimeout p.val).runWaits

/-- WAKE_PATTERN. -/
def execWakePattern (p : Fin 8) (s : State) : Outcome State Fault Refusal := .next (s.wakePattern p.val).runWaits

/-- FAST_RETRAIN_FAIL. -/
def execFastRetrainFail (p : Fin 8) (s : State) : Outcome State Fault Refusal := .next (s.fastFail p.val).runWaits

/-- SIGNAL_LOSS. -/
def execSignalLoss (p : Fin 8) (s : State) : Outcome State Fault Refusal := .next (s.retrainCmd p.val).runWaits

/-- LASER_LOW. -/
def execLaserLow (p : Fin 8) (half : Bool) (s : State) : Outcome State Fault Refusal := .next (s.laserLow p.val half).runWaits

/-- RETRAIN_DONE. -/
def execRetrainDone (p : Fin 8) (tx rx : BitVec 8) (s : State) : Outcome State Fault Refusal := .next (s.retrainDone p.val tx.toNat rx.toNat).runWaits

/-- RETRAIN_EXPIRE. -/
def execRetrainExpire (p : Fin 8) (s : State) : Outcome State Fault Refusal := .next (s.retrainExpire p.val).runWaits

/-- FAILOVER_DONE. -/
def execFailoverDone (p : Fin 8) (lost : List Nat) (s : State) : Outcome State Fault Refusal := .next (s.failoverDone p.val lost).runWaits

/-- ECHO_TIMER. -/
def execEchoTimer (p : Fin 8) (s : State) : Outcome State Fault Refusal := .next (s.echoTimer p.val).runWaits

/-! ### Requests, lines, pages, granules and epochs -/

/-- EPOCH_DRAIN_DONE (R407): the older epoch's last work has left the count. -/
def State.epochDrained (s : State) : State :=
  if s.rd Csr.EPOCHSTAT_shadow = 1 ∧ s.rd Csr.EPOCHINFL_previous = 0 then s.wr Csr.EPOCHSTAT_shadow 2 else s

/-- SHADOW_COPY_DONE (R405): the shadow equals the active set and is OPEN; COMMITs and images that waited for it go on. -/
def State.shadowCopied (s : State) : State :=
  if s.rd Csr.EPOCHSTAT_shadow = 2 then ((s.copyShadow.wr Csr.EPOCHSTAT_shadow 0).reissueGo).twinGo else s

/-- EPOCH_DRAIN_SLOW (R409). -/
def State.epochSlow (s : State) : State :=
  if s.rd Csr.EPOCHSTAT_shadow = 1 ∧ s.rd Csr.EPOCHINFL_previous ≠ 0 ∧ !s.rm.slow then
    { s with rm := { s.rm with slow := true } }.raise Ev.EPOCH_DRAIN_SLOW 6 s.holderNum
  else s

/-- EPOCH_DRAIN_SLOW. -/
def execEpochDrainSlow (s : State) : Outcome State Fault Refusal := .next s.epochSlow

/-- NX_REQ_TIMEOUT. -/
def execNxReqTimeout (tag : Nat) (ep : Nat) (s : State) : Outcome State Fault Refusal := .next (s.reqTimeout tag ep).runWaits

/-- NAK_BACKOFF_EXPIRE. -/
def execNakBackoffExpire (tag : Nat) (ep : Nat) (s : State) : Outcome State Fault Refusal := .next (s.nakRetry tag ep).runWaits

/-- CC_ENTRY_EXPIRE. -/
def execCcEntryExpire (key : Nat) (s : State) : Outcome State Fault Refusal := .next (s.ccExpire key).runWaits

/-- CC_ENTRY_WAIT_DONE. -/
def execCcEntryWaitDone (s : State) : Outcome State Fault Refusal := .next (s.ccWaitDone).runWaits

/-- SNOOP_TIMEOUT. -/
def execSnoopTimeout (line : Nat) (s : State) : Outcome State Fault Refusal := .next (s.snoopTimeout line).runWaits

/-- COH_SWEEP_DONE. -/
def execCohSweepDone (i : Fin 1024) (s : State) : Outcome State Fault Refusal := .next (s.sweepDone i.val).runWaits

/-- GRANULE_ZEROING_DONE. -/
def execGranuleZeroingDone (g : Nat) (s : State) : Outcome State Fault Refusal := .next (s.granZeroed g).runWaits

/-- PAN_DRAIN_COMPLETE. -/
def execPanDrainComplete (n : Fin 64) (s : State) : Outcome State Fault Refusal := .next (s.panDrained n.val).runWaits

/-- LENT_PATH_LOST. -/
def execLentPathLost (k : Fin 64) (s : State) : Outcome State Fault Refusal := .next (s.pathLost k.val).runWaits

/-- PAGE_COPY_DONE. -/
def execPageCopyDone (va : Nat) (n : Fin 64) (s : State) : Outcome State Fault Refusal := .next (s.pageCopyDone n.val va).recallRest.runWaits

/-- HEAP_TRANSFER_DONE. -/
def execHeapTransferDone (n : Fin 64) (va : Nat) (rs : List BlockReply) (s : State) : Outcome State Fault Refusal :=
  .next (s.heapTransferDone n.val va rs).runWaits

/-- SHOOTDOWN_DRAIN_DONE. -/
def execShootdownDrainDone (i : Nat) (s : State) : Outcome State Fault Refusal := .next (s.drainDone i).runWaits

/-- ZERO_DONE. -/
def execZeroDone (s : State) : Outcome State Fault Refusal := .next (s.zeroEnd).runWaits

/-- EPOCH_DRAIN_DONE. -/
def execEpochDrainDone (s : State) : Outcome State Fault Refusal := .next (s.epochDrained).runWaits

/-- SHADOW_COPY_DONE. -/
def execShadowCopyDone (s : State) : Outcome State Fault Refusal := .next (s.shadowCopied).runWaits

/-- TWIN_TIMEOUT. -/
def execTwinTimeout (s : State) : Outcome State Fault Refusal := .next (s.twinTimeout.rmLevels).runWaits

/-! ### Admission (R59) -/

/-- Lines of this node that resolving entry `e` of queue `qid` reads: its PAGELIST lists (R57). -/
def State.listLines (s : State) (qid : Nat) (e : Entry) : List Nat :=
  (e.wins.zipIdx).flatMap (fun (w, i) =>
    if w.kind ≠ 2 then []
    else
      let n := 8 * (w.len / 2 ^ w.k)
      let rs := if isRm qid then [(⟨0, n, s.nodeId * 2 ^ 52 + w.base % 2 ^ 52, w.base, false⟩ : Run)]
        else (s.resolveRange (qid * 2 ^ 32 + e.pos) (s.queue qid).pan ⟨1, i, true, false, false⟩ (pagesIn w.base (w.base + n)) w.base (w.base + n) RAcc.start).runs
      rs.flatMap (fun r => if r.addr / 2 ^ 52 = s.nodeId ∧ tierOf (r.addr % 2 ^ 52) ≠ 3 then linesOf (r.addr % 2 ^ 52) r.len else []))

/-- Lines of this node that admission of the next entry of queue `qid` reads: the entry (R56) and its lists. -/
def State.admitLines (s : State) (qid : Nat) : List Nat :=
  let q := s.queue qid
  match q.ent q.admPos with
  | some e => s.listLines qid e
  | none =>
    let a := q.body + 256 * (q.admPos % q.depth)
    let (img, _) := s.readMem Acc.sys a 256
    linesOf a 256 ++ (match parseEntry (valueOf img).1 q.admPos 0 qid with
      | .inr e => s.listLines qid e
      | .inl _ => [])

/-- A resumed entry of queue `qid` that has not resolved its windows yet (R86); one that awaits a page move is resumed by it (R284). -/
def State.unresolved (s : State) (qid : Nat) : Option Entry :=
  (s.queue qid).ents.find? (fun e => e.st == .parked && e.gen.isNone && !e.done && !s.shoots.any (fun x => x.resume.contains (qid, e.pos)))

/-- ENTRY_ADMIT: a resumed entry of the queue resolves its windows again (R86), or the next entry is admitted (R59). Lines
to be read that a partner owns are recalled first (R321). -/
def State.entryAdmit (s : State) (qid : Nat) (far : List (Nat × Bool)) : State :=
  let q := s.queue qid
  let ds := (match s.unresolved qid with
    | some e => s.listLines qid e
    | none => if q.st ≠ QState.enabled ∨ q.stale ∨ q.admPos = q.tail then [] else s.admitLines qid).filter (s.conflicts false)
  if ds ≠ [] then ds.foldl (fun (s : State) d => s.recall d false) s
  else match s.unresolved qid with
    | some e => s.reresolve qid e.pos far
    | none => s.admitEntry qid far

/-- ENTRY_ADMIT. -/
def execEntryAdmit (q : Fin 524288) (far : List (Nat × Bool)) (s : State) : Outcome State Fault Refusal := .next (s.entryAdmit q.val far)

end Sys2Proof.Machine
end

