-- ==== Sys2Proof/Machine/Scrub.lean ====
section
/-!
DEFINITION. The patrol of SRAM and what an uncorrectable SRAM row entails by the structure that it holds (R255, R257, R265), and the commands
after which accesses that waited in a DRAM controller go on (R250, R274).

Where the SRAM data space holds each structure is Config.sramRow; that the patrol alone finds what a structure other than the brine buffers
has developed, and that such a row is then as good as new, is the model's: log entry 81.
-/
namespace Sys2Proof.Machine
open Sys2Proof Host

/-- Which of the `count` structures of kind `k`, of `n` rows each, holds SRAM row `row`, and the row within it. -/
def sramIn (k count n row : Nat) : Option (Nat × Nat) :=
  ((List.range count).find? (fun i => decide (Config.sramRow k i ≤ row) && decide (row < Config.sramRow k i + n))).map
    (fun i => (i, row - Config.sramRow k i))

/-- The brine line that SRAM row `row` belongs to, and its row in the line. -/
def State.sramBrine (s : State) (row : Nat) : Option (BrineLine × Nat) :=
  s.dram.brine.findSome? (fun b =>
    let at_ := brineRow (s.ddr5Map (b.line * 128)).1 b
    if at_ ≤ row ∧ row < at_ + 4 then some (b, row - at_) else none)

/-- What SRAM row `row` holds: the bytes of a brine line, else bytes that stand for any data, since the code is linear (R254). -/
def State.sramBytes (s : State) (row : Nat) : List PByte :=
  match s.sramBrine row with
  | some (b, i) => s.brineBytes b i
  | none => List.replicate 32 (0, false)

/-- Tile memory: the sector of the tile register is poisoned (R268). -/
def State.tileLost (s : State) (i j : Nat) : State :=
  let r := i / 64
  let hit (e : Entry) : Bool := e.onRake == some r
  { s with queues := s.queues.map (fun (kv : Nat × Queue) => (kv.1, if kv.2.ents.any hit then
      { kv.2 with ents := kv.2.ents.map (fun e =>
          if hit e then { e with ctx := { e.ctx with tp := SMap.put false (32 * (i % 64) + j / 4) true e.ctx.tp } } else e) }
      else kv.2)) }

/-- An instruction cache: the line is invalidated. -/
def State.icacheLost (s : State) (i : Nat) : State :=
  let k := 128 * (i / 512) + i % 512 / 4
  { s with icache := SMap.upd [] k (fun l => l.eraseIdx (i % 4)) s.icache }

/-- A queue context: the queue stops. -/
def State.queueLost (s : State) (q : Nat) : State :=
  if (s.queue q).st = .free then s else (s.stopQueue q).raise Ev.SRAM_STRUCT_LOST 1 (s.queue q).home

/-- Firmware memory: the core takes a machine check (Table 18-5). -/
def State.firmwareLost (s : State) (row : Nat) : State :=
  if (sramIn 8 1 32768 row).isSome then s.watchdog true
  else if Config.sramRow 8 1 ≤ row ∧ row < Config.sramRow 8 1 + 32768 then s.watchdog false
  else match [false, true].find? (fun b => decide (Config.sramRow 8 (2 + rmNum b) ≤ row) && decide (row < Config.sramRow 8 (2 + rmNum b) + 196608)) with
    | some b => if s.rmActive = some b then s.machineCheck else (s.coreFails (.rm b)).rmFails b
    | none => match (List.finRange 16).find? (fun k => decide (Config.sramRow 8 (4 + k.val) ≤ row) && decide (row < Config.sramRow 8 (4 + k.val) + 2048)) with
      | some k => s.stallFail k
      | none => s

/-- Table 09-2: what an uncorrectable SRAM row entails. Bytes of a brine buffer are delivered with poison when they are read, and a
directory set is read again. -/
def State.sramLost (s : State) (row : Nat) : State :=
  match sramIn 1 16384 128 row, sramIn 2 131072 4 row, sramIn 3 229376 1 row, sramIn 4 16384 1 row with
  | some (i, j), _, _, _ => s.tileLost i j
  | _, some (i, _), _, _ => s.icacheLost i
  | _, _, some (i, _), _ => { s with runCache := s.runCache.eraseIdx i }
  | _, _, _, some (i, _) => { s with walkCache := s.walkCache.eraseIdx i }
  | _, _, _, _ =>
    match sramIn 6 524288 1 row, sramIn 7 8 98304 row with
    | some (q, _), _ => s.queueLost q
    | _, some (p, _) => s.retrainCmd p
    | _, _ => s.firmwareLost row

/-- SRAM bytes of row `row` develop flipped bits: a byte of the row and a stored bit each. -/
def State.sramDevelop (s : State) (row : Nat) (found : List Upset) : State :=
  let put (m : SMap Nat) (f : Nat × Nat) : SMap Nat := SMap.upd 0 (row * 32 + f.1) (· ^^^ 2 ^ f.2) m
  { s with dram := { s.dram with upsets := (found.flatMap (·.flips)).foldl put s.dram.upsets } }

/-- PATROL_READ of SRAM (R265): the next row is read and decoded; `found` gives what it has developed. -/
def State.patrolSram (s : State) (found : List Upset) : State :=
  if !s.on Csr.ERRCTL_sram_patrol_en then s
  else
    let row := s.dram.sramPos
    let s := s.sramDevelop row found
    let bs := s.sramBytes row
    let brine := (s.sramBrine row).isSome
    let (m, s) := s.sramRead row bs 2
    let s := if brine then s
      else { s with dram := { s.dram with upsets := s.dram.upsets.filter (fun u => u.1 / 32 != row) } }
    let s := if m = 0 ∨ brine then s else s.sramLost row
    let s := { s with dram := { s.dram with sramPos := (row + 1) % 2 ^ 23 } }
    if row + 1 < 2 ^ 23 then s else s.patrolPass 17

/-- PATROL_READ (R265). -/
def execPatrolRead (st : Fin 18) (found : List Upset) (s : State) : Outcome State Fault Refusal :=
  .next (if st.val = 17 then s.patrolSram found else s.patrolDram st.val found)

/-- RETIRE_ROW_DONE. -/
def execRetireRowDone (ok : Bool) (s : State) : Outcome State Fault Refusal := .next (s.rowDone ok).runWaits

/-- REGISTER_WRITE; one that moves the hold of STKTRNSEL lets go what it held. -/
def execRegisterWrite (w : Writer) (off : Nat) (v : Word) (s : State) : Outcome State Fault Refusal :=
  .next (if off = 0x2A00100 then (s.csrWrite w off v.toNat).2.runWaits else (s.csrWrite w off v.toNat).2)

end Sys2Proof.Machine
end

