-- ==== Sys2Proof/Machine/Dispatch.lean ====
section
/-!
DEFINITION. One arm per command: the meaning of each row of spec/opcode_table.json.
-/
namespace Sys2Proof.Machine

open Host

def exec (i : Instr) (s : State) : Host.Outcome State Fault Refusal :=
  match i with
  | .registerWrite w off v => Sys2Proof.Machine.execRegisterWrite w off v s
  | .evposConsumerWrite w v => Sys2Proof.Machine.execEvposConsumerWrite w v s
  | .errlogposConsumerWrite w v => Sys2Proof.Machine.execErrlogposConsumerWrite w v s
  | .fqposConsumerWrite w n v => Sys2Proof.Machine.execFqposConsumerWrite w n v s
  | .aonlogposConsumerWrite w v => Sys2Proof.Machine.execAonlogposConsumerWrite w v s
  | .dropRecordWrite aon c => Sys2Proof.Machine.execDropRecordWrite aon c s
  | .granuleZeroingDone g => Sys2Proof.Machine.execGranuleZeroingDone g s
  | .panDrainComplete n => Sys2Proof.Machine.execPanDrainComplete n s
  | .stkSegFlipDone k => Sys2Proof.Machine.execStkSegFlipDone k s
  | .lendOffer p m u z => Sys2Proof.Machine.execLendOffer p m u z s
  | .lendOfferTimeout k => Sys2Proof.Machine.execLendOfferTimeout k s
  | .lendRecall p m u z => Sys2Proof.Machine.execLendRecall p m u z s
  | .lentRecallDone k => Sys2Proof.Machine.execLentRecallDone k s
  | .lentPathLost k => Sys2Proof.Machine.execLentPathLost k s
  | .lentLostCleared k => Sys2Proof.Machine.execLentLostCleared k s
  | .entryAdmit q far => Sys2Proof.Machine.execEntryAdmit q far s
  | .entryDispatch r => Sys2Proof.Machine.execEntryDispatch r s
  | .durableRecordWrite q pos => Sys2Proof.Machine.execDurableRecordWrite q pos s
  | .runLimitExpire r => Sys2Proof.Machine.execRunLimitExpire r s
  | .nop f => Sys2Proof.Machine.execNop f s
  | .br f => Sys2Proof.Machine.execBr f s
  | .loop f => Sys2Proof.Machine.execLoop f s
  | .fence f => Sys2Proof.Machine.execFence f s
  | .signal f => Sys2Proof.Machine.execSignal f s
  | .wait f => Sys2Proof.Machine.execWait f s
  | .waitSatisfied r => Sys2Proof.Machine.execWaitSatisfied r s
  | .waitTimeout r => Sys2Proof.Machine.execWaitTimeout r s
  | .alu f => Sys2Proof.Machine.execAlu f s
  | .li f => Sys2Proof.Machine.execLi f s
  | .cmp f => Sys2Proof.Machine.execCmp f s
  | .plog f => Sys2Proof.Machine.execPlog f s
  | .lds f => Sys2Proof.Machine.execLds f s
  | .sts f => Sys2Proof.Machine.execSts f s
  | .rdsys f => Sys2Proof.Machine.execRdsys f s
  | .copy f => Sys2Proof.Machine.execCopy f s
  | .fill f => Sys2Proof.Machine.execFill f s
  | .gather f => Sys2Proof.Machine.execGather f s
  | .scatter f => Sys2Proof.Machine.execScatter f s
  | .stride f => Sys2Proof.Machine.execStride f s
  | .tload f => Sys2Proof.Machine.execTload f s
  | .tstore f => Sys2Proof.Machine.execTstore f s
  | .aadd f => Sys2Proof.Machine.execAadd f s
  | .aand f => Sys2Proof.Machine.execAand f s
  | .aor f => Sys2Proof.Machine.execAor f s
  | .axor f => Sys2Proof.Machine.execAxor f s
  | .aminu f => Sys2Proof.Machine.execAminu f s
  | .amaxu f => Sys2Proof.Machine.execAmaxu f s
  | .amins f => Sys2Proof.Machine.execAmins f s
  | .amaxs f => Sys2Proof.Machine.execAmaxs f s
  | .aswap f => Sys2Proof.Machine.execAswap f s
  | .acas f => Sys2Proof.Machine.execAcas f s
  | .afadd f => Sys2Proof.Machine.execAfadd f s
  | .crcInit f => Sys2Proof.Machine.execCrcInit f s
  | .crcRun f => Sys2Proof.Machine.execCrcRun f s
  | .crcSave f => Sys2Proof.Machine.execCrcSave f s
  | .crcLoad f => Sys2Proof.Machine.execCrcLoad f s
  | .crcVerify f => Sys2Proof.Machine.execCrcVerify f s
  | .crcFinal f => Sys2Proof.Machine.execCrcFinal f s
  | .promote f => Sys2Proof.Machine.execPromote f s
  | .demote f => Sys2Proof.Machine.execDemote f s
  | .pin f => Sys2Proof.Machine.execPin f s
  | .unpin f => Sys2Proof.Machine.execUnpin f s
  | .durableSync f => Sys2Proof.Machine.execDurableSync f s
  | .durableSyncDone r => Sys2Proof.Machine.execDurableSyncDone r s
  | .durableSyncTimeout r => Sys2Proof.Machine.execDurableSyncTimeout r s
  | .submit f => Sys2Proof.Machine.execSubmit f s
  | .submitSlotFreed r => Sys2Proof.Machine.execSubmitSlotFreed r s
  | .notify f => Sys2Proof.Machine.execNotify f s
  | .qstat f => Sys2Proof.Machine.execQstat f s
  | .carve f => Sys2Proof.Machine.execCarve f s
  | .map f => Sys2Proof.Machine.execMap f s
  | .unmap f => Sys2Proof.Machine.execUnmap f s
  | .shootdownDrainDone n => Sys2Proof.Machine.execShootdownDrainDone n s
  | .panInstall f => Sys2Proof.Machine.execPanInstall f s
  | .panDestroy f => Sys2Proof.Machine.execPanDestroy f s
  | .portRekey f => Sys2Proof.Machine.execPortRekey f s
  | .portEnd f => Sys2Proof.Machine.execPortEnd f s
  | .commit f => Sys2Proof.Machine.execCommit f s
  | .claim f => Sys2Proof.Machine.execClaim f s
  | .scrub f => Sys2Proof.Machine.execScrub f s
  | .attnQk f => Sys2Proof.Machine.execAttnQk f s
  | .attnSv f => Sys2Proof.Machine.execAttnSv f s
  | .attnPart f => Sys2Proof.Machine.execAttnPart f s
  | .mergePart f => Sys2Proof.Machine.execMergePart f s
  | .kvq f => Sys2Proof.Machine.execKvq f s
  | .kvdq f => Sys2Proof.Machine.execKvdq f s
  | .topk f => Sys2Proof.Machine.execTopk f s
  | .scale f => Sys2Proof.Machine.execScale f s
  | .create w k q => Sys2Proof.Machine.execCreate w k q s
  | .enable w k q => Sys2Proof.Machine.execEnable w k q s
  | .pause w k q => Sys2Proof.Machine.execPause w k q s
  | .stop w k q => Sys2Proof.Machine.execStop w k q s
  | .destroy w k q => Sys2Proof.Machine.execDestroy w k q s
  | .move w k q t => Sys2Proof.Machine.execMove w k q t s
  | .queueMoveDone q => Sys2Proof.Machine.execQueueMoveDone q s
  | .setparam w k q => Sys2Proof.Machine.execSetparam w k q s
  | .read w k q => Sys2Proof.Machine.execRead w k q s
  | .tokenRefill q => Sys2Proof.Machine.execTokenRefill q s
  | .sluiceTick => Sys2Proof.Machine.execSluiceTick s
  | .sluiceStop ports n all us => Sys2Proof.Machine.execSluiceStop ports n all us s
  | .sluiceThrottle ports n all rate us => Sys2Proof.Machine.execSluiceThrottle ports n all rate us s
  | .sluiceRelease ports n all => Sys2Proof.Machine.execSluiceRelease ports n all s
  | .sluiceCommandExpire p n => Sys2Proof.Machine.execSluiceCommandExpire p n s
  | .carouselRound c reqs barred fails => Sys2Proof.Machine.execCarouselRound c reqs barred fails s
  | .carouselPreempt c on => Sys2Proof.Machine.execCarouselPreempt c on s
  | .pageWalkDone key va => Sys2Proof.Machine.execPageWalkDone key va s
  | .faultBatchClose n => Sys2Proof.Machine.execFaultBatchClose n s
  | .faultBatchPost n => Sys2Proof.Machine.execFaultBatchPost n s
  | .fqResume p m u z => Sys2Proof.Machine.execFqResume p m u z s
  | .fqresumeResume w n q index gen => Sys2Proof.Machine.execFqresumeResume w n q index gen s
  | .fqresumeAbort w n q index gen => Sys2Proof.Machine.execFqresumeAbort w n q index gen s
  | .xlctlFlush w => Sys2Proof.Machine.execXlctlFlush w s
  | .dbSq p m u z => Sys2Proof.Machine.execDbSq p m u z s
  | .dbCq p m u z => Sys2Proof.Machine.execDbCq p m u z s
  | .dbFq p m u z => Sys2Proof.Machine.execDbFq p m u z s
  | .ddrTrain w c => Sys2Proof.Machine.execDdrTrain w c s
  | .ddrTrainRetry c => Sys2Proof.Machine.execDdrTrainRetry c s
  | .ddrMigrate w c slot => Sys2Proof.Machine.execDdrMigrate w c slot s
  | .ddrRetrainPauseEnd c ok => Sys2Proof.Machine.execDdrRetrainPauseEnd c ok s
  | .dramReadOverdue c => Sys2Proof.Machine.execDramReadOverdue c s
  | .writeBatchIdle c => Sys2Proof.Machine.execWriteBatchIdle c s
  | .refreshDue c rank idle => Sys2Proof.Machine.execRefreshDue c rank idle s
  | .ddrPeriodicRetrain c => Sys2Proof.Machine.execDdrPeriodicRetrain c s
  | .migrationLineCopy c => Sys2Proof.Machine.execMigrationLineCopy c s
  | .stkSweepDone n => Sys2Proof.Machine.execStkSweepDone n s
  | .stkTrainRun w => Sys2Proof.Machine.execStkTrainRun w s
  | .stkTrainRunDone errs => Sys2Proof.Machine.execStkTrainRunDone errs s
  | .stkTrainClear w => Sys2Proof.Machine.execStkTrainClear w s
  | .stkTrainHoldLong g => Sys2Proof.Machine.execStkTrainHoldLong g s
  | .patrolRead st found => Sys2Proof.Machine.execPatrolRead st found s
  | .retireGranule w => Sys2Proof.Machine.execRetireGranule w s
  | .retireRankGranules w c k => Sys2Proof.Machine.execRetireRankGranules w c k s
  | .retireRow w c k sub bg bank row => Sys2Proof.Machine.execRetireRow w c k sub bg bank row s
  | .retireRowDone ok => Sys2Proof.Machine.execRetireRowDone ok s
  | .heapEnumerate ds => Sys2Proof.Machine.execHeapEnumerate ds s
  | .heapTransferDone n va rs => Sys2Proof.Machine.execHeapTransferDone n va rs s
  | .autoDemoteSweep n => Sys2Proof.Machine.execAutoDemoteSweep n s
  | .logBlockClose n => Sys2Proof.Machine.execLogBlockClose n s
  | .logBlockWritten n => Sys2Proof.Machine.execLogBlockWritten n s
  | .checkpointRound n => Sys2Proof.Machine.execCheckpointRound n s
  | .checkpointRoundDone n => Sys2Proof.Machine.execCheckpointRoundDone n s
  | .pwrfailAssert => Sys2Proof.Machine.execPwrfailAssert s
  | .durFlushDone => Sys2Proof.Machine.execDurFlushDone s
  | .durFlushLate => Sys2Proof.Machine.execDurFlushLate s
  | .pwrfailRecovered => Sys2Proof.Machine.execPwrfailRecovered s
  | .durableRecovery rs => Sys2Proof.Machine.execDurableRecovery rs s
  | .heapCmdTimeout p => Sys2Proof.Machine.execHeapCmdTimeout p s
  | .heapCtrlNotReady p => Sys2Proof.Machine.execHeapCtrlNotReady p s
  | .heapLinkDown p => Sys2Proof.Machine.execHeapLinkDown p s
  | .heapReformat w => Sys2Proof.Machine.execHeapReformat w s
  | .rdS p m u z => Sys2Proof.Machine.execRdS p m u z s
  | .rdX p m u z => Sys2Proof.Machine.execRdX p m u z s
  | .upg p m u z => Sys2Proof.Machine.execUpg p m u z s
  | .rdNc p m u z => Sys2Proof.Machine.execRdNc p m u z s
  | .wrNc p m u z => Sys2Proof.Machine.execWrNc p m u z s
  | .wb p m u z => Sys2Proof.Machine.execWb p m u z s
  | .evict p m u z => Sys2Proof.Machine.execEvict p m u z s
  | .atom p m u z => Sys2Proof.Machine.execAtom p m u z s
  | .snpAck p m u z => Sys2Proof.Machine.execSnpAck p m u z s
  | .snpAckD p m u z => Sys2Proof.Machine.execSnpAckD p m u z s
  | .goAck p m u z => Sys2Proof.Machine.execGoAck p m u z s
  | .data p m u z => Sys2Proof.Machine.execData p m u z s
  | .go p m u z => Sys2Proof.Machine.execGo p m u z s
  | .nak p m u z => Sys2Proof.Machine.execNak p m u z s
  | .wbAck p m u z => Sys2Proof.Machine.execWbAck p m u z s
  | .cohCmp p m u z => Sys2Proof.Machine.execCohCmp p m u z s
  | .atomRsp p m u z => Sys2Proof.Machine.execAtomRsp p m u z s
  | .nakBackoffExpire tag ep => Sys2Proof.Machine.execNakBackoffExpire tag ep s
  | .resvLapse line => Sys2Proof.Machine.execResvLapse line s
  | .snoopTimeout line => Sys2Proof.Machine.execSnoopTimeout line s
  | .cohSweepDone n => Sys2Proof.Machine.execCohSweepDone n s
  | .linkEnable w p => Sys2Proof.Machine.execLinkEnable w p s
  | .linkDisable w p => Sys2Proof.Machine.execLinkDisable w p s
  | .searchAttempt p => Sys2Proof.Machine.execSearchAttempt p s
  | .searchNow w p => Sys2Proof.Machine.execSearchNow w p s
  | .partnerSignalDetect p => Sys2Proof.Machine.execPartnerSignalDetect p s
  | .trainingTimeout p => Sys2Proof.Machine.execTrainingTimeout p s
  | .initSend p => Sys2Proof.Machine.execInitSend p s
  | .initFlit p b fec ser tx rx => Sys2Proof.Machine.execInitFlit p b fec ser tx rx s
  | .nullFlit p b fec ser => Sys2Proof.Machine.execNullFlit p b fec ser s
  | .dataFlit p b fec ser => Sys2Proof.Machine.execDataFlit p b fec ser s
  | .ctrlFlit p b fec ser => Sys2Proof.Machine.execCtrlFlit p b fec ser s
  | .tagFlit p b fec ser => Sys2Proof.Machine.execTagFlit p b fec ser s
  | .replayReq p b fec ser => Sys2Proof.Machine.execReplayReq p b fec ser s
  | .replayTimerExpire p => Sys2Proof.Machine.execReplayTimerExpire p s
  | .flitSlot p => Sys2Proof.Machine.execFlitSlot p s
  | .tagTimerExpire p => Sys2Proof.Machine.execTagTimerExpire p s
  | .txRekeyDue p => Sys2Proof.Machine.execTxRekeyDue p s
  | .lpiIdleExpire p => Sys2Proof.Machine.execLpiIdleExpire p s
  | .sleepIdleExpire p => Sys2Proof.Machine.execSleepIdleExpire p s
  | .lpiReq p b => Sys2Proof.Machine.execLpiReq p b s
  | .lpiAck p b => Sys2Proof.Machine.execLpiAck p b s
  | .sleepReq p b => Sys2Proof.Machine.execSleepReq p b s
  | .sleepAck p b => Sys2Proof.Machine.execSleepAck p b s
  | .lpiReqTimeout p => Sys2Proof.Machine.execLpiReqTimeout p s
  | .wakePattern p => Sys2Proof.Machine.execWakePattern p s
  | .fastRetrainFail p => Sys2Proof.Machine.execFastRetrainFail p s
  | .signalLoss p => Sys2Proof.Machine.execSignalLoss p s
  | .laserLow p half => Sys2Proof.Machine.execLaserLow p half s
  | .portcmdRetrain w p => Sys2Proof.Machine.execPortcmdRetrain w p s
  | .retrainDone p tx rx => Sys2Proof.Machine.execRetrainDone p tx rx s
  | .retrainExpire p => Sys2Proof.Machine.execRetrainExpire p s
  | .failoverDone p lost => Sys2Proof.Machine.execFailoverDone p lost s
  | .linkNotice p b => Sys2Proof.Machine.execLinkNotice p b s
  | .echoTimer p => Sys2Proof.Machine.execEchoTimer p s
  | .echo p b => Sys2Proof.Machine.execEcho p b s
  | .echoRsp p b => Sys2Proof.Machine.execEchoRsp p b s
  | .sluiceCmd p b => Sys2Proof.Machine.execSluiceCmd p b s
  | .encStart p b => Sys2Proof.Machine.execEncStart p b s
  | .rekey p b => Sys2Proof.Machine.execRekey p b s
  | .mrd p m u z => Sys2Proof.Machine.execMrd p m u z s
  | .mwr p m u z => Sys2Proof.Machine.execMwr p m u z s
  | .mirrorWr p m u z => Sys2Proof.Machine.execMirrorWr p m u z s
  | .rsp p m u z => Sys2Proof.Machine.execRsp p m u z s
  | .rspData p m u z => Sys2Proof.Machine.execRspData p m u z s
  | .rspDur p m u z => Sys2Proof.Machine.execRspDur p m u z s
  | .messageForward p m u z => Sys2Proof.Machine.execMessageForward p m u z s
  | .nxReqTimeout tag ep => Sys2Proof.Machine.execNxReqTimeout tag ep s
  | .ccEntryExpire key => Sys2Proof.Machine.execCcEntryExpire key s
  | .ccEntryWaitDone => Sys2Proof.Machine.execCcEntryWaitDone s
  | .drainHold p b => Sys2Proof.Machine.execDrainHold p b s
  | .drainRelease p b => Sys2Proof.Machine.execDrainRelease p b s
  | .fabcmdHold w id => Sys2Proof.Machine.execFabcmdHold w id s
  | .fabcmdRelease w => Sys2Proof.Machine.execFabcmdRelease w s
  | .fabDrained => Sys2Proof.Machine.execFabDrained s
  | .drainHoldTimeout => Sys2Proof.Machine.execDrainHoldTimeout s
  | .nodeState p b => Sys2Proof.Machine.execNodeState p b s
  | .routeDownWrite w n down => Sys2Proof.Machine.execRouteDownWrite w n down s
  | .congestionMap => Sys2Proof.Machine.execCongestionMap s
  | .shadowCopyDone => Sys2Proof.Machine.execShadowCopyDone s
  | .epochDrainDone => Sys2Proof.Machine.execEpochDrainDone s
  | .epochDrainSlow => Sys2Proof.Machine.execEpochDrainSlow s
  | .snapshotStart => Sys2Proof.Machine.execSnapshotStart s
  | .snapshotCommit => Sys2Proof.Machine.execSnapshotCommit s
  | .rmHeartbeat => Sys2Proof.Machine.execRmHeartbeat s
  | .rmHbTimeout => Sys2Proof.Machine.execRmHbTimeout s
  | .rmYield w => Sys2Proof.Machine.execRmYield w s
  | .rmMachineCheck => Sys2Proof.Machine.execRmMachineCheck s
  | .rmReload b ok => Sys2Proof.Machine.execRmReload b ok s
  | .stallPoll bad => Sys2Proof.Machine.execStallPoll bad s
  | .stallFail k => Sys2Proof.Machine.execStallFail k s
  | .stallQueuesMoved => Sys2Proof.Machine.execStallQueuesMoved s
  | .twinHello p b => Sys2Proof.Machine.execTwinHello p b s
  | .twinHbSend => Sys2Proof.Machine.execTwinHbSend s
  | .twinHb p b => Sys2Proof.Machine.execTwinHb p b s
  | .twinAlloc p b => Sys2Proof.Machine.execTwinAlloc p b s
  | .twinAck p b => Sys2Proof.Machine.execTwinAck p b s
  | .twinPan p b => Sys2Proof.Machine.execTwinPan p b s
  | .twinResync p b => Sys2Proof.Machine.execTwinResync p b s
  | .twinYield p b => Sys2Proof.Machine.execTwinYield p b s
  | .twinTimeout => Sys2Proof.Machine.execTwinTimeout s
  | .twinTakeover w => Sys2Proof.Machine.execTwinTakeover w s
  | .twincmdResync w => Sys2Proof.Machine.execTwincmdResync w s
  | .twincmdUnpair w => Sys2Proof.Machine.execTwincmdUnpair w s
  | .spdmRequest port r => Sys2Proof.Machine.execSpdmRequest port r s
  | .spdmFrag p b => Sys2Proof.Machine.execSpdmFrag p b s
  | .spdmHeartbeatLoss id => Sys2Proof.Machine.execSpdmHeartbeatLoss id s
  | .seal sess policy => Sys2Proof.Machine.execSeal sess policy s
  | .unseal sess => Sys2Proof.Machine.execUnseal sess s
  | .resume sess => Sys2Proof.Machine.execResume sess s
  | .switchRequest => Sys2Proof.Machine.execSwitchRequest s
  | .zeroDone => Sys2Proof.Machine.execZeroDone s
  | .offerTenancy o root => Sys2Proof.Machine.execOfferTenancy o root s
  | .withdrawOffer o => Sys2Proof.Machine.execWithdrawOffer o s
  | .ownerEvict o => Sys2Proof.Machine.execOwnerEvict o s
  | .floorRaise o v => Sys2Proof.Machine.execFloorRaise o v s
  | .floorLower o v => Sys2Proof.Machine.execFloorLower o v s
  | .firmwareRollback o slot => Sys2Proof.Machine.execFirmwareRollback o slot s
  | .ownershipTransfer o digest => Sys2Proof.Machine.execOwnershipTransfer o digest s
  | .ownerClear o => Sys2Proof.Machine.execOwnerClear o s
  | .debugUnlock o => Sys2Proof.Machine.execDebugUnlock o s
  | .tamperClear o tamper => Sys2Proof.Machine.execTamperClear o tamper s
  | .nonce r => Sys2Proof.Machine.execNonce r s
  | .presPress rearmed => Sys2Proof.Machine.execPresPress rearmed s
  | .presLongPress => Sys2Proof.Machine.execPresLongPress s
  | .presenceWindowExpire => Sys2Proof.Machine.execPresenceWindowExpire s
  | .tamperEvent => Sys2Proof.Machine.execTamperEvent s
  | .vaonLow => Sys2Proof.Machine.execVaonLow s
  | .vaonReturn => Sys2Proof.Machine.execVaonReturn s
  | .xtalMissing => Sys2Proof.Machine.execXtalMissing s
  | .refAbsent => Sys2Proof.Machine.execRefAbsent s
  | .refReturn => Sys2Proof.Machine.execRefReturn s
  | .pllLockTimeout p => Sys2Proof.Machine.execPllLockTimeout p s
  | .aonTick => Sys2Proof.Machine.execAonTick s
  | .stampCalibrate m => Sys2Proof.Machine.execStampCalibrate m s
  | .stallGate k => Sys2Proof.Machine.execStallGate k s
  | .stallWake k => Sys2Proof.Machine.execStallWake k s
  | .stallWakeDone k => Sys2Proof.Machine.execStallWakeDone k s
  | .dramPowerDown c => Sys2Proof.Machine.execDramPowerDown c s
  | .deepEnter => Sys2Proof.Machine.execDeepEnter s
  | .deepExit => Sys2Proof.Machine.execDeepExit s
  | .budgetInterval mw => Sys2Proof.Machine.execBudgetInterval mw s
  | .rakeClockChange => Sys2Proof.Machine.execRakeClockChange s
  | .hlPowerCheck mw => Sys2Proof.Machine.execHlPowerCheck mw s
  | .hlPowerRelease => Sys2Proof.Machine.execHlPowerRelease s
  | .sensorSample n v bad => Sys2Proof.Machine.execSensorSample n v bad s
  | .tripRestart => Sys2Proof.Machine.execTripRestart s
  | .vmonSample n mv => Sys2Proof.Machine.execVmonSample n mv s
  | .pmbAlert => Sys2Proof.Machine.execPmbAlert s
  | .powerUp pres => Sys2Proof.Machine.execPowerUp pres s
  | .railOrder late early => Sys2Proof.Machine.execRailOrder late early s
  | .strapSample topo boot mgmt => Sys2Proof.Machine.execStrapSample topo boot mgmt s
  | .prstAssert => Sys2Proof.Machine.execPrstAssert s
  | .prstStuck => Sys2Proof.Machine.execPrstStuck s
  | .rstcmdWarm w key recovery => Sys2Proof.Machine.execRstcmdWarm w key recovery s
  | .rstcmdHard w key recovery => Sys2Proof.Machine.execRstcmdHard w key recovery s
  | .watchdogExpire booth => Sys2Proof.Machine.execWatchdogExpire booth s
  | .bootStageEnd e => Sys2Proof.Machine.execBootStageEnd e s
  | .imageFetchDone img => Sys2Proof.Machine.execImageFetchDone img s
  | .netFetchTimeout => Sys2Proof.Machine.execNetFetchTimeout s
  | .imageConfirm => Sys2Proof.Machine.execImageConfirm s
  | .settingsCommit w => Sys2Proof.Machine.execSettingsCommit w s
  | .csrRead r off count => Sys2Proof.Machine.execCsrRead r off count s
  | .csrWrite r off v => Sys2Proof.Machine.execCsrWrite r off v s
  | .reset r kind recovery => Sys2Proof.Machine.execReset r kind recovery s
  | .sluice r b => Sys2Proof.Machine.execSluice r b s
  | .logRead r log start count => Sys2Proof.Machine.execLogRead r log start count s
  | .dumpRead r slot off len => Sys2Proof.Machine.execDumpRead r slot off len s
  | .subscribe r slot addr port mask maps events => Sys2Proof.Machine.execSubscribe r slot addr port mask maps events s
  | .rtcSet r sec => Sys2Proof.Machine.execRtcSet r sec s
  | .mapPublish k => Sys2Proof.Machine.execMapPublish k s
  | .eventBatchPublish k => Sys2Proof.Machine.execEventBatchPublish k s
  | .eventStageDrain => Sys2Proof.Machine.execEventStageDrain s
  | .tracePoint d point args => Sys2Proof.Machine.execTracePoint d point args s
  | .dumpTake w core => Sys2Proof.Machine.execDumpTake w core s
  | .dumpMarkRead w mask => Sys2Proof.Machine.execDumpMarkRead w mask s
  | .dumpCopyDone => Sys2Proof.Machine.execDumpCopyDone s
  | .ageMeasure d => Sys2Proof.Machine.execAgeMeasure d s
  | .marginReplan => Sys2Proof.Machine.execMarginReplan s
  | .rtcTrim => Sys2Proof.Machine.execRtcTrim s
  | .rtcSnapshot => Sys2Proof.Machine.execRtcSnapshot s
  | .alarmFire k => Sys2Proof.Machine.execAlarmFire k s
  | .mainPowerLoss => Sys2Proof.Machine.execMainPowerLoss s
  | .aonSupplyLoss => Sys2Proof.Machine.execAonSupplyLoss s
  | .prstRelease test => Sys2Proof.Machine.execPrstRelease test s
  | .ddrTrainDone c ok => Sys2Proof.Machine.execDdrTrainDone c ok s
  | .pageCopyDone va n => Sys2Proof.Machine.execPageCopyDone va n s
  | .mr4Poll c ns => Sys2Proof.Machine.execMr4Poll c ns s
  | .pldmFirmwareUpdate r u => Sys2Proof.Machine.execPldmFirmwareUpdate r u s
  | .partnerMessageForward p m u z => Sys2Proof.Machine.execPartnerMessageForward p m u z s

end Sys2Proof.Machine
end

