-- ==== Sys2Proof/Safety.lean ====
section
/-!
DEFINITION. The words in which statements about the machine are made: that a command answers a next state, that a machine serves, that
nothing in it waits, and what an instruction in hand is.
-/
namespace Sys2Proof.Machine
open Sys2Proof Host

/-- Command `i` at state `s` answers a next state, and `P` holds of it. -/
def Completes (i : Instr) (s : State) (P : State → Prop) : Prop := ∃ t : State, exec i s = .next t ∧ P t

/-- The uncore is lit and nothing holds the device in reset: its registers and links can be reached (R541). -/
def State.serves (s : State) : Bool := s.uncoreLit && !s.heldInReset

/-- Nothing waits that another command could let go on: no access, no late write of a line, no request that was held, none without a path, and no
instruction for the twin, an OPEN shadow or zeroed granules. -/
def State.quiet (s : State) : Bool :=
  s.waits.isEmpty && s.coh.late.isEmpty && s.coh.held.isEmpty && s.fab.failed.isEmpty &&
    s.rakes.all (fun kv => match (s.rake kv.1).wait with
      | .twin _ => false
      | .epoch => false
      | .zero => false
      | _ => true)

/-! ### Sound memory -/

/-- None of the bytes `[a, a + n)` lies in the DDR5 system carve-out (R29, R231). -/
def State.outsideCarve (s : State) (a n : Nat) : Bool :=
  decide (a + n ≤ (s.rd Csr.DDR5TOP_granules - ddrCarve) * granSize) || decide (s.rd Csr.DDR5TOP_granules * granSize ≤ a)
    || decide (lentSlotSize ≤ a)

/-- Every cached line is charged to a pan that exists. -/
def State.waysOk (s : State) : Prop := ∀ kv ∈ s.dram.cache, ∀ w ∈ kv.2, w.pan < 64

/-- No line waits for a row repair, a merge or a copy. -/
def State.unlocked (s : State) : Prop := ∀ kv ∈ s.dram.chans, kv.2.locked = []

/-- No stored half-line or SRAM byte has a fault, every DDR5 channel serves, cached lines are charged to pans that exist, and no line is locked
nor any stacked pseudo-channel held. -/
structure State.Serves (s : State) : Prop where
  faults : s.dram.faults = []
  chans : ∀ c, c < 16 → s.chanOos c = false
  ways : s.waysOk
  sram : s.dram.upsets = []
  unlocked : s.unlocked
  released : ∀ c, c < 32 → s.rd (Csr.STKCHSTAT_hold c) = 0

/-- Nothing is stored poisoned or faulty, so that what is stored is delivered. -/
structure State.Sound (s : State) : Prop extends s.Serves where
  poison : s.dram.poison = []
  brine : ∀ b ∈ s.dram.brine, b.pois = 0

/-! ### Instructions of rakes -/

/-- The entry that rake `r` runs. -/
def State.inHand (s : State) (r : Nat) : Option Entry := (s.queue (s.rake r).qid).ent (s.rake r).pos

/-- The queue of the entry that rake `r` runs. -/
def State.qidOf (s : State) (r : Nat) : Nat := (s.rake r).qid

/-- The pan of the entry that rake `r` runs. -/
def State.panOf (s : State) (r : Nat) : Nat := (s.queue (s.qidOf r)).pan

/-- Rake `f.rake` runs entry `e` and fetches an instruction of opcode `opc` that decodes, that the entry may issue, and whose code words
all lie in the program, in runs that stand (R137); nothing of the rake waits, nothing holds it and none helps it, what it fetches from memory is
sound, and the configuration set in use is that of the current epoch (R404). -/
structure Fetches (s : State) (opc : Nat) (f : Fetch) (e : Entry) : Prop where
  busy : (s.rake f.rake).busy = true
  free : (s.rake f.rake).instr = none
  hand : s.inHand f.rake = some e
  decodes : (Insn.ofFetch opc f).decodes = true
  room : e.ctx.pc + 1 + f.xw ≤ e.codeWords
  level : privileged opc = true → isRm (s.qidOf f.rake) = true
  closed : s.rm.opened = []
  late : s.coh.late = []
  epoch : s.activeSet = s.liveSet
  granted : s.rakesHeld (f.rake / 16) = false
  alone : ∀ kv ∈ s.rakes, kv.2.helps ≠ f.rake + 1
  stands : isRm (s.qidOf f.rake) = true ∨ s.confirmCode e (1 + f.xw) = none
  code : e.inl = true ∨ (s.Sound ∧ s.panOf f.rake < 64)

/-- `Fetches`, the guard lets the instruction run (R97), and more of the program follows it. -/
structure Issues (s : State) (opc : Nat) (f : Fetch) (e : Entry) : Prop extends Fetches s opc f e where
  guard : e.ctx.pred f.g ≠ f.gn
  more : e.ctx.pc + 1 + f.xw < e.codeWords

/-- A register field that no instruction of a rake of stall `k` writes by running: none of the stall's own block, of the DRAM tiers'
blocks or of the event log's positions (the counters of fetches and memory accesses stand in these blocks). -/
def Fld.afar (k : Nat) (g : Fld) : Prop :=
  g.lo < 64 ∧ g.off ≠ 0x3100018 ∧ g.off ≠ 0x100068 ∧ (g.off < 0x1000000 + 0x100000 * k ∨ 0x1100000 + 0x100000 * k ≤ g.off)
    ∧ (g.off < 0x2800000 ∨ 0x2C00000 ≤ g.off) ∧ (g = Csr.EPOCHCUR_set ∨ g.off ≠ 0x500028 ∨ g.lo ≠ 16)

/-- What an instruction of the rake leaves alone beside memory: registers outside its stall and the DRAM tiers, and everything the pans, the
other entries and the other rakes, ports, nodes and instances hold. -/
structure Undisturbed (s t : State) (f : Fetch) : Prop where
  regs : ∀ g : Fld, g.afar (f.rake.val / 16) → t.rd g = s.rd g
  pending : t.pending = s.pending
  stamp : t.stamp = s.stamp
  claims : t.gateClaim = s.gateClaim
  grans : t.grans = s.grans
  pans : t.pans = s.pans
  lists : t.lists = s.lists
  others : ∀ r : Nat, r ≠ f.rake → t.rake r = s.rake r
  queues : ∀ q p : Nat, q ≠ s.qidOf f.rake ∨ p ≠ (s.rake f.rake).pos → (t.queue q).ent p = (s.queue q).ent p
  heap : t.heap = s.heap
  links : t.links = s.links
  rm : t.rm = s.rm
  twin : t.twin = s.twin
  sluice : t.sluice = s.sluice
  sec : t.sec = s.sec
  flash : t.flash = s.flash
  cars : t.cars = s.cars
  board : t.board = s.board
  mgmt : t.mgmt = s.mgmt
  debug : t.debugLevel = s.debugLevel

/-- Instruction `i` of rake `f.rake` completes with `status` (R84): the program of entry `e` goes on at `pc` in context `c`, its notes
and worst status follow (R79), the rake is free for the next fetch, memory is as in `m`, and nothing else is disturbed. -/
def GoesOn (i : Instr) (f : Fetch) (s : State) (e : Entry) (status pc : Nat) (c : Ctx) (m : State) : Prop :=
  Completes i s fun t =>
    (∃ e', t.inHand f.rake = some e' ∧ e'.ctx = { c with pc := pc } ∧ e'.notes = e.notes ||| noteOf status
      ∧ e'.worst = (if status = Sts.okDurable then e.worst else Sts.first e.worst status))
    ∧ t.rake f.rake = { s.rake f.rake with wait := .none, instr := none } ∧ t.mem = m.mem ∧ Undisturbed s t f

/-! ### Operands in this node's own memory -/

/-- Located operands `ls` of an entry of pan `n` can be read and written at once: they are this node's own memory, outside the system
carve-out, where no pan has any (R29), and sound; nothing of
the device waits or moves; no partner holds a line of theirs (R321); their windows give the rights (R58) and their runs still stand (R216); and stores to the pan go neither
to the durability log nor to a twin. -/
structure Direct (s : State) (n : Nat) (e : Entry) (ls : List Loc) : Prop where
  sound : s.Sound
  pan : n < 64
  waits : s.waits = []
  shoots : s.shoots = []
  mirrored : s.panMirrored n = false
  durable : s.panDurable n = false
  here : ∀ l ∈ ls, ∀ g ∈ l.segs, g.zero = false ∧ s.isLocal g = true ∧ s.outsideCarve (g.addr % 2 ^ 52) g.len
  free : ∀ l ∈ ls, ∀ g ∈ l.segs, ∀ d ∈ s.homeLines g, s.conflicts true d = false
  rights : ∀ l ∈ ls, l.denied = false
  stands : ∀ l ∈ ls, s.confirm e.r0 l = none

/-- The bytes that stretches of this node's memory hold, in order. -/
def State.bytesOf (s : State) (gs : List Seg) : List Nat := gs.flatMap (fun g => s.bytes (g.addr % 2 ^ 52) g.len)

/-- The state with bytes stored over stretches of this node's memory, in order. -/
def State.putSegs (s : State) (ws : List (Seg × List PByte)) : State := ws.foldl (fun s x => s.putBytes (x.1.addr % 2 ^ 52) x.2) s

/-- The state as an entry of a pan sees it: with the configuration set it was tagged with (R407). -/
def State.seenBy (s : State) (e : Entry) : State := s.viewSet e.set

/-- `Issues`, for an entry of a pan whose located operands `ls` can be read and written at once. -/
structure Performs (s : State) (opc : Nat) (f : Fetch) (e : Entry) (ls : List Loc) : Prop extends Issues s opc f e where
  user : isRm (s.qidOf f.rake) = false
  direct : Direct (s.seenBy e) (s.panOf f.rake) e ls

/-- Word offset of the next instruction (R96). -/
def nextPc (f : Fetch) (e : Entry) : Nat := e.ctx.pc + 1 + f.xw

/-- Length operand of an instruction (R102): imm32, or with the flag of bit 3 of mod register `k`, which then carries no poison and whose
bits above 31 are zero (R269, R583). -/
def lengthIs (f : Fetch) (e : Entry) (k n : Nat) : Prop :=
  if bitOf f.mod.toNat 3 then n = e.ctx.reg k ∧ e.ctx.poi k = false ∧ n < 2 ^ 32 else n = f.imm.toNat

/-- The status predicate of an instruction receives `b` (R98). -/
def Ctx.setSp (c : Ctx) (f : Fetch) (b : Bool) : Ctx := c.setPred (bitsOf f.mod.toNat 5 3) b

/-- The pair (s[k], s[k+1]) is a check pair (R124). -/
def Ctx.pairAt (c : Ctx) (k : Nat) : Prop := k % 2 = 0 ∧ 1 ≤ bitsOf (c.reg (k + 1)) 56 3 ∧ bitsOf (c.reg (k + 1)) 56 3 ≤ 3

/-- With the check flag (bit 1 of mod) an instruction folds what it reads into the pair at rb, which must be one (R117). -/
def foldsOk (f : Fetch) (e : Entry) : Prop := bitOf f.mod.toNat 1 = true → e.ctx.pairAt f.rb

/-- The context after a movement of sound bytes `bs` (R98, R117). -/
def movedCtx (f : Fetch) (e : Entry) (bs : List Nat) : Ctx :=
  (if bitOf f.mod.toNat 1 then e.ctx.fold f.rb (plain bs) else e.ctx).setSp f false

/-- Index `i` of the list whose bytes are `bs`: a byte offset with the flag of bit 32 of the second extension word's low half, otherwise a
number of elements (Table 04-8). -/
def indexAt (f : Fetch) (bs : List Nat) (i : Nat) : Nat :=
  if bitOf f.y0.toNat 32 then ofLeBytes ((bs.drop (8 * i)).take 8) else ofLeBytes ((bs.drop (4 * i)).take 4) * bitsOf f.y0.toNat 0 32

/-- R116: the number of elements, their length and the alignment of the index list are in range. -/
def listInRange (f : Fetch) (e : Entry) : Prop :=
  1 ≤ f.imm.toNat ∧ f.imm.toNat ≤ 16384 ∧ 1 ≤ bitsOf f.y0.toNat 0 32 ∧ bitsOf f.y0.toNat 0 32 ≤ 65536
    ∧ e.va e.ctx f.x1.toNat % (if bitOf f.y0.toNat 32 then 8 else 4) = 0

/-- The bytes of an index list of `n` entries (Table 04-8). -/
def listBytes (f : Fetch) : Nat := f.imm.toNat * (if bitOf f.y0.toNat 32 then 8 else 4)

/-- The stretches of a located operand hold `n` bytes. -/
def Loc.holds (l : Loc) (n : Nat) : Prop := (l.segs.map (·.len)).sum = n

/-- Bytes of an atomic's operand: 4, or 8 with bit 0 of mod (R119). -/
def atomicSize (f : Fetch) : Nat := if bitOf f.mod.toNat 0 then 8 else 4

/-- The context after an atomic that read `old`: the register of bit 1 of mod, and the status predicate. -/
def atomicCtx (f : Fetch) (e : Entry) (old : Nat) : Ctx := (if bitOf f.mod.toNat 1 then e.ctx.setReg f.ra old false else e.ctx).setSp f false

/-- Instruction `i` of opcode `opc` replaces the naturally aligned value at its operand by `new` of the width in bits, the old value and that
of register ra, and leaves the entry in context `done` of the old value (R119 to R122). -/
def Replaces (s : State) (f : Fetch) (e : Entry) (i : Instr) (opc : Nat) (new : Nat → Nat → Nat → Nat) (done : Nat → Ctx) : Prop :=
  ∀ l : Loc, Performs s opc f e [l] → l.holds (atomicSize f) → e.locate e.ctx f.op.toNat 0 (atomicSize f) true = .inr l →
    (bitOf f.mod.toNat 1 = true → e.locate e.ctx f.op.toNat 0 (atomicSize f) false = .inr { l with wr := false }) →
    e.va e.ctx f.op.toNat % atomicSize f = 0 →
    GoesOn i f s e Sts.ok (nextPc f e) (done (ofLeBytes (s.bytesOf l.segs)))
      (s.putSegs (overSegs l.segs ((leBytes (atomicSize f)
        (new (8 * atomicSize f) (ofLeBytes (s.bytesOf l.segs)) (e.ctx.reg f.ra % 2 ^ (8 * atomicSize f)))).map (fun b => (b, e.ctx.poi f.ra)))))

/-- The instruction that rake `f.rake` has in hand. -/
def State.envOf (s : State) (opc : Nat) (f : Fetch) (ins : Instr) (again : Bool) (e : Entry) : Env :=
  ⟨f.rake, s.qidOf f.rake, s.panOf f.rake, e, Insn.ofFetch opc f, ins, again⟩

/-- The state after the fetch (R69). -/
def State.countFetch (s : State) (f : Fetch) (e : Entry) : State :=
  s.fetchCode f.rake e (codeTag (s.qidOf f.rake) (s.panOf f.rake)) (1 + f.xw)

/-- The tokens of an instruction of context math (R161): the range word is register ra with the flag of bit 3 of mod, which then carries no
poison. -/
def tokensAre (f : Fetch) (e : Entry) (b c : Nat) : Prop :=
  let x := if bitOf f.mod.toNat 3 then e.ctx.reg f.ra else f.y0.toNat
  (bitOf f.mod.toNat 3 = true → e.ctx.poi f.ra = false) ∧ b = bitsOf x 0 32 ∧ c = bitsOf x 32 32 ∧ b + c ≤ 2 ^ 32

/-- A constant of context math is a finite binary32 value (R161); from a register it carries no poison and its upper bits are zero. -/
def finiteIs (e : Entry) (fromReg : Bool) (k imm x : Nat) : Prop :=
  x = (if fromReg then e.ctx.reg k else imm) ∧ (fromReg = true → e.ctx.poi k = false ∧ x < 2 ^ 32) ∧ nonfin32 (x % 2 ^ 32) = false

/-- Parts of a cache with the bytes that this node's memory holds for them. -/
def State.partsRead (s : State) (ps : List KvPart) : List (KvPart × List PByte) := ps.map (fun p => (p, plain (s.bytesOf p.loc.segs)))

/-- Attention instruction `i` of opcode `opc` writes the rows of `kind` over its output operand (R161 to R164), where nothing it reads is
poisoned or unmapped and it needs neither extra passes nor extra chunks (R160). `scale` says that register rb holds its scale. -/
def Attends (s : State) (f : Fetch) (e : Entry) (i : Instr) (opc : Nat) (kind : AttnKind) (scale : Bool) (qrow orow : Nat → Nat) : Prop :=
  ∀ (b c sigma : Nat) (o q k : Loc),
    let v := s.envOf opc f i false e
    let z := Shape.of f.imm.toNat
    let ps := v.kvParts z f.x1.toNat b c (match kind with | .qk => [0, 1] | .sv => [2, 3] | .part => [0, 1, 2, 3]) false
    let rows := attnRows kind z b c sigma (if bitOf f.mod.toNat 1 then 2 else 4) (s.bytesOf q.segs) (s.partsRead ps)
    Performs s opc f e (o :: k.mapped :: q :: ps.map (·.loc)) → tokensAre f e b c → (if scale then finiteIs e true f.rb 0 sigma else sigma = 0) →
    e.locate e.ctx f.op.toNat 0 (z.hq * orow c) true = .inr o → e.locate e.ctx f.x0.toNat 0 (z.hq * qrow c) false = .inr q →
    v.kvAll z f.x1.toNat b c false = .inr k → e.va e.ctx f.op.toNat % 8 = 0 → v.kvAligned f.x1.toNat = true → extraPasses z k c = (0, 0) →
    GoesOn i f s e Sts.ok (nextPc f e) (e.ctx.setSp f (rows.any (·.2))) (s.putSegs (overSegs o.segs (plain (rows.flatMap (·.1)))))

/-- Bytes of a query row of the shape that imm32 names (R148). -/
def queryBytes (f : Fetch) : Nat :=
  let z := Shape.of f.imm.toNat
  if z.qfmt = 0 then 2 * z.d else if z.qfmt = 1 then 4 * z.d else z.d + z.d / 32

/-- The value of a stored BF16 or binary32 number. -/
def floatAt (bs : List Nat) (w i : Nat) : Fv :=
  let y := ofLeBytes ((bs.drop (w * i)).take w)
  if w = 2 then Fv.ofElem 6 y else Fv.of32 y

/-- A value stored as BF16 or binary32: its bytes, and whether it is not finite. -/
def storeFloat (bf : Bool) (x : Fv) : List Nat × Bool :=
  if bf then (leBytes 2 x.toBf, (Fv.ofElem 6 x.toBf).nonfinite) else (leBytes 4 x.to32, nonfin32 x.to32)

/-- The state in which rake `r` waits for nothing. -/
def State.freed (s : State) (r : Nat) : State :=
  { s.setRake r (fun k => { k with wait := .none, instr := none }) with waits := s.waits.filter (fun (w : Wait) => w.who != WaitWho.rake r) }

/-- Every access that waits has been answered. -/
def State.answered (s : State) : Prop := ∀ w ∈ s.waits, w.left = 0 ∧ w.stat = Sts.ok ∧ w.fin = none

/-- As `GoesOn`, with `P` in place of the frame: for instructions that change more of the machine than memory. -/
def Proceeds (i : Instr) (f : Fetch) (s : State) (e : Entry) (status pc : Nat) (c : Ctx) (P : State → Prop) : Prop :=
  Completes i s fun t =>
    (∃ e', t.inHand f.rake = some e' ∧ e'.ctx = { c with pc := pc } ∧ e'.notes = e.notes ||| noteOf status)
    ∧ t.rake f.rake = { s.rake f.rake with wait := .none, instr := none } ∧ P t

/-- Instruction `i` of rake `f.rake` waits as `w` says: the entry in hand is as it was. -/
def Holds (i : Instr) (f : Fetch) (s : State) (e : Entry) (w : RakeWait) (P : State → Prop) : Prop :=
  Completes i s fun t =>
    t.inHand f.rake = some e ∧ t.rake f.rake = { s.rake f.rake with wait := w, instr := some i } ∧ P t

/-- Nothing holds line `d` of the node: no transaction, no partner, no late write. -/
def State.lineFree (s : State) (d : Nat) : Prop := s.txn d = none ∧ entSt (s.dirEnt d) = 0 ∧ ∀ x ∈ s.coh.late, x.1 / 128 ≠ d

/-- Where the next completion record of queue `q` goes (R78). -/
def State.recordAt (s : State) (q : Nat) : Nat := (s.queue q).cqBase + 32 * ((s.queue q).cqProd % 2 ^ (s.queue q).cqLog)

/-- The completion ring of queue `q` can take a record at once, and lies in memory that no pan can take. -/
def State.ringFree (s : State) (q : Nat) : Prop :=
  (s.queue q).cqBase % 32 = 0 ∧ s.lineFree (s.recordAt q / 128) ∧ s.Serves ∧ s.inMirror (s.recordAt q) = false ∧
    (s.region (s.recordAt q) = .system ∨ (s.gran (s.recordAt q / granSize)).st ≠ .free)

/-- Command `i` ends the program of entry `e` of queue `q` that rake `r` runs: the rake is idle, the entry leaves its queue, and its record with
`status` is written where the ring can take it (R78, R80, R84). -/
def Ends (i : Instr) (r q : Nat) (s : State) (e : Entry) (status : Nat) : Prop :=
  Completes i s fun t =>
    t.rake r = Rake.idle ∧ (t.queue q).ent e.pos = none ∧ (t.queue q).cqProd = ((s.queue q).cqProd + 1) % 2 ^ 32
    ∧ (s.ringFree q → status < 256 → t.byte (s.recordAt q + 6) = status ∧ t.bytes (s.recordAt q) 4 = leBytes 4 e.tag)

/-- The operand at `op` holds bytes `b` of the system region, in a LINEAR window with the right to read (R135). -/
def State.sysHolds (s : State) (e : Entry) (op n : Nat) (b : List Nat) : Prop :=
  ∃ l, e.locate e.ctx op 0 n false = .inr l ∧ (e.wins.getD l.win Win.unused).kind = 1 ∧ l.denied = false ∧ b = s.bytesOf l.segs ∧ ∀ g ∈ l.segs, g.zero = false ∧ g.addr / 2 ^ 52 = s.nodeId ∧
    ∀ a, g.addr % 2 ^ 52 ≤ a → a < g.addr % 2 ^ 52 + max 1 g.len → s.region a = .system

/-- A privileged instruction of the claim's holder (R413). -/
def State.holder (s : State) (f : Fetch) : Prop := rmInst (s.qidOf f.rake) = s.rmHolder

/-! ### Registers -/

/-- The write of `v` at offset `o` by `w` is performed (R410, R537, R541). -/
structure State.Reaches (s : State) (w : Writer) (o v : Nat) : Prop where
  serves : s.serves = true
  done : (s.regWrite w o v).1 = .done

/-- Every register field reads as before, but those at offsets `os`, the positions of the event log and the always-on log, and the
positions of the journals, where commands of the active instance leave their records (R416). -/
def State.keepsRegs (s t : State) (os : List Nat) : Prop :=
  ∀ g : Fld, g.lo < 64 → g.off ∉ [0x3100018, 0x100068, 0x400008, 0x480008] → g.off ∉ os → t.rd g = s.rd g

/-- A write of the register at this offset starts something, or its block may discard it (Table 19-1). -/
def commandsAt (o : Nat) : Bool :=
  (decide (0x1000000 ≤ o) && decide (o < 0x2000000) && (o % 0x100000 == 0x6000 || o % 0x100000 == 0x8000))
  || (decide (0x2000000 ≤ o) && decide (o < 0x2400000) && (o % 0x80000 == 0 || o % 0x80000 == 0x10))
  || (decide (0x2800000 ≤ o) && decide (o < 0x2A00000) && ([0, 0x10, 0x408, 0x410].contains (o % 0x20000)
      || (decide (0x38 ≤ o % 0x20000) && decide (o % 0x20000 < 0x58))))
  || (decide (0x40000 ≤ o) && decide (o < 0x48000)) || (decide (0x2A00018 ≤ o) && decide (o < 0x2A00038))
  || [0x1038, 0x2000, 0x2040, 0x3018, 0x3040, 0x5018, 0x100000, 0x100040, 0x100068, 0x200200, 0x200238, 0x500000, 0x500118, 0x2A00100, 0x2A00110,
      0x2C00010, 0x3100038].contains o

/-- Stall `k`, which serves and is not busy with a STOP, performs command `op` on queue `q` with target `t` (R183). -/
structure State.Commands (s : State) (w : Writer) (k op q t : Nat) : Prop where
  writes : s.Reaches w (0x1006000 + 0x100000 * k) (op + q * 16 + t * 2 ^ 24)
  stall : s.stallFailed k = false
  idle : s.on (Csr.QCMDSTAT_busy k) = false

/-! ### Requests of partners -/

/-- The request `m` for the device arrives at port `p` after `u` ns, passes the checks of R378 and is not a copy (R387); nothing waits,
and its response leaves by port `p'`, no port of the lattice. -/
structure State.Arrives (s : State) (p : Nat) (m : Msg) (u p' : Nat) : Prop where
  hears : s.portHears p = true
  quiet : s.quiet = true
  epoch : s.activeSet = s.liveSet
  ok : s.nxOk p m = true
  code : vcOf m.code = 1
  mine : m.dstNode = s.nodeId
  device : m.dstPartner = false
  domain : s.outsideDomain p = false
  life : (s.charge p m u).isSome = true
  once : ∀ e ∈ s.fab.cc, e.key ≠ reqKey m
  out : s.ringPort p' = false

/-- The request `m` that arrives is admitted (R32) and not metered away (R194): it is performed at once. -/
structure State.Takes (s : State) (p : Nat) (m : Msg) (u p' : Nat) : Prop extends State.Arrives s p m u p' where
  back : s.hop (s.respond m 0x30 0) = .port p' 0 false
  serving : s.board.reset = none
  up : s.nodeDown m = false
  meter : (s.slAction p m.pan (meterBytes m) m.colour).1 = 0

/-- The coherent request `m` of member `r` is performed at once (R309): the member holds the right and is not gone, and its line lies in this
node's own memory outside the system carve-out, is neither busy nor reserved nor moving, has one directory entry at most, and is of a pan without a twin. -/
structure State.TakesLine (s : State) (p : Nat) (m : Msg) (u p' r : Nat) : Prop extends State.Takes s p m u p' where
  member : s.rightHolder m = some r
  stays : s.goneMember m = none
  owned : s.nxOwned m = true
  free : s.blocked m = false
  own : s.lineSlot (lineOf m) = none
  still : s.moving (lineOf m * 128) = false
  sound : s.Sound
  outside : s.outsideCarve (lineOf m * 128) 128 = true
  alone : s.panMirrored m.pan = false
  entry : ((s.dirWays (lineOf m)).filter (fun e => entSt e != 0 && entLine e == lineOf m)).length ≤ 1

/-- The answer or acknowledgement `m` for the device arrives at port `p`, no port of the lattice, and passes the checks of R378. -/
structure State.Gets (s : State) (p : Nat) (m : Msg) : Prop where
  hears : s.portHears p = true
  ok : (s.consume p 2).nxOk p m = true
  code : vcOf m.code = 2
  mine : m.dstNode = s.nodeId
  device : m.dstPartner = false
  spoke : s.ringPort p = false

/-- In `t` the response of the device to `m` waits at port `p'` behind what waited there. -/
def State.Answers (s t : State) (p' : Nat) (r : Msg) : Prop := t.txQueue p' 2 = s.txQueue p' 2 ++ [r]

/-! ### What reaches the device from outside -/

/-- Commands that bring a register write, an NX message or a control message to the device. -/
def reachesDevice : Instr → Bool
  | .registerWrite .. | .evposConsumerWrite .. | .errlogposConsumerWrite .. | .fqposConsumerWrite .. | .aonlogposConsumerWrite ..
  | .lendOffer .. | .lendRecall .. | .create .. | .enable .. | .pause .. | .stop .. | .destroy .. | .move .. | .setparam .. | .read ..
  | .fqResume .. | .fqresumeResume .. | .fqresumeAbort .. | .xlctlFlush .. | .dbSq .. | .dbCq .. | .dbFq .. | .ddrTrain .. | .ddrMigrate ..
  | .stkTrainRun .. | .stkTrainClear .. | .retireGranule .. | .retireRankGranules .. | .retireRow .. | .heapReformat .. | .rdS .. | .rdX ..
  | .upg .. | .rdNc .. | .wrNc .. | .wb .. | .evict .. | .atom .. | .snpAck .. | .snpAckD .. | .goAck .. | .data .. | .go .. | .nak ..
  | .wbAck .. | .cohCmp .. | .atomRsp .. | .linkEnable .. | .linkDisable .. | .searchNow .. | .lpiReq .. | .lpiAck .. | .sleepReq ..
  | .sleepAck .. | .portcmdRetrain .. | .linkNotice .. | .echo .. | .echoRsp .. | .sluiceCmd .. | .encStart .. | .rekey .. | .mrd ..
  | .mwr .. | .mirrorWr .. | .rsp .. | .rspData .. | .rspDur .. | .messageForward .. | .drainHold .. | .drainRelease .. | .fabcmdHold ..
  | .fabcmdRelease .. | .nodeState .. | .routeDownWrite .. | .rmYield .. | .twinHello .. | .twinHb .. | .twinAlloc .. | .twinAck ..
  | .twinPan .. | .twinResync .. | .twinYield .. | .twinTakeover .. | .twincmdResync .. | .twincmdUnpair .. | .spdmFrag .. | .rstcmdWarm ..
  | .rstcmdHard .. | .settingsCommit .. | .dumpMarkRead .. | .partnerMessageForward .. => true
  | _ => false

/-- Requests to the power core and the Ticket Booth, and what the firmware does at its own times while it runs. -/
def asksFirmware : Instr → Bool
  | .spdmRequest .. | .offerTenancy .. | .withdrawOffer .. | .ownerEvict .. | .floorRaise .. | .floorLower .. | .firmwareRollback ..
  | .ownershipTransfer .. | .ownerClear .. | .debugUnlock .. | .tamperClear .. | .nonce .. | .watchdogExpire .. | .bootStageEnd ..
  | .csrRead .. | .csrWrite .. | .reset .. | .sluice .. | .logRead .. | .dumpRead .. | .subscribe .. | .rtcSet .. | .dumpCopyDone ..
  | .pldmFirmwareUpdate .. => true
  | _ => false

end Sys2Proof.Machine
end

