-- ==== Sys2Proof/Certificates/Slice0/Obligations.lean ====
section
/-!
DEFINITION. The statements for the provers: what every command of the opcode table does, which invariants steps keep, and what the
device is after reset.
-/
open Sys2Proof Sys2Proof.Machine Host
set_option autoImplicit false

/-- NOP, FENCE, BR, LOOP, LI, ALU, CMP and PLOG (R100, R103 to R107, R110): where the program goes on, and the one register or predicate
that each writes. Nothing else of the machine changes but the fetch counters.
Where the spec leaves a choice open, it is the model's: log entry 6. -/
def Obligations.ControlAndScalar : Prop := ∀ (s : State) (f : Fetch) (e : Entry),
  (Issues s 0x00 f e → GoesOn (.nop f) f s e Sts.ok (nextPc f e) e.ctx s) ∧
  (Issues s 0x04 f e → GoesOn (.fence f) f s e Sts.ok (nextPc f e) e.ctx s) ∧
  (Issues s 0x01 f e → bitOf f.mod.toNat 0 = false → bitsOf f.imm.toNat 0 16 < e.codeWords →
    GoesOn (.br f) f s e Sts.ok (bitsOf f.imm.toNat 0 16) e.ctx s) ∧
  (Issues s 0x01 f e → bitOf f.mod.toNat 0 = true → e.ctx.poi f.ra = false → e.ctx.reg f.ra < 2 ^ 16 → e.ctx.reg f.ra < e.codeWords →
    GoesOn (.br f) f s e Sts.ok (e.ctx.reg f.ra) e.ctx s) ∧
  (Issues s 0x02 f e → f.ra ≠ f.rb →
    let n := (e.ctx.reg f.ra % 2 ^ 64 + 2 ^ 64 - f.imm.toNat) % 2 ^ 64
    let c := (e.ctx.setReg f.ra n (e.ctx.poi f.ra)).setReg f.rb (e.ctx.reg f.rb + f.imm.toNat) (e.ctx.poi f.rb)
    (n ≠ 0 → bitsOf f.op.toNat 0 16 < e.codeWords → GoesOn (.loop f) f s e Sts.ok (bitsOf f.op.toNat 0 16) c s) ∧
    (n = 0 → GoesOn (.loop f) f s e Sts.ok (nextPc f e) c s)) ∧
  (Issues s 0x08 f e → GoesOn (.li f) f s e Sts.ok (nextPc f e) (e.ctx.setReg f.ra f.op.toNat false) s) ∧
  (Issues s 0x07 f e →
    let b := if bitOf f.mod.toNat 5 then ofSigned 64 (toSigned 32 f.imm.toNat) else e.ctx.reg f.rb
    let k := bitsOf f.mod.toNat 0 5
    let p := (k != 16 && e.ctx.poi f.ra) || (decide (k ≤ 16) && !bitOf f.mod.toNat 5 && e.ctx.poi f.rb)
    GoesOn (.alu f) f s e Sts.ok (nextPc f e) (e.ctx.setReg (bitsOf f.op.toNat 0 5) (aluOp k (e.ctx.reg f.ra) b) p) s) ∧
  (Issues s 0x09 f e →
    let b := if bitOf f.mod.toNat 3 then ofSigned 64 (toSigned 32 f.imm.toNat) else e.ctx.reg f.rb
    GoesOn (.cmp f) f s e Sts.ok (nextPc f e)
      (e.ctx.setPred (bitsOf f.op.toNat 0 3) (cmpCond (bitsOf f.mod.toNat 0 3) (e.ctx.reg f.ra) b)) s) ∧
  (Issues s 0x0A f e →
    let r := plogOp (bitsOf f.mod.toNat 0 2) (e.ctx.pred (bitsOf f.op.toNat 4 3)) (e.ctx.pred (bitsOf f.op.toNat 8 3))
    GoesOn (.plog f) f s e Sts.ok (nextPc f e) (e.ctx.setPred (bitsOf f.op.toNat 0 3) (if bitOf f.mod.toNat 2 then !r else r)) s)

/-- COPY, FILL and STRIDE over operands of this node's own memory (R114, R115, R117): the destination receives the bytes of the source, or
the repeated pattern; every other byte and everything else stays.
Where the spec leaves a choice open, it is the model's: log entries 6 and 20. -/
def Obligations.CopiesAndFills : Prop := ∀ (s : State) (f : Fetch) (e : Entry) (n : Nat),
  (∀ src dst : Loc, Performs s 0x10 f e [src, dst] → lengthIs f e f.ra n → foldsOk f e → e.locate e.ctx f.x0.toNat 0 n false = .inr src →
    e.locate e.ctx f.op.toNat 0 n true = .inr dst → clash src.segs dst.segs = false →
    GoesOn (.copy f) f s e Sts.ok (nextPc f e) (movedCtx f e (s.bytesOf src.segs)) (s.putSegs (overSegs dst.segs (plain (s.bytesOf src.segs))))) ∧
  (∀ dst : Loc, Performs s 0x11 f e [dst] → lengthIs f e f.rb n → e.locate e.ctx f.op.toNat 0 n true = .inr dst →
    GoesOn (.fill f) f s e Sts.ok (nextPc f e) e.ctx
      (s.putSegs (overSegs dst.segs ((List.range n).map (fun i => (bitsOf (e.ctx.reg f.ra) (8 * (i % 8)) 8, e.ctx.poi f.ra)))))) ∧
  (∀ srcs dsts : List Loc, Performs s 0x14 f e (srcs ++ dsts) → lengthIs f e f.ra n → foldsOk f e →
    1 ≤ bitsOf f.x1.toNat 0 32 → bitsOf f.x1.toNat 0 32 ≤ 1048576 →
    allLocs ((List.range (bitsOf f.x1.toNat 0 32)).map (fun r => e.locate e.ctx f.x0.toNat (r * f.y0.toNat) n false)) = .inr srcs →
    allLocs ((List.range (bitsOf f.x1.toNat 0 32)).map (fun r => e.locate e.ctx f.op.toNat (r * f.y1.toNat) n true)) = .inr dsts →
    clash (segsOf srcs) (segsOf dsts) = false →
    GoesOn (.stride f) f s e Sts.ok (nextPc f e) (movedCtx f e (s.bytesOf (segsOf srcs)))
      (s.putSegs (overSegs (segsOf dsts) (plain (s.bytesOf (segsOf srcs))))))

/-- GATHER and SCATTER (R114 to R116): the index list is read whole, each element goes to or comes from its offset, in the order of the list.
Where the spec leaves a choice open, it is the model's: log entries 6 and 20. -/
def Obligations.ListMoves : Prop := ∀ (s : State) (f : Fetch) (e : Entry) (list : Loc), listInRange f e → foldsOk f e →
  e.locate e.ctx f.x1.toNat 0 (listBytes f) false = .inr list →
  (∀ (srcs : List Loc) (dst : Loc), Performs s 0x12 f e (list :: srcs ++ [dst]) →
    allLocs ((List.range f.imm.toNat).map fun i =>
      e.locate e.ctx f.x0.toNat (indexAt f (s.bytesOf list.segs) i) (bitsOf f.y0.toNat 0 32) false) = .inr srcs →
    e.locate e.ctx f.op.toNat 0 (f.imm.toNat * bitsOf f.y0.toNat 0 32) true = .inr dst →
    GoesOn (.gather f) f s e Sts.ok (nextPc f e) (movedCtx f e (s.bytesOf (segsOf srcs)))
      (s.putSegs (overSegs dst.segs (plain (s.bytesOf (segsOf srcs)))))) ∧
  (∀ (src : Loc) (dsts : List Loc), Performs s 0x13 f e (list :: src :: dsts) →
    e.locate e.ctx f.x0.toNat 0 (f.imm.toNat * bitsOf f.y0.toNat 0 32) false = .inr src →
    allLocs ((List.range f.imm.toNat).map fun i =>
      e.locate e.ctx f.op.toNat (indexAt f (s.bytesOf list.segs) i) (bitsOf f.y0.toNat 0 32) true) = .inr dsts →
    GoesOn (.scatter f) f s e Sts.ok (nextPc f e) (movedCtx f e (s.bytesOf src.segs))
      (s.putSegs (overSegs (segsOf dsts) (plain (s.bytesOf src.segs)))))

/-- TLOAD, TSTORE, LDS and STS over this node's own memory (R108, R114).
Where the spec leaves a choice open, it is the model's: log entries 6 and 20. -/
def Obligations.TilesAndScalars : Prop := ∀ (s : State) (f : Fetch) (e : Entry) (l : Loc),
  (Performs s 0x18 f e [l] → foldsOk f e → 1 ≤ f.imm.toNat → f.imm.toNat ≤ 4096 → e.locate e.ctx f.op.toNat 0 f.imm.toNat false = .inr l →
    GoesOn (.tload f) f s e Sts.ok (nextPc f e) ((movedCtx f e (s.bytesOf l.segs)).setTile f.ra (plain (s.bytesOf l.segs))) s) ∧
  (Performs s 0x19 f e [l] → 1 ≤ f.imm.toNat → f.imm.toNat ≤ 4096 → e.locate e.ctx f.op.toNat 0 f.imm.toNat true = .inr l →
    GoesOn (.tstore f) f s e Sts.ok (nextPc f e) e.ctx
      (s.putSegs (overSegs l.segs ((List.range f.imm.toNat).map (fun i => (e.ctx.tile f.ra i, e.ctx.tilePoison f.ra i)))))) ∧
  (let n := 2 ^ bitsOf f.mod.toNat 0 2
   Performs s 0x0B f e [l] → e.locate e.ctx f.op.toNat 0 n false = .inr l → e.va e.ctx f.op.toNat % n = 0 →
    let x := ofLeBytes (s.bytesOf l.segs)
    GoesOn (.lds f) f s e Sts.ok (nextPc f e)
      ((e.ctx.setReg f.ra (if bitOf f.mod.toNat 2 then ofSigned 64 (toSigned (8 * n) x) else x) false).setSp f false) s) ∧
  (let n := 2 ^ bitsOf f.mod.toNat 0 2
   Performs s 0x0C f e [l] → e.locate e.ctx f.op.toNat 0 n true = .inr l → e.va e.ctx f.op.toNat % n = 0 →
    GoesOn (.sts f) f s e Sts.ok (nextPc f e) e.ctx
      (s.putSegs (overSegs l.segs ((leBytes n (e.ctx.reg f.ra)).map (fun b => (b, e.ctx.poi f.ra))))))

/-- The eleven atomics (R119 to R122, Table 04-9): the value at the operand is replaced, and the old one is returned
where mod asks for it. Where the spec leaves a choice open, it is the model's: log entries 32, 33 and 75. -/
def Obligations.Atomics : Prop := ∀ (s : State) (f : Fetch) (e : Entry),
  Replaces s f e (.aadd f) 0x30 (fun _ old v => old + v) (atomicCtx f e) ∧
  Replaces s f e (.aand f) 0x31 (fun _ old v => old &&& v) (atomicCtx f e) ∧
  Replaces s f e (.aor f) 0x32 (fun _ old v => old ||| v) (atomicCtx f e) ∧
  Replaces s f e (.axor f) 0x33 (fun _ old v => old ^^^ v) (atomicCtx f e) ∧
  Replaces s f e (.aminu f) 0x34 (fun _ old v => min old v) (atomicCtx f e) ∧
  Replaces s f e (.amaxu f) 0x35 (fun _ old v => max old v) (atomicCtx f e) ∧
  Replaces s f e (.amins f) 0x36 (fun w old v => if toSigned w old ≤ toSigned w v then old else v) (atomicCtx f e) ∧
  Replaces s f e (.amaxs f) 0x37 (fun w old v => if toSigned w old ≤ toSigned w v then v else old) (atomicCtx f e) ∧
  Replaces s f e (.aswap f) 0x38 (fun _ _ v => v) (atomicCtx f e) ∧
  Replaces s f e (.acas f) 0x39 (fun w old v => if old = e.ctx.reg f.rb % 2 ^ w then v else old)
    (fun old => (atomicCtx f e old).setPred (bitsOf f.imm.toNat 0 3) (old == e.ctx.reg f.rb % 2 ^ (8 * atomicSize f))) ∧
  Replaces s f e (.afadd f) 0x3A (fun _ old v => afadd old v) (atomicCtx f e)

/-- SIGNAL adds to its counter (R111); WAIT goes on once its counter has reached the target and otherwise waits, and a
waiting one goes on when its counter reaches the target or when it has timed out (R112). Where the spec leaves a
choice open, it is the model's: log entries 32 and 75. -/
def Obligations.SignalsAndWaits : Prop := ∀ (s : State) (f : Fetch) (e : Entry) (l : Loc),
  (Performs s 0x05 f e [l] → l.holds 8 → e.locate e.ctx f.op.toNat 0 8 true = .inr l → e.va e.ctx f.op.toNat % 8 = 0 →
    let step := if bitOf f.mod.toNat 0 then e.ctx.reg f.ra else f.imm.toNat
    GoesOn (.signal f) f s e Sts.ok (nextPc f e) e.ctx
      (s.putSegs (overSegs l.segs ((leBytes 8 (ofLeBytes (s.bytesOf l.segs) + step)).map (fun b => (b, bitOf f.mod.toNat 0 && e.ctx.poi f.ra)))))) ∧
  (e.locate e.ctx f.op.toNat 0 8 false = .inr l → e.va e.ctx f.op.toNat % 8 = 0 → e.ctx.poi f.rb = false →
    let x := ofLeBytes (s.bytesOf l.segs)
    let reached := subMod x (e.ctx.reg f.rb) 64 < 2 ^ 63
    (Performs s 0x06 f e [l] → reached →
      GoesOn (.wait f) f s e Sts.ok (nextPc f e) ((e.ctx.setReg f.ra x false).setSp f false) s) ∧
    (Performs s 0x06 f e [l] → ¬ reached → Completes (.wait f) s fun t =>
      t.rake f.rake = { s.rake f.rake with wait := .counter (some (x, false)), instr := some (.wait f) } ∧ t.inHand f.rake = some e ∧ t.mem = s.mem) ∧
    (∀ last, Performs (s.freed f.rake) 0x06 f e [l] → (s.rake f.rake).wait = .counter last → (s.rake f.rake).instr = some (.wait f) → s.answered →
      reached → GoesOn (.waitSatisfied f.rake) f s e Sts.ok (nextPc f e) ((e.ctx.setReg f.ra x false).setSp f false) s)) ∧
  (∀ (x : Nat) (p : Bool), Issues (s.freed f.rake) 0x06 f e → (s.rake f.rake).wait = .counter (some (x, p)) → (s.rake f.rake).instr = some (.wait f) →
    f.imm ≠ 0 → bitsOf f.mod.toNat 5 3 ≠ 0 →
    GoesOn (.waitTimeout f.rake) f s e (if p then Sts.poison else Sts.ok) (nextPc f e) ((e.ctx.setReg f.ra x p).setSp f true) s)

/-- The check-value instructions (R124 to R126, R277).
Where the spec leaves a choice open, it is the model's: log entry 30. -/
def Obligations.CheckPairs : Prop := ∀ (s : State) (f : Fetch) (e : Entry),
  let k := bitsOf f.mod.toNat 0 2
  let kind := bitsOf (e.ctx.reg (f.ra + 1)) 56 3
  (let init := if bitOf f.mod.toNat 3 then f.op.toNat else crcInit k
   Issues s 0x40 f e → f.ra.val % 2 = 0 → init < 2 ^ crcWidth k →
    GoesOn (.crcInit f) f s e Sts.ok (nextPc f e)
      ((e.ctx.setReg f.ra (if bitOf f.mod.toNat 2 then crcUpdate k init (leBytes 8 (e.ctx.reg f.rb)) else init)
        (bitOf f.mod.toNat 2 && e.ctx.poi f.rb)).setReg (f.ra + 1) (k * 2 ^ 56) false) s) ∧
  (∀ (l : Loc) (n : Nat), Performs s 0x41 f e [l] → e.ctx.pairAt f.ra → lengthIs f e f.rb n → e.locate e.ctx f.op.toNat 0 n false = .inr l →
    GoesOn (.crcRun f) f s e Sts.ok (nextPc f e) ((e.ctx.fold f.ra (plain (s.bytesOf l.segs))).setSp f false) s) ∧
  (∀ l : Loc, Performs s 0x42 f e [l] → f.ra.val % 2 = 0 → e.va e.ctx f.op.toNat % 16 = 0 → e.locate e.ctx f.op.toNat 0 16 true = .inr l →
    GoesOn (.crcSave f) f s e Sts.ok (nextPc f e) e.ctx
      (s.putSegs (overSegs l.segs ((leBytes 8 (e.ctx.reg f.ra)).map (fun b => (b, e.ctx.poi f.ra))
        ++ (leBytes 8 (e.ctx.reg (f.ra + 1))).map (fun b => (b, e.ctx.poi (f.ra + 1))))))) ∧
  (∀ l : Loc, Performs s 0x43 f e [l] → f.ra.val % 2 = 0 → e.va e.ctx f.op.toNat % 16 = 0 → e.locate e.ctx f.op.toNat 0 16 false = .inr l →
    let raw := ofLeBytes ((s.bytesOf l.segs).take 8)
    let q := ofLeBytes ((s.bytesOf l.segs).drop 8)
    recordOk q raw = true →
    GoesOn (.crcLoad f) f s e Sts.ok (nextPc f e) (((e.ctx.setReg f.ra raw false).setReg (f.ra + 1) q false).setSp f false) s) ∧
  (∀ l : Loc, Performs s 0x44 f e [l] → bitOf f.mod.toNat 3 = true → e.ctx.pairAt f.ra → e.ctx.poi f.ra = false →
    e.va e.ctx f.op.toNat % (crcWidth kind / 8) = 0 → e.locate e.ctx f.op.toNat 0 (crcWidth kind / 8) false = .inr l →
    let bad := crcFinal kind (e.ctx.reg f.ra) != ofLeBytes (s.bytesOf l.segs) % 2 ^ crcWidth kind
    GoesOn (.crcVerify f) f s e (if bad then Sts.checkMismatch else Sts.ok) (nextPc f e) (e.ctx.setSp f bad) s) ∧
  (Issues s 0x44 f e → bitOf f.mod.toNat 3 = false → e.ctx.pairAt f.ra → e.ctx.poi f.ra = false → e.ctx.poi f.rb = false →
    let bad := crcFinal kind (e.ctx.reg f.ra) != e.ctx.reg f.rb % 2 ^ crcWidth kind
    GoesOn (.crcVerify f) f s e (if bad then Sts.checkMismatch else Sts.ok) (nextPc f e) (e.ctx.setSp f bad) s) ∧
  (Issues s 0x45 f e → e.ctx.pairAt f.ra →
    GoesOn (.crcFinal f) f s e Sts.ok (nextPc f e) (e.ctx.setReg f.rb (crcFinal kind (e.ctx.reg f.ra)) (e.ctx.poi f.ra)) s)

/-- R275, Table 09-6: the parameters of the check kinds (width, initial raw value, final XOR, and the polynomial that a one bit shifted out
brings in, reflected for kinds 1 and 2), and the CRC of the ASCII bytes "123456789" with no fold. -/
def Obligations.CheckValuesOfTable : Prop :=
  let ascii := [0x31, 0x32, 0x33, 0x34, 0x35, 0x36, 0x37, 0x38, 0x39]
  crcWidth 1 = 32 ∧ crcWidth 2 = 64 ∧ crcWidth 3 = 16 ∧
  crcInit 1 = 0xFFFFFFFF ∧ crcInit 2 = 0xFFFFFFFFFFFFFFFF ∧ crcInit 3 = 0 ∧
  (∀ raw, crcFinal 1 raw = raw ^^^ 0xFFFFFFFF ∧ crcFinal 2 raw = raw ^^^ 0xFFFFFFFFFFFFFFFF ∧ crcFinal 3 raw = raw ^^^ 0) ∧
  (∀ i < 32, bitOf (crcShiftR (crcRpoly 1) 1 1) i = bitOf 0x1EDC6F41 (31 - i)) ∧
  (∀ i < 64, bitOf (crcShiftR (crcRpoly 2) 1 1) i = bitOf 0xAD93D23594C93659 (63 - i)) ∧ crcShiftL 1 0x8000 = 0x8BB7 ∧
  crcRpoly 1 = 0x82F63B78 ∧ crcRpoly 2 = 0x9A6C9329AC4BC9B5 ∧
  crcFinal 1 (crcUpdate 1 (crcSeed 1 (crcInit 1) none) ascii) = 0xE3069283 ∧
  crcFinal 2 (crcUpdate 2 (crcSeed 2 (crcInit 2) none) ascii) = 0xAE8B14860A799888 ∧
  crcFinal 3 (crcUpdate 3 (crcSeed 3 (crcInit 3) none) ascii) = 0xD0DB

/-- ATTN.QK, ATTN.SV and ATTN.PART (R160 to R164). Where the spec leaves a choice open, it is the model's: log entries
31 and 77. -/
def Obligations.Attention : Prop := ∀ (s : State) (f : Fetch) (e : Entry),
  let d := (Shape.of f.imm.toNat).d
  Attends s f e (.attnQk f) 0x50 .qk true (fun _ => queryBytes f) (fun c => 4 * c) ∧
  Attends s f e (.attnSv f) 0x51 .sv false (fun c => (if bitOf f.mod.toNat 1 then 2 else 4) * c) (fun _ => 4 * d) ∧
  Attends s f e (.attnPart f) 0x52 .part true (fun _ => queryBytes f) (fun _ => 8 + 4 * d)

/-- MERGE.PART, TOPK and SCALE (R165, R168, R169): the bytes that each writes over its output operand. Where the spec
leaves a choice open, it is the model's: log entries 31 and 77. -/
def Obligations.MergeRankScale : Prop := ∀ (s : State) (f : Fetch) (e : Entry) (o : Loc),
  (∀ srcs : List Loc,
    let d := 32 * (bitsOf f.imm.toNat 0 3 + 1)
    let rows := bitsOf f.imm.toNat 3 8 + 1
    let size := 8 + 4 * d
    let count := bitsOf f.x1.toNat 0 16
    let stride := bitsOf f.x1.toNat 16 32
    let final := bitOf f.mod.toNat 0
    let bf := bitOf f.mod.toNat 1
    let merged (r : Nat) : Partial :=
      (pairReduce (mergePart d) srcs.length (srcs.map (fun l => Partial.ofBytes d (((s.bytesOf l.segs).drop (r * size)).take size)))).headD (Partial.ident d)
    let out (r : Nat) : List Nat × Bool := if final then (merged r).final d bf else ((merged r).bytes, (merged r).nonfinite d)
    Performs s 0x53 f e (o :: srcs) → (∀ l ∈ srcs, l.holds (rows * size)) → 1 ≤ count → count ≤ 4096 → stride % 8 = 0 → rows * size ≤ stride →
    e.va e.ctx f.op.toNat % 8 = 0 →
    e.locate e.ctx f.op.toNat 0 (if final then rows * d * (if bf then 2 else 4) else rows * size) true = .inr o →
    allLocs ((List.range count).map (fun i => e.locate e.ctx f.x0.toNat (i * stride) (rows * size) false)) = .inr srcs →
    (∀ l ∈ srcs, clash l.segs o.segs = false) → (∀ l ∈ srcs.tail, joinSegs l.segs ≠ joinSegs o.segs) →
    GoesOn (.mergePart f) f s e Sts.ok (nextPc f e) (e.ctx.setSp f ((List.range rows).any (fun r => (out r).2)))
      (s.putSegs (overSegs o.segs (plain ((List.range rows).flatMap (fun r => (out r).1)))))) ∧
  (∀ x : Loc,
    let rows := bitsOf f.imm.toNat 0 8 + 1
    let k := bitsOf f.imm.toNat 8 13
    let n := bitsOf f.x1.toNat 0 24
    let best (r : Nat) : List (Nat × Nat) :=
      topk (bitOf f.mod.toNat 0) k ((List.range n).map (fun i => ofLeBytes (((s.bytesOf x.segs).drop (4 * n * r + 4 * i)).take 4)))
    Performs s 0x5C f e [o, x] → x.holds (4 * n * rows) → 1 ≤ k → k ≤ 4096 → k ≤ n → e.va e.ctx f.op.toNat % 8 = 0 →
    e.locate e.ctx f.op.toNat 0 (8 * k * rows) true = .inr o → e.locate e.ctx f.x0.toNat 0 (4 * n * rows) false = .inr x →
    GoesOn (.topk f) f s e Sts.ok (nextPc f e) (e.ctx.setSp f ((List.range rows).any (fun r => (best r).any (fun p => nonfin32 p.2))))
      (s.putSegs (overSegs o.segs (plain ((List.range rows).flatMap (fun r => (best r).flatMap (fun p => leBytes 8 (p.1 + p.2 * 2 ^ 32)))))))) ∧
  (∀ (x : Loc) (c : Nat),
    let n := bitsOf f.x1.toNat 0 32
    let wi := if bitOf f.mod.toNat 1 then 2 else 4
    let wo := if bitOf f.mod.toNat 2 then 2 else 4
    let out (i : Nat) : List Nat × Bool := storeFloat (bitOf f.mod.toNat 2) ((floatAt (s.bytesOf x.segs) wi i).mul (Fv.of32 c))
    Performs s 0x5D f e [o, x] → 1 ≤ n → finiteIs e (bitOf f.mod.toNat 3) f.ra f.imm.toNat c → e.va e.ctx f.op.toNat % 4 = 0 →
    e.locate e.ctx f.op.toNat 0 (n * wo) true = .inr o → e.locate e.ctx f.x0.toNat 0 (n * wi) false = .inr x → clash x.segs o.segs = false →
    GoesOn (.scale f) f s e Sts.ok (nextPc f e) (e.ctx.setSp f ((List.range n).any (fun i => (out i).2)))
      (s.putSegs (overSegs o.segs (plain ((List.range n).flatMap (fun i => (out i).1))))))

/-- KVQ and KVDQ (R166, R167): blocks of 32 values go into the cache in its formats, and the values of the cache's
rows come back. Where the spec leaves a choice open, it is the model's: log entries 31 and 77. -/
def Obligations.CacheFormats : Prop := ∀ (s : State) (f : Fetch) (e : Entry) (b c : Nat) (k : Loc), tokensAre f e b c →
  let z := Shape.of f.imm.toNat
  (∀ x : Loc,
    let v := s.envOf 0x58 f (.kvq f) false e
    let w := if z.qfmt = 0 then 2 else 4
    let ps := v.kvParts z f.op.toNat b c [0, 1, 2, 3] true
    let block (p : KvPart) (j i : Nat) : List Nat × List Nat × Bool :=
      packBlock (z.fmt p.sec) ((List.range 32).map (fun n =>
        floatAt (s.bytesOf x.segs) w ((((128 * p.n + j - b) * z.hkv + p.h) * 2 + p.sec / 2) * z.d + i * 32 + n)))
    let blocks (p : KvPart) := (rangeFrom p.j0 (p.j1 - p.j0)).flatMap (fun j => (List.range (z.d / 32)).map (block p j))
    Performs s 0x58 f e (x :: k :: ps.map (·.loc)) → x.holds (c * z.hkv * 2 * z.d * w) → v.kvAligned f.op.toNat = true →
    e.locate e.ctx f.x0.toNat 0 (c * z.hkv * 2 * z.d * w) false = .inr x → v.kvAll z f.op.toNat b c true = .inr k →
    GoesOn (.kvq f) f s e Sts.ok (nextPc f e) (e.ctx.setSp f (ps.any (fun p => p.sec % 2 == 0 && (blocks p).any (fun y => y.2.2))))
      (s.putSegs (ps.flatMap (fun p =>
        overSegs p.loc.segs (plain ((blocks p).flatMap (fun y => if p.sec % 2 = 0 then y.1 else y.2.1))))))) ∧
  (∀ o : Loc,
    let v := s.envOf 0x59 f (.kvdq f) false e
    let bf := bitOf f.mod.toNat 1
    let ps := v.kvParts z f.x0.toNat b c [0, 1, 2, 3] false
    let out : List (List Nat × Bool) := (groupsOf b c).flatMap (fun g => (rangeFrom g.2.1 (g.2.2 - g.2.1)).flatMap (fun j =>
      (List.range z.hkv).flatMap (fun h => [0, 2].flatMap (fun sec =>
        (KvRow.values (z.fmt sec) ((rowsOf z (s.partsRead ps) g.1 h sec).getD (j - g.2.1) [])).map (storeFloat bf)))))
    Performs s 0x59 f e (o :: k.mapped :: ps.map (·.loc)) → e.va e.ctx f.op.toNat % 4 = 0 → v.kvAligned f.x0.toNat = true →
    e.locate e.ctx f.op.toNat 0 (c * z.hkv * 2 * z.d * (if bf then 2 else 4)) true = .inr o → v.kvAll z f.x0.toNat b c false = .inr k →
    GoesOn (.kvdq f) f s e Sts.ok (nextPc f e) (e.ctx.setSp f (out.any (·.2))) (s.putSegs (overSegs o.segs (plain (out.flatMap (·.1))))))

/-- Supplies and the stamp (R295, R296, R470 to R475, R529): what a loss of main power, and of the always-on domain's supplies, leaves; the
power-up reset after a flush; the tick of the always-on domain, which counts the calendar and, while the uncore is dark, the stamp; and
its calibration.
Where the spec leaves a choice open, it is the model's: log entries 56 and 60. -/
def Obligations.SuppliesAndStamp : Prop := ∀ (s : State),
  let dark (t : State) : Prop := t.rakes = [] ∧ t.queues = [] ∧ t.pans = [] ∧ t.waits = [] ∧ t.sec.sessions = [] ∧ (∀ a, inHeap a = false → t.byte a = 0) ∧
    t.flash = s.flash ∧ t.stamp = s.board.aonStamp
  (s.board.main = true → s.board.flush = 2 → Completes .pwrfailRecovered s fun t =>
    dark t ∧ t.board.main = true ∧ t.board.flush = 0 ∧ t.board.reset = none ∧ t.rd Csr.RSTCAUSE_cause = 11) ∧
  (s.board.main = true → Completes .mainPowerLoss s fun t =>
    dark t ∧ t.board.main = false ∧ t.board.flush = 0 ∧ t.log.aon = s.log.aon ∧ (s.board.vaon = false → t.rd Csr.STAMPSTAT_on_vbat = 1) ∧
    ∀ g : Fld, g.lo < 64 → g.rws = false → 0x100000 ≤ g.off → g.off < 0x200000 → t.rd g = s.rd g) ∧
  (Completes .aonSupplyLoss s fun t =>
    t.board.vaon = false ∧ t.board.vbat = false ∧ t.board.aonLost = true ∧ t.board.aonStamp = 0 ∧ t.log.aon = [] ∧ t.rd Csr.SECSTAT_seal_valid = 0 ∧
    (∀ g : Fld, g.lo < 64 → 0x100000 ≤ g.off → g.off < 0x200000 → t.rd g = State.reset.rd g) ∧ t.mem = s.mem) ∧
  (s.board.vaon = true → Completes .vaonLow s fun t =>
    t.board = { s.board with vaon := false, vbat := true } ∧ t.rd Csr.STAMPSTAT_on_vbat = 1 ∧ s.keepsRegs t [Csr.STAMPSTAT_on_vbat.off] ∧ t.mem = s.mem) ∧
  (s.board.vaon = false → Completes .vaonReturn s fun t => t.board = { s.board with vaon := true } ∧ s.keepsRegs t [] ∧ t.mem = s.mem) ∧
  (s.uncoreLit = true → s.on Csr.STAMPSTAT_xtal_fail = false → Completes .xtalMissing s fun t =>
    t.rd Csr.STAMPSTAT_xtal_fail = 1 ∧ s.keepsRegs t [Csr.STAMPSTAT_xtal_fail.off] ∧ t.mem = s.mem) ∧
  (s.board.vaon = false → s.board.vbat = false → exec .aonTick s = .next s) ∧
  (s.board.vaon = true ∨ s.board.vbat = true →
    (s.uncoreLit = true → Completes .aonTick s fun t => t.stamp = s.stamp ∧ t.board.aonStamp = s.stamp ∧ t.board.acc = 0 ∧ t.mem = s.mem) ∧
    (s.uncoreLit = false → Completes .aonTick s fun t =>
      let a := ((s.board.acc + 1953125 : Nat) : Int) + toSigned 8 (s.rd Csr.STAMPCAL_cal)
      t.board.acc = a.toNat % 64 ∧ t.board.aonStamp = (s.board.aonStamp + a.toNat / 64) % 2 ^ 64 ∧ t.stamp = t.board.aonStamp ∧ t.mem = s.mem) ∧
    (∀ x, s.board.rtcLoad = some x → Completes .aonTick s fun t => t.rd Csr.RTCSEC_seconds = x % 2 ^ 48 ∧ t.rd Csr.RTCSUB_ticks = 0 ∧
      t.rd Csr.RTCSEC_valid = 1 ∧ t.board.rtcLoad = none) ∧
    (s.board.rtcLoad = none → s.board.rtcHold = 0 → s.rd Csr.RTCSUB_ticks < 32767 → Completes .aonTick s fun t =>
      t.rd Csr.RTCSUB_ticks = s.rd Csr.RTCSUB_ticks + 1 ∧ t.rd Csr.RTCSEC_seconds = s.rd Csr.RTCSEC_seconds) ∧
    (s.board.rtcLoad = none → s.board.rtcHold = 0 → s.rd Csr.RTCSUB_ticks = 32767 → Completes .aonTick s fun t =>
      t.rd Csr.RTCSUB_ticks = 0 ∧ t.rd Csr.RTCSEC_seconds = (s.rd Csr.RTCSEC_seconds + 1) % 2 ^ 48) ∧
    (s.board.rtcLoad = none → 0 < s.board.rtcHold → Completes .aonTick s fun t => t.board.rtcHold = s.board.rtcHold - 1 ∧ t.regs = s.regs)) ∧
  (∀ m : Nat, s.uncoreLit = true →
    let c : Int := ((5 * m + 128) / 256 : Nat) - 1953125
    (-128 ≤ c ∧ c ≤ 127 → Completes (.stampCalibrate m) s fun t => toSigned 8 (t.rd Csr.STAMPCAL_cal) = c ∧
      s.keepsRegs t [Csr.STAMPCAL_cal.off, Csr.RTCTRIM_trim.off] ∧ t.mem = s.mem) ∧
    (c < -128 ∨ 127 < c → Completes (.stampCalibrate m) s fun t => s.keepsRegs t [] ∧ t.mem = s.mem))

/-- Clocks and power states (R469, R472, R476 to R482): an absent reference holds the device; a PLL that does not lock fails its domain; a stall
is gated and wakes; the device enters DEEP and leaves it; the rake clock goes to the point that was granted.
Where the spec leaves a choice open, it is the model's: log entries 56 and 57. -/
def Obligations.ClocksAndPowerStates : Prop := ∀ (s : State),
  let resets (c : Nat) (t : State) : Prop := t.board.reset = some .hard ∧ t.rd Csr.RSTCAUSE_cause = c ∧ t.queues = [] ∧ t.rakes = [] ∧ t.sec.sessions = []
  (s.board.main = true → s.board.refGone = false → s.board.flush ≠ 1 → s.board.reset ≠ some .powerUp → Completes .refAbsent s fun t =>
    t.board.refGone = true ∧ t.rd Csr.CLKSTAT_ref_present = 0 ∧ t.rakes = [] ∧ t.queues = [] ∧ t.sec.sessions = [] ∧ t.uncoreLit = false) ∧
  (s.board.main = true → s.board.refGone = false → s.board.flush = 1 ∨ s.board.reset = some .powerUp → Completes .refAbsent s fun t =>
    t.board = { s.board with refGone := true } ∧ t.rd Csr.CLKSTAT_ref_present = 0 ∧ s.keepsRegs t [Csr.CLKSTAT_ref_present.off] ∧ t.mem = s.mem) ∧
  (s.board.main = true → s.board.refGone = true → s.board.flush ≠ 1 → s.board.reset ≠ some .hard → s.board.reset ≠ some .powerUp →
    Completes .refReturn s fun t => resets 10 t ∧ t.board.refGone = false) ∧
  (s.board.main = true → s.board.refGone = true → s.board.reset = some .powerUp → s.board.prst = false → s.board.railOrder = false →
    s.board.trip = false → s.board.test = false → Completes .refReturn s fun t => t.board.refGone = false ∧ t.board.reset = none ∧ t.rd Csr.CLKSTAT_ref_present = 1 ∧ t.mem = s.mem) ∧
  (s.board.main = true →
    (∀ p, p = Pll.base ∨ p = Pll.mid ∨ (∃ b, p = Pll.stk b) → s.rd Csr.BOOTSTAT_stage = 7 → s.board.reset = none → s.board.flush ≠ 1 →
      Completes (.pllLockTimeout p) s (resets 8)) ∧
    (∀ p, p = Pll.base ∨ p = Pll.mid ∨ (∃ b, p = Pll.stk b) → s.rd Csr.BOOTSTAT_stage ≠ 7 → Completes (.pllLockTimeout p) s fun t =>
      s.keepsRegs t [] ∧ t.mem = s.mem) ∧
    (∀ (k : Fin 16) (a : Bool), s.rmActive = some a → s.stallFailed k = false → Completes (.pllLockTimeout (.rake k)) s fun t => t.stallFailed k = true) ∧
    (∀ c, Completes (.pllLockTimeout (.ddr c)) s fun t => t.chanOos c = true ∧ t.bit Csr.CLKSTAT_ddr_lock c = false) ∧
    (∀ p, Completes (.pllLockTimeout (.port p)) s fun t => t.link p = 0) ∧
    (Completes (.pllLockTimeout .pex) s fun t => s.keepsRegs t [] ∧ t.mem = s.mem)) ∧
  (∀ k : Fin 16,
    (s.bit Csr.STALLPWR_gated k = false → s.bit Csr.STALLPWR_waking k = false → s.stallFailed k = false → s.relist.stallIdle k = true →
      s.uncoreLit = true → s.board.reset = none → Completes (.stallGate k) s fun t =>
        t.bit Csr.STALLPWR_gated k = true ∧ (∀ r < 16, t.rd (Csr.RAKESTAT_state k r) = 3) ∧
        t.bit (Csr.CARSTATE_masked (carBase (.rake k))) 0 = true ∧ t.mem = s.mem) ∧
    (s.relist.stallIdle k = false → exec (.stallGate k) s = .next s.relist) ∧
    (s.bit Csr.STALLPWR_gated k = true → s.bit Csr.STALLPWR_waking k = false → s.inDeep = false → Completes (.stallWake k) s fun t =>
      t.bit Csr.STALLPWR_waking k = true ∧ t.bit Csr.STALLPWR_gated k = true ∧ t.mem = s.mem) ∧
    (s.bit Csr.STALLPWR_waking k = true → Completes (.stallWakeDone k) s fun t =>
      t.bit Csr.STALLPWR_gated k = false ∧ t.bit Csr.STALLPWR_waking k = false ∧ (∀ r < 16, t.rd (Csr.RAKESTAT_state k r) = 0) ∧
      t.bit (Csr.CARSTATE_masked (carBase (.rake k))) 0 = false ∧ (s.fab.doors = [] → t.mem = s.mem))) ∧
  (s.deepReady = true → Completes .deepEnter s fun t =>
    t.inDeep = true ∧ (∀ c < 48, (t.chan c).low = 2) ∧ t.board.aonStamp = s.stamp ∧ t.stamp = s.stamp ∧ t.rd Csr.CLKSTAT_base_lock = 0 ∧ t.mem = s.mem) ∧
  (s.deepReady = false → exec .deepEnter s = .next s) ∧
  (s.inDeep = true → Completes .deepExit s fun t =>
    t.rd Csr.PWRSTAT_state = (if s.allIdle then 1 else 0) ∧ (∀ c < 48, (t.chan c).low = 0) ∧ t.stamp = s.board.aonStamp ∧ t.rd Csr.CLKSTAT_base_lock = 1 ∧
    t.mem = s.mem) ∧
  (s.inDeep = false → exec .deepExit s = .next s) ∧
  (∀ j, s.board.raising = some j → j < 5 → Completes .rakeClockChange s fun t =>
    t.rd Csr.PWRSTAT_point = j ∧ t.on Csr.PWRSTAT_boost = (j != 0) ∧ t.board = { s.board with raising := none } ∧ t.mem = s.mem) ∧
  (s.board.raising = none → exec .rakeClockChange s = .next s)

/-- The budget and the hard-limit block (R483 to R487): what an interval measures; the limits then fit the cap, or nothing is left to cut; without
boost the rake point is 0. Above p_max_w the hard-limit block imposes point 0 and the least duty, until it is released.
Where the spec leaves a choice open, it is the model's: log entry 58. -/
def Obligations.PowerBudget : Prop := ∀ (s : State) (mw : List (BitVec 20)),
  let p := (List.range 8).map (fun i => (mw.getD i 0).toNat)
  let own := s.board.own
  (s.uncoreLit = true → s.board.reset = none → Completes (.budgetInterval mw) s fun t =>
    (∀ i < 8, t.rd (Csr.PWRMEAS_mw i) = p.getD i 0) ∧ t.rd Csr.PWRTOT_avg_mw = min p.sum 0xFFFFF ∧
    (s.rd Csr.PWRTOT_peak_mw < 2 ^ 20 → t.rd Csr.PWRTOT_peak_mw = max (s.rd Csr.PWRTOT_peak_mw) (min p.sum 0xFFFFF)) ∧
    (s.on Csr.PWRCAP_boost_en = false → t.board.own.point = 0) ∧
    (s.on Csr.PWRCAP_boost_en = true → own.point < 5 → own.duty ≤ 16 → own.heap ≤ 100 → own.mem ≤ 100 →
      s.powerThen p s.limits (s.inForce t.board.own) ≤ s.capMw t.board.hot ∨ s.cutOnce t.board.own = none) ∧
    t.on Csr.PWRSTAT_throttled = (decide (t.board.own.duty < 16) || decide (t.board.own.heap < 100) || decide (t.board.own.mem < 100)) ∧ t.mem = s.mem) ∧
  (s.uncoreLit = false → exec (.budgetInterval mw) s = .next s) ∧
  (∀ x : Nat, 1000 * s.rd Csr.HLFUSE_p_max_w < x → s.on Csr.PWRSTAT_hl_power = false → own.duty ≤ 16 → Completes (.hlPowerCheck x) s fun t =>
    t.rd Csr.PWRSTAT_hl_power = 1 ∧ t.rd Csr.HLSTAT_power_active = 1 ∧ t.rd Csr.PWRSTAT_point = 0 ∧
    t.rd Csr.PWRSTAT_duty = min own.duty (s.rd Csr.PWRCAP_min_duty) ∧ t.mem = s.mem) ∧
  (∀ x : Nat, x ≤ 1000 * s.rd Csr.HLFUSE_p_max_w → exec (.hlPowerCheck x) s = .next s) ∧
  (s.on Csr.PWRSTAT_hl_power = true → Completes .hlPowerRelease s fun t =>
    t.rd Csr.PWRSTAT_hl_power = 0 ∧ t.rd Csr.HLSTAT_power_active = 0 ∧ t.board.own = own ∧ t.mem = s.mem)

/-- Monitors, ageing and the calendar (R488, R524 to R532): sensors and what they impose, a trip and the restart after it; rails; the monitors of
ageing and the plan made from them; the calendar's trim and snapshot, and its alarms.
Where the spec leaves a choice open, it is the model's: log entries 59 and 60. -/
def Obligations.MonitorsAndCalendar : Prop := ∀ (s : State),
  (∀ (i : Fin 48) (v : BitVec 12) (bad : Bool), s.board.main = true →
    let r := toSigned 12 v.toNat
    let fails : Prop := bad = true ∨ r < -400 ∨ 1200 < r
    (fails → Completes (.sensorSample i v bad) s fun t => t.rd (Csr.TEMP_reading i) = v.toNat ∧ t.rd (Csr.TEMP_fail i) = 1) ∧
    (¬fails → r < ((8 * s.rd Csr.HLFUSE_t_trip : Nat) : Int) → Completes (.sensorSample i v bad) s fun t =>
      t.rd (Csr.TEMP_reading i) = v.toNat ∧ t.rd (Csr.TEMP_fail i) = 0 ∧ (r / 8 ≤ 127 → r / 8 ≤ toSigned 8 (t.rd (Csr.TEMP_max_c i))) ∧
      (((8 * s.rd Csr.HLFUSE_t_throttle : Nat) : Int) ≤ r → 97 ≤ s.rd Csr.HLFUSE_t_throttle → t.on Csr.PWRSTAT_hl_thermal = true)) ∧
    (¬fails → ((8 * s.rd Csr.HLFUSE_t_trip : Nat) : Int) ≤ r → s.board.trip = false → s.board.flush ≠ 1 → s.board.reset ≠ some .powerUp →
      Completes (.sensorSample i v bad) s fun t => t.board.trip = true ∧ t.board.selfRefresh = true ∧ t.rakes = [] ∧ t.queues = [] ∧ t.uncoreLit = false)) ∧
  (s.board.main = true → s.board.trip = true → s.hotter 90 = false → s.board.reset = none → s.board.flush ≠ 1 → Completes .tripRestart s fun t =>
    t.board.trip = false ∧ t.board.reset = some .hard ∧ t.rd Csr.RSTCAUSE_cause = 7 ∧ t.rd Csr.HLSTAT_trip_seen = 1) ∧
  (s.hotter 90 = true → exec .tripRestart s = .next s) ∧
  (∀ (i : Fin 24) (mv : BitVec 11), s.board.main = true → Completes (.vmonSample i mv) s fun t =>
    t.rd (Csr.VMON_mv i) = mv.toNat ∧ s.keepsRegs t [(Csr.VMON_mv i).off] ∧ t.mem = s.mem ∧
    (mv.toNat < s.rd (Csr.VMON_low_mv i) ∨ s.rd (Csr.VMON_high_mv i) < mv.toNat → t.rd (Csr.VMON_out i) = 1)) ∧
  (s.board.main = true → Completes .pmbAlert s fun t =>
    t.rd (Csr.VMON_out 0) = 1 ∧ 0 ∈ t.board.out ∧ s.keepsRegs t [(Csr.VMON_out 0).off] ∧ t.mem = s.mem) ∧
  (∀ d : List (BitVec 24),
    (s.inDeep = true → Completes (.ageMeasure d) s fun t => t = { s with board := { s.board with ageDue := true } }) ∧
    (s.inDeep = false → s.uncoreLit = true → Completes (.ageMeasure d) s fun t =>
      (∀ i < 32, t.rd (Csr.AGE_d_ppm i) = (d.getD i 0).toNat) ∧ t.rd Csr.AGELAST_stamp = s.stamp % 2 ^ 64 ∧ t.board.ageDue = false ∧ t.mem = s.mem)) ∧
  (∀ steps, steps = planSteps (((List.range 32).map (fun i => s.rd (Csr.AGE_d_ppm i))).foldl max 0) (s.rd Csr.AGEPLAN_steps) →
    s.rd Csr.HLFUSE_vcore_max < 512 → s.uncoreLit = true → Completes .marginReplan s fun t =>
      t.rd Csr.AGEPLAN_steps = steps % 64 ∧ t.mem = s.mem ∧ t.on Csr.AGEPLAN_limit = decide (s.rd Csr.HLFUSE_vcore_max < 300 + steps) ∧
      ∀ j < 5, (300 + 10 * j + steps ≤ s.rd Csr.HLFUSE_vcore_max → t.rd (Csr.VCOREOP_code j) = 300 + 10 * j + steps) ∧
        t.bit Csr.AGEPLAN_points_ok j = (j == 0 || decide (300 + 10 * j + steps ≤ s.rd Csr.HLFUSE_vcore_max))) ∧
  (s.rd Csr.RTCSEC_seconds % 32 = 0 → s.rd Csr.RTCSUB_ticks = 0 → s.board.rtcHold = 0 → s.board.vaon = true ∨ s.board.vbat = true →
    let x := toSigned 8 (s.rd Csr.RTCTRIM_trim)
    (x < 0 → Completes .rtcTrim s fun t => t = { s with board := { s.board with rtcHold := x.natAbs } }) ∧
    (0 ≤ x → Completes .rtcTrim s fun t => t.rd Csr.RTCSUB_ticks = x.toNat ∧ t.board = s.board ∧ t.mem = s.mem)) ∧
  (s.board.vaon = true ∨ s.board.vbat = true → Completes .rtcSnapshot s fun t =>
    t.rd Csr.RTCSNAPSTAMP_stamp = s.stamp % 2 ^ 64 ∧ t.rd Csr.RTCSNAPSEC_seconds = s.rd Csr.RTCSEC_seconds % 2 ^ 48 ∧
    t.rd Csr.RTCSNAPSEC_ticks = s.rd Csr.RTCSUB_ticks % 2 ^ 15 ∧ t.mem = s.mem) ∧
  (∀ k : Fin 2, s.on Csr.RTCSEC_valid = true → s.on (Csr.ALARM_en k) = true → s.rd (Csr.ALARM_at_sec k) ≤ s.rd Csr.RTCSEC_seconds →
    Completes (.alarmFire k) s fun t =>
      t.rd (Csr.ALARM_en k) = 0 ∧ t.bit Csr.ALARMSTAT_fired k = true ∧ t.mem = s.mem ∧
      (s.on (Csr.ALARM_pin k) = true ∨ s.board.main = false → t.rd Csr.ALARMSTAT_pin_asserted = 1) ∧
      (s.board.main = false → t.on Csr.MISSED_valid = true ∧ t.rd Csr.MISSED_count = min 255 (s.rd Csr.MISSED_count + 1))) ∧
  (∀ k : Fin 2, s.on (Csr.ALARM_en k) = false → exec (.alarmFire k) s = .next s)

/-- Resets (R491 to R498, R514): power-up, the rails and the straps; PRST_N asserted, stuck and released; the warm and hard resets that software, a
watchdog or a management request starts. A hard reset leaves queues, rakes and sessions empty and keeps its cause, and the firmware
starts in RECOVERY when that was requested.
Where the spec leaves a choice open, it is the model's: log entries 17, 54, 55 and 56. -/
def Obligations.Resets : Prop := ∀ (s : State),
  let stage (rec_ hard : Bool) (t : State) : Prop := t.rd Csr.BOOTSTAT_stage =
    (if rec_ = true ∨ s.on Csr.RSTCAUSE_recovery_req = true then 9 else if s.board.loaded = false then 0 else if s.board.cache = false ∨ (hard = true ∧ s.untried ≠ none) then 1 else 2)
  let hard (c : Nat) (rec_ : Bool) (t : State) : Prop := t.board.reset = some .hard ∧ t.rd Csr.RSTCAUSE_cause = c ∧ t.queues = [] ∧ t.rakes = [] ∧
    t.waits = [] ∧ t.sec.sessions = [] ∧ t.debugLevel = 0 ∧ t.flash = s.flash ∧ t.board.main = true ∧ stage rec_ true t
  let warm (c : Nat) (rec_ : Bool) (t : State) : Prop := t.board.reset = some .warm ∧ t.rd Csr.RSTCAUSE_cause = c ∧ t.rmState false = 1 ∧ t.rmState true = 0 ∧
    t.sec.sessions = [] ∧ t.debugLevel = 0 ∧ t.board.main = true ∧ stage rec_ false t
  let live : Prop := s.board.main = true ∧ s.board.flush ≠ 1 ∧ s.board.reset ≠ some .hard ∧ s.board.reset ≠ some .powerUp
  (∀ pres : Bool, s.board.main = false → Completes (.powerUp pres) s fun t =>
    t.board.main = true ∧ t.board.vaon = true ∧ t.board.reset = some .powerUp ∧ t.board.prst = true ∧ t.rd Csr.RSTCAUSE_cause = 0 ∧
    t.rd Csr.BOOTSTAT_stage = 0 ∧ t.stamp = s.board.aonStamp ∧ t.rd Csr.SECSTAT_pres_stuck = (if pres then 1 else s.rd Csr.SECSTAT_pres_stuck) ∧
    t.mem = s.mem) ∧
  (s.board.main = true → ∀ pres, exec (.powerUp pres) s = .next s) ∧
  (∀ late early, s.board.main = true → s.board.prst = true → Completes (.railOrder late early) s fun t =>
    t.board = { s.board with railOrder := true } ∧ s.keepsRegs t [] ∧ t.mem = s.mem) ∧
  (∀ (topo : Bool) (boot mgmt : BitVec 2), s.board.main = true → s.board.strapped = false → s.rd Csr.BOOTSTAT_stage = 0 →
    Completes (.strapSample topo boot mgmt) s fun t => t.board = { s.board with strapped := true } ∧
    t.on Csr.STRAPS_topo = topo ∧ t.rd Csr.STRAPS_boot = (if boot = 3 then 1 else boot.toNat) ∧
    t.rd Csr.STRAPS_mgmt = (if mgmt = 3 then 0 else mgmt.toNat) ∧ s.keepsRegs t [Csr.STRAPS_topo.off] ∧ t.mem = s.mem) ∧
  (s.board.strapped = true ∨ s.rd Csr.BOOTSTAT_stage ≠ 0 → ∀ topo boot mgmt, exec (.strapSample topo boot mgmt) s = .next s) ∧
  (live → s.board.prst = false → s.board.prstIgnored = false → Completes .prstAssert s fun t => hard 1 false t ∧ t.board.prst = true) ∧
  (s.board.main = true → s.board.flush = 1 → s.board.prst = false → s.board.prstIgnored = false →
    exec .prstAssert s = .next { s with board := { s.board with prst := true, prstAt := s.stamp } }) ∧
  (s.board.main = true → s.board.flush ≠ 1 → s.board.prst = true → Completes .prstStuck s fun t =>
    hard 2 false t ∧ t.board.prst = false ∧ t.board.prstIgnored = true ∧ t.rd Csr.RSTCAUSE_prst_stuck = 1) ∧
  (∀ test : Bool, s.board.main = true →
    (s.board.prstIgnored = true → exec (.prstRelease test) s = .next { s with board := { s.board with prstIgnored := false } }) ∧
    (s.board.prstIgnored = false → s.board.prst = true → s.board.reset = some .powerUp → s.board.refGone = false → s.board.trip = false →
      Completes (.prstRelease test) s fun t => t.board.prst = false ∧ t.board.test = test ∧
        (test = true → t.board.reset = some .powerUp ∧ t.rd Csr.BOOTSTAT_stage = s.rd Csr.BOOTSTAT_stage) ∧
        (test = false → t.board.reset = none ∧ t.rd Csr.BOOTSTAT_stage = (if s.on Csr.RSTCAUSE_recovery_req then 9 else 0)) ∧
        (s.board.railOrder = true → t.rd Csr.BOOTSTAT_rail_order = 1) ∧ t.mem = s.mem) ∧
    (s.board.prstIgnored = false → s.board.prst = true → s.board.reset ≠ some .powerUp → Completes (.prstRelease test) s fun t =>
      t.board = { s.board with prst := false, test := test, railOrder := false } ∧ t.mem = s.mem)) ∧
  (∀ (w : Writer) (rec_ : Bool),
    let v (op : Nat) : Nat := op + 0xA5 * 2 ^ 8 + (if rec_ then 2 ^ 16 else 0)
    (s.Reaches w 0x200200 (v 2) → s.board.reset ≠ some .hard → Completes (.rstcmdHard w 0xA5 rec_) s (hard 4 rec_)) ∧
    (s.Reaches w 0x200200 (v 1) → s.board.reset = none → Completes (.rstcmdWarm w 0xA5 rec_) s (warm 3 rec_)) ∧
    (∀ (key : BitVec 8) (op : Nat) (c : Instr), key ≠ 0xA5 → (op = 1 ∧ c = .rstcmdWarm w key rec_) ∨ (op = 2 ∧ c = .rstcmdHard w key rec_) →
      s.Reaches w 0x200200 (op + key.toNat * 2 ^ 8 + (if rec_ then 2 ^ 16 else 0)) → Completes c s fun t =>
        t.board = s.board ∧ t.mem = s.mem ∧ t.rd Csr.BOOTSTAT_stage = s.rd Csr.BOOTSTAT_stage)) ∧
  (∀ booth : Bool, live → s.heldInReset = false → Completes (.watchdogExpire booth) s fun t =>
    hard 9 false t ∧ (booth = false → t.mgmt.buffer ≠ none ∧ t.rd Csr.DUMPSTAT_pending = 1)) ∧
  (∀ (r : Req) (rec_ : Bool), s.heldInReset = false → s.mgmtPath r.eth = true → r.known = true → r.good = true →
    (s.mgmtAccepts r = true → s.board.reset = none →
      (Completes (.reset r 2 rec_) s fun t => hard 6 rec_ t ∧ ⟨3, r.id.toNat, 0, []⟩ ∈ t.mgmt.out) ∧
      (Completes (.reset r 1 rec_) s fun t => warm 5 rec_ t ∧ ⟨3, r.id.toNat, 0, []⟩ ∈ t.mgmt.out)) ∧
    (s.mgmtAccepts r = false → ∀ kind, Completes (.reset r kind rec_) s fun t =>
      t.mgmt.out = s.mgmt.out ++ [⟨3, r.id.toNat, 3, []⟩] ∧ t.board.reset = s.board.reset ∧ t.mem = s.mem))

/-- Booting (R499 to R507): what the end of each stage leads to, which image boots, images that are fetched, updated and confirmed, and the settings
record.
Where the spec leaves a choice open, it is the model's: log entries 15, 35, 43, 54 and 55. -/
def Obligations.Boot : Prop := ∀ (s : State),
  let at_ (n : Nat) (t : State) : Prop := t.rd Csr.BOOTSTAT_stage = n
  let st := s.rd Csr.BOOTSTAT_stage
  let halts (r : Nat) (t : State) : Prop := at_ 8 t ∧ t.rd Csr.BOOTSTAT_halt_reason = r ∧ t.board = { s.board with reset := none } ∧ t.mem = s.mem
  (s.heldInReset = true → ∀ e, exec (.bootStageEnd e) s = .next s) ∧
  (s.heldInReset = false →
    (st = 0 → Completes (.bootStageEnd .done) s fun t => at_ 1 t ∧ s.keepsRegs t [Csr.BOOTSTAT_stage.off] ∧ t.mem = s.mem) ∧
    (st = 0 ∨ (st = 1 ∧ s.bootStrap ≠ 2) → Completes (.bootStageEnd (if st = 0 then .noLoader else .noImage)) s fun t =>
      at_ 9 t ∧ t.rd Csr.RSTCAUSE_recovery_req = 0 ∧ t.board = { s.board with reset := none } ∧ t.mem = s.mem) ∧
    (st = 1 → s.bootStrap = 2 → Completes (.bootStageEnd .noImage) s (halts 1)) ∧
    (st = 2 → s.rd Csr.BOOTSTAT_source = 3 → Completes (.bootStageEnd .noImage) s fun t =>
      at_ 1 t ∧ t.board = { s.board with cache := false } ∧ s.keepsRegs t [Csr.BOOTSTAT_stage.off] ∧ t.mem = s.mem) ∧
    (st = 9 → Completes (.bootStageEnd .noImage) s (halts (if s.board.fetches = 0 then 1 else 2))) ∧
    (1 ≤ st → st ≤ 3 → Completes (.bootStageEnd .pll) s (halts 3)) ∧
    (st = 3 → Completes (.bootStageEnd .ddr) s (halts 4)) ∧
    (st = 3 → Completes (.bootStageEnd .stk) s (halts 5)) ∧
    (st ≤ 6 → Completes (.bootStageEnd .selfTest) s (halts 6)) ∧
    (∀ src i u, st = 1 → s.chooseImage = some (src, i, u) → src < 4 → i < 2 → Completes (.bootStageEnd .done) s fun t =>
      at_ 2 t ∧ t.rd Csr.BOOTSTAT_source = src ∧ t.rd Csr.BOOTSTAT_slot = i ∧ t.rd Csr.CLKSTAT_base_lock = 1 ∧ t.mem = s.mem ∧
      (s.board.loaded = false → t.rd Csr.CLAIMCUR_claim = (match s.flash.claim with
        | some c => (c + 0x10000) % 2 ^ 32
        | none => 1) ∧
        (s.sec.record = 2 ∨ s.sec.recordOk = false → t.rd Csr.SECSTAT_state = 2 ∧ t.sec.armed ≠ none) ∧
        (s.sec.record ≠ 2 → s.sec.recordOk = true → s.sec.record < 4 → t.rd Csr.SECSTAT_state = (if s.sec.record = 3 then 4 else s.sec.record)))) ∧
    (st = 1 → s.sec.rollback = none → s.board.reset ≠ some .hard → s.bootStrap = 1 → ∀ i, i < 2 → s.slotBoots i = true → SMap.get 0 i s.flash.unread < 3 →
      (s.slotIn 1 = none → s.slotIn 2 = some i → Completes (.bootStageEnd .done) s fun t =>
        at_ 2 t ∧ t.rd Csr.BOOTSTAT_source = 1 ∧ t.rd Csr.BOOTSTAT_slot = i) ∧
      (s.slotIn 1 = some i → s.rd (Csr.IMGSLOT_tries i) < 3 → Completes (.bootStageEnd .done) s fun t =>
        at_ 2 t ∧ t.rd Csr.BOOTSTAT_source = 2 ∧ t.rd Csr.BOOTSTAT_slot = i ∧ t.rd (Csr.IMGSLOT_tries i) = s.rd (Csr.IMGSLOT_tries i) + 1)) ∧
    (∀ (lo hi own : BitVec 16) mhz, st = 2 → s.board.reset ≠ some .warm → Completes (.bootStageEnd (.firmware lo hi own mhz)) s fun t =>
      at_ 3 t ∧ t.rd Csr.SETSTAT_fmt_own = own.toNat ∧ t.rd Csr.CLKSTAT_rake_lock = 0xFFFF ∧ t.board.cache = true ∧ t.mem = s.mem) ∧
    (∀ (lo hi own : BitVec 16) mhz, st = 2 → s.board.reset = some .warm → s.coh.txns ≠ [] →
      exec (.bootStageEnd (.firmware lo hi own mhz)) s = .next s) ∧
    (st = 3 → s.ddrServes = true → Completes (.bootStageEnd .done) s fun t =>
      at_ (if s.board.heapDone then 5 else 4) t ∧ t.board.memDone = true ∧ t.mem = s.mem) ∧
    (st = 3 ∨ st = 4 → s.board.heapDone = false → Completes (.bootStageEnd .heap) s fun t =>
      at_ (if s.board.memDone then 5 else 3) t ∧ t.board = { s.board with heapDone := true } ∧ t.mem = s.mem) ∧
    (st = 5 → s.board.reset ≠ some .hard → Completes (.bootStageEnd .done) s fun t => at_ 6 t ∧ t.mem = s.mem) ∧
    (st = 6 →
      let serves (t : State) : Prop := at_ 7 t ∧ t.board.reset = none ∧ t.rmState false = 4 ∧ t.rmHolder = false ∧
        t.rd Csr.CLAIMCUR_claim = s.rd Csr.CLAIMCUR_claim ∧ ∀ k < 50, t.latched k = s.rd Csr.CLAIMCUR_claim
      (Completes (.bootStageEnd .done) s fun t => serves t ∧ t.rmState true = 2) ∧
      (Completes (.bootStageEnd .bFails) s fun t => serves t ∧ t.rmState true = 0 ∧ t.rd Csr.BOOTSTAT_b_fail = 1))) ∧
  (∀ i : Image,
    (i.good = true → s.flash.floor ≤ i.svn.toNat → st = 1 → Completes (.imageFetchDone i) s fun t =>
      t = { s with board := { s.board with netImage := some (i.svn.toNat, i.build.toNat) } }) ∧
    (i.good = true → s.flash.floor ≤ i.svn.toNat → st = 9 → Completes (.imageFetchDone i) s fun t =>
      t.rd (Csr.IMGSLOT_state s.spareSlot) = 1 ∧ t.rd (Csr.IMGSLOT_svn s.spareSlot) = i.svn.toNat ∧
      t.rd (Csr.IMGSLOT_build s.spareSlot) = i.build.toNat ∧ s.spareSlot ∈ t.flash.whole ∧ t.mem = s.mem) ∧
    (i.good = false ∨ i.svn.toNat < s.flash.floor → st = 1 → s.board.fetches + 1 < s.rd Csr.BOOTCTL_net_tries → Completes (.imageFetchDone i) s fun t =>
      t.board = { s.board with fetches := s.board.fetches + 1 } ∧ s.keepsRegs t [] ∧ t.mem = s.mem) ∧
    (i.good = false ∨ i.svn.toNat < s.flash.floor → st = 1 → s.rd Csr.BOOTCTL_net_tries ≤ s.board.fetches + 1 → s.bootStrap = 2 →
      Completes (.imageFetchDone i) s fun t => at_ 8 t ∧ t.rd Csr.BOOTSTAT_halt_reason = 1 ∧ t.mem = s.mem)) ∧
  (st = 1 → s.bootStrap = 0 → s.board.netImage = none → s.on Csr.BOOTSTAT_fallback = false → Completes .netFetchTimeout s fun t =>
    t.rd Csr.BOOTSTAT_fallback = 1 ∧ s.keepsRegs t [Csr.BOOTSTAT_fallback.off] ∧ t.mem = s.mem) ∧
  (st = 1 → s.bootStrap = 2 → s.board.netImage = none → Completes .netFetchTimeout s (halts 1)) ∧
  (∀ i, i < 2 → st = 7 → s.board.netImage = none → s.flash.last = some i → Completes .imageConfirm s fun t =>
    t.rd (Csr.IMGSLOT_state i) = 2 ∧ (s.rd (Csr.IMGSLOT_state i) ≠ 2 → s.rd (Csr.IMGSLOT_state (1 - i)) = 2 → t.rd (Csr.IMGSLOT_state (1 - i)) = 3) ∧
    t.mem = s.mem) ∧
  (∀ svn build, svn < 2 ^ 16 → build < 2 ^ 32 → st = 7 → s.board.netImage = some (svn, build) → Completes .imageConfirm s fun t =>
    ∃ i < 2, t.rd (Csr.IMGSLOT_state i) = 2 ∧ t.rd (Csr.IMGSLOT_svn i) = svn ∧ t.rd (Csr.IMGSLOT_build i) = build) ∧
  (∀ w : Writer, s.Reaches w 0x200238 (setBits (s.readWord 0x200238) 20 1 1) → st ≠ 9 → Completes (.settingsCommit w) s fun t =>
    t.rd Csr.SETSTAT_committed = 1 ∧ t.rd Csr.SETSTAT_empty = 0 ∧ t.rd Csr.BOOTSTAT_settings_unreadable = 0 ∧ t.flash.unread = [] ∧
    t.newestSettings ≠ none ∧ t.mem = s.mem) ∧
  (∀ r : Req, s.heldInReset = false → s.mgmtPath r.eth = true → r.known = true → r.good = true →
    (∀ x : Image, s.mgmtAccepts r = true → x.good = true → Completes (.pldmFirmwareUpdate r (.image x)) s fun t =>
      t.rd (Csr.IMGSLOT_state s.spareSlot) = 0 ∧ t.rd (Csr.IMGSLOT_svn s.spareSlot) = x.svn.toNat ∧ s.spareSlot ∈ t.flash.whole ∧ t.mem = s.mem) ∧
    (s.mgmtAccepts r = true → s.spareSlot ∈ s.flash.whole → s.rd (Csr.IMGSLOT_state s.spareSlot) ≠ 2 →
      Completes (.pldmFirmwareUpdate r .activate) s fun t => t.rd (Csr.IMGSLOT_state s.spareSlot) = 1 ∧ t.mem = s.mem) ∧
    (r.eth = false → st = 9 → Completes (.pldmFirmwareUpdate r (.loader true)) s fun t => at_ 1 t ∧ t.mem = s.mem) ∧
    (r.eth = false → Completes (.pldmFirmwareUpdate r (.loader false)) s fun t => at_ st t ∧ t.mem = s.mem))

/-- Management requests (R510 to R516, R529, R461): a request that is well formed and accepted is performed and answered with its req_id; any other
is answered with what is wrong with it, and nothing else changes.
Where the spec leaves a choice open, it is the model's: log entries 61 and 85. -/
def Obligations.ManagementRequests : Prop := ∀ (s : State) (r : Req), s.heldInReset = false → s.mgmtPath r.eth = true →
  let u := s.deepExit.upRead
  let reply (op x : Nat) (b : List Nat) (t : State) : Prop := t.mgmt.out = s.mgmt.out ++ [⟨op, r.id.toNat, x, b⟩]
  let asks (c : Instr) (op : Nat) : Prop := (∃ off n, c = .csrRead r off n ∧ op = 1) ∨ (∃ off v, c = .csrWrite r off v ∧ op = 2) ∨
    (∃ kind rec_, c = .reset r kind rec_ ∧ op = 3) ∨ (∃ b, c = .sluice r b ∧ op = 4) ∨ (∃ log start n, c = .logRead r log start n ∧ op = 5) ∨
    (∃ slot off n, c = .dumpRead r slot off n ∧ op = 6) ∨ (∃ slot addr port mask maps events, c = .subscribe r slot addr port mask maps events ∧ op = 7) ∨
    (∃ sec, c = .rtcSet r sec ∧ op = 8)
  let still (t : State) : Prop := t.mem = s.mem ∧ t.sec = s.sec ∧ t.sluice = s.sluice ∧ t.board.reset = s.board.reset ∧ t.board.rtcLoad = s.board.rtcLoad ∧
    t.mgmt.subs = s.mgmt.subs ∧ t.mgmt.down = s.mgmt.down
  let ok : Prop := r.known = true ∧ r.good = true ∧ s.mgmtAccepts r = true
  (∀ c op, asks c op →
    (r.known = false → Completes c s fun t => reply op 5 [] t ∧ still t) ∧
    (r.known = true → r.good = false → Completes c s fun t => reply op 1 [] t ∧ still t) ∧
    (r.known = true → r.good = true → s.mgmtAccepts r = false → Completes c s fun t => reply op 3 [] t ∧ still t)) ∧
  (r.known = true → r.good = true → Completes (.nonce r) s fun t => ∃ n, reply 9 0 (leBytes 32 n) t ∧ t.sec = { s.sec with nonces := s.sec.nonces ++ [n] } ∧
    t.mem = s.mem) ∧
  (ok →
    (∀ (off count : Nat), off % 8 = 0 → 0 < count → count ≤ 64 → off + 8 * count ≤ 0x4000000 → Completes (.csrRead r off count) s fun t =>
      reply 1 0 (State.readWords count off u).1 t ∧ t.mem = s.mem) ∧
    (∀ off, Completes (.csrRead r off 0) s fun t => reply 1 1 [] t ∧ t.mem = s.mem) ∧
    (∀ (off : Nat) (v : Word), (u.csrWrite .mgmt off v.toNat).1 = .done → Completes (.csrWrite r off v) s fun t =>
      let x := (u.csrWrite .mgmt off v.toNat).2
      t.mgmt.out = x.mgmt.out ++ [⟨2, r.id.toNat, 0, []⟩] ∧ t.mem = x.mem ∧ t.board = x.board) ∧
    (∀ (off : Nat) (v : Word), (u.csrWrite .mgmt off v.toNat).1 = .refused → Completes (.csrWrite r off v) s fun t => reply 2 2 [] t ∧ t.mem = s.mem) ∧
    (∀ (off : Nat) (v : Word), off % 8 ≠ 0 → u.uncoreLit = true → Completes (.csrWrite r off v) s fun t => reply 2 1 [] t ∧ t.mem = s.mem) ∧
    (∀ b : List Nat, b.length = 23 → s.mgmt.down.length < 64 → Completes (.sluice r b) s fun t =>
      reply 4 0 [] t ∧ t.mgmt.down = s.mgmt.down ++ [(1, b)] ∧ t.sluice = s.sluice ∧ t.mem = s.mem) ∧
    (∀ b : List Nat, b.length = 23 → 64 ≤ s.mgmt.down.length → Completes (.sluice r b) s fun t => reply 4 4 [] t ∧ t.mgmt.down = s.mgmt.down) ∧
    (∀ log start count : Nat, log ≤ 2 → 0 < count → count ≤ 32 → Completes (.logRead r log start count) s fun t =>
      reply 5 0 ((rangeFrom start count).flatMap (u.logRecord log)) t ∧ t.mem = s.mem) ∧
    (∀ slot off len : Nat, slot ≤ 1 → 0 < len → len ≤ 1024 → off + len ≤ 0x800000 → ∀ d, SMap.get none slot s.mgmt.dumps = some d →
      Completes (.dumpRead r slot off len) s fun t => reply 6 0 ((rangeFrom off len).map d.byte) t ∧ t.mem = s.mem) ∧
    (∀ slot off len : Nat, slot ≤ 1 → 0 < len → len ≤ 1024 → off + len ≤ 0x800000 → SMap.get none slot s.mgmt.dumps = none →
      Completes (.dumpRead r slot off len) s fun t => ∃ b : List Nat, b.length = len ∧ reply 6 0 b t ∧ t.mem = s.mem) ∧
    (∀ (slot : Nat) (addr : BitVec 128) (port mask : BitVec 16) (maps events : Bool) (id : Nat), slot ≤ 3 → addr ≠ 0 → r.sess = some id →
      Completes (.subscribe r slot addr port mask maps events) s fun t => reply 7 0 [] t ∧ t.mem = s.mem ∧
        SMap.get none slot t.mgmt.subs = some ⟨addr.toNat, port.toNat, mask.toNat, maps, events, id, 0, u.evEnd⟩) ∧
    (∀ (slot : Nat) (port mask : BitVec 16) (maps events : Bool), slot ≤ 3 → Completes (.subscribe r slot 0 port mask maps events) s fun t =>
      reply 7 0 [] t ∧ SMap.get none slot t.mgmt.subs = none ∧ t.mem = s.mem) ∧
    (∀ sec : BitVec 48, Completes (.rtcSet r sec) s fun t => reply 8 0 [] t ∧ t.board.rtcLoad = some sec.toNat ∧ t.mem = s.mem))

/-- Publications, trace and crash dumps (R459, R469, R516 to R522): maps and event batches go to subscribers, each numbered; staged events enter
the ring; a trace point is recorded where its unit is lit; a dump is taken, copied to a slot that holds no unread one, and read.
Where the spec leaves a choice open, it is the model's: log entry 63. -/
def Obligations.PublicationsAndDumps : Prop := ∀ (s : State),
  (∀ (k : Fin 4) (x : Sub), SMap.get none k.val s.mgmt.subs = some x → s.serves = true →
    let rtc := if s.on Csr.RTCSEC_valid then s.rd Csr.RTCSEC_seconds else 0
    let next (y : Sub) (t : State) : Prop := SMap.get none k.val t.mgmt.subs = some y ∧ t.mem = s.mem
    (∀ m, x.maps = true → s.fab.map = some m → Completes (.mapPublish k) s fun t =>
      t.mgmt.pubs = s.mgmt.pubs ++ [⟨k, 1, x.seq, s.stamp, rtc, some m, []⟩] ∧ next { x with seq := (x.seq + 1) % 2 ^ 32 } t) ∧
    (let xs := ((s.eventsFrom x.next).filter (fun y => bitOf x.mask (y.1.id / 256))).take 40
     x.events = true → xs ≠ [] → Completes (.eventBatchPublish k) s fun t =>
      t.mgmt.pubs = s.mgmt.pubs ++ [⟨k, 2, x.seq, s.stamp, rtc, none, xs.map (·.1)⟩] ∧
      next { x with seq := (x.seq + 1) % 2 ^ 32, next := (xs.getLast?.map (·.2)).getD x.next } t) ∧
    (x.maps = false → exec (.mapPublish k) s = .next s) ∧ (x.events = false → exec (.eventBatchPublish k) s = .next s)) ∧
  (∀ e es, s.uncoreLit = true → s.log.staging = e :: es → s.evBacklog < 32768 → Completes .eventStageDrain s fun t =>
    t.log.staging = es ∧ t.rd Csr.EVPOS_producer = (s.rd Csr.EVPOS_producer + 1) % 2 ^ 32 ∧
    SMap.get EventRec.zero (s.rd Csr.EVPOS_producer % 32768) t.log.ring = { e with seq := s.rd Csr.EVPOS_producer } ∧ t.mem = s.mem) ∧
  (s.log.staging = [] → exec .eventStageDrain s = .next s) ∧
  (∀ (d : Fin 28) (point : BitVec 16) (args : BitVec 128),
    let r : TraceRec := ⟨point.toNat, 0, d, SMap.get 0 d.val s.mgmt.seqs, s.stamp, if s.traceBlank then 0 else args.toNat⟩
    let n := s.rd Csr.TRACEPOS_producer
    (s.on Csr.TRACECTL_en = true → s.bit (Csr.TRACEEN_groups d) (point.toNat / 1024) = true → s.traceLit d = true → s.on Csr.TRACECTL_stopped = false →
      s.inDeep = false → Completes (.tracePoint d point args) s fun t =>
        SMap.get TraceRec.zero (n % traceLen) t.mgmt.ring = r ∧ t.rd Csr.TRACEPOS_producer = (n + 1) % 2 ^ 64 ∧
        SMap.get 0 d.val t.mgmt.seqs = (SMap.get 0 d.val s.mgmt.seqs + 1) % 2 ^ 32 ∧
        (s.on Csr.TRACECTL_stop_on_full = true → (n + 1) % traceLen = 0 → t.rd Csr.TRACECTL_stopped = 1) ∧ t.mem = s.mem) ∧
    (s.on Csr.TRACECTL_en = false ∨ s.bit (Csr.TRACEEN_groups d) (point.toNat / 1024) = false ∨ s.traceLit d = false ∨ s.on Csr.TRACECTL_stopped = true →
      exec (.tracePoint d point args) s = .next s)) ∧
  (let blank := s.rd Csr.SECSTAT_state == 3 && !bitOf s.sec.policy 17
   (∀ (w : Writer) (c : FwCore), c ≠ .booth → Completes (.dumpTake w (some c)) s fun t =>
      t.mgmt.buffer = some ⟨1, coreNum c, s.stamp, s.rd Csr.RTCSEC_seconds, blank⟩ ∧ t.rd Csr.DUMPSTAT_pending = 1 ∧ t.mem = s.mem) ∧
   (∀ w : Writer, s.Reaches w 0x3100038 1 → Completes (.dumpTake w none) s fun t =>
      t.mgmt.buffer = some ⟨0, 0, s.stamp, s.rd Csr.RTCSEC_seconds, blank⟩ ∧ t.rd Csr.DUMPSTAT_pending = 1 ∧ t.mem = s.mem) ∧
   (∀ (w : Writer) (mask : BitVec 2), s.Reaches w 0x3100038 (mask.toNat * 2) → Completes (.dumpMarkRead w mask) s fun t =>
      (∀ k < 2, t.dumpSlot k = (if bitOf mask.toNat k = true ∧ s.dumpSlot k = 1 then 2 else s.dumpSlot k)) ∧ t.mgmt.buffer = s.mgmt.buffer ∧ t.mem = s.mem)) ∧
  (∀ d, s.heldInReset = false → s.mgmt.buffer = some d →
    (∀ k, k < 2 → s.dumpSlot k ≠ 1 → (k = 1 → s.dumpSlot 0 = 1) → Completes .dumpCopyDone s fun t =>
      SMap.get none k t.mgmt.dumps = some d ∧ t.dumpSlot k = 1 ∧ t.dumpSlot (1 - k) = s.dumpSlot (1 - k) ∧ t.mgmt.buffer = none ∧
      t.rd Csr.DUMPSTAT_pending = 0 ∧ t.mem = s.mem) ∧
    (s.dumpSlot 0 = 1 → s.dumpSlot 1 = 1 → Completes .dumpCopyDone s fun t =>
      t.mgmt.dumps = s.mgmt.dumps ∧ t.mgmt.buffer = none ∧ t.rd Csr.DUMPSTAT_pending = 0 ∧
      t.rd Csr.DUMPSTAT_lost = min 255 (s.rd Csr.DUMPSTAT_lost + 1) ∧ t.mem = s.mem)) ∧
  (s.mgmt.buffer = none → exec .dumpCopyDone s = .next s)

/-- Instructions that are not performed (R67, R95 to R97, R135): on a rake that runs nothing there is no effect; a word that does not decode, or does not
lie in the program, ends it MALFORMED, a privileged opcode outside the Ringmaster's queues PERMISSION; with a guard that is false the
program goes on with nothing read or written; a program whose last word has run ends with its record.
Where the spec leaves a choice open, it is the model's: log entry 6. -/
def Obligations.NotPerformed : Prop := ∀ (s : State) (c : Instr) (opc : Nat) (f : Fetch) (e : Entry), rakeOp c = some (opc, f) →
  let q := s.qidOf f.rake
  let decoded : Prop := (Insn.ofFetch opc f).decodes = true ∧ e.ctx.pc + 1 + f.xw ≤ e.codeWords
  ((s.rake f.rake).busy = false → exec c s = .next s) ∧
  ((s.rake f.rake).busy = true → (s.rake f.rake).instr = none → s.inHand f.rake = some e → e.onRake = some f.rake.val → s.coh.late = [] →
    (¬decoded → Ends c f.rake q s e Sts.malformed) ∧
    (decoded → privileged opc = true → isRm q = false → Ends c f.rake q s e Sts.permission)) ∧
  (Fetches s opc f e → e.ctx.pred f.g = f.gn →
    (e.ctx.pc + 1 + f.xw < e.codeWords → GoesOn c f s e Sts.ok (nextPc f e) e.ctx s) ∧
    (e.ctx.pc + 1 + f.xw = e.codeWords → e.durPos = none → e.worst = Sts.ok → Ends c f.rake q s e Sts.ok))

/-- One step takes the command at the front of the queue and runs it on the state with the queue's rest; with none waiting a nanosecond passes
on the stamp, where the uncore is lit (the model's choice: log entry 14). -/
def Obligations.StepRunsFrontCommand : Prop := ∀ (s : State),
  (∀ (c : Instr) (rest : List Instr), s.pending = c :: rest → step s = exec c { s with pending := rest }) ∧
  (s.pending = [] → s.uncoreLit = true → step s = .next { s with stamp := (s.stamp + 1) % 2 ^ 64 }) ∧
  (s.pending = [] → s.uncoreLit = false → step s = .next s)

/-- The device after reset: PRST_N still holds it in the power-up reset, at boot stage ROM; no command waits, nothing is stored, no granule is a
pan's, no queue, rake, session, link or lease exists, the tenancy is open, and registers read their reset values: every field that a
table of the spec gives one reads it. The model's choice are memory that reads zero (log entry 4), PRST_N asserted (17), and the values of
fields whose table gives no number, the tenancy among them (2, 15). -/
def Obligations.DeviceAfterReset : Prop :=
  State.reset.pending = [] ∧ State.reset.heldInReset = true ∧ State.reset.board.prst = true ∧ State.reset.rd Csr.BOOTSTAT_stage = 0 ∧
  SMap.wf 0 State.reset.mem = true ∧ (∀ a, State.reset.byte a = 0) ∧ (∀ n, State.reset.panFree n = true) ∧ (∀ q, State.reset.queue q = Queue.blank) ∧
  (∀ r, (State.reset.rake r).busy = false) ∧ State.reset.rd Csr.SECSTAT_state = 0 ∧ State.reset.sec.sessions = [] ∧
  (∀ p < 8, State.reset.link p = 0) ∧ (∀ k < 64, State.reset.rd (Csr.LENTSTAT_state k) = 0) ∧
  State.reset.rd Csr.PWRSTAT_duty = 16 ∧ State.reset.rd Csr.PWRCAP_p_cap_w = 150 ∧ State.reset.rd Csr.HLFUSE_t_trip = 105 ∧
  State.reset.rd Csr.BOOTCTL_confirm_s = 600 ∧ State.reset.rd Csr.TRPSTAT_a_state = 1 ∧ State.reset.rd Csr.MONCTL_t_warn = 90 ∧
  ∀ o r, Csr.find o = some r → ∀ f ∈ r.fields, State.reset.rd (f.fld o) = f.rst o ∧ State.reset.rdShadow (f.fld o) = f.rst o

/-- A device that is held in reset, or whose uncore is dark, ignores what reaches it (R541): no register write, NX message or control message
changes anything; and one that is held answers no request (the model's choice where the spec is silent: log entry 48). -/
def Obligations.HeldDeviceIgnores : Prop := ∀ (s : State) (c : Instr),
  (s.serves = false → reachesDevice c = true → exec c s = .next s) ∧ (s.heldInReset = true → asksFirmware c = true → exec c s = .next s)

/-- Every step goes on: the machine neither faults nor refuses a command, and the memory keeps its one canonical form, addresses rising
and no byte listed that reads as an unlisted one. -/
def Obligations.StepsKeepMemoryForm : Prop := ∀ s : State, SMap.wf 0 s.mem = true → ∃ t, step s = .next t ∧ SMap.wf 0 t.mem = true

/-- PROMOTE, DEMOTE, PIN and PIN with unpin (R127 to R130): pages that are where they should be need nothing, the others begin to move and the
instruction waits for its drain; a pinned mark is written into the page's leaf.
Where the spec leaves a choice open, it is the model's: log entries 52 and 71. -/
def Obligations.Placement : Prop := ∀ (s : State) (f : Fetch) (e : Entry) (ps : List (Mover × Nat)),
  let n := s.panOf f.rake
  let u := s.seenBy e
  let goes (i : Instr) (opc : Nat) (pick : Nat → Nat → Bool) (pinned : Bool) : Prop :=
    let t0 := bitsOf f.mod.toNat 0 2
    let ms := ps.filter (fun p => pick (tierOf p.1.addr) t0)
    Issues s opc f e → isRm (s.qidOf f.rake) = false → (s.envOf opc f i false e).range u = .pages ps u →
      (pinned = true → ∀ p ∈ ms, bitOf p.2 4 = false) →
      (ms = [] → GoesOn i f s e Sts.ok (nextPc f e) e.ctx s) ∧
      (∀ w, ms ≠ [] → ((((s.countFetch f e).seenBy e).viewSet (s.seenBy e).liveSet).startMoves (some f.rake.val) n t0 (ms.map (·.1)) []) = some w →
        Holds i f s e .drain fun t => ∃ x, t.shoots = s.shoots ++ [x] ∧ x.rake = some f.rake.val ∧ x.pan = n ∧ x.before = [] ∧ x.old = []
          ∧ x.switched = [] ∧ x.copies.map (fun c => (c.1, c.2.1, c.2.2.1)) = ms.map (fun m => (m.1.va, m.1.k, m.1.addr)))
  let pins (i : Instr) : Prop := ∀ (p : Mover × Nat) (table : Nat),
    Issues s 0x72 f e → isRm (s.qidOf f.rake) = false → u.Sound → (s.envOf 0x72 f i false e).range u = .pages [p] u →
      u.leafAt n p.1.va = some (p.1.k, table, pteIndex p.1.va p.1.k, p.2) → u.outsideCarve (table + 8 * pteIndex p.1.va p.1.k) 8 = true →
      Holds i f s e .drain fun t => t.pte table (pteIndex p.1.va p.1.k) = setBit p.2 4 (!bitOf f.mod.toNat 0)
        ∧ ∃ x, t.shoots = s.shoots ++ [x] ∧ x.rake = some f.rake.val ∧ x.pan = n ∧ x.copies = [] ∧ x.old = []
  goes (.promote f) 0x70 (fun old t => decide (t < old)) false ∧
  goes (.demote f) 0x71 (fun old t => decide (old < t)) true ∧
  pins (.pin f) ∧ pins (.unpin f)

/-- A page's copy completes and its leaf names the new place, where the same bytes are (R129, R285); a drain that has nothing left to wait for
ends the instruction that waited for it and releases the old granules (R215).
Where the spec leaves a choice open, it is the model's: log entries 52 and 71. -/
def Obligations.PageMoves : Prop := ∀ (s : State) (n va k a b table e0 i : Nat) (x : Shoot),
  (s.Sound → s.quiet = true → SMap.wf 0 s.mem → s.nodeId * 2 ^ 52 + b < 2 ^ 64 → s.copyOf n va = some (x, (va, k, a, b)) → s.heldIn a (span k) = [] →
    s.coh.txns.any (fun y => decide (a ≤ y.line * 128) && decide (y.line * 128 < a + span k)) = false → s.moveWaits n va = false →
    s.leafAt n va = some (k, table, i, e0) → i = pteIndex va k → tierOf a ≠ 3 → tierOf b ≠ 3 →
    s.outsideCarve (table + 8 * i) 8 = true → (∀ z < 64, s.rd (Csr.LENTSTAT_state z) ≠ 3) → (∀ p < 8, s.rd (Csr.HEAPPORT_state p) ≠ 3) →
    let done (c : Instr) : Prop := Completes c s fun t =>
      t.pte table i = pteLeaf (s.nodeId * 2 ^ 52 + b) (bitOf e0 2) (bitOf e0 3) (bitOf e0 4) (tierOf b)
      ∧ (∀ j, j < span k → ¬(table + 8 * i ≤ b + j ∧ b + j < table + 8 * i + 8) → t.byte (b + j) = s.byte (a + j))
      ∧ ∀ y ∈ t.shoots, y.pan = n → (va, k, a, b) ∉ y.copies
    (∀ m : Fin 64, m.val = n → tierOf a ≠ 2 → tierOf b ≠ 2 → done (.pageCopyDone va m)) ∧
    (∀ m : Fin 64, m.val = n → tierOf a = 2 ∨ tierOf b = 2 → done (.heapTransferDone m va []))) ∧
  (s.quiet = true → s.shoots[i]? = some x → x.copies = [] → x.before = [] → x.resume = [] → s.oldBusy x = false →
    (x.rake = none → Completes (.shootdownDrainDone i) s fun t => t.shoots = s.shoots.eraseIdx i ∧
      ∀ g ∈ x.old, (s.gran g).st = .owned → (s.gran g).retire = false → (t.gran g).st = .zeroing ∧ g ∈ t.zeroQ) ∧
    (∀ (opc : Nat) (ins : Instr) (f : Fetch) (e : Entry), x.rake = some f.rake.val → x.old = [] → rakeOp ins = some (opc, f) →
      Issues (s.freed f.rake) opc f e → (s.rake f.rake).instr = some ins → (s.rake f.rake).wait = .drain →
      (x.began = none → GoesOn (.shootdownDrainDone i) f s e Sts.ok (nextPc f e) e.ctx s) ∧
      Proceeds (.shootdownDrainDone i) f s e Sts.ok (nextPc f e) e.ctx fun t => t.mem = s.mem ∧ t.shoots = s.shoots.eraseIdx i))

/-- DURABLE.SYNC (R131): it completes where nothing durable was written, or once the log holds the writes in scope, and times out otherwise.
Where the spec leaves a choice open, it is the model's: log entry 23. -/
def Obligations.DurableSync : Prop := ∀ (s : State) (f : Fetch) (e : Entry),
  let n := s.panOf f.rake
  let q := s.qidOf f.rake
  let u := s.seenBy e
  let scope := bitsOf f.mod.toNat 0 1
  let touched := if scope = 0 then e.durPos.isSome = true else u.panDurable n = true ∧ (s.pan n).pos ≠ 0
  let covered (pos : Nat) : Prop := if scope = 0 then s.entryDurable q e = true else ∀ w ∈ (s.pan n).undur, pos ≤ w.pos
  (Issues s 0x73 f e → isRm q = false →
    (¬ touched → GoesOn (.durableSync f) f s e Sts.ok (nextPc f e) e.ctx s) ∧
    (touched → covered (s.pan n).pos → GoesOn (.durableSync f) f s e Sts.okDurable (nextPc f e) e.ctx s) ∧
    (touched → ¬ covered (s.pan n).pos → Holds (.durableSync f) f s e (.durable scope (s.pan n).pos) fun t => t.mem = s.mem)) ∧
  (∀ pos, Issues (s.freed f.rake) 0x73 f e → isRm q = false → (s.rake f.rake).instr = some (.durableSync f) → (s.rake f.rake).wait = .durable scope pos →
    (covered pos → GoesOn (.durableSyncDone f.rake) f s e Sts.okDurable (nextPc f e) e.ctx s) ∧
    (f.imm ≠ 0 → e.onRake = some f.rake.val → Ends (.durableSyncTimeout f.rake) f.rake q s e Sts.timeout))

/-- SUBMIT, NOTIFY, QSTAT and RDSYS (R109, R132 to R134).
Where the spec leaves a choice open, it is the model's: log entries 1 and 6. -/
def Obligations.QueueInstructions : Prop := ∀ (s : State) (f : Fetch) (e : Entry), isRm (s.qidOf f.rake) = false →
  let u := s.seenBy e
  (∀ l : Loc,
    let q := e.ctx.reg f.ra
    let x := s.queue q
    let slot := x.tail % x.depth
    let image := s.bytesOf l.segs
    let place := x.body + 256 * slot
    let stored := plain (setBits (image.headD 0) 0 1 (lapBit x.tail x.depthLog) :: image.tail)
    l.holds 256 → e.locate e.ctx f.op.toNat 0 256 false = .inr l → e.va e.ctx f.op.toNat % 256 = 0 →
    e.ctx.poi f.ra = false → q < 2 ^ 19 → x.st ≠ .free → x.pan = s.panOf f.rake → x.occupied < x.depth → place % 128 = 0 → s.outsideCarve place 256 = true →
    u.lineFree (place / 128) → (u.putBytes place (stored.take 128)).lineFree (place / 128 + 1) →
    (Performs s 0x80 f e [l] →
      GoesOn (.submit f) f s e Sts.ok (nextPc f e) ((e.ctx.setReg f.rb slot false).setSp f false)
        (s.putBytes place stored) ∧
      Completes (.submit f) s fun t => (t.queue q).tail = (x.tail + 1) % 2 ^ 32) ∧
    (Performs (s.freed f.rake) 0x80 f e [l] → (s.rake f.rake).instr = some (.submit f) → (s.rake f.rake).wait = .slot → s.answered →
      GoesOn (.submitSlotFreed f.rake) f s e Sts.ok (nextPc f e) ((e.ctx.setReg f.rb slot false).setSp f false)
        (s.putBytes place stored))) ∧
  (∀ p : Nat,
    let sel := bitOf f.mod.toNat 0
    let port := if sel then e.ctx.reg f.ra else e.port % 8
    Issues s 0x81 f e → (sel = true → e.ctx.poi f.ra = false ∧ e.ctx.reg f.ra < 8) → (sel = false → e.port / 8 = u.nodeId) →
    u.notifyDenied u.nodeId port = false → (u.pairOf port).find? u.linkUp = some p → u.ringPort p = false →
    Proceeds (.notify f) f s e Sts.ok (nextPc f e) (e.ctx.setSp f false) fun t => t.mem = s.mem ∧ ∃ m, t.txQueue p 2 = s.txQueue p 2 ++ [m] ∧ m.code = 0x21 ∧ m.dstPort = port ∧
      m.data = leBytes 8 (e.ctx.reg f.rb) ++ leBytes 8 (e.ctx.reg ((f.rb + 1) % 32))) ∧
  (Issues s 0x82 f e →
    let q := s.queue (e.ctx.reg f.rb)
    e.ctx.poi f.rb = false → e.ctx.reg f.rb < 2 ^ 19 → q.st ≠ .free → q.pan = s.panOf f.rake →
    GoesOn (.qstat f) f s e Sts.ok (nextPc f e) (e.ctx.setReg f.ra (q.occupied + (q.depth - q.occupied) * 2 ^ 32) false) s) ∧
  (Issues s 0x0D f e →
    let ran := e.ran + subMod s.stamp (s.rake f.rake).since 64
    ∃ v, GoesOn (.rdsys f) f s e Sts.ok (nextPc f e) (e.ctx.setReg f.ra v false) s ∧
      (f.imm = 0 → v = s.stamp) ∧ (f.imm = 1 → v = f.rake) ∧ (f.imm = 2 → v = ran) ∧ (f.imm = 3 → v = u.nodeId) ∧
      (f.imm = 4 → v = u.rakeCycles f.rake) ∧ (f.imm = 5 → v = e.pos % (s.queue (s.qidOf f.rake)).depth) ∧
      (f.imm = 6 → v = if e.limit = 0 then 2 ^ 64 - 1 else e.limit - ran))

/-- CARVE, MAP and UNMAP of the claim's holder (R136): the descriptor's fields stand in the pan's shadow registers, and the page's entry in its
table is the leaf, or is empty, with a drain to wait for (R215).
Where the spec leaves a choice open, it is the model's: log entry 42. -/
def Obligations.CarveMapUnmap : Prop := ∀ (s : State) (f : Fetch) (e : Entry) (n : Nat) (b : List Nat),
  s.holder f → s.Sound → e.ctx.poi f.ra = false → e.ctx.reg f.ra = n → n < 64 →
  (Issues s 0xC0 f e → s.sysHolds e f.op.toNat 256 b → (s.isSealed = true → s.on (Csr.PANKEY_valid n) = true) → s.shadowOpen = true →
    s.claimOf s.rmHolder = s.latched 0 →
    Proceeds (.carve f) f s e Sts.ok (nextPc f e) e.ctx fun t =>
      (∀ r ∈ [Csr.PANCTL_enable n, Csr.PANCTL_mirrored n, Csr.PANCTL_durable n, Csr.PANCTL_coh_msi n, Csr.PANCTL_home_tier n, Csr.PANCTL_stk_mode n,
          Csr.PANCTL_placement n, Csr.PANCTL_lent_allowed n, Csr.PANCTL_stall_mask n, Csr.PANCTL_cache_cap n],
        t.rdShadow r = bitsOf (blobField b 0 8) r.lo r.w) ∧
      (∀ k < 4, ∀ r ∈ [Csr.PANQUOTA_soft n k, Csr.PANQUOTA_hard n k], t.rdShadow r = bitsOf (blobField b (8 + 8 * k) 8) r.lo r.w) ∧
      t.rdShadow (Csr.PANSPILL_spill_budget n) = bitsOf (blobField b 40 8) 0 32 ∧
      t.rdShadow (Csr.PANDUR_dur_log_units n) = bitsOf (blobField b 48 8) 0 16 ∧
      t.activeSet = s.activeSet ∧ t.mem = s.mem) ∧
  (∀ addr table : Nat,
    let k := bitsOf f.mod.toNat 0 2
    let va := e.ctx.reg f.rb
    Issues s 0xC4 f e → bitOf f.mod.toNat 2 = false → f.imm = 1 → s.sysHolds e f.op.toNat 8 b → addr = ofLeBytes (b.take 8) → k < 3 →
    e.ctx.poi f.rb = false → va % span k = 0 → va + span k ≤ 2 ^ 56 → (s.panDurable n = true → k ≠ 0) → s.panActive n = true →
    s.addrFits k addr = true → s.addrOwned n k addr = true → s.mapClash n va k = false → s.twinFollows n = false →
    s.tableFor n va k 4 (s.ptRoot n) = some (table, pteIndex va k) → s.outsideCarve (table + 8 * pteIndex va k) 8 = true →
    Holds (.map f) f s e .drain fun t =>
      t.pte table (pteIndex va k) = pteLeaf addr (bitOf f.x0.toNat 2) (bitOf f.x0.toNat 3) false
        (if addr / 2 ^ 52 = s.nodeId then tierOf (addr % 2 ^ 52) else 0) ∧
      (∀ a, a < table + 8 * pteIndex va k ∨ table + 8 * pteIndex va k + 8 ≤ a → t.byte a = s.byte a) ∧
      ∃ x, t.shoots = s.shoots ++ [x] ∧ x.rake = some f.rake.val ∧ x.pan = n ∧ x.copies = [] ∧ x.old = []) ∧
  (∀ table e0 : Nat,
    let k := bitsOf f.mod.toNat 0 2
    let va := e.ctx.reg f.rb
    Issues s 0xC5 f e → f.imm = 1 → k < 3 → e.ctx.poi f.rb = false → va % span k = 0 → va + span k ≤ 2 ^ 56 → s.panActive n = true →
    s.leafAt n va = some (k, table, pteIndex va k, e0) → s.outsideCarve (table + 8 * pteIndex va k) 8 = true → s.twinFollows n = false →
    Holds (.unmap f) f s e .drain fun t => t.pte table (pteIndex va k) = 0 ∧
      (∀ a, a < table + 8 * pteIndex va k ∨ table + 8 * pteIndex va k + 8 ≤ a → t.byte a = s.byte a) ∧
      ∃ x, t.shoots = s.shoots ++ [x] ∧ x.rake = some f.rake.val ∧ x.pan = n ∧ x.copies = [] ∧ (bitOf f.mod.toNat 2 = false → x.old = []))

/-- KEYS in its four operations (R453).
Where the spec leaves a choice open, it is the model's: log entries 10, 11 and 42. -/
def Obligations.Keys : Prop := ∀ (s : State) (f : Fetch) (e : Entry) (n : Nat),
  Issues s 0xD0 f e → s.holder f → e.ctx.poi f.ra = false → e.ctx.reg f.ra = n →
  (∀ b : List Nat, n < 64 → bitsOf f.mod.toNat 0 3 = 0 → s.Sound → e.va e.ctx f.op.toNat % 16 = 0 → s.sysHolds e f.op.toNat 176 b →
    s.blobGood n b = true → (s.isSealed = true → blobField b 1 1 = 2) → s.on (Csr.PANKEY_valid n) = false →
    Proceeds (.panInstall f) f s e Sts.ok (nextPc f e) e.ctx fun t =>
      t.rd (Csr.PANKEY_valid n) = 1 ∧ t.rd (Csr.PANKEY_source n) = blobField b 1 1 % 2 ^ (Csr.PANKEY_source n).w ∧ t.rd (Csr.PANKEY_key_id n) = blobField b 8 8 % 2 ^ 32
      ∧ t.mem = s.mem ∧ (∀ ks, blobField b 1 1 ≠ 0 → s.blobKeys b = some ks → SMap.get PanKeys.none n t.sec.keys.pans = ⟨ks.1, ks.2⟩)) ∧
  (n < 64 → bitsOf f.mod.toNat 0 3 = 1 → s.panFree n = true →
    Proceeds (.panDestroy f) f s e Sts.ok (nextPc f e) e.ctx fun t =>
      t.rd (Csr.PANKEY_valid n) = 0 ∧ t.rd (Csr.PANKEY_source n) = 0 ∧ t.rd (Csr.PANKEY_key_id n) = 0 ∧ t.mem = s.mem ∧
      SMap.get PanKeys.none n t.sec.keys.pans = PanKeys.none) ∧
  (n < 8 → bitsOf f.mod.toNat 0 3 = 2 → s.on (Csr.PORTSEC_secured n) = true →
    Proceeds (.portRekey f) f s e Sts.ok (nextPc f e) e.ctx fun t =>
      t.rd (Csr.PORTSEC_generation n) = (s.rd (Csr.PORTSEC_generation n) + 1) % 256 ∧
      (s.linkUp n = true → ∃ m, (t.lnk n).ctrlq = (s.lnk n).ctrlq ++ [m] ∧ m.headD 0 = 0x52)) ∧
  (n < 8 → bitsOf f.mod.toNat 0 3 = 3 → s.link n ≠ 0 →
    Proceeds (.portEnd f) f s e Sts.ok (nextPc f e) e.ctx fun t => t.rd (Csr.PORTSEC_secured n) = 0)

/-- COMMIT, CLAIM and SCRUB (R404, R406, R411, R413, R455). Where the spec leaves a choice open, it is the model's:
log entries 41, 43, 65 and 76. -/
def Obligations.CommitClaimScrub : Prop := ∀ (s : State) (f : Fetch) (e : Entry), e.ctx.poi f.ra = false →
  (Issues s 0xE0 f e → s.holder f → s.epochNow < 2 ^ 17 → e.ctx.reg f.ra = s.epochNow → s.shadowOpen = true → s.refusals s.flipped = [] →
    (bitOf f.mod.toNat 0 = true →
      Proceeds (.commit f) f s e Sts.ok (nextPc f e) (e.ctx.setReg f.rb s.epochNow false) fun t =>
        t.rd Csr.COMMITSTAT_result = 3 ∧ t.epochNow = s.epochNow) ∧
    (bitOf f.mod.toNat 0 = false →
      let c := (s.rd Csr.EPOCHCUR_counter + 1) % 65536
      Proceeds (.commit f) f s e Sts.ok (nextPc f e) (e.ctx.setReg f.rb (c + (1 - s.activeSet) * 65536) false) fun t =>
        t.rd Csr.COMMITSTAT_result = 1 ∧ t.epochNow = c + (1 - s.activeSet) * 65536 ∧ t.rd Csr.EPOCHSTAT_shadow = 1)) ∧
  (∀ n : Nat, Issues s 0xE1 f e → e.ctx.poi f.rb = false → e.ctx.reg f.rb = n → n < 2 ^ 32 → e.ctx.reg f.ra < 2 ^ 32 → isNewer n (e.ctx.reg f.ra) 32 = true →
    s.rd Csr.CLAIMCUR_claim = e.ctx.reg f.ra →
    Proceeds (.claim f) f s e Sts.ok (nextPc f e) e.ctx fun t =>
      t.rd Csr.CLAIMCUR_claim = n ∧ t.rmHolder = rmInst (s.qidOf f.rake) ∧ t.claimOf (rmInst (s.qidOf f.rake)) = n ∧
      t.claimOf (!rmInst (s.qidOf f.rake)) = subMod n 1 32 ∧ (∀ k < 50, t.latched k = n) ∧ t.mem = s.mem) ∧
  (Issues s 0xF0 f e → s.holder f → e.onRake = some f.rake.val → e.ctx.reg f.ra < 2 ^ 32 → s.sec.armed = some (e.ctx.reg f.ra) → s.sec.scrubbed = 0 → s.sec.full = false → bitOf f.mod.toNat 0 = false →
    Proceeds (.scrub f) f s e Sts.ok (nextPc f e) e.ctx fun t =>
      t.sec.armed = none ∧ t.rd Csr.SECSTAT_state = (if s.sec.after = 3 then 3 else 0) ∧ (∀ q, isRm q = false → t.queue q = Queue.blank) ∧
      ∀ a, inHeap a = true ∨ inStk a = true → t.byte a = 0)

/-- REGISTER_WRITE (R2, R4, R410, R541): each field of a register whose write starts nothing else takes its new value by its access code, and no
other register changes but the marks of a written shadow (latency targets are at least 1, the map of segments that do not exist stays 0); a write that is refused changes no register but the count of refusals and, of an
instance whose claim is old, its state (R421); nothing is written while the device does not serve.
Where the spec leaves a choice open, it is the model's: log entry 66. -/
def Obligations.RegisterWrites : Prop := ∀ (s : State) (w : Writer) (off : Nat) (v : Word),
  (s.serves = false → exec (.registerWrite w off v) s = .next s) ∧
  (s.serves = true → (s.regWrite w off v.toNat).1 = .malformed → exec (.registerWrite w off v) s = .next s) ∧
  (s.serves = true → (s.regWrite w off v.toNat).1 = .refused → Completes (.registerWrite w off v) s fun t =>
    t.mem = s.mem ∧ t.queues = s.queues ∧ s.keepsRegs t [0x500050, 0x500058, 0x500008]) ∧
  (s.Reaches w off v.toNat → Csr.find off = none → commandsAt off = false → Completes (.registerWrite w off v) s fun t =>
    t.mem = s.mem ∧ s.keepsRegs t []) ∧
  (∀ r, s.Reaches w off v.toNat → Csr.find off = some r → commandsAt off = false → Completes (.registerWrite w off v) s fun t =>
    t.mem = s.mem ∧ t.queues = s.queues ∧ t.pans = s.pans ∧ t.grans = s.grans ∧
    s.keepsRegs t (off :: 0x500030 :: ((gateOf off).map (fun k => 0x501000 + 8 * k)).toList) ∧
    ∀ f ∈ r.fields,
      let g := f.fld off
      let x := bitsOf v.toNat f.lo f.w
      match f.acc with
      | .rw => ringOf r.name = none → t.rd g = x
      | .rws => t.rd g = s.rd g ∧ t.rdShadow g = if s.shadowOpen then x else s.rdShadow g
      | .w1c => t.rd g = (s.rd g ^^^ (s.rd g &&& x)) % 2 ^ f.w
      | .w1s => t.rd g = (s.rd g ||| x) % 2 ^ f.w
      | .ro | .rc | .wo => t.rd g = s.rd g) ∧
  (∀ (c : Fin 16) (i : Fin 4), s.Reaches w off v.toNat → s.shadowOpen = true →
    (off = 0x2A00018 + 8 * i.val → Completes (.registerWrite w off v) s fun t =>
      t.rdShadow (Csr.STKLAT_target i) = clampTargets i v.toNat ∧ s.keepsRegs t [off, 0x500030, 0x501000 + 8 * 45] ∧ t.mem = s.mem) ∧
    (off = 0x2800038 + 0x20000 * c.val + 8 * i.val → Completes (.registerWrite w off v) s fun t =>
      t.rdShadow (Csr.DDRLAT_target c i) = clampTargets i v.toNat ∧ s.keepsRegs t [off, 0x500030, 0x501000 + 8 * (29 + c.val)] ∧ t.mem = s.mem) ∧
    (off = 0x1038 → Completes (.registerWrite w off v) s fun t => t.rdShadow (Csr.STKSEGMAP_seg 3) = v.toNat % 2 ^ 47 ∧ t.mem = s.mem))

/-- The consumer counts of the four rings (R581): a count that the ring can have is taken, any other is not; and DROP_RECORD_WRITE (R13): the
record of the drops of a class enters its log, and the drops are cleared. -/
def Obligations.ConsumersAndDrops : Prop := ∀ (s : State) (w : Writer) (v : Word),
  let takes (c : Instr) (off width n : Nat) (prod cons : Fld) : Prop := s.Reaches w off v.toNat → Completes c s fun t =>
    let x := bitsOf v.toNat cons.lo width
    t.rd cons = (if subMod (s.rd prod) x width ≤ n then x else s.rd cons) ∧ t.rd prod = s.rd prod ∧ t.mem = s.mem
  takes (.evposConsumerWrite w v) 0x3100018 32 32768 Csr.EVPOS_producer Csr.EVPOS_consumer ∧
  takes (.errlogposConsumerWrite w v) 0x3018 32 8192 Csr.ERRLOGPOS_producer Csr.ERRLOGPOS_consumer ∧
  (∀ n : Fin 64, takes (.fqposConsumerWrite w n v) (0x200A0 + 0x100 * n.val) 32 4096 (Csr.FQPOS_producer n) (Csr.FQPOS_consumer n)) ∧
  takes (.aonlogposConsumerWrite w v) 0x100068 16 2048 Csr.AONLOGPOS_producer Csr.AONLOGPOS_consumer ∧
  (∀ (c : Fin 256) (d : DropCount), d ≠ DropCount.zero → SMap.get DropCount.zero c.val s.log.drops = d → s.log.staging.length < 2047 →
    Completes (.dropRecordWrite false c) s fun t =>
      t.log.staging = s.log.staging ++ [⟨256 * c.val + 0xFF, 0, 0, 0, s.stamp, d.count + d.first * 2 ^ 64⟩] ∧
      SMap.get DropCount.zero c.val t.log.drops = DropCount.zero ∧ s.keepsRegs t [] ∧ t.mem = s.mem) ∧
  (∀ (c : Fin 256) (d : DropCount), d ≠ DropCount.zero → SMap.get DropCount.zero c.val s.log.aonDrops = d → s.aonAdmits c.val = true →
    Completes (.dropRecordWrite true c) s fun t =>
      SMap.get EventRec.zero (s.rd Csr.AONLOGPOS_producer % 2048) t.log.aon
        = ⟨256 * c.val + 0xFF, 0, 0, s.log.aonSeq, s.stamp, d.count + d.first * 2 ^ 64⟩ ∧
      t.rd Csr.AONLOGPOS_producer = (s.rd Csr.AONLOGPOS_producer + 1) % 2 ^ 16 ∧
      SMap.get DropCount.zero c.val t.log.aonDrops = DropCount.zero ∧ s.keepsRegs t [] ∧ t.mem = s.mem)

/-- The eight queue commands (R182 to R185): what each makes of its queue, the result 0 (R183), and that no other queue's entries change. -/
def Obligations.QueueCommands : Prop := ∀ (s : State) (w : Writer) (k : Fin 16) (q : Fin 524288),
  let x := s.queue q
  let does (c : Instr) (op j : Nat) (P : State → Prop) : Prop := s.Commands w k op q j → Completes c s fun t =>
    P t ∧ (op ≠ 4 → t.rd (Csr.QCMDSTAT_result k) = 0 ∧ t.mem = s.mem) ∧ ∀ i : Nat, i ≠ q → (t.queue i).ents = (s.queue i).ents ∧ (t.queue i).st = (s.queue i).st
  (let d (f : Nat → Fld) : Nat := s.rd (f k)
   let rs := [(d Csr.QDESC0_body_base, 256 * 2 ^ d Csr.QDESC0_depth_log2), (d Csr.QDESC1_cq_base, 32 * 2 ^ d Csr.QDESC1_cq_log2),
     (d Csr.QDESC2_shadow_base, 4096 * d Csr.QDESC2_shadow_pages)]
   x.st = .free → 4 ≤ d Csr.QDESC0_depth_log2 → d Csr.QDESC0_depth_log2 ≤ 16 → 4 ≤ d Csr.QDESC1_cq_log2 → d Csr.QDESC1_cq_log2 ≤ 17 →
   1 ≤ d Csr.QDESC2_shadow_pages → s.paramsOk k = true → (∀ r ∈ rs, r.1 % 4096 = 0) → rs.Pairwise (fun a b => overlaps a.1 a.2 b.1 b.2 = false) →
   (∀ r ∈ rs, if isRm q then s.region r.1 = .system ∧ s.region (r.1 + r.2 - 1) = .system
     else tierOf r.1 = 1 ∧ tierOf (r.1 + r.2 - 1) = 1 ∧ s.ownsRange (d Csr.QDESC0_pan) r.1 r.2 = true) →
   does (.create w k q) 1 0 fun t => t.queue q = { Queue.blank with
     st := .stopped, home := k, body := d Csr.QDESC0_body_base, depthLog := d Csr.QDESC0_depth_log2, pan := d Csr.QDESC0_pan,
     cqBase := d Csr.QDESC1_cq_base, cqLog := d Csr.QDESC1_cq_log2, shBase := d Csr.QDESC2_shadow_base, shPages := d Csr.QDESC2_shadow_pages,
     ownNode := d Csr.QDESC3_owner_node, ownPort := d Csr.QDESC3_owner_port, conc := d Csr.QDESC3_concurrency,
     runLimitUs := d Csr.QDESC3_run_limit_us, quantum := d Csr.QDESC4_quantum, tbRate := d Csr.QDESC5_tb_rate,
     tbBurst := d Csr.QDESC5_tb_burst, tokens := d Csr.QDESC5_tb_burst * 65536 }) ∧
  (x.home = k → x.st = .stopped ∨ x.st = .paused →
    does (.enable w k q) 2 0 fun t => ∃ b, t.queue q = { x with st := .enabled, fresh := b }) ∧
  (x.home = k → x.st = .enabled → does (.pause w k q) 3 0 fun t => t.queue q = { x with st := .paused }) ∧
  (x.home = k → x.st = .enabled ∨ x.st = .paused → does (.stop w k q) 4 0 fun t =>
    (t.queue q).st = .stopped ∧ (∀ e ∈ (t.queue q).ents, e.done = true) ∧
    (x.ents = [] → t.queue q = { x with st := .stopped, resolving := none, stale := false } ∧ t.rd (Csr.QCMDSTAT_result k) = 0)) ∧
  (x.home = k → x.st = .stopped → x.ents = [] → does (.destroy w k q) 5 0 fun t => t.queue q = Queue.blank ∧ q.val ∉ t.actList x.dispStall) ∧
  (∀ j : Fin 16, x.home = k → x.st ≠ .free → x.moving = none →
    does (.move w k q j) 6 j fun t => ∃ b, t.queue q = { x with moving := some j.val, fresh := b }) ∧
  (x.home = k → x.st ≠ .free → s.paramsOk k = true → does (.setparam w k q) 7 0 fun t =>
    let burst := s.rd (Csr.QDESC5_tb_burst k)
    ∃ b, t.queue q = { x with
      conc := s.rd (Csr.QDESC3_concurrency k), runLimitUs := s.rd (Csr.QDESC3_run_limit_us k), quantum := s.rd (Csr.QDESC4_quantum k),
      tbRate := s.rd (Csr.QDESC5_tb_rate k), tbBurst := burst, fresh := b,
      tokens := if x.tbRate = 0 then burst * 65536 else min x.tokens (burst * 65536) }) ∧
  does (.read w k q) 8 0 (fun t => t.queues = s.queues ∧
    ∀ y ∈ [(Csr.QDESC0_body_base k, x.body), (Csr.QDESC0_depth_log2 k, x.depthLog), (Csr.QDESC0_pan k, x.pan), (Csr.QDESC1_cq_base k, x.cqBase),
      (Csr.QDESC2_shadow_base k, x.shBase), (Csr.QDESC3_concurrency k, x.conc), (Csr.QDESC4_quantum k, x.quantum),
      (Csr.QREAD0_head k, x.head), (Csr.QREAD0_tail k, x.tail), (Csr.QREAD1_admit k, x.admPos), (Csr.QREAD1_running k, x.running),
      (Csr.QREAD1_home k, x.home), (Csr.QREAD1_tokens k, x.tokens / 65536), (Csr.QREAD2_deficit k, ofSigned 40 x.deficit)],
      t.rd y.1 = y.2 % 2 ^ y.1.w) ∧
  (∀ (op : Nat) (c : Instr), (op, c) ∈ [(2, Instr.enable w k q), (3, .pause w k q), (4, .stop w k q), (5, .destroy w k q), (7, .setparam w k q)] →
    x.st = .free → s.Commands w k op q 0 → Completes c s fun t => t.rd (Csr.QCMDSTAT_result k) = 1 ∧ t.queues = s.queues)

/-- The ends that queues and entries come to by themselves: a move's end (R185), the refill of tokens (R189), the
record of durable writes (R80, R291) and the run limit (R87, R88). Where the spec leaves a choice open, it is the
model's: log entries 18, 67 and 75. -/
def Obligations.QueueEvents : Prop := ∀ (s : State) (q : Fin 524288),
  let x := s.queue q
  (∀ j : Nat, x.moving = some j → (∀ e ∈ x.ents, ∀ r, e.onRake = some r → r / 16 = x.home → j = x.home) →
    (Completes (.queueMoveDone q) s fun t => (t.queue q).home = j ∧ (t.queue q).moving = none) ∧
    ((∀ e ∈ x.ents, e.st ≠ .cut) → Completes (.queueMoveDone q) s fun t => ∃ b, t.queue q = { x with home := j, moving := none, fresh := b } ∧ t.mem = s.mem)) ∧
  (x.st ≠ .free → x.tbRate ≠ 0 → Completes (.tokenRefill q) s fun t =>
    ∃ b, t.queue q = { x with tokens := min (x.tokens + x.tbRate) (65536 * x.tbBurst), fresh := b } ∧ t.mem = s.mem) ∧
  (∀ (p : Nat) (e : Entry), x.ent p = some e → e.done = true → s.entryDurable q e = true → Completes (.durableRecordWrite q p) s fun t =>
    (t.queue q).ent p = none ∧ (t.queue q).cqProd = (x.cqProd + 1) % 2 ^ 32 ∧
    (s.ringFree q → t.byte (s.recordAt q + 6) = (if e.waitDur = true ∧ e.worst ≠ Sts.ok then e.worst % 256 else Sts.okDurable) ∧
      t.byte (s.recordAt q + 7) = (if e.waitDur then 0 else 2) + 128 * lapBit x.cqProd x.cqLog)) ∧
  (∀ (r : Fin 256) (e : Entry), (s.rake r).busy = true → s.inHand r = some e → e.onRake = some r.val → e.limit ≠ 0 →
    Ends (.runLimitExpire r) r (s.qidOf r) s e Sts.aborted)

/-- ENTRY_ADMIT (R56, R59 to R62): an entry with the right phase whose image is well formed and whose windows resolve is admitted with what
resolution found; a stale phase stops admission; a bad image ends with its status.
Where the spec leaves a choice open, it is the model's: log entries 9 and 24. -/
def Obligations.Admission : Prop := ∀ (s : State) (q : Fin 524288) (far : List (Nat × Bool)),
  let x := s.queue q
  let a := x.body + 256 * (x.admPos % x.depth)
  let image := ofLeBytes (s.bytes a 256)
  let pos := x.admPos
  let u := ((s.readMem Acc.sys a 256).2.flushCode q image).setQueue q (fun y => { y with resolving := some (s.stamp, 0) })
  s.Sound → x.freed = [] → x.st = .enabled → x.stale = false → x.admPos ≠ x.tail → x.ent pos = none → x.resolving = none → s.unresolved q = none →
  (∀ d ∈ s.admitLines q, s.conflicts false d = false) →
  (image % 2 ≠ lapBit pos x.depthLog → Completes (.entryAdmit q far) s fun t => t.queue q = { x with stale := true } ∧ t.mem = s.mem) ∧
  (image % 2 = lapBit pos x.depthLog →
    (∀ st, parseEntry image pos (x.doorPort pos) q = .inl st → x.cqFree ≠ 0 → Completes (.entryAdmit q far) s fun t =>
      (t.queue q).admPos = (pos + 1) % 2 ^ 32 ∧ (t.queue q).ent pos = none ∧ (t.queue q).cqProd = (x.cqProd + 1) % 2 ^ 32 ∧
      (s.ringFree q → st < 256 → t.byte (s.recordAt q + 6) = st)) ∧
    (∀ e, parseEntry image pos (x.doorPort pos) q = .inr e →
      (∀ (e' : Entry) (hits : Nat) (v : State),
        let want := if !e.waitDur && (v.panDurable x.pan || e'.allRuns.any (fun r => !r.zero && r.addr / 2 ^ 52 != v.nodeId)) && !isRm q then 2 else 1
        u.resolveEntry q e far = (.ok e' hits, v) → isRm q = true ∨ v.remapped s.stamp (v.runGrans e'.allRuns) = false →
        x.shUsed + e'.shadowBytes ≤ 4096 * x.shPages → want ≤ x.cqFree → Completes (.entryAdmit q far) s fun t =>
          (t.queue q).ent pos = some { e' with st := .admitted, r0 := s.stamp, shadow := e'.shadowBytes, set := v.activeSet,
                                               reserved := want, gen := none } ∧
          (t.queue q).admPos = (pos + 1) % 2 ^ 32 ∧ (t.queue q).shUsed = x.shUsed + e'.shadowBytes ∧ t.mem = s.mem) ∧
      (let want := if !e.waitDur && s.panDurable x.pan && !isRm q then 2 else 1
       e.inl = true → (∀ y ∈ e.wins, y.kind = 0) → x.shUsed + 64 ≤ 4096 * x.shPages → want ≤ x.cqFree → Completes (.entryAdmit q far) s fun t =>
          (t.queue q).ent pos = some { e with st := .admitted, r0 := s.stamp, shadow := 64, set := s.activeSet, reserved := want, gen := none } ∧
          (t.queue q).admPos = (pos + 1) % 2 ^ 32 ∧ (t.queue q).shUsed = x.shUsed + 64 ∧ t.mem = s.mem)))

/-- ENTRY_DISPATCH (R63, R65, R186, R187): a scheduler that wins the rake dispatch of its stall gives the next entry
of the queue at the front of its list, whose deficit is positive, to the rake, in the context of Table 03-5, or as it
was left when it was parked. Where the spec leaves a choice open, it is the model's: log entries 8, 67, 75 and 83. -/
def Obligations.Dispatching : Prop := ∀ (s : State) (r : Fin 256) (q pos : Nat) (l : List Nat) (e : Entry),
  let x := s.queue q
  let fresh := !x.resumeQ.contains pos
  (s.rake r).busy = false → (s.rake r).helps = 0 → s.stallFailed (r.val / 16) = false → s.bit Csr.STALLPWR_gated (r.val / 16) = false →
  s.bit Csr.STALLPWR_waking (r.val / 16) = false → s.rakesHeld (r.val / 16) = false →
  s.carMasked (0x1007000 + 0x100000 * (r.val / 16)) 0 = false → s.relist = s → s.actList (r.val / 16) = q :: l → s.eligible q = true → x.fresh = false →
  0 < x.deficit → x.next = some pos → x.ent pos = some e →
  Completes (.entryDispatch r) s fun t =>
    t.rake r = { Rake.idle with busy := true, qid := q, pos := pos, since := s.stamp, mark := s.stamp } ∧
    (t.queue q).ent pos = some { e with st := .running r, slot := if fresh && !isRm q then s.freeSlot x.pan else e.slot, ctx := if fresh then e.startCtx else e.ctx,
                                        limit := if fresh then 1000 * (if e.runLimit = 0 then x.runLimitUs else e.runLimit) else e.limit } ∧
    (t.queue q).tokens = (if x.tbRate = 0 then x.tokens else x.tokens - 65536) ∧
    t.rd (Csr.RAKESTAT_state (r.val / 16) (r.val % 16)) = 1 ∧ t.rd (Csr.RAKESTAT_qid (r.val / 16) (r.val % 16)) = q % 2 ^ 19 ∧ t.mem = s.mem

/-- Translation: a walk completes and its entry knows the page (R209, R210); fault batches close and are posted to the
pan's ring (R218, R219); a resume or an abort by register reaches its held entry (R221); a flush empties the caches
(Table 07-12). Where the spec leaves a choice open, it is the model's: log entries 25, 70 and 82. -/
def Obligations.Translation : Prop := ∀ (s : State) (w : Writer) (n : Fin 64),
  (∀ (key va : Nat) (x : Walk), s.walks.find? (fun y => y.key == key && y.va == va && y.found.isNone && !y.waits) = some x →
    Completes (.pageWalkDone key va) s fun t => { x with found := some (s.walk x.pan va).1 } ∈ t.walks ∧ t.mem = s.mem) ∧
  (∀ (bs : List Batch) (b : Batch), (s.pan n).batches = bs ++ [b] → b.close = none →
    Completes (.faultBatchClose n) s fun t => (t.pan n).batches = bs ++ [{ b with close := some 1 }] ∧ t.mem = s.mem) ∧
  (∀ (b : Batch) (bs : List Batch) (cause : Nat),
    let prod := s.rd (Csr.FQPOS_producer n)
    let posted := wholeEntries (b.recs.length + 1) [] b.recs (4096 - subMod prod (s.rd (Csr.FQPOS_consumer n)) 32 - 1)
    let rest := b.recs.drop posted.length
    (s.pan n).batches = b :: bs → b.close = some cause →
    (posted ≠ [] → Completes (.faultBatchPost n) s fun t =>
      (t.pan n).batches = (if rest = [] then bs else reBatch s.stamp (rest ++ bs.flatMap (·.recs))) ∧
      t.rd (Csr.FQPOS_producer n) = (prod + 1 + posted.length) % 2 ^ 32 ∧ (t.pan n).batchSeq = ((s.pan n).batchSeq + 1) % 2 ^ 32 ∧
      t.rd (Csr.FQSTAT_full n) = 0) ∧
    (posted = [] → Completes (.faultBatchPost n) s fun t => (t.pan n).batches = b :: bs ∧ t.rd (Csr.FQSTAT_full n) = 1 ∧
      t.rd (Csr.FQPOS_producer n) = prod ∧ t.mem = s.mem)) ∧
  (∀ (q : Fin 524288) (i g : BitVec 16) (e : Entry),
    let x := s.queue q
    let word := q.val + i.toNat * 2 ^ 19 + g.toNat * 2 ^ 35 + n.val * 2 ^ 51
    x.ents.find? (fun e => e.pos % x.depth == i.toNat && e.gen == some g.toNat && !e.done) = some e → x.pan = n → x.st ≠ .free → isRm q = false →
    e.st = .held →
    (s.Reaches w 0x2040 word → Completes (.fqresumeResume w n q i g) s fun t =>
      (t.queue q).resolving = none ∧ (∀ e' ∈ (t.queue q).ents, e'.pos = e.pos → e'.gen = none) ∧ t.mem = s.mem) ∧
    (s.Reaches w 0x2040 (word + 2 ^ 57) → Completes (.fqresumeAbort w n q i g) s fun t =>
      (t.queue q).ent e.pos = none ∧ (t.queue q).cqProd = (x.cqProd + 1) % 2 ^ 32)) ∧
  (s.Reaches w 0x2000 (setBits (s.readWord 0x2000) 9 1 1) → Completes (.xlctlFlush w) s fun t =>
    t.runCache = [] ∧ t.walkCache = [] ∧ (∀ x ∈ t.walks, x.found = none) ∧ t.mem = s.mem ∧ t.queues = s.queues)

/-- Doorbells and resumes of partners (R181, R221, R382, R476): the tail, the consumer count or the fault ring's
consumer moves, an entry's hold ends, and the answer is OK; a submission doorbell of a queue whose home stall is gated
wakes the stall and waits. Where the spec leaves a choice open, it is the model's: log entries 40 and 79. -/
def Obligations.Doorbells : Prop := ∀ (s : State) (p : Fin 8) (m : Msg) (u p' : Nat),
  let q := bitsOf m.q2 0 19
  let c := bitsOf m.q2 32 32
  let x := s.queue q
  let awake : Prop := s.bit Csr.STALLPWR_gated x.home = false
  (s.Takes p (msgAs m 0x08) u p' → x.st ≠ .free → awake → s.doorAllowed x (msgAs m 0x08) = true →
    c ≠ x.tail → isNewer c x.tail 32 = true → subMod c x.head 32 ≤ x.depth → Completes (.dbSq p m u false) s fun t =>
      t.queue q = { x with tail := c, stale := false, dbRef := false, doors := x.doors ++ [(c, m.srcNode * 8 + m.srcPort)] } ∧
      s.Answers t p' (s.respond m 0x30 Sts.ok) ∧ t.mem = s.mem) ∧
  (s.Takes p (msgAs m 0x08) u p' → x.st ≠ .free → ¬awake → s.bit Csr.STALLPWR_waking x.home = false → s.stallFailed x.home = false → x.home < 16 →
    s.inDeep = false → Completes (.dbSq p m u false) s fun t =>
      t.queue q = x ∧ t.bit Csr.STALLPWR_waking x.home = true ∧ t.fab.doors.length = s.fab.doors.length + 1 ∧ t.mem = s.mem) ∧
  (s.Takes p (msgAs m 0x09) u p' → x.st ≠ .free → awake → s.doorAllowed x (msgAs m 0x09) = true → isNewer c x.cqCons 32 = true →
    isNewer c x.cqProd 32 = false → Completes (.dbCq p m u false) s fun t =>
      t.queue q = { x with cqCons := c } ∧ s.Answers t p' (s.respond m 0x30 Sts.ok) ∧ t.mem = s.mem) ∧
  (let c := bitsOf m.q2 0 32
   s.Takes p (msgAs m 0x0A) u p' → s.maySubmit (msgAs m 0x0A) = true → isNewer c (s.rd (Csr.FQPOS_consumer m.pan)) 32 = true →
    isNewer c (s.rd (Csr.FQPOS_producer m.pan)) 32 = false → Completes (.dbFq p m u false) s fun t =>
      t.rd (Csr.FQPOS_consumer m.pan) = c ∧ s.Answers t p' (s.respond m 0x30 Sts.ok) ∧ t.mem = s.mem) ∧
  (∀ e : Entry,
    s.Takes p (msgAs m 0x0B) u p' → s.maySubmit (msgAs m 0x0B) = true → bitsOf m.q2 57 1 = 0 →
    x.ents.find? (fun e => e.pos % x.depth == bitsOf m.q2 19 16 && e.gen == some (bitsOf m.q2 35 16) && !e.done) = some e →
    x.pan = bitsOf m.q2 51 6 → x.st ≠ .free → isRm q = false → e.st = .held → Completes (.fqResume p m u false) s fun t =>
      (t.queue q).resolving = none ∧ (∀ e' ∈ (t.queue q).ents, e'.pos = e.pos → e'.gen = none) ∧
      s.Answers t p' (s.respond m 0x30 Sts.ok) ∧ t.mem = s.mem)

/-- Granules, pans and segments come to rest: a zeroed granule reads zero and is FREE (R33), a lent one after its lender has answered every write; a
drained pan is FREE and owns nothing (R34); a segment has changed its mode and the caps follow (R43, R247).
Where the spec leaves a choice open, it is the model's: log entry 36. -/
def Obligations.GranulesAndPans : Prop := ∀ (s : State),
  (∀ g : Nat, s.quiet = true → s.beingZeroed g = true → (tierOf (g * granSize) = 3 → g ∈ s.fab.zeroing ∧ s.moveWaits 64 g = false) →
    Completes (.granuleZeroingDone g) s fun t =>
    (t.gran g).st = .free ∧ g ∉ t.zeroQ ∧ (∀ a, a / granSize = g → t.byte a = 0) ∧ (∀ a, a / granSize ≠ g → t.byte a = s.byte a) ∧
    ∀ h, h ≠ g → t.gran h = s.gran h) ∧
  (∀ g : Nat, s.quiet = true → s.beingZeroed g = true → tierOf (g * granSize) = 3 → g ∉ s.fab.zeroing → s.lentPath ((g - tierBase 3) / 4194304) = 0 →
    Completes (.granuleZeroingDone g) s fun t => t.gran g = s.gran g ∧ g ∈ t.zeroQ ∧ g ∈ t.fab.zeroing ∧ t.mem = s.mem) ∧
  (∀ n : Fin 64, s.quiet = true → s.rd (Csr.PANSTAT_state n) = 2 → s.panQuiet n = true →
    (∀ g ∈ s.pansGrans n, s.heldIn (g * granSize) granSize = []) →
    (∀ x ∈ s.coh.txns, x.line * 128 / granSize ∉ s.pansGrans n) → Completes (.panDrainComplete n) s fun t =>
      t.rd (Csr.PANSTAT_state n) = 0 ∧ t.pan n = Pan.fresh ∧ t.rd (Csr.PANCTL_enable n) = 0 ∧ t.rdShadow (Csr.PANCTL_enable n) = 0 ∧
      (∀ g, (t.gran g).st = .owned → (t.gran g).owner ≠ n) ∧ ∀ q ∈ s.pansQueues n, t.queue q = Queue.blank) ∧
  (∀ k : Fin 239, s.bit (Csr.STKSEGSTAT_seg (k / 64)) (k % 64) = true → Completes (.stkSegFlipDone k) s fun t =>
    t.bit (Csr.STKSEGSTAT_seg (k / 64)) (k % 64) = false ∧ t.mem = s.mem ∧
    (∀ n : Fin 64, t.rd (Csr.STKPANLINES_cap n) = t.cacheCap t.cacheSegs n % 2 ^ 32 ∧ t.rd (Csr.STKPANLINES_lines n) = s.rd (Csr.STKPANLINES_lines n)) ∧
    s.keepsRegs t ((0x1040 + 8 * (k / 64)) :: (List.range 64).map (fun n => (Csr.STKPANLINES_cap n).off)))

/-- Lent extents (R50 to R54, R383): an offer fills the first EMPTY slot, lapses after its time, is recalled by its
lender, ends, is lost with its path, and leaves the owner table. Where the spec leaves a choice open, it is the
model's: log entries 36, 52 and 76. -/
def Obligations.LentExtents : Prop := ∀ (s : State) (p : Fin 8) (m : Msg) (u p' : Nat) (k : Fin 64),
  let gone (t : State) : Prop := ∀ g, inSlot k g = true → (∃ st, t.gran g = { Granule.fresh with remap := st }) ∧ g ∉ t.zeroQ
  (∀ i : Nat, s.Takes p (msgAs m 0x0C) u p' → i < 1024 → s.on (Csr.MEMBER_valid i) = true → s.on (Csr.MEMBER_lend i) = true →
    s.rd (Csr.MEMBER_src_node i) = m.srcNode → s.rd (Csr.MEMBER_src_port i) = m.srcPort → bitsOf m.q2 0 48 % granSize = 0 →
    bitsOf m.q3 0 23 ≤ 4194304 → s.rd (Csr.LENTSTAT_state k) = 0 → (∀ j < k.val, s.rd (Csr.LENTSTAT_state j) ≠ 0) →
    Completes (.lendOffer p m u false) s fun t =>
      t.rd (Csr.LENTSTAT_state k) = 1 ∧ t.rd (Csr.LENTSTAT_offered_granules k) = bitsOf m.q3 0 23 ∧
      t.rd (Csr.LENTSRC_lender_base k) = bitsOf m.q2 0 48 ∧ t.rd (Csr.LENTSRC_lender_node k) = m.srcNode % 2 ^ 12 ∧
      t.rd (Csr.LENTSRC_lender_port k) = m.srcPort % 8 ∧ s.Answers t p' (s.respond m 0x30 Sts.ok) ∧ t.mem = s.mem) ∧
  (s.rd (Csr.LENTSTAT_state k) = 1 → Completes (.lendOfferTimeout k) s fun t =>
    t.rd (Csr.LENTSTAT_state k) = 0 ∧ gone t ∧ t.mem = s.mem) ∧
  (s.Takes p (msgAs m 0x0D) u p' → s.rd (Csr.LENTSTAT_state k) = 2 → s.rd (Csr.LENTSRC_lender_base k) = bitsOf m.q2 0 48 →
    s.rd (Csr.LENTSRC_lender_node k) = m.srcNode → s.rd (Csr.LENTSRC_lender_port k) = m.srcPort →
    (∀ j < k.val, s.rd (Csr.LENTSTAT_state j) ≠ 2 ∨ s.rd (Csr.LENTSRC_lender_base j) ≠ bitsOf m.q2 0 48) →
    Completes (.lendRecall p m u false) s fun t => t.rd (Csr.LENTSTAT_state k) = 3) ∧
  (s.rd (Csr.LENTSTAT_state k) = 3 → s.rd (Csr.LENTSTAT_owned_granules k) = 0 → Completes (.lentRecallDone k) s fun t =>
    t.rd (Csr.LENTSTAT_state k) = 0 ∧ gone t ∧ t.mem = s.mem) ∧
  (s.quiet = true → s.rd (Csr.LENTSTAT_state k) = 2 ∨ s.rd (Csr.LENTSTAT_state k) = 3 → Completes (.lentPathLost k) s fun t =>
    t.rd (Csr.LENTSTAT_state k) = 4 ∧ t.rd (Csr.LENTSTAT_owned_granules k) = 0 ∧ (∀ g, inSlot k g = true → (t.gran g).st ≠ .owned) ∧
    ∀ g ∈ t.zeroQ, inSlot k g = false) ∧
  (s.rd (Csr.LENTSTAT_state k) = 4 → (∀ x ∈ s.coh.txns, slotHas k (x.line * 128) = false) →
    (∀ w ∈ s.waits, ∀ d ∈ w.lines, slotHas k (d * 128) = false) → (∀ q ∈ s.fab.reqs, s.toLender k q = true → q.hold = true) →
    Completes (.lentLostCleared k) s fun t => t.rd (Csr.LENTSTAT_state k) = 0 ∧ gone t ∧ t.mem = s.mem)

/-- CAROUSEL_ROUND and CAROUSEL_PREEMPT (R196 to R199, R227, R228, R235 to R237, R240): the live requester of the highest class that ranks best owns the
resource and goes to the end of the ranks, and its read, or a write, leaves the queue; the others have waited a round longer; a command that fails is
retried, and its fourth failure pauses the channel; with no request the grant parks; a pre-emptor takes the resource and gives it back.
Where the spec leaves a choice open, it is the model's: log entry 34. -/
def Obligations.Carousels : Prop := ∀ (s : State) (c : Car) (reqs : BitVec 16) (barred : List Nat) (fails : Bool),
  let b := carBase c
  let live (r : Nat) : Prop := r < 16 ∧ bitOf reqs.toNat r = true ∧ s.carMasked b r = false ∧ r ≠ s.rd (Csr.CARINFO_pre_idx b) ∧
    r < s.rd (Csr.CARINFO_nreq b) ∧ s.hasLegal c barred r = true
  let owner := s.rd (Csr.CARSTATE_owner b)
  let cls (r : Nat) : Nat := s.carClassOf c r
  let x := s.chan (carChan c)
  let debug : Prop := match c with
    | .rake _ | .midway _ _ => True
    | _ => False
  (Completes (.carouselPreempt c false) s fun t => t.rd (Csr.CARSTATE_preempted b) = 0 ∧ s.keepsRegs t [b + 0x10] ∧ t.mem = s.mem) ∧
  (s.on (Csr.CARSTATE_preempted b) = false → s.carPaused c = false →
    (∀ w, live w → (s.on (Csr.CARSTATE_parked b) = false ∨ w ≠ owner ∨ ∃ r, live r ∧ r ≠ owner) → w ∈ s.rankOrder b →
    (∀ r, live r → cls r < cls w ∨ (cls r = cls w ∧ (s.rankOrder b).idxOf w ≤ (s.rankOrder b).idxOf r)) →
    Completes (.carouselRound c reqs barred fails) s fun t =>
      t.rd (Csr.CARSTATE_owner b) = w ∧ t.rd (Csr.CARSTATE_parked b) = 0 ∧ t.rd (Csr.CARWAIT_cur_wait b w) = 0 ∧
      t.rankOrder b = (s.rankOrder b).filter (· != w) ++ [w] ∧
      (∀ r, live r → r ≠ w → t.rd (Csr.CARWAIT_cur_wait b r) = min (s.rd (Csr.CARWAIT_cur_wait b r) + 1) 0xFFFFFFFF) ∧
      (¬debug → fails = false → (∀ rank, (s.rankState c rank).postponed = 0) →
        (∀ d, w = 12 → s.dram.brine = [] → s.select c ((x.wq.filter (fun d => !barred.contains d)).map (fun d => (0, d))) = some d → (t.chan (carChan c)).wq = x.wq.filter (· != d)) ∧
        (∀ y, w ≠ 12 → x.rq.filter (fun z => z.req == w && !barred.contains z.line) = [y] → (t.chan (carChan c)).rq = x.rq.erase y)) ∧
      (∀ k, c = .ddr k → fails = true → x.retries < 3 → (t.chan k).retries = x.retries + 1 ∧ (t.chan k).wq = x.wq ∧ (t.chan k).rq = x.rq) ∧
      (∀ k, c = .ddr k → fails = true → 3 ≤ x.retries → t.rd (Csr.DDRSTAT_paused k) = 1)) ∧
    ((∀ r, ¬ live r) → Completes (.carouselRound c reqs barred fails) s fun t =>
    t.rd (Csr.CARSTATE_parked b) = (if s.carMasked b owner then 0 else 1) ∧ t.rd (Csr.CARSTATE_owner b) = owner ∧
    t.cars = s.cars ∧ s.keepsRegs t [b + 0x10] ∧ t.mem = s.mem)) ∧
  (s.on (Csr.CARSTATE_preempted b) = false → s.carMasked b (s.rd (Csr.CARINFO_pre_idx b)) = false → (debug → s.debugLevel ≠ 0) →
    Completes (.carouselPreempt c true) s fun t =>
    t.rd (Csr.CARSTATE_preempted b) = 1 ∧ t.rd (Csr.CARSTATE_owner b) = owner ∧ t.cars = s.cars ∧ t.mem = s.mem)

/-- Training of the DDR5 channels, their migration to a spare rank and their pauses (R225 to R228, R241 to R244); and what the DRAM controllers do
in time (R227, R235 to R241, R479): a read that has reached its deadline counts as overdue, once; a batch of writes begins; a refresh that falls due
is issued or postponed, and pre-empts when no more may be; each channel pauses once in its window of every 20 ms; MR4 polls; power-down.
Where the spec leaves a choice open, it is the model's: log entries 34 and 35. -/
def Obligations.DramChannels : Prop := ∀ (s : State) (w : Writer) (c : Fin 16),
  let state (t : State) : Nat := t.rd (Csr.DDRSTAT_state c)
  let x := s.chan c
  let others (t : State) : Prop := ∀ k : Nat, k ≠ c → t.chan k = s.chan k
  (s.Reaches w (0x2800010 + 0x20000 * c.val) 1 → state s = 0 → Completes (.ddrTrain w c) s fun t =>
    state t = 1 ∧ t.rd (Csr.DDRSTAT_train_fail c) = 0 ∧ t.mem = s.mem) ∧
  (s.on (Csr.DDRSTAT_train_fail c) = true → x.trainFails = 1 → state s = 0 → Completes (.ddrTrainRetry c) s fun t =>
    state t = 1 ∧ t.rd (Csr.DDRSTAT_train_fail c) = 0 ∧ t.mem = s.mem) ∧
  (state s = 1 → s.cfgOk c = true → Completes (.ddrTrainDone c true) s fun t =>
    let spare := s.on (Csr.DDRCFG_spare_en c) && decide (2 ≤ (s.physRanks c).length)
    state t = (if x.mig then 3 else 2) ∧ t.rd (Csr.DDRGEO_data_ranks c) = (s.physRanks c).length - (if spare then 1 else 0) ∧
    t.rd (Csr.DDRGEO_rows c) = densityRows (s.rd (Csr.DDRCFG_density c)) ∧ (t.chan c).kept = true ∧ (t.chan c).mig = false ∧ t.mem = s.mem) ∧
  (∀ ok, state s = 1 → ok = false ∨ s.cfgOk c = false → Completes (.ddrTrainDone c ok) s fun t =>
    state t = 0 ∧ t.rd (Csr.DDRSTAT_train_fail c) = 1 ∧ (t.chan c).trainFails = x.trainFails + 1 ∧ t.mem = s.mem) ∧
  (∀ k : Fin 8, s.Reaches w (0x2800010 + 0x20000 * c.val) (2 + 16 * k.val) → state s = 2 → s.hasSpare c = true →
    s.on (Csr.DDRSTAT_spare_used c) = false → k.val < s.rd (Csr.DDRGEO_data_ranks c) → Completes (.ddrMigrate w c k) s fun t =>
      state t = 3 ∧ t.rd (Csr.DDRSTAT_mig_slot c) = k ∧ t.rd (Csr.DDRSPARE_mig_ptr c) = 0 ∧ t.mem = s.mem) ∧
  (let k := s.rd (Csr.DDRSTAT_mig_slot c)
   let i := s.rd (Csr.DDRSPARE_mig_ptr c)
   state s = 3 → s.lineAt c (k * s.rankLines c + i) ∉ x.locked → s.dram.faults = [] → Completes (.migrationLineCopy c) s fun t =>
    t.rd (Csr.DDRSPARE_mig_ptr c) = (i + 1) % 2 ^ 29 ∧ t.mem = s.mem ∧
    (i + 1 < s.rankLines c → state t = 3 ∧ t.rd (Csr.RANKMAP_slot c) = s.rd (Csr.RANKMAP_slot c)) ∧
    (s.rankLines c ≤ i + 1 → state t = 2 ∧ t.rd (Csr.DDRSTAT_spare_used c) = 1 ∧
      (k < 8 → s.rd (Csr.DDRSPARE_spare_phys c) < 16 → bitsOf (t.rd (Csr.RANKMAP_slot c)) (4 * k) 4 = s.rd (Csr.DDRSPARE_spare_phys c)))) ∧
  (s.on (Csr.DDRSTAT_paused c) = true →
    (∀ ok, ok = true ∨ x.periodic = true → Completes (.ddrRetrainPauseEnd c ok) s fun t =>
      t.rd (Csr.DDRSTAT_paused c) = 0 ∧ state t = state s ∧ t.chan c = { x with periodic := false } ∧ others t ∧ t.mem = s.mem) ∧
    (x.periodic = false → Completes (.ddrRetrainPauseEnd c false) s fun t =>
      t.rd (Csr.DDRSTAT_paused c) = 0 ∧ state t = 4 ∧ (t.chan c).wq = [] ∧ (t.chan c).rq = [] ∧ (t.chan c).locked = [])) ∧
  (∀ (o : Car) (y : ReadReq),
    let k := carChan o
    let n : Ctr := match o with
      | .ddr k => ddrCtr k.val 5
      | _ => stkCtr 7
    (∀ k, o ≠ .rake k) → (∀ b k, o ≠ .midway b k) →
    (s.chan k).rq.find? (fun z => !z.overdue && decide (toSigned 64 (subMod z.deadline s.stamp 64) ≤ 0)) = some y →
    s.bit n.ovf n.bit = false → s.rd n.cnt + 1 < cntMax → Completes (.dramReadOverdue o) s fun t =>
      t.rd n.cnt = s.rd n.cnt + 1 ∧ t.chan k = { s.chan k with rq := (s.chan k).rq.replace y { y with overdue := true } } ∧
      s.keepsRegs t [n.cnt.off] ∧ t.mem = s.mem) ∧
  (s.on (Csr.DDRSTAT_batching c) = false → x.rq = [] → s.rd (Csr.DDRWM_wq_idle c) ≤ x.wq.length → x.wq ≠ [] →
    Completes (.writeBatchIdle (c.castLE (by decide))) s fun t => t.rd (Csr.DDRSTAT_batching c) = 1 ∧ t.dram = s.dram ∧ t.mem = s.mem) ∧
  (∀ g : Fin 64,
    let q := s.chan (stkChan g)
    let mine := q.wq.filter (fun d => linePc d == g)
    (s.chan (16 + g)).batch = false → q.rq.all (fun y => linePc y.line != g.val) = true → s.rd Csr.STKWM_wq_idle ≤ mine.length → mine ≠ [] →
    Completes (.writeBatchIdle ((Fin.natAdd 16 g))) s fun t => (t.chan (16 + g)).batch = true ∧ t.rd (Csr.STKCHSTAT_batching (g / 2)) = 1 ∧ t.mem = s.mem) ∧
  (∀ (o : Car) (rank : Nat),
    let most := match o with
      | .ddr k => s.rd (Csr.DDRCFG_ref_postpone k.val)
      | _ => s.rd Csr.STKCFG_ref_postpone
    let now (t : State) : RankState := t.rankState o rank
    let every := s.refreshEvery o
    let due := if every = 0 then (now s).due else (s.stamp + every) % 2 ^ 64
    (∀ k, o ≠ .rake k) → (∀ b k, o ≠ .midway b k) →
    (every ≠ 0 → isNewer (now s).due s.stamp 64 = true → ∀ idle, exec (.refreshDue o rank idle) s = .next s) ∧
    (every = 0 ∨ isNewer (now s).due s.stamp 64 = false →
      (Completes (.refreshDue o rank true) s fun t => (now t).postponed = (now s).postponed ∧ (now t).due = due ∧
        (∀ k, o = .ddr k → s.on (Csr.DDRCFG_ref_mode k) = true → ∀ r ∈ (t.chan k).rows, bankRank o r.1 ≠ rank) ∧ t.regs = s.regs ∧ t.mem = s.mem) ∧
      ((now s).postponed < most → Completes (.refreshDue o rank false) s fun t =>
        now t = { now s with postponed := (now s).postponed + 1, due := due } ∧ t.regs = s.regs ∧ t.mem = s.mem) ∧
      (most ≤ (now s).postponed → s.carMasked (carBase o) (s.rd (Csr.CARINFO_pre_idx (carBase o))) = false → Completes (.refreshDue o rank false) s fun t =>
        now t = { now s with repaying := true, due := due } ∧ t.rd (Csr.CARSTATE_preempted (carBase o)) = 1 ∧ t.mem = s.mem))) ∧
  (let k := s.stamp % 2 ^ 64 / 20000000
   s.on (Csr.DDRTRN_en c) = true → state s = 2 ∨ state s = 3 → x.low ≠ 2 → s.board.selfRefresh = false → s.on (Csr.DDRSTAT_paused c) = false →
    s.on (Csr.CARSTATE_preempted (carBase (.ddr c))) = false →
    (c.val * 1250000 ≤ s.stamp % 2 ^ 64 % 20000000 → s.stamp % 2 ^ 64 % 20000000 < (c.val + 1) * 1250000 → x.period ≠ k + 1 →
      Completes (.ddrPeriodicRetrain c) s fun t => t.rd (Csr.DDRSTAT_paused c) = 1 ∧ t.rd (Csr.DDRTRNLAST_stamp c) = s.stamp % 2 ^ 64 ∧
        t.chan c = { x with periodic := true, period := k + 1, rows := [] } ∧ others t ∧ t.mem = s.mem) ∧
    (x.period = k + 1 → exec (.ddrPeriodicRetrain c) s = .next s)) ∧
  (∀ ns : Nat, Completes (.mr4Poll c ns) s fun t => t.chan c = { x with trefi := ns } ∧ t.regs = s.regs ∧ t.mem = s.mem ∧ others t) ∧
  (x.wq = [] → x.rq = [] → x.low = 0 → Completes (.dramPowerDown c) s fun t =>
    t.chan c = { x with low := 1 } ∧ t.regs = s.regs ∧ t.mem = s.mem ∧ others t)

/-- Stacked DRAM: the sweep of a pan's lines (R248) and the training of a held pseudo-channel (R250, R251). Where the
spec leaves a choice open, it is the model's: log entries 1, 20 and 84. -/
def Obligations.StackedDram : Prop := ∀ (s : State) (w : Writer),
  (∀ n : Fin 64, n.val ∈ s.dram.sweeps → Completes (.stkSweepDone n) s fun t =>
    (∀ kv ∈ t.dram.cache, ∀ x ∈ kv.2, x.pan ≠ n) ∧ n.val ∉ t.dram.sweeps ∧
    t.rd Csr.STKSTAT_sweeping = (if s.dram.sweeps.filter (· != n.val) = [] then 0 else 1) ∧ t.mem = s.mem) ∧
  (let g := s.rd Csr.STKTRNSEL_pc
   s.Reaches w 0x2A00110 1 →
   (s.on Csr.STKTRNSTAT_busy = false → s.bit (Csr.STKCHSTAT_hold (g / 2)) (g % 2) = true → Completes (.stkTrainRun w) s fun t =>
      t.rd Csr.STKTRNSTAT_busy = 1 ∧
      (s.on Csr.STKTRNSEL_mode = true → ∀ i < 32 * min 32 (if s.rd Csr.STKTRNSEL_bursts = 0 then 256 else s.rd Csr.STKTRNSEL_bursts),
        t.byte (stkBase + 128 * stkLineAt g (s.rd Csr.STKTRNSEL_bank) (s.rd Csr.STKTRNSEL_row) (i / 128) + i % 128)
          = bitsOf (s.rd Csr.STKTRNPAT_pattern) (8 * (i % 8)) 8)) ∧
   (s.on Csr.STKTRNSTAT_busy = true ∨ s.bit (Csr.STKCHSTAT_hold (g / 2)) (g % 2) = false → Completes (.stkTrainRun w) s fun t =>
      t.rd Csr.STKTRNSTAT_error = 1 ∧ t.mem = s.mem)) ∧
  (∀ (i : Fin 36) (n : Nat), s.on Csr.STKTRNSTAT_busy = true → Completes (.stkTrainRunDone [(i, n)]) s fun t =>
    let lane (x : State) := bitsOf (x.rd (Csr.STKTRNERR_errs (i / 8))) (8 * (i % 8)) 8
    t.rd Csr.STKTRNSTAT_busy = 0 ∧ lane t = min 255 (lane s + n) ∧ t.mem = s.mem) ∧
  (s.Reaches w 0x2A00110 2 → Completes (.stkTrainClear w) s fun t => (∀ i < 5, t.rd (Csr.STKTRNERR_errs i) = 0) ∧ t.mem = s.mem) ∧
  (∀ g : Fin 64, s.bit (Csr.STKCHSTAT_hold (g / 2)) (g % 2) = true → (s.chan (16 + g)).holdLong = false → Completes (.stkTrainHoldLong g) s fun t =>
    t.chan (16 + g) = { s.chan (16 + g) with holdLong := true } ∧ s.keepsRegs t [] ∧ t.mem = s.mem)

/-- Patrol scrub goes on to the next line or row (R254 to R257, R265); granules, ranks and rows are retired (R272 to
R274). Where the spec leaves a choice open, it is the model's: log entries 20, 36 and 81. -/
def Obligations.ScrubAndRetire : Prop := ∀ (s : State) (w : Writer),
  (∀ st : Fin 16, s.on (Csr.ECCCTL_patrol_en st) = true → s.rd (Csr.DDRSTAT_state st) = 2 → (s.chan st).low ≠ 2 →
    s.lineAt st (s.rd (Csr.PATROLPOS_line st)) ∉ (s.chan st).locked → s.board.selfRefresh = false → s.dram.faults = [] → Completes (.patrolRead ⟨st, by omega⟩ []) s fun t =>
      let l := s.rd (Csr.PATROLPOS_line st)
      let spare := s.hasSpare st && !s.on (Csr.DDRSTAT_spare_used st)
      let all := s.rd (Csr.DDRGEO_data_ranks st) * s.rankLines st + (if spare then s.rankLines st else 0)
      t.rd (Csr.PATROLPOS_line st) = (if l + 1 < all then (l + 1) % 2 ^ 32 else 0) ∧
      (all ≤ l + 1 → t.rd (Csr.PATROLLAST_stamp st) = s.stamp % 2 ^ 64) ∧ t.mem = s.mem) ∧
  (s.on Csr.ERRCTL_sram_patrol_en = true → s.dram.upsets = [] → (∀ b ∈ s.dram.brine, b.pois = 0) → Completes (.patrolRead 17 []) s fun t =>
    t.dram = { s.dram with sramPos := (s.dram.sramPos + 1) % 2 ^ 23 } ∧ s.keepsRegs t [] ∧ t.mem = s.mem) ∧
  (∀ i : Nat, s.on Csr.ERRCTL_sram_patrol_en = true → s.dram.upsets = [] → s.sramBrine s.dram.sramPos = none → i < 32 →
    let n := sramCtr 1
    s.bit n.ovf n.bit = false → s.rd n.cnt + 1 < cntMax → Completes (.patrolRead 17 [⟨false, [(i, 0)], none, false⟩]) s fun t =>
      t.rd n.cnt = s.rd n.cnt + 1 ∧ t.dram.upsets = [] ∧ t.mem = s.mem) ∧
  (s.on Csr.RETIRESTAT_busy = false →
    (let g := s.rd Csr.RETIREADDR_granule
     s.Reaches w 0x3040 1 → g < s.rd Csr.DDR5TOP_granules - ddrCarve → g * granSize < stkBase →
     ((s.gran g).st = .owned → Completes (.retireGranule w) s fun t =>
        t.gran g = { s.gran g with retire := true } ∧ t.rd Csr.RETIRESTAT_result = 0 ∧ t.mem = s.mem) ∧
     ((s.gran g).st = .free ∨ (s.gran g).st = .zeroing → Completes (.retireGranule w) s fun t =>
        (t.gran g).st = .system ∧ g ∈ t.dram.retired ∧ g ∉ t.zeroQ ∧ t.rd Csr.RETIRESTAT_result = 0 ∧ t.mem = s.mem)) ∧
    (∀ (c : Fin 16) (k : Fin 8), s.Reaches w 0x3040 (2 + c.val * 2 ^ 5 + k.val * 2 ^ 9) → k.val < s.rd (Csr.DDRGEO_data_ranks c) →
      Completes (.retireRankGranules w c k) s fun t => t.rd Csr.RETIRESTAT_result = 0 ∧
        ∀ g < s.rd Csr.DDR5TOP_granules - ddrCarve, s.granOnRank c k g = true →
          if (s.gran g).st = .owned then t.gran g = { s.gran g with retire := true } else (t.gran g).st = .system) ∧
    (∀ (c : Fin 16) (k : Fin 8) (sub : Fin 2) (bg : Fin 8) (bank : Fin 4) (row : BitVec 18),
      s.Reaches w 0x3040 (3 + c.val * 2 ^ 5 + k.val * 2 ^ 9 + sub.val * 2 ^ 12 + bg.val * 2 ^ 13 + bank.val * 2 ^ 16 + row.toNat * 2 ^ 18) →
      s.rd (Csr.DDRSTAT_state c) = 2 → k.val < s.rd (Csr.DDRGEO_data_ranks c) → row.toNat < s.rd (Csr.DDRGEO_rows c) →
      Completes (.retireRow w c k sub bg bank row) s fun t =>
        t.rd Csr.RETIRESTAT_busy = 1 ∧ t.mem = s.mem ∧
        t.dram.repair = some [c.val, k.val, sub.val, bg.val, bank.val, row.toNat, s.rowDevices c k sub bg bank row.toNat] ∧
        ∀ d ∈ s.rowLines c k sub bg bank row.toNat, d ∈ (t.chan c).locked)) ∧
  (∀ (ok : Bool) (c k sub bg bank row devs : Nat), s.quiet = true → s.dram.repair = some [c, k, sub, bg, bank, row, devs] →
    Completes (.retireRowDone ok) s fun t =>
    t.rd Csr.RETIRESTAT_busy = 0 ∧ t.rd Csr.RETIRESTAT_result = (if ok then 0 else 2) ∧ t.dram.repair = none ∧
    (t.chan c).locked = (s.chan c).locked.filter (fun d => !(s.rowLines c k sub bg bank row).contains d) ∧
    t.dram.rows = (if ok then s.dram.rows ++ [[c, k, sub, bg, bank, row]] else s.dram.rows))

/-- The heap's SSDs (R280 to R282, R299, R300): enumeration labels the drives that a heap without a label finds, a reformat labels them anew, and a
drive that fails degrades the durable pans that it backs; a sweep of automatic demotion starts moves (R286).
Where the spec leaves a choice open, it is the model's: log entry 37. -/
def Obligations.HeapDrives : Prop := ∀ (s : State),
  let labelled (t : State) (fs : List Found) (c : Nat) : Prop :=
    t.heap.label = fs.map (fun d => (d.port, d.label)) ∧ t.rd Csr.HEAPSTAT_ndrives = fs.length ∧ t.rd Csr.HEAPSTAT_state = 2 ∧
    t.rd Csr.HEAPTOP_granules = min (fs.length * c) 134217728 ∧ ∀ x ∈ fs.zipIdx, t.rd (Csr.HEAPPORT_state x.1.port) = 2 ∧
      t.rd (Csr.HEAPPORT_index x.1.port) = x.2 ∧ t.rd (Csr.HEAPPORT_cap x.1.port) = x.1.cap % 2 ^ 32
  (∀ (ds : List Drive) (c : Nat),
    let fs := (List.range 8).filterMap (s.foundAt ds)
    s.heap.label = [] → (fs = [] → c = 0) → (∀ d ∈ fs, c ≤ d.cap) → (fs ≠ [] → ∃ d ∈ fs, d.cap = c) →
    Completes (.heapEnumerate ds) s fun t => labelled t fs c ∧ t.heap.found = fs ∧ t.mem = s.mem) ∧
  (∀ (w : Writer) (c : Nat),
    let fs := s.heap.found
    s.Reaches w 0x2C00010 1 → (∀ n < 64, s.panDurable n = true → s.panFree n = true) → (fs.map (·.port)).Nodup → (∀ d ∈ fs, d.port < 8) →
    (∀ p < 8, s.rd (Csr.HEAPPORT_state p) = 3 → ∃ d ∈ fs, d.port = p) →
    (fs = [] → c = 0) → (∀ d ∈ fs, c ≤ d.cap) → (fs ≠ [] → ∃ d ∈ fs, d.cap = c) → Completes (.heapReformat w) s fun t =>
      labelled t fs c ∧ t.heap.cat = [] ∧ t.heap.area = [] ∧ t.mem = s.mem) ∧
  (∀ (p : Fin 8) (i : Instr), i ∈ [Instr.heapCmdTimeout p, .heapCtrlNotReady p, .heapLinkDown p] →
    s.rd (Csr.HEAPPORT_state p) = 1 ∨ s.rd (Csr.HEAPPORT_state p) = 2 → Completes i s fun t =>
      t.rd (Csr.HEAPPORT_state p) = 3 ∧ t.rd Csr.HEAPSTAT_state = 3 ∧ t.mem = s.mem ∧ t.heap = s.heap ∧
      ∀ n < 64, s.panDurable n = true → s.backedOn n (s.rd (Csr.HEAPPORT_index p)) = true → t.rd (Csr.PANHEAP_dur_degraded n) ≠ 0) ∧
  (∀ (n : Fin 64) (x : Nat × Nat × Nat) (v : State),
    let used := s.rd (Csr.PANUSE_used n 1)
    let u : State := { s with dram := { s.dram with hand := SMap.put 0 n (x.1 + 1) s.dram.hand } }
    s.on (Csr.PANHEAP_auto_demote n) = true → s.panActive n = true → s.rd (Csr.PANHEAP_dem_high n) < used → s.rd (Csr.PANHEAP_dem_low n) < used →
    s.shoots = [] → (s.leavesWhere n (fun a => tierOf a == 1)).filter (fun y => y.2.1 != 0 && !bitOf y.2.2 4) = [x] →
    (∀ g ∈ pageGrans x.2.1 (pteAddr x.2.2), SMap.get false g s.dram.refs = false) → u.startMoves none n 2 [⟨x.1, x.2.1, pteAddr x.2.2⟩] [] = some v →
    Completes (.autoDemoteSweep n) s fun t => t = v ∧ ∃ b y, t.shoots = [y] ∧ y.rake = none ∧ y.pan = n ∧ y.copies = [(x.1, x.2.1, pteAddr x.2.2, b)])

/-- The durability log (R290 to R292): the open block closes, a written block's lines are durable, and a checkpoint round notes the dirty blocks and
ends with what they back copied. A power failure (R294 to R298): rakes stop and open blocks close; the flush writes every live block and
marks its end, late or not; after the power returns with a pan in the catalogue, the pan is carved again with its pages, and the log
area is cleared with the last one.
Where the spec leaves a choice open, it is the model's: log entries 12, 38 and 71. -/
def Obligations.DurabilityAndPowerFail : Prop :=
  (∀ (s : State) (n : Fin 64),
    let x := s.pan n
    (x.openLines ≠ [] → Completes (.logBlockClose n) s fun t =>
      t.pan n = { x with ring := x.ring ++ [⟨x.seq, x.openLines, false⟩], openLines := [], seq := x.seq + 1 } ∧
      t.rd (Csr.DURPOS_tail n) = (x.seq + 1) % 2 ^ 32 ∧ s.keepsRegs t [0x200c0 + 0x100 * n] ∧ t.mem = s.mem) ∧
    (∀ b, x.ring.find? (fun b => !b.written) = some b → Completes (.logBlockWritten n) s fun t =>
      (t.pan n).ring = x.ring.map (fun y => if y.seq = b.seq then { y with written := true } else y) ∧
      (t.pan n).undur = x.undur.filter (fun u => !b.lines.any (fun l => l.addr == u.line && decide (u.pos ≤ l.pos))) ∧ t.mem = s.mem) ∧
    (s.panDurable n = true → s.panActive n = true → x.round = none → Completes (.checkpointRound n) s fun t =>
      t.pan n = { x with round := some (x.seq, ((x.dirty.map (·.1)).filter (fun b => !s.heapFailed (b / 512))).map (fun b => (b, 0))) } ∧
      t.regs = s.regs ∧ t.mem = s.mem) ∧
    (∀ (sq : Nat) (bs : List (Nat × Nat)), x.round = some (sq, bs) → Completes (.checkpointRoundDone n) s fun t =>
      (t.pan n).round = none ∧ (t.pan n).undur = x.undur.filter (fun u => !(bs.map (·.1)).contains (u.line / 4096)) ∧
      (∀ b ∈ bs, SMap.get false b.1 (t.pan n).dirty = false) ∧ (x.dirty = [] → (t.pan n).ring = x.ring.filter (fun b => decide (sq ≤ b.seq))) ∧
      ∀ b a, bs = [(b, 0)] → s.backedAt n b = some a → s.Sound → SMap.wf 0 s.mem = true → ∀ j < 4096, t.byte (b * 4096 + j) = s.byte (a + j))) ∧
  (∀ (s : State),
    (s.board.flush = 0 → s.board.main = true → Completes .pwrfailAssert s fun t =>
      t.board.flush = 1 ∧ t.rakes = [] ∧ t.waits = [] ∧ (∀ n < 64, (t.pan n).openLines = []) ∧ (∀ q, ∀ e ∈ (t.queue q).ents, e.onRake = none) ∧ t.mem = s.mem) ∧
    (s.board.flush = 1 → s.heap.cat = [] → Completes .durFlushDone s fun t =>
      t.board.flush = 2 ∧ t.heap.area = s.liveBlocks ∧ t.rd Csr.DURSTAT_last_flush = (if s.heap.lastFlush = 2 then 2 else 1) ∧ t.mem = s.mem) ∧
    (s.board.flush = 1 → s.heap.lastFlush ≠ 2 → Completes .durFlushLate s fun t =>
      t.heap.lastFlush = 2 ∧ t.rd Csr.DURSTAT_last_flush = 2 ∧ t.board = s.board ∧ t.mem = s.mem) ∧
    (s.heap.cat = [] → ∀ rs, Completes (.durableRecovery rs) s fun t =>
      t.heap.area = [] ∧ t.rd Csr.DURSTAT_recovering = 0 ∧ t.rd Csr.DURSTAT_last_flush = s.flushSeen rs ∧ s.keepsRegs t [0x2c00020] ∧ t.mem = s.mem) ∧
    (∀ (c : CatPan) (rs : AreaRead), s.heap.cat = [c] → c.pan < 64 →
      (s.recoverable c = true → Completes (.durableRecovery rs) s fun t =>
        t.heap.cat = [] ∧ t.heap.area = [] ∧ t.rd Csr.DURSTAT_recovering = 0 ∧ t.rd (Csr.PANSTAT_state c.pan) = 1 ∧ (t.pan c.pan).durPages = c.pages ∧
        ((s.replayable c.pan rs).2 = true → t.rd (Csr.PANHEAP_dur_lost c.pan) = 1)) ∧
      (s.recoverable c = false → Completes (.durableRecovery rs) s fun t =>
        t.heap = s.heap ∧ t.rd Csr.DURSTAT_recovering = 1 ∧ s.keepsRegs t [0x2c00020] ∧ t.mem = s.mem)))

/-- Metering (R191 to R195, R372, R515): a tick refills every meter and runs the time of its command; STOP, THROTTLE
and RELEASE take effect at the ports and pans they name and nowhere else, when the command ring reads them from the
mailbox or from a partner that the port listens to; a command that expires ends. Where the spec leaves a choice open,
it is the model's: log entries 39 and 79. -/
def Obligations.Metering : Prop := ∀ (s : State),
  let obeys (c : SlCmd) (src : Nat) (t : State) : Prop := t.mem = s.mem ∧ ∀ q < 8, ∀ k < 64,
    if bitOf c.ports q = true ∧ (c.all = true ∨ k = c.pan) then
      (if c.act = 2 then t.rd (Csr.SLSTAT_cmd q k) = 0 ∧ (t.bucket q k).rate = 0 ∧ (t.bucket q k).left = 0
       else t.rd (Csr.SLSTAT_cmd q k) = c.act + 1 ∧ t.rd (Csr.SLSTAT_cmd_src q k) = src ∧
        t.rd (Csr.SLSTAT_cmd_left_us q k) = (if c.us = 0 then 0xFFFFFFFF else c.us) ∧ (t.bucket q k).rate = if c.act = 1 then c.rate else 0)
    else t.rd (Csr.SLSTAT_cmd q k) = s.rd (Csr.SLSTAT_cmd q k) ∧ t.bucket q k = s.bucket q k
  (SMap.wf Bucket.full s.sluice = true → (∀ kv ∈ s.sluice, kv.1 < 512) → Completes .sluiceTick s fun t => t.mem = s.mem ∧ ∀ q < 8, ∀ k < 64,
    let b := s.bucket q k
    t.bucket q k = { b with dc := b.dc - (s.slRates q k).1, dp := b.dp - (s.slRates q k).2, left := b.left - 1 }) ∧
  (∀ (ports : BitVec 8) (n : Fin 64) (all : Bool) (us rate : BitVec 32) (i : Instr) (c : SlCmd), (i, c) ∈
      [(Instr.sluiceStop ports n all us, ⟨0, ports.toNat, n, all, 0, us.toNat⟩), (.sluiceThrottle ports n all rate us, ⟨1, ports.toNat, n, all, rate.toNat, us.toNat⟩),
       (.sluiceRelease ports n all, ⟨2, ports.toNat, n, all, 0, 0⟩)] →
    (∀ x, s.dropBad.mgmt.down.find? (fun y => y.1 == 1) = some x → slParse x.2 = some c → s.mgmt.waiting = none → Completes i s fun t =>
      obeys c 1 t ∧ t.mgmt.down = s.dropBad.mgmt.down.erase x) ∧
    ((∀ x, s.dropBad.mgmt.down.find? (fun y => y.1 == 1) = some x → slParse x.2 ≠ some c) → exec i s = .next s.dropBad)) ∧
  (∀ (p : Fin 8) (n : Fin 64), s.rd (Csr.SLSTAT_cmd p n) ≠ 0 → s.rd (Csr.SLSTAT_cmd_left_us p n) ≠ 0xFFFFFFFF →
    Completes (.sluiceCommandExpire p n) s (obeys ⟨2, 2 ^ p.val, n, false, 0, 0⟩ 0)) ∧
  (∀ (p : Fin 8) (b : List Nat) (c : SlCmd), s.portHears p = true → s.quiet = true → s.on (Csr.PORTCTL_sluice_cmd_en p) = true →
    slParse ((b.drop 1).take 23) = some c → Completes (.sluiceCmd p b) s (obeys c 0))

/-- Coherent requests at their home (Tables 11-3 and 11-4, R307 to R313, R321 to R323): what each does on a line that no partner holds, or that the requester
holds as the request says; the state granted, the directory's entry, the answer, and that no other byte of memory changes.
Where the spec leaves a choice open, it is the model's: log entries 26, 27, 28 and 29. -/
def Obligations.CoherentRequests : Prop := ∀ (s : State) (p : Fin 8) (m : Msg) (u p' r : Nat),
  let d := lineOf m
  let e := s.dirEnt d
  let a := d * 128
  let image := plain (s.bytes a 128)
  let takes (code : Nat) : Prop := s.TakesLine p (msgAs m code) u p' r
  let room : Prop := e = 0 ∧ ∃ x ∈ s.dirWays d, entSt x = 0
  let busy (t : State) : Prop := ∃ x, t.txn d = some x ∧ x.goAck = true ∧ x.out = []
  let kept (t : State) (lo n : Nat) : Prop :=
    ∀ b : Nat, b < dirWay d 0 ∨ dirWay d 0 + 256 ≤ b → b < lo ∨ lo + n ≤ b → t.byte b = s.byte b
  (takes 0x40 → room → Completes (.rdS p m u false) s fun t =>
    let msi := s.on (Csr.PANCTL_coh_msi m.pan)
    t.dirEnt d = (if msi then entAdd (entNew d 1 m.pan 0) r else entNew d 2 m.pan r) ∧
    s.Answers t p' (s.dataMsg m (if msi then 1 else 2) true false image) ∧ busy t ∧ kept t 0 0) ∧
  (takes 0x41 → room → Completes (.rdX p m u false) s fun t =>
    t.dirEnt d = entNew d 2 m.pan r ∧ s.Answers t p' (s.dataMsg m 3 true false image) ∧ busy t ∧ kept t 0 0) ∧
  (takes 0x42 → entSt e = 1 → entNames e r = true → s.sharers e (some r) = [] → Completes (.upg p m u false) s fun t =>
    t.dirEnt d = entNew d 2 m.pan r ∧ s.Answers t p' (s.goMsg m 3 false) ∧ busy t ∧ kept t 0 0) ∧
  (takes 0x43 → e = 0 → Completes (.rdNc p m u false) s fun t =>
    t.dirEnt d = 0 ∧ s.Answers t p' (s.dataMsg m 0 true false image) ∧ t.txn d = none ∧ kept t 0 0) ∧
  (takes 0x44 → e = 0 → cwPoison m = 0 → Completes (.wrNc p m u false) s fun t =>
    (∀ i < 128, t.byte (a + i) = if bitOf (ofLeBytes (m.data.take 16)) i then m.data.getD (16 + i) 0 % 256 else s.byte (a + i)) ∧
    t.dirEnt d = 0 ∧ s.Answers t p' (s.cmpMsg m Sts.ok) ∧ t.txn d = none ∧ kept t a 128) ∧
  (takes 0x45 → entSt e = 2 → entOwner e = r → cwPoison m = 0 → Completes (.wb p m u false) s fun t =>
    (∀ i < 128, t.byte (a + i) = m.data.getD i 0 % 256) ∧
    t.dirEnt d = 0 ∧ s.Answers t p' (s.wbAck m false false) ∧ t.txn d = none ∧ kept t a 128) ∧
  (takes 0x46 → entSt e = 2 → entOwner e = r → Completes (.evict p m u false) s fun t =>
    t.dirEnt d = 0 ∧ s.Answers t p' (s.cmpMsg m Sts.ok) ∧ t.txn d = none ∧ kept t 0 0) ∧
  (let k := cwSize m
   let o := a + cwOffset m
   let old := ofLeBytes (s.bytes o k)
   takes 0x47 → e = 0 → s.runsFar (msgAs m 0x47) = false → Completes (.atom p m u false) s fun t =>
    t.bytes o k = leBytes k (atomNew (cwOp m) k old (ofLeBytes (m.data.take 8)) (ofLeBytes ((m.data.drop 8).take 8))) ∧
    s.Answers t p' { s.respond m 0x68 Sts.ok with q3 := 0, data := leBytes 8 old ++ List.replicate 8 0 } ∧
    t.dirEnt d = 0 ∧ t.txn d = none ∧ kept t o k)

/-- Answers of holders and of other homes, and what follows when they stay away (R306, R307, R310, R319, R320, R326, R327, R381): the last answer that a
line awaits completes its request or brings its data to memory; GO_ACK frees the line; an answer to none of the device's requests is counted; a NAK
is waited out and the request sent again; lost partners, ended sweeps and lapsed reservations.
Where the spec leaves a choice open, it is the model's: log entries 26, 27 and 53. -/
def Obligations.CoherentAnswers : Prop := ∀ (s : State) (p : Fin 8) (m : Msg) (u : Nat) (x : Txn) (y : Snoop),
  let d := x.line
  let awaited (code : Nat) : Prop := s.Gets p (msgAs m code) ∧ s.quiet = true ∧ s.Sound ∧
    s.coh.txns.find? (fun t => t.snoops.any (fun z => z.tag == m.tag && z.epoch == m.tagEpoch)) = some x ∧ s.txn d = some x ∧ x.snoops = [y] ∧
    x.fetch = false ∧ x.goAck = false ∧ x.lost = false ∧ x.back = none ∧ x.mem = none ∧ entSt x.ent = 2 ∧ entOwner x.ent = y.member ∧
    s.dirEnt d = x.ent ∧ s.moving (d * 128) = false ∧ s.lineSlot d = none ∧ d < 2 ^ 45
  (∀ (q r p' : Nat) (z : Msg), awaited 0x63 → x.who = .req q z r → z.code = 0x40 → x.msi = false → y.code = 0x50 → y.member ≠ r → r < 1024 → z.pan < 64 →
    cwState m = 3 ∨ cwState m = 4 → s.hop (s.respond z 0x61 0) = .port p' 0 false → s.ringPort p' = false →
    Completes (.snpAck p m u false) s fun t =>
      t.dirEnt d = entAdd (entNew d 3 z.pan y.member) r ∧ s.Answers t p' (s.goMsg z 1 false) ∧ (∃ w, t.txn d = some w ∧ w.goAck = true) ∧
      ∀ b : Nat, b < dirWay d 0 ∨ dirWay d 0 + 256 ≤ b → t.byte b = s.byte b) ∧
  (awaited 0x64 → x.who = .own → x.out = [] → y.code = 0x54 → cwPoison m = 0 → s.panMirrored (entPan x.ent) = false → s.region (d * 128) ≠ .system →
    ((s.dirWays d).filter (fun e => entSt e != 0 && entLine e == d)).length ≤ 1 → Completes (.snpAckD p m u false) s fun t =>
      (∀ i < 128, t.byte (d * 128 + i) = m.data.getD i 0 % 256) ∧ t.dirEnt d = 0 ∧ t.txn d = none) ∧
  (∀ (q r : Nat) (z : Msg), s.Gets p (msgAs m 0x62) → s.quiet = true → x.who = .req q z r → x.goAck = true → reqKey z = reqKey m →
    s.coh.txns = [x] → Completes (.goAck p m u false) s fun t => t.coh.txns = [] ∧ t.mem = s.mem) ∧
  (∀ (c : Instr) (code : Nat), (c, code) ∈ [(Instr.data p m u false, 0x60), (.go p m u false, 0x61), (.wbAck p m u false, 0x66)] →
    s.Gets p (msgAs m code) → s.quiet = true → s.bit Csr.FABSTAT_cnt_ovf 9 = false → s.rd (fabCtr 9).cnt + 1 < cntMax → Completes c s fun t =>
      t.rd (fabCtr 9).cnt = s.rd (fabCtr 9).cnt + 1 ∧ t.coh = s.coh ∧ t.fab.reqs = s.fab.reqs ∧ t.mem = s.mem) ∧
  (∀ q : OutReq, s.outReq m.tag m.tagEpoch = some q → q.msg.code = 0x47 →
    (s.Gets p (msgAs m 0x65) → s.quiet = true → q.hold = false → q.naks + 1 < s.rd Csr.COHCTL_nak_limit → Completes (.nak p m u false) s fun t =>
      t.outReq m.tag m.tagEpoch = some { q with naks := q.naks + 1, hold := true } ∧ t.mem = s.mem) ∧
    (∀ (id lo n : Nat) (wr : Bool), q.use = .wait id lo n wr → m.status ≠ Sts.okDurable →
      (s.Gets p (msgAs m 0x67) → m.status ≠ Sts.ok → Completes (.cohCmp p m u false) s fun t =>
        t = (((s.consume p 2).dropReq q).setWait id (fun w => { w with left := w.left - 1, stat := Sts.first w.stat m.status })).runWaits) ∧
      (s.Gets p (msgAs m 0x68) → Completes (.atomRsp p m u false) s fun t =>
        t = (((s.consume p 2).dropReq q).setWait id (fun w =>
          { w.take lo ((m.data.take n).map (fun b => (b, m.status == Sts.poison))) with
            left := w.left - 1, stat := Sts.first w.stat m.status })).runWaits))) ∧
  (∀ (tag ep p' : Nat) (q : OutReq), s.outReq tag ep = some q → q.hold = true → 0 < q.naks → s.quiet = true →
    let z := { q.msg with q3 := setBits q.msg.q3 4 4 (min 15 q.naks), life := s.lifeInit }
    s.hop z = .port p' z.route false → s.ringPort p' = false → Completes (.nakBackoffExpire tag ep) s fun t =>
      t.outReq tag ep = some { q with hold := false } ∧ t.txQueue p' (vcOf z.code) = s.txQueue p' (vcOf z.code) ++ [z] ∧ t.mem = s.mem) ∧
  (s.quiet = true → s.txn d = some x → y ∈ x.snoops → y.member < 1024 → Completes (.snoopTimeout d) s fun t =>
    t.gone y.member = true ∧ t.rd Csr.COHSTAT_sweeping = 1 ∧ ∃ v ∈ t.coh.sweeps, v.member = y.member) ∧
  (∀ (i : Fin 1024), s.quiet = true → s.coh.sweeps.find? (fun v => v.member == i.val) = some ⟨i, false, []⟩ →
    (∀ t ∈ s.coh.txns, t.who ≠ .revoke i) → Completes (.cohSweepDone i) s fun t =>
      let rest := s.coh.sweeps.filter (fun v => v.member != i.val)
      t.coh.sweeps = rest ∧ t.rd Csr.COHSTAT_sweeping = if rest = [] then 0 else 1) ∧
  (∀ (l : Nat) (v : Resv), v ∈ s.coh.resv → v.line = l → Completes (.resvLapse l) s fun t =>
    t.coh.resv = s.coh.resv.filter (fun r => r.line != l) ∧ t.coh.txns = s.coh.txns ∧ t.mem = s.mem)

/-- Requests for memory and answers to the device's own (R379 to R381, R385, R387, R388, R400): MRD and MWR of a partner over this node's own memory,
MIRROR_WR of the twin; the response that a write waited for, the data of a read, and the promise of durability kept; time-outs; and the completion
cache's entries.
Where the spec leaves a choice open, it is the model's: log entries 22, 53 and 69. -/
def Obligations.MemoryRequests : Prop := ∀ (s : State) (p : Fin 8) (m : Msg) (u p' : Nat),
  let g : Seg := ⟨m.q2, m.length, 0, false⟩
  let a := m.q2 % 2 ^ 52
  let here (code : Nat) (wr : Bool) : Prop := s.Takes p (msgAs m code) u p' ∧ s.Sound ∧ s.shoots = [] ∧ s.isLocal g = true ∧
    s.outsideCarve a m.length = true ∧
    s.nxOwned (msgAs m code) = true ∧ (s.rightHolder (msgAs m code)).isSome = true ∧ (∀ d ∈ s.homeLines g, s.conflicts wr d = false) ∧
    ∀ x ∈ s.fab.live, x.1 ≠ reqKey m
  (here 0x01 false → Completes (.mrd p m u false) s fun t =>
    s.Answers t p' { s.respond m 0x31 Sts.ok with length := m.length, q3 := 0, data := s.bytes a m.length } ∧ t.mem = s.mem) ∧
  (here 0x02 true → m.q3 = 0 → s.panMirrored m.pan = false → s.panDurable m.pan = false →
    (∀ kv ∈ s.pans, ∀ v ∈ kv.2.undur, v.owner ≠ .nx s.fab.nextId) → Completes (.mwr p m u false) s fun t =>
    t.bytes a m.length = m.data.map (· % 256) ∧ (∀ b, b < a ∨ a + m.length ≤ b → t.byte b = s.byte b) ∧ s.Answers t p' (s.respond m 0x30 Sts.ok)) ∧
  (s.Arrives p (msgAs m 0x10) u p' → (s.pairOf (s.rd Csr.TWINCTL_port)).find? s.linkUp = some p' → s.Sound → s.outsideCarve a m.length = true →
    m.q3 = 0 → Completes (.mirrorWr p m u false) s fun t =>
    t.bytes a m.length = m.data.map (· % 256) ∧ (∀ b, b < a ∨ a + m.length ≤ b → t.byte b = s.byte b) ∧ s.Answers t p' (s.respond m 0x30 Sts.ok)) ∧
  (∀ (q : OutReq), s.outReq m.tag m.tagEpoch = some q →
    (∀ (id : Nat) (w : MirrorWait) (r : Msg), s.Gets p (msgAs m 0x30) → s.quiet = true → q.use = .mirror id → m.status = Sts.ok →
      s.fab.mirrors.find? (fun x => x.id == id) = some w → w = ⟨id, 1, some r, 0⟩ → s.hop r = .port p' r.route false → s.ringPort p' = false →
      vcOf r.code = 2 → Completes (.rsp p m u false) s fun t =>
        s.Answers t p' r ∧ t.outReq m.tag m.tagEpoch = none ∧ t.fab.mirrors = s.fab.mirrors.filter (fun x => x.id != id) ∧ t.mem = s.mem) ∧
    (∀ (id lo n : Nat), s.Gets p (msgAs m 0x31) → q.use = .wait id lo n false → m.status ≠ Sts.okDurable → m.accepted = false →
      Completes (.rspData p m u false) s fun t =>
        t = (((s.consume p 2).dropReq q).setWait id (fun w =>
          { w.take lo (maskPoison q.msg.q2 m.q3 (m.data.take q.msg.length)) with
            left := w.left - 1, stat := Sts.first w.stat m.status })).runWaits) ∧
    (∀ (qid pos : Nat) (e : Entry), s.Gets p (msgAs m 0x32) → s.quiet = true → q.use = .durable qid pos → (s.queue qid).ent pos = some e →
      Completes (.rspDur p m u false) s fun t =>
        t.outReq m.tag m.tagEpoch = none ∧ (t.queue qid).ent pos = some { e with durPos := e.durPos.map (· - 1) } ∧ t.mem = s.mem)) ∧
  (∀ (tag ep id lo n : Nat) (wr : Bool) (q : OutReq), s.outReq tag ep = some q → q.use = .wait id lo n wr → s.lattice = false →
    Completes (.nxReqTimeout tag ep) s fun t =>
      t = (((s.count (fabCtr 8)).dropReq q).setWait id (fun w => { w with left := w.left - 1, stat := Sts.first w.stat Sts.timeout })).runWaits) ∧
  (∀ key : Nat, s.quiet = true → Completes (.ccEntryExpire key) s fun t =>
    t.fab.cc = s.fab.cc.filter (fun e => !(e.key == key && e.rsp.isSome)) ∧ t.regs = s.regs ∧ t.mem = s.mem) ∧
  (∀ (h : CcHeld) (l : List CcHeld) (z : Msg),
    let v := { s with fab := { s.fab with ccWait := l, ccFull := false } }.wr Csr.FABSTAT_cc_wait (if l = [] then 0 else 1)
    s.fab.ccWait = h :: l → s.charge h.port h.msg (h.waited + subMod s.stamp h.since 64) = some z → isCached h.msg.code = true →
    (∀ e ∈ s.fab.cc, e.key ≠ reqKey h.msg) → Completes .ccEntryWaitDone s fun t =>
      t = ((v.consume h.port (vcOf h.msg.code)).perform h.port z h.act).runWaits)

/-- Fabric (R384, R389 to R398): a message for another place goes on with its life charged; holds are taken, reported and released; a node is marked
down or up at once; a congestion map is published.
Where the spec leaves a choice open, it is the model's: log entries 1 and 40. -/
def Obligations.FabricRouting : Prop := ∀ (s : State) (w : Writer) (p : Fin 8),
  let released (t : State) : Prop := t.rd Csr.FABSTAT_held = 0 ∧ t.rd Csr.FABSTAT_drained = 0 ∧ t.rd Csr.FABSTAT_drain_id = 0 ∧
    t.fab.drainPort = none ∧ t.mem = s.mem
  let commanded (b : List Nat) : Prop := s.portHears p = true ∧ s.quiet = true ∧ s.twinPort p = false ∧ s.fmPort p = true ∧ ctrlField b 1 2 < 2 ^ 16
  (∀ (i : Instr) (m : Msg) (u q r x : Nat), i ∈ [Instr.messageForward p m u false, .partnerMessageForward p m u false] →
    s.portHears p = true → s.quiet = true → (m.dstNode = s.nodeId → m.dstPartner = true) → (m.dstPartner = true → vcOf m.code ≠ 1) →
    (if s.lattice then s.nodeNamed m.dstNode = true else m.dstNode = s.nodeId) → s.hop m = .port q r false →
    lifeAfter m.life (u + s.flight p m + s.rd (Csr.LINKRTT_rtt_ns q) / 2) 1 = some x →
    (s.ringPort q = true → m.srcNode ≠ s.nodeId ∧ s.ringRoom q (vcOf m.code) false m = true ∧ (m.isReq = false ∨ m.mark = true)) →
    Completes i s fun t =>
      t.txQueue q (vcOf m.code) = s.txQueue q (vcOf m.code) ++ [{ m with life := x, route := r }] ∧ t.coh = s.coh ∧ t.mem = s.mem) ∧
  (∀ b : List Nat, commanded b → Completes (.drainHold p b) s fun t =>
    t.on Csr.FABSTAT_held = true ∧ t.rd Csr.FABSTAT_drain_id = ctrlField b 1 2 ∧ t.fab.drainPort = some p.val ∧ t.mem = s.mem) ∧
  (∀ b : List Nat, commanded b → s.on Csr.FABSTAT_held = true → s.rd Csr.FABSTAT_drain_id = ctrlField b 1 2 →
    Completes (.drainRelease p b) s released) ∧
  (∀ id : BitVec 16, s.Reaches w 0x5018 (1 + id.toNat * 2 ^ 16) → Completes (.fabcmdHold w id) s fun t =>
    t.on Csr.FABSTAT_held = true ∧ t.rd Csr.FABSTAT_drain_id = id.toNat ∧ t.mem = s.mem) ∧
  (s.Reaches w 0x5018 2 → s.on Csr.FABSTAT_held = true → Completes (.fabcmdRelease w) s released) ∧
  (s.on Csr.FABSTAT_held = true → Completes .drainHoldTimeout s released) ∧
  (s.on Csr.FABSTAT_held = true → s.on Csr.FABSTAT_drained = false → s.fabEmpty = true → Completes .fabDrained s fun t =>
    t.rd Csr.FABSTAT_drained = 1 ∧ s.keepsRegs t [0x5020] ∧ t.fab = s.fab ∧ t.mem = s.mem) ∧
  (∀ b : List Nat, commanded b → Completes (.nodeState p b) s fun t =>
    t.on (Csr.ROUTE_down (bitsOf (ctrlField b 1 2) 0 12)) = !bitOf (ctrlField b 3 1) 0 ∧ t.mem = s.mem) ∧
  (∀ (n : Fin 4096) (down : Bool),
    s.Reaches w (0x40000 + 8 * n.val) (setBits (s.readWord (0x40000 + 8 * n.val)) 9 1 (if down then 1 else 0)) →
    Completes (.routeDownWrite w n down) s fun t => t.on (Csr.ROUTE_down n) = down ∧ t.mem = s.mem) ∧
  Completes .congestionMap s fun t =>
    (match t.fab.map with
      | none => False
      | some m => m.seq = s.fab.mapSeq ∧ m.start = s.fab.mapStart ∧ m.len = subMod s.stamp s.fab.mapStart 64 ∧
        (∀ q : Fin 8, (m.ports[q.val]?).map (·.state) = some (s.link q)) ∧
        (∀ k : Fin 16, (m.stalls[k.val]?).map (·.waiting) = some (s.entriesWaiting k))) ∧
    t.fab = { s.fab with map := t.fab.map, mapSeq := (s.fab.mapSeq + 1) % 2 ^ 32, mapStart := s.stamp } ∧ t.regs = s.regs ∧ t.mem = s.mem

/-- States of links (Table 12-3, R336 to R340, R366 to R370): what every command that moves a link leaves, from the state in which it acts.
Where the spec leaves a choice open, it is the model's: log entries 49 and 50. -/
def Obligations.LinkStates : Prop := ∀ (s : State) (w : Writer) (p : Fin 8),
  let ctl := 0x2000000 + 0x80000 * p.val
  let goes (i : Instr) (st : Nat) (P : State → Prop) : Prop := Completes i s fun t => t.link p = st ∧ P t
  let searching (t : State) : Prop := t.on (Csr.PEERINFO_valid p) = false ∧ t.rd (Csr.SEARCHSTAT_attempts p) = 0 ∧ t.rd (Csr.SEARCHSTAT_next_ms p) = 0
  let calm : Prop := s.quiet = true
  (s.Reaches w ctl (setBits (s.readWord ctl) 0 1 1) → s.on (Csr.PORTCTL_enable p) = false → s.link p = 0 → s.on (Csr.PEERINFO_valid p) = false →
    p.val ∉ s.board.unwatched → 8 + p.val ∉ s.board.unwatched → goes (.linkEnable w p) 1 fun t => searching t ∧ t.rd (Csr.PORTCTL_enable p) = 1 ∧ t.mem = s.mem) ∧
  (s.Reaches w ctl (setBits (s.readWord ctl) 0 1 0) → s.on (Csr.PORTCTL_enable p) = true → goes (.linkDisable w p) 0 fun t =>
    t.rd (Csr.PORTCTL_enable p) = 0 ∧ (s.link p ≠ 0 → t.on (Csr.PEERINFO_valid p) = false ∧ t.rd (Csr.PORTSEC_secured p) = 0)) ∧
  (calm → s.link p = 1 → goes (.searchAttempt p) 1 fun t =>
    let n := min (s.rd (Csr.SEARCHSTAT_attempts p) + 1) 0xFFFFFFFF
    t.rd (Csr.SEARCHSTAT_attempts p) = n ∧ t.rd (Csr.SEARCHSTAT_next_ms p) = searchWait n ∧ t.mem = s.mem) ∧
  (s.Reaches w (ctl + 0x10) 2 → s.link p = 1 → goes (.searchNow w p) 1 fun t => t.rd (Csr.SEARCHSTAT_next_ms p) = 0 ∧ t.mem = s.mem) ∧
  (calm → s.link p = 1 → goes (.partnerSignalDetect p) 2 fun t =>
    (t.lnk p).nonce = Config.freeValue s.freeCount % 2 ^ 32 ∧ (t.lnk p).peerNonce = 0 ∧ t.mem = s.mem) ∧
  (calm → s.link p = 2 → goes (.trainingTimeout p) 1 searching) ∧
  (calm → s.link p = 2 → s.on (Csr.PEERINFO_valid p) = false → goes (.trainingTimeout p) 1 fun t => t.links = s.links ∧ t.mem = s.mem) ∧
  (calm → s.link p = 3 → s.mate p = none → goes (.signalLoss p) 6 fun t => t.links = s.links ∧ t.mem = s.mem) ∧
  (calm → s.link p = 3 → (s.mate p).isSome = true → goes (.signalLoss p) 6 fun t => t.on (Csr.PEERINFO_valid p) = false) ∧
  (s.Reaches w (ctl + 0x10) 1 → s.link p = 3 → (s.mate p).isSome = true → goes (.portcmdRetrain w p) 6 fun t => t.on (Csr.PEERINFO_valid p) = false) ∧
  (s.Reaches w (ctl + 0x10) 1 → s.link p = 3 → s.mate p = none → goes (.portcmdRetrain w p) 6 fun t => t.links = s.links ∧ t.mem = s.mem) ∧
  (let lane (half : Bool) (t : State) : Prop := t.rd (if half then Csr.PORTSTAT_laser_b_low p else Csr.PORTSTAT_laser_a_low p) = 1 ∧
     t.rd (Csr.LANESTAT_tx_ok p) = setBits (s.rd (Csr.LANESTAT_tx_ok p)) (if half then 4 else 0) 4 0 % 2 ^ 8
   (∀ half : Bool, calm → s.link p = 3 → goes (.laserLow p half) 6 (lane half)) ∧
   (∀ half : Bool, calm → s.link p ≠ 3 → goes (.laserLow p half) (s.link p) fun t => lane half t ∧ t.mem = s.mem)) ∧
  (∀ (tx rx : BitVec 8), calm → s.link p = 6 → s.on (Csr.PEERINFO_valid p) = true → (s.laneWidth p tx.toNat rx.toNat).isSome = true →
    goes (.retrainDone p tx rx) 3 fun t => t.rd (Csr.LANESTAT_tx_ok p) = tx.toNat ∧ t.rd (Csr.LANESTAT_rx_ok p) = rx.toNat ∧
      (∀ k, (s.lnk p).oldest = some k → t.lnk p = { s.lnk p with replay := some k.ext }) ∧ t.mem = s.mem) ∧
  (∀ (tx rx : BitVec 8), calm → s.link p = 6 → s.on (Csr.PEERINFO_valid p) = false → (s.laneWidth p tx.toNat rx.toNat).isSome = true →
    goes (.retrainDone p tx rx) 3 fun t => t.rd (Csr.PEERINFO_valid p) = 1 ∧ (t.lnk p).txNext = 0 ∧ (t.lnk p).rxNext = 0 ∧
      t.rd (Csr.PORTSTAT_sess p) = (s.rd (Csr.PORTSTAT_sess p) + 1) % 16) ∧
  (∀ (tx rx : BitVec 8), calm → s.link p = 6 → s.laneWidth p tx.toNat rx.toNat = none → exec (.retrainDone p tx rx) s = .next s) ∧
  (calm → s.link p = 6 → goes (.retrainExpire p) 1 searching) ∧
  (calm → s.link p = 5 → goes (.fastRetrainFail p) 2 fun t =>
    (t.lnk p).nonce = Config.freeValue s.freeCount % 2 ^ 32 ∧ (t.lnk p).peerNonce = 0 ∧ t.mem = s.mem) ∧
  (calm → s.link p = 4 ∨ s.link p = 5 → goes (.wakePattern p) 3 fun t => t.mem = s.mem) ∧
  (∀ lost : List Nat, calm → s.on (Csr.PORTSTAT_failover p) = true → (∀ k ∈ (s.lnk p).drain.flits, ∀ m ∈ k.2.msgs, s.ownReq m = false) →
    (∀ h ∈ (s.lnk p).drain.waiting, ∀ m ∈ h.2, s.ownReq m = false) → goes (.failoverDone p lost) (s.link p) fun t =>
      t.rd (Csr.PORTSTAT_failover p) = 0 ∧ (t.lnk p).drain = ⟨[], []⟩ ∧ (t.lnk p).kept = (s.lnk p).kept ∧
      ((s.lnk p).kept = [] → t.rd (Csr.RETAINSTAT_spilled p) = 0) ∧ t.mem = s.mem)

/-- Control messages and timers of links (R340, R344, R362, R371, R441, R445, R448): power states are proposed, answered and entered; the round trip is
measured; ends go to encryption and to new generations; fragments of SPDM messages join up.
Where the spec leaves a choice open, it is the model's: log entries 11, 49 and 50. -/
def Obligations.LinkMessages : Prop := ∀ (s : State) (p : Fin 8) (b : List Nat),
  let l := s.lnk p
  let sends (t : State) (fs : List (Nat × Nat × Nat)) : Prop := (t.lnk p).ctrlq = l.ctrlq ++ [ctrlBytes fs] ∧ t.mem = s.mem
  let calm : Prop := s.quiet = true
  let heard : Prop := s.portHears p = true ∧ s.quiet = true
  (calm → s.link p = 3 → s.linkUp p = true → s.linkIdle p = true → s.lpiOn p = true → l.lpiReq = false →
    Completes (.lpiIdleExpire p) s fun t => (t.lnk p).lpiReq = true ∧ sends t [(0, 1, 2)]) ∧
  (calm → s.link p = 4 → s.linkUp p = true → s.linkIdle p = true → s.sleepOn p = true → l.kept = [] → l.sleepReq = false →
    Completes (.sleepIdleExpire p) s fun t => t.link p = 3 ∧ (t.lnk p).sleepReq = true ∧ sends t [(0, 1, 4)]) ∧
  (calm → s.link p = 4 → s.nothingWaits p = true → s.sleepOn p = true → l.kept ≠ [] → l.sleepReq = false →
    Completes (.sleepIdleExpire p) s fun t => t.link p = 3 ∧ t.lnk p = { l with sleepWant := true } ∧ t.mem = s.mem) ∧
  (heard → l.lpiReq = false → Completes (.lpiReq p b) s fun t => sends t [(0, 1, 3), (1, 1, if s.linkIdle p && s.lpiOn p then 1 else 0)]) ∧
  (heard → l.lpiReq = true → Completes (.lpiAck p b) s fun t => (t.lnk p).lpiReq = false ∧
    t.link p = (if bitOf (ctrlField b 1 1) 0 = true ∧ s.link p = 3 then 4 else s.link p) ∧ t.mem = s.mem) ∧
  (heard → l.sleepReq = false → Completes (.sleepReq p b) s fun t =>
    sends t [(0, 1, 5), (1, 1, if s.linkIdle p && s.sleepOn p && l.kept.isEmpty then 1 else 0)]) ∧
  (heard → l.sleepReq = true → Completes (.sleepAck p b) s fun t => (t.lnk p).sleepReq = false ∧
    t.link p = (if bitOf (ctrlField b 1 1) 0 = true ∧ s.link p = 3 then 5 else s.link p) ∧ t.mem = s.mem) ∧
  (calm → Completes (.lpiReqTimeout p) s fun t => t.lnk p = { l with lpiReq := false, sleepReq := false } ∧ t.regs = s.regs ∧ t.mem = s.mem) ∧
  (heard → exec (.linkNotice p b) s = .next s) ∧
  (calm → s.link p = 3 → s.linkUp p = true → Completes (.echoTimer p) s fun t => sends t [(0, 1, 7), (8, 8, s.stamp)]) ∧
  (heard → Completes (.echo p b) s fun t => sends t [(0, 1, 8), (8, 8, ctrlField b 8 8), (16, 8, s.stamp)]) ∧
  (heard → Completes (.echoRsp p b) s fun t =>
    let x := subMod (subMod s.stamp (ctrlField b 8 8) 64) (ctrlField b 16 8) 64
    t.rd (Csr.LINKRTT_rtt_ns p) = x % 2 ^ (Csr.LINKRTT_rtt_ns p).w ∧ t.links = s.links ∧ t.mem = s.mem) ∧
  (calm → Completes (.tagTimerExpire p) s fun t => t.lnk p = { l with tagDue := l.tagDue || !l.uncovered.isEmpty } ∧ t.regs = s.regs ∧ t.mem = s.mem) ∧
  (calm → s.linkUp p = true → s.on (Csr.PORTSEC_secured p) = true → l.genStart + 2 ^ 34 ≤ l.txNext → Completes (.txRekeyDue p) s fun t =>
    let g := (s.rd (Csr.PORTSEC_generation p) + 1) % 256
    t.rd (Csr.PORTSEC_generation p) = g ∧ l.txNext + l.ctrlq.length < (t.lnk p).genStart ∧
    sends t [(0, 1, 0x52), (1, 1, g), (8, 8, (t.lnk p).genStart)]) ∧
  (heard → s.rd (Csr.PORTSEC_spdm p) = 2 → Completes (.encStart p b) s fun t =>
    t.lnk p = { l with encRx := some (ctrlField b 8 8), rxGen := ctrlField b 1 1, rxFrom := ctrlField b 8 8 } ∧
    t.rd (Csr.PORTSEC_secured p) = (if l.encTx.isSome then 1 else s.rd (Csr.PORTSEC_secured p)) ∧ t.mem = s.mem) ∧
  (heard → s.on (Csr.PORTSEC_secured p) = true → ctrlField b 1 1 = (l.rxGen + 1) % 256 → Completes (.rekey p b) s fun t =>
    t.lnk p = { l with rxGen := ctrlField b 1 1, rxFrom := ctrlField b 8 8 } ∧ s.keepsRegs t [] ∧ t.mem = s.mem) ∧
  (let n := ctrlField b 4 2
   let dir := bitsOf (ctrlField b 1 1) 2 1
   heard → 1 ≤ n → n ≤ 232 → bitOf (ctrlField b 1 1) 1 = false → Completes (.spdmFrag p b) s fun t =>
    let new := (if bitOf (ctrlField b 1 1) 0 then [] else SMap.get [] dir l.frag) ++ (b.drop 8).take n
    SMap.get [] dir (t.lnk p).frag = (if 65536 < new.length then [] else new) ∧ t.regs = s.regs ∧ t.mem = s.mem)

/-- Flits (R341 to R363): INIT opens a session when both ends know each other's nonce; a flit that passes its checks and is the next is accepted, one held
for its TAG waits for it; acknowledgements release what was kept; a request or a timer starts a replay; and a slot sends what comes first.
Where the spec leaves a choice open, it is the model's: log entries 49 and 51. -/
def Obligations.Flits : Prop := ∀ (s : State) (p : Fin 8) (b : List Nat) (fec : Bool) (ser : List Nat),
  let l := s.lnk p
  let h := flitHdr b
  let body := flitBody b
  let v := s.fecCounts p fec ser
  let calm : Prop := s.quiet = true
  let next (type : Nat) : Prop := calm ∧ s.link p = 3 ∧ s.flitOk p type b fec = true ∧ bitsOf h 8 12 = s.rxExpect p
  (calm → s.link p = 2 → Completes (.initSend p) s fun t => ∃ f, (t.lnk p).last = some f ∧ f.type = 5 ∧ f.body = ctrlBytes
    [(0, 1, 1), (1, 1, s.initFlags p), (2, 2, s.nodeId + p * 4096), (4, 4, l.nonce), (8, 4, l.peerNonce), (12, 8, s.stamp), (20, 8, l.init.1),
     (28, 4, if l.peerNonce = 0 then 0 else subMod s.stamp l.init.2 64), (32, 1, (s.rd (Csr.PORTSTAT_sess p) + 1) % 16), (33, 2, 64),
     (35, 2, ([1, 2, 3].map (s.vcMax p)).foldl max 0)] ∧ t.regs = s.regs ∧ t.mem = s.mem) ∧
  (∀ (tx rx : BitVec 8), calm → s.link p = 2 → s.flitOk p 5 b fec = true → ctrlField body 0 1 = 1 →
    bitsOf (ctrlField body 1 1) 1 2 = bitsOf (s.initFlags p) 1 2 →
    (s.on (Csr.PORTCTL_enc_req p) = false ∧ s.rd Csr.SECSTAT_state ≠ 3 ∨ bitOf (ctrlField body 1 1) 0 = true) → l.nonce ≠ 0 →
    Completes (.initFlit p b fec ser tx rx) s fun t => t.mem = s.mem ∧
      (ctrlField body 8 4 ≠ l.nonce → t.link p = 2 ∧ (t.lnk p).peerNonce = ctrlField body 4 4 ∧ (t.lnk p).init = (ctrlField body 12 8, s.stamp)) ∧
      (ctrlField body 8 4 = l.nonce → (s.laneWidth p tx.toNat rx.toNat).isSome = true → t.link p = 3 ∧ t.rd (Csr.PEERINFO_valid p) = 1 ∧
        t.rd (Csr.PEERINFO_node p) = ctrlField body 2 2 % 4096 ∧ t.rd (Csr.PORTSTAT_sess p) = (s.rd (Csr.PORTSTAT_sess p) + 1) % 16 ∧
        (t.lnk p).txNext = 0 ∧ (t.lnk p).rxNext = 0)) ∧
  (∀ u : TxFlit, next 0 → l.rxWait = false → bitOf h 6 = true → l.oldest = some u → subMod (bitsOf h 20 12) u.ext 12 < (l.kept.filter (fun k => !k.acked)).length →
    Completes (.nullFlit p b fec ser) s fun t => t.rd (Csr.PORTSTAT_tx_xoff p) = bitsOf h 32 3 ∧
      (∀ k ∈ (t.lnk p).kept, k.ext ≤ u.ext + subMod (bitsOf h 20 12) u.ext 12 → k.acked = true) ∧ (t.lnk p).rxNext = l.rxNext ∧ t.mem = s.mem) ∧
  (next 1 → bitOf h 5 = false → s.slotFor p (bitsOf h 3 2) = true → Completes (.dataFlit p b fec ser) s fun t =>
    (t.lnk p).rxNext = l.rxNext + 1 ∧ (t.lnk p).rxWait = false ∧ (t.lnk p).held = l.held ∧ t.mem = s.mem) ∧
  (next 1 → bitOf h 5 = true → s.slotFor p (bitsOf h 3 2) = true → Completes (.dataFlit p b fec ser) s fun t =>
    (t.lnk p).rxNext = l.rxNext ∧ (∃ f, (t.lnk p).held = l.held ++ [f] ∧ f.seq = bitsOf h 8 12) ∧ t.mem = s.mem) ∧
  (next 2 → bitOf h 5 = false → ctrlField body 0 1 = 7 → s.linkUp p = true → Completes (.ctrlFlit p b fec ser) s fun t =>
    (t.lnk p).rxNext = l.rxNext + 1 ∧
    (t.lnk p).ctrlq = l.ctrlq ++ [ctrlBytes [(0, 1, 8), (8, 8, ctrlField body 8 8), (16, 8, s.stamp)]] ∧ t.mem = s.mem) ∧
  (let y := s.flitPlain p (l.rxNext + l.held.length) b
   let first := bitsOf (ofLeBytes (y.take 2)) 0 12
   next 3 → l.held ≠ [] → (∀ f ∈ l.held, f.vc ≠ 0) → l.tagFail.2 = 0 → y.getD 2 0 = l.held.length → l.held.head?.map (·.seq) = some first →
    Completes (.tagFlit p b fec ser) s fun t => (t.lnk p).held = [] ∧ t.mem = s.mem ∧ (t.lnk p).rxNext =
      if (y.drop 4).take 16 = s.heldTag p then l.rxNext + l.held.length + 1 else l.rxNext) ∧
  (∀ u : TxFlit, let z := (v.flitFields p h).lnk p
    next 4 → z.oldest = some u → z.replay = none → z.k + 1 ≤ s.rd (Csr.LINKTMR_replay_limit p) → Completes (.replayReq p b fec ser) s fun t =>
      (t.lnk p).replay = (z.kept.find? (fun k => decide (u.ext ≤ k.ext))).map (·.ext) ∧ (t.lnk p).k = z.k + 1 ∧ t.mem = s.mem) ∧
  (∀ u : TxFlit, calm → s.link p = 3 → l.oldest = some u → l.replay = none → l.k + 1 ≤ s.rd (Csr.LINKTMR_replay_limit p) →
    Completes (.replayTimerExpire p) s fun t =>
      t.lnk p = { l with replay := (l.kept.find? (fun k => decide (u.ext ≤ k.ext))).map (·.ext), k := l.k + 1 } ∧ t.mem = s.mem) ∧
  (let idle : Prop := calm ∧ s.link p = 3 ∧ l.replay = none ∧ l.rrDue = false ∧ l.uncovered = [] ∧ (l.kept.filter (fun k => !k.acked)).length < 2048
   (idle → l.ctrlq = [] → s.nextVc p = none → Completes (.flitSlot p) s fun t =>
      (∃ f, (t.lnk p).last = some f ∧ f.type = 0 ∧ f.seq = l.txNext % 4096 ∧
        f.raw = f.bytes noBody (some (l.nonce % 2 ^ 32 + l.peerNonce % 2 ^ 32 * 2 ^ 32))) ∧ (t.lnk p).kept = l.kept ∧ (t.lnk p).txNext = l.txNext ∧ t.mem = s.mem) ∧
   (∀ (c : List Nat) (cs : List (List Nat)), idle → l.ctrlq = c :: cs →
      (l.kept.filter (fun k => k.vc == 0 && !k.delivered)).length < s.rd (Csr.PEERINFO_vc0_slots p) →
      l.kept.length - s.spilledKept p < 4096 → Completes (.flitSlot p) s fun t =>
        (∃ f, (t.lnk p).last = some f ∧ f.type = 2 ∧ f.seq = l.txNext % 4096 ∧ f.body = s.echoHold c) ∧ (t.lnk p).ctrlq = cs ∧
        (t.lnk p).txNext = l.txNext + 1 ∧ t.mem = s.mem) ∧
   (∀ n : Nat, idle → l.ctrlq = [] → s.on (Csr.PORTSTAT_stalled p) = false → s.dataHeld p = false → s.nextVc p = some n → Completes (.flitSlot p) s fun t =>
      (∃ f, (t.lnk p).last = some f ∧ f.type = 1 ∧ f.vc = n ∧ f.seq = l.txNext % 4096 ∧
        f.msgs = (packFlit 16 240 (s.toSend p n) (SMap.get 0 n l.part)).1 ∧ f.body = streamBody (s.toSend p n) (SMap.get 0 n l.part)) ∧ (t.lnk p).txNext = l.txNext + 1 ∧ t.mem = s.mem))

/-- Epochs and the failure of a stall (R405, R407, R409, R422): a drain ends, is late, and the shadow becomes a copy of the active set; a stall that does not
answer leaves service with its DDR5 channel, and its slices go to others.
Where the spec leaves a choice open, it is the model's: log entry 44. -/
def Obligations.EpochsAndStalls : Prop := ∀ (s : State),
  (s.quiet = true → s.rd Csr.EPOCHSTAT_shadow = 2 → s.rm.reissue = [] → s.twin.later = [] → s.activeSet < 2 →
    (s.regs.map (·.1)).Pairwise (· < ·) → Completes .shadowCopyDone s fun t =>
      t.rd Csr.EPOCHSTAT_shadow = 0 ∧ t.mem = s.mem ∧
      (∀ o r f, Csr.find o = some r → f ∈ r.fields → f.acc = .rws → t.rdShadow (f.fld o) = t.rd (f.fld o) ∧ t.rd (f.fld o) = s.rd (f.fld o))) ∧
  (s.quiet = true → s.rd Csr.EPOCHSTAT_shadow = 1 → s.rd Csr.EPOCHINFL_previous = 0 → Completes .epochDrainDone s fun t =>
    t.rd Csr.EPOCHSTAT_shadow = 2 ∧ s.keepsRegs t [Csr.EPOCHSTAT_shadow.off] ∧ t.mem = s.mem) ∧
  (s.rd Csr.EPOCHSTAT_shadow = 1 → s.rd Csr.EPOCHINFL_previous ≠ 0 → s.rm.slow = false → Completes .epochDrainSlow s fun t =>
    t.rm = { s.rm with slow := true } ∧ s.keepsRegs t [] ∧ t.mem = s.mem) ∧
  (∀ (a : Bool) (k : Fin 16), s.rmActive = some a → s.stallFailed k = false →
    let fails (t : State) : Prop := t.stallFailed k = true ∧ t.bit Csr.STALLSVC_in_service k = false ∧ t.chanOos k = true ∧
      ((∃ j : Nat, j < 16 ∧ j ≠ k ∧ s.bit Csr.STALLSVC_in_service j = true) → ∀ i < 16, bitsOf (t.rd Csr.SLICEMAP_stall) (4 * i) 4 ≠ k)
    Completes (.stallFail k) s fails ∧ Completes (.stallPoll [k]) s fails ∧ exec (.stallPoll []) s = .next s) ∧
  (s.rm.moving ≠ [] → (∀ q ∈ s.rm.moving, (s.queue q).moving = none) → Completes .stallQueuesMoved s fun t =>
    t.rm = { s.rm with moving := [] } ∧ t.queues = s.queues ∧ t.mem = s.mem)

/-- The Ringmaster pair (R415 to R421): snapshots are written and committed, the heartbeat says what is current, and a standby takes over, with the next
claim, from an active that is silent, fails or yields; a failed instance is loaded again.
Where the spec leaves a choice open, it is the model's: log entry 43. -/
def Obligations.RingmasterPair : Prop := ∀ (s : State) (a : Bool), s.rmActive = some a →
  let x := !a
  let k := 2 * rmNum x + s.rm.target
  let takes (st : Nat) (t : State) : Prop := t.rmState a = st ∧ t.rmState x = 4 ∧ t.rd Csr.CLAIMCUR_claim = (s.rd Csr.CLAIMCUR_claim + 1) % 2 ^ 32 ∧
    t.rmHolder = x ∧ (∀ b < 50, t.latched b = (s.rd Csr.CLAIMCUR_claim + 1) % 2 ^ 32) ∧ t.mem = s.mem
  (s.rmStandby a = some x → s.rm.writing = none → Completes .snapshotStart s fun t =>
    t.rm.writing = some (s.rm.snapSeq + 1, s.rm.seq, k) ∧ SMap.get none k t.rm.bufs = none ∧ t.rd (bufValid x s.rm.target) = 0 ∧ t.mem = s.mem) ∧
  (∀ (n j i : Nat), s.rmStandby a = some x → s.rm.writing = some (n, j, i) → Completes .snapshotCommit s fun t =>
    t.rm.writing = none ∧ SMap.get none i t.rm.bufs = some ⟨n, j, s.claimOf a, s.epochNow⟩ ∧ t.rd (bufValid x (i % 2)) = 1 ∧
    t.rd Csr.TRPSTAT_snap_seq = n % 2 ^ 32 ∧ t.rm.snapSeq = n ∧ t.mem = s.mem) ∧
  (s.rmStandby a = some x → Completes .rmHeartbeat s fun t =>
    t.rm = { s.rm with beat := (s.rd Csr.CLAIMCUR_claim, s.epochNow, s.rm.seq) } ∧ t.regs = s.regs ∧ t.mem = s.mem) ∧
  (∀ snap : Snap, s.rmState x = 3 → s.newest x = some snap → s.tailOf x snap.jrnl = [] → s.rmQueues a = [] →
    Completes .rmHbTimeout s (takes 5) ∧ Completes .rmMachineCheck s (takes 5)) ∧
  (∀ w : Writer, s.Reaches w 0x500000 (setBits (s.readWord 0x500000) 33 1 1) → s.rmState x = 3 → s.rm.jrnl = [] → s.rmQueues a = [] →
    Completes (.rmYield w) s (takes 2)) ∧
  (∀ b : Bool, s.rmState b = 5 → Completes (.rmReload b true) s fun t =>
    t.rmState b = 2 ∧ t.rd (Csr.RMSTAT_cores_up (rmNum b)) = 15 ∧ t.rd (bufValid b 0) = 0 ∧ t.rd (bufValid b 1) = 0 ∧ t.rm.fulls = 0 ∧ t.mem = s.mem) ∧
  (∀ b : Bool, s.rmState b = 5 → exec (.rmReload b false) s = .next s)

/-- The twin (R423 to R430, R433): greetings, heartbeats, allocations, mappings, resyncs and their answers; the loss of the twin, takeover, and the commands
of TWINCMD.
Where the spec leaves a choice open, it is the model's: log entries 45, 46 and 47. -/
def Obligations.Twin : Prop := ∀ (s : State) (w : Writer) (p : Fin 8) (b : List Nat),
  let heard : Prop := s.portHears p = true ∧ s.quiet = true ∧ s.twinPort p = true
  let port := s.rd Csr.TWINCTL_port
  let q := ctrlField b 16 8
  let n := ctrlField b 2 1 % 64
  let second : Prop := heard ∧ s.isSecond = true ∧ s.twin.later = [] ∧ q ∉ s.twin.seen ∧ s.linkUp port = true
  let answers (t : State) (code : Nat) : Prop := t.twin.seen = s.twin.seen ++ [q] ∧
    (t.lnk port).ctrlq = (s.lnk port).ctrlq ++ [ctrlBytes [(0, 1, 0x63), (1, 1, code), (16, 8, q)]]
  let leads (t : State) (c : Nat) : Prop := t.rd Csr.TWINSTAT_role = 0 ∧ t.rd Csr.TWINSTAT_state = 4 ∧
    t.rd Csr.CLAIMCUR_claim = (c + 0x10000) % 2 ^ 32
  (heard → s.rd Csr.TWINSTAT_state = 0 → Completes (.twinHello p b) s fun t => t.twin = { s.twin with hello := some (0x60 :: b.drop 1) } ∧ t.mem = s.mem) ∧
  (heard → s.rd Csr.TWINSTAT_state = 1 → s.twin.greeted = true → s.twinLeads b = false → Completes (.twinHello p b) s fun t =>
    t.rd Csr.TWINSTAT_state = 2 ∧ t.rd Csr.TWINSTAT_role = 1 ∧ t.rd Csr.TWINSTAT_peer_node = ctrlField b 2 2 % 4096 ∧
    t.rd Csr.TWINSTAT_peer_claim = ctrlField b 4 4 % 2 ^ 32 ∧ t.twin = Twin.none ∧ t.mem = s.mem) ∧
  (s.twinUp = true → s.linkUp port = true → Completes .twinHbSend s fun t =>
    (t.lnk port).ctrlq = (s.lnk port).ctrlq ++ [ctrlBytes [(0, 1, 0x61), (4, 4, s.rd Csr.CLAIMCUR_claim), (8, 4, s.epochNow), (16, 8, s.rm.seq)]] ∧
    t.regs = s.regs ∧ t.mem = s.mem) ∧
  (heard → s.isSecond = true → Completes (.twinHb p b) s fun t =>
    t.rd Csr.TWINSTAT_peer_claim = ctrlField b 4 4 % 2 ^ 32 ∧ t.twin = { s.twin with peerEpoch := ctrlField b 8 4, peerSeq := ctrlField b 16 8 } ∧
    t.mem = s.mem) ∧
  (let gs := rangeFrom (ctrlField b 4 4) (ctrlField b 8 4)
   second → ctrlField b 1 1 = 0 → (∀ g ∈ gs, (s.gran g).st = .free) → Completes (.twinAlloc p b) s fun t =>
    answers t 0 ∧ ∀ g ∈ gs, t.owns n g = true) ∧
  (let gs := rangeFrom (ctrlField b 4 4) (ctrlField b 8 4)
   second → ctrlField b 1 1 = 0 → (∃ g ∈ gs, (s.gran g).st ≠ .free) → Completes (.twinAlloc p b) s fun t => answers t 1 ∧ t.grans = s.grans ∧ t.mem = s.mem) ∧
  (second → ctrlField b 1 1 = 1 → ∀ u : State,
    { s with twin := { s.twin with seen := s.twin.seen ++ [q] } }.twinMapMsg (0x64 :: b.drop 1) = (true, u) → Completes (.twinPan p b) s fun t =>
      answers t 0 ∧ t.grans = u.grans ∧ t.pans = u.pans ∧ t.mem = u.mem) ∧
  (second → ctrlField b 1 1 = 0 → s.panLeaves n = [] → Completes (.twinResync p b) s fun t =>
    answers t 0 ∧ t.rd Csr.TWINSTAT_state = 3 ∧ t.grans = s.grans ∧ t.mem = s.mem) ∧
  (second → ctrlField b 1 1 ≠ 0 → Completes (.twinResync p b) s fun t => answers t 0 ∧ t.rd Csr.TWINSTAT_state = 2) ∧
  (second → Completes (.twinYield p b) s fun t => leads t (ctrlField b 4 4 % 2 ^ 32)) ∧
  (∀ v : Nat × List Nat, heard → s.twin.wait.find? (fun v => v.1 == q) = some v → ctrlField b 1 1 = 0 →
    ¬(ctrlField v.2 0 1 = 0x65 ∧ ctrlField v.2 1 1 = 1) → Completes (.twinAck p b) s fun t =>
      t.twin = { s.twin with wait := s.twin.wait.filter (fun v => v.1 != q) } ∧ t.mem = s.mem) ∧
  (s.quiet = true → s.rd Csr.TWINSTAT_state = 1 → Completes .twinTimeout s fun t => t.rd Csr.TWINSTAT_state = 4 ∧ t.twin = s.twin ∧ t.mem = s.mem) ∧
  (s.quiet = true → s.isSecond = true → s.on Csr.TWINCTL_auto_takeover = false → s.fab.mirrors = [] → Completes .twinTimeout s fun t =>
    t.rd Csr.TWINSTAT_state = 4 ∧ t.on Csr.TWINSTAT_role = true ∧ t.mem = s.mem ∧ ∀ k < 64, s.panMirrored k = true → s.panActive k = true →
      t.on (Csr.PANSTAT_mirror_degraded k) = true) ∧
  (s.Reaches w 0x500118 1 → s.rd Csr.TWINSTAT_state = 4 → s.on Csr.TWINSTAT_role = true → Completes (.twinTakeover w) s fun t =>
    leads t (s.rd Csr.TWINSTAT_peer_claim) ∧ t.mem = s.mem) ∧
  (s.Reaches w 0x500118 2 → s.rd Csr.TWINSTAT_state = 2 → s.on Csr.TWINSTAT_role = false → Completes (.twincmdResync w) s fun t =>
    t.twin.resync = (List.range 64).filter (fun n => s.panMirrored n && s.panActive n) ∧
    t.rd Csr.TWINSTAT_state = (if t.twin.resync = [] then 2 else 3) ∧ t.mem = s.mem) ∧
  (s.Reaches w 0x500118 3 → s.rd Csr.TWINSTAT_state = 2 ∨ s.rd Csr.TWINSTAT_state = 3 → s.fab.mirrors = [] → Completes (.twincmdUnpair w) s fun t =>
    t.rd Csr.TWINSTAT_state = 4 ∧ t.twin.wait = [] ∧ t.mem = s.mem ∧ ∀ k < 64, s.panMirrored k = true → s.panActive k = true →
      t.on (Csr.PANSTAT_mirror_degraded k) = true)

/-- SPDM sessions and the tenancy (R435 to R440, R445, R455 to R457): requests are counted; a key exchange opens a session where there is room, and
over a port binds the link's keys; a session ends by request, or when its heartbeat is lost. SEAL, UNSEAL and RESUME change the tenancy
for the tenant alone; SCRUB runs with the token that is armed, and the switch ends when the granules are zeroed that must be.
Where the spec leaves a choice open, it is the model's: log entries 50 and 65. -/
def Obligations.SessionsAndTenancy : Prop := ∀ (s : State) (id : Nat),
  let switching (after : Nat) (full : Bool) (t : State) : Prop :=
    t.rd Csr.SECSTAT_state = 2 ∧ t.sec.record = 2 ∧ t.sec.after = after ∧ t.sec.full = full ∧ t.sec.scrubbed = 0 ∧ t.sec.began = s.stamp ∧
    (∃ k, t.sec.armed = some k ∧ (t.mgmt.down.getLast? = some (2, [k]) ∨ t.mgmt.waiting = some k)) ∧
    (∀ n < 64, t.rd (Csr.PANKEY_valid n) = 0) ∧ (∀ x ∈ t.sec.sessions, t.ofTenant x = true) ∧ t.mem = s.mem
  let open_ (t : State) : Prop := t.sec.armed = none ∧ t.rd Csr.SECSTAT_state = (if s.sec.after = 3 then 3 else 0)
  let without (x : Session) (t : State) : Prop := x ∉ t.sec.sessions ∧
    (∀ y ∈ s.sec.sessions, y.port ≠ x.port → y.id ≠ x.id → y ∈ t.sec.sessions) ∧ (x.port < 8 → t.rd (Csr.PORTSEC_spdm x.port) = 0) ∧ t.mem = s.mem
  (∀ (port : Fin 9), s.heldInReset = false → (port.val < 8 → s.linkUp port = true) →
    (∀ r, s.rd (secCtr 0).cnt + 1 < cntMax → s.bit (secCtr 0).ovf 0 = false → Completes (.spdmRequest port r) s fun t =>
      t.rd (secCtr 0).cnt = s.rd (secCtr 0).cnt + 1 ∧ t.mem = s.mem) ∧
    (Completes (.spdmRequest port .other) s fun t => t.sec = s.sec) ∧
    (∀ mu root dom, s.sessionRoom port id = true → Completes (.spdmRequest port (.keyExchange id mu root dom)) s fun t =>
      (∃ k, t.session id = some ⟨id, port, mu, root, k⟩) ∧ (port.val < 8 → t.rd (Csr.PORTSEC_spdm port) = 2 ∧ t.on (Csr.PORTSEC_domain port) = dom ∧
        (s.rd Csr.SECSTAT_state ≠ 3 ∨ dom = true → (t.lnk port).encTx ≠ none))) ∧
    (∀ mu root dom, s.sessionRoom port id = false → Completes (.spdmRequest port (.keyExchange id mu root dom)) s fun t => t.sec = s.sec) ∧
    (∀ x, s.session id = some x → x.port = port.val → Completes (.spdmRequest port (.endSession id)) s (without x))) ∧
  (∀ x, s.session id = some x → Completes (.spdmHeartbeatLoss id) s (without x)) ∧
  (∀ policy, s.rd Csr.SECSTAT_state = 1 → s.tenantAt id s.sec.offered = true → policyOk policy = true → Completes (.seal id policy) s fun t =>
    switching 3 false t ∧ t.sec.policy = ofLeBytes policy ∧ t.sec.tenant = s.sec.offered) ∧
  (∀ policy, s.rd Csr.SECSTAT_state ≠ 1 ∨ s.tenantAt id s.sec.offered = false ∨ policyOk policy = false → Completes (.seal id policy) s fun t =>
    t.sec = s.sec ∧ t.rd Csr.SECSTAT_state = s.rd Csr.SECSTAT_state ∧ t.mem = s.mem) ∧
  (s.rd Csr.SECSTAT_state = 3 ∨ s.rd Csr.SECSTAT_state = 4 → s.tenantAt id s.sec.tenant = true → Completes (.unseal id) s (switching 0 s.zeroOnExit)) ∧
  (s.tenantAt id s.sec.tenant = false → Completes (.unseal id) s fun t => t.sec = s.sec ∧ t.rd Csr.SECSTAT_state = s.rd Csr.SECSTAT_state ∧ t.mem = s.mem) ∧
  (s.rd Csr.SECSTAT_state = 4 → s.tenantAt id s.sec.tenant = true → Completes (.resume id) s fun t =>
    t.rd Csr.SECSTAT_state = 3 ∧ t.sec.record = 3 ∧ (∀ x ∈ t.sec.sessions, t.ofTenant x = true) ∧ t.mem = s.mem) ∧
  (∀ b x, s.rmActive = some b → s.mgmt.down.find? (fun y => y.1 == 2) = some x → s.sec.armed ≠ none → s.sec.armed = x.2.head? →
    s.sec.scrubbed = 0 → s.sec.full = false → Completes .switchRequest s fun t =>
      open_ t ∧ (∀ q, isRm q = false → t.queue q = Queue.blank) ∧ ∀ a, inHeap a = true ∨ inStk a = true → t.byte a = 0) ∧
  (∀ b x, s.rmActive = some b → s.mgmt.down.find? (fun y => y.1 == 2) = some x → s.sec.armed ≠ x.2.head? → Completes .switchRequest s fun t =>
    t.sec = s.sec ∧ t.regs = s.regs ∧ t.mem = s.mem ∧ t.rm = s.rm) ∧
  (s.quiet = true → s.zeroing = false → s.sec.scrubbed = 1 → Completes .zeroDone s fun t => open_ t ∧ t.rd Csr.SWITCHSTAT_zeroing = 0 ∧ t.mem = s.mem) ∧
  (s.quiet = true → s.zeroing = false → s.sec.scrubbed ≠ 1 → s.on Csr.SWITCHSTAT_zeroing = true → Completes .zeroDone s fun t =>
    t.rd Csr.SWITCHSTAT_zeroing = 0 ∧ t.sec = s.sec ∧ t.mem = s.mem)

/-- The owner's commands, presence and tampering (R458 to R464, Table 15-13): a press opens a presence window of 60 s, which closes; a command is
performed when its signature verifies, the device's state admits it and presence is shown where it needs it, and is answered; a
nonce serves once. A tamper event is latched, and wipes the seal key where neither main power nor VAON is there.
Where the spec leaves a choice open, it is the model's: log entry 62. -/
def Obligations.OwnerCommandsAndPresence : Prop := ∀ (s : State) (o : Owner),
  let reply (x : Nat) (t : State) : Prop := t.mgmt.out = s.mgmt.out ++ [⟨0x0A, o.id.toNat, x, []⟩]
  let stays (t : State) : Prop := t.rd Csr.SECSTAT_state = s.rd Csr.SECSTAT_state ∧ t.sec.owner = s.sec.owner ∧ t.sec.record = s.sec.record ∧
    t.sec.rollback = s.sec.rollback ∧ t.flash = s.flash ∧ t.debugLevel = s.debugLevel
  let busy : Prop := s.board.reset ≠ none ∨ (s.rd Csr.SECSTAT_state = 2 ∧ 4 ≤ s.sec.after)
  let does (c : Instr) (cmd : List Nat) (by_ : Signer) (pres pin : Bool) (can : Prop) (eff : State → Prop) : Prop := s.heldInReset = false →
    let shown : Prop := pres = true → s.present (!pin || o.pin) = true
    let used (t : State) : Prop := t.sec.nonces = s.sec.nonces.erase o.nonce ∧ t.on Csr.SECSTAT_ownclr = o.pin ∧ t.mem = s.mem
    let closes (t : State) : Prop := pres = true → t.sec.window = none ∧ t.rd Csr.SECSTAT_pres_window = 0
    (busy → Completes c s fun t => used t ∧ reply 4 t ∧ stays t) ∧
    (¬busy → ¬shown ∨ ¬can → Completes c s fun t => used t ∧ stays t ∧ closes t ∧ (¬shown → reply 6 t) ∧ (shown → reply 3 t)) ∧
    (¬busy → shown → can → Completes c s fun t => used t ∧ closes t ∧
      (s.signed o cmd by_ = true → reply 0 t ∧ eff t) ∧ (s.signed o cmd by_ = false → reply 3 t ∧ stays t))
  let switching (after : Nat) (full : Bool) (t : State) : Prop := t.rd Csr.SECSTAT_state = 2 ∧ t.sec.record = 2 ∧ t.sec.after = after ∧
    t.sec.full = full ∧ t.sec.armed ≠ none ∧ ∀ n < 64, t.rd (Csr.PANKEY_valid n) = 0
  (∀ root, does (.offerTenancy o root) (1 :: leBytes 48 root) .owner false false (s.rd Csr.SECSTAT_state = 0) fun t =>
    t.rd Csr.SECSTAT_state = 1 ∧ t.sec.offered = root ∧ t.sec.record = 1) ∧
  (does (.withdrawOffer o) [2] .owner false false (s.rd Csr.SECSTAT_state = 1) fun t =>
    t.rd Csr.SECSTAT_state = 0 ∧ t.sec.offered = 0 ∧ t.sec.record = 0) ∧
  (does (.ownerEvict o) [3] .owner false false (s.rd Csr.SECSTAT_state = 3 ∨ s.rd Csr.SECSTAT_state = 4) (switching 4 s.zeroOnExit)) ∧
  (∀ v : BitVec 16, does (.floorRaise o v) (4 :: leBytes 2 v.toNat) .owner false false (s.flash.floor ≤ v.toNat) fun t =>
    t.flash = { s.flash with floor := v.toNat } ∧ t.rd Csr.SECVER_floor = v.toNat) ∧
  (∀ v : BitVec 16, does (.floorLower o v) (5 :: leBytes 2 v.toNat) .owner true false (v.toNat ≤ s.flash.floor ∧ Config.minFloor.toNat ≤ v.toNat) fun t =>
    t.flash = { s.flash with floor := v.toNat } ∧ t.rd Csr.SECVER_floor = v.toNat) ∧
  (∀ slot : Fin 2, does (.firmwareRollback o slot) [6, slot.val] .owner true false (s.slotBoots slot = true) fun t =>
    t.sec.rollback = some slot.val ∧ t.rd Csr.SECVER_rollback_pending = 1) ∧
  (∀ digest, does (.ownershipTransfer o digest) (7 :: leBytes 48 digest) .ownerIfAny true false True fun t =>
    t.sec.owner = some digest ∧ t.rd Csr.SECSTAT_owner_set = 1) ∧
  (does (.ownerClear o) [8] .nobody true true True (switching 5 true)) ∧
  (does (.debugUnlock o) [9] .owner true false (s.debugGrant ≠ 0) fun t => t.debugLevel = s.debugGrant ∧ t.rd Csr.SECSTAT_debug_unlocked = 1) ∧
  (∀ tamper : Bool, does (.tamperClear o tamper) [10] .ownerIfAny false false (tamper = false ∧ (s.sec.owner.isSome = true ∨ o.pin = true)) fun t =>
    t.rd Csr.SECSTAT_tamper_latched = 0) ∧
  (∀ rearmed : Bool, s.board.main = true → s.on Csr.SECSTAT_pres_stuck = false ∨ rearmed = true → Completes (.presPress rearmed) s fun t =>
    t.sec = { s.sec with window := some (s.stamp + 60000000000) } ∧ t.rd Csr.SECSTAT_pres_window = 1 ∧ t.rd Csr.PRESSTAT_window_s = 60 ∧
    t.rd Csr.PRESSTAT_presses = min 0xFFFF (s.rd Csr.PRESSTAT_presses + 1) ∧ t.rd Csr.SECSTAT_pres_stuck = 0 ∧ t.mem = s.mem) ∧
  (s.on Csr.SECSTAT_pres_stuck = true → exec (.presPress false) s = .next s) ∧
  (s.board.main = true → s.on Csr.SECSTAT_pres_stuck = false → Completes .presLongPress s fun t =>
    t.rd Csr.PRESSTAT_long_press = 1 ∧ t.rd Csr.RSTCAUSE_recovery_req = 1 ∧ s.keepsRegs t [Csr.PRESSTAT_long_press.off, Csr.RSTCAUSE_recovery_req.off] ∧
    t.mem = s.mem) ∧
  (Completes .presenceWindowExpire s fun t =>
    t.sec = { s.sec with window := none } ∧ t.rd Csr.SECSTAT_pres_window = 0 ∧ t.rd Csr.PRESSTAT_window_s = 0 ∧ t.mem = s.mem) ∧
  (s.board.main = true ∨ s.board.vaon = true ∨ s.board.vbat = true → Completes .tamperEvent s fun t =>
    t.rd Csr.SECSTAT_tamper_latched = 1 ∧ t.on Csr.TAMPERREC_valid = true ∧
    (s.on Csr.TAMPERREC_valid = false → t.on Csr.TAMPERREC_on_vbat = !s.board.main ∧ t.rd Csr.TAMPERSTAMP_stamp = s.stamp % 2 ^ 64) ∧
    (s.on Csr.TAMPERREC_valid = true → t.rd Csr.TAMPERSTAMP_stamp = s.rd Csr.TAMPERSTAMP_stamp) ∧
    (s.board.main = false → s.board.vaon = false → t.on Csr.SECSTAT_seal_valid = false) ∧
    t.rd Csr.SECSTAT_state = (if s.board.main = true ∧ s.rd Csr.SECSTAT_state = 3 ∧ bitOf s.sec.policy 19 = true then 2 else s.rd Csr.SECSTAT_state) ∧
    t.mem = s.mem) ∧
  (s.board.main = false → s.board.vaon = false → s.board.vbat = false → exec .tamperEvent s = .next s)
end

