-- ==== Sys2Proof/Laws/SMap.lean ====
section
/-!
SUPPORT. Sparse tables: what a read returns after a write, and that every operation keeps the canonical form.
-/
namespace Sys2Proof.Machine

variable {β : Type}

@[simp] theorem SMap.get_nil (d : β) (k : Nat) : SMap.get d k [] = d := rfl

theorem SMap.get_del_same (d : β) (k : Nat) (m : SMap β) : SMap.get d k (SMap.del k m) = d := by
  induction m with
  | nil => rfl
  | cons h t ih =>
    obtain ⟨j, v⟩ := h
    by_cases e : j = k
    · simp [SMap.del, e, ih]
    · simp [SMap.del, SMap.get, e, ih]

theorem SMap.get_del_ne (d : β) {j k : Nat} (h : j ≠ k) (m : SMap β) : SMap.get d j (SMap.del k m) = SMap.get d j m := by
  induction m with
  | nil => rfl
  | cons a t ih =>
    obtain ⟨i, v⟩ := a
    by_cases e : i = k
    · simp [SMap.del, SMap.get, e, Ne.symm h, ih]
    · simp [SMap.del, SMap.get, e, ih]

theorem SMap.get_ins_ne (d : β) {j k : Nat} (h : j ≠ k) (v : β) (m : SMap β) : SMap.get d j (SMap.ins k v m) = SMap.get d j m := by
  induction m with
  | nil => simp [SMap.ins, SMap.get, Ne.symm h]
  | cons a t ih =>
    obtain ⟨i, w⟩ := a
    by_cases e : k < i
    · simp [SMap.ins, SMap.get, e, Ne.symm h]
    · simp [SMap.ins, SMap.get, e, ih]

theorem SMap.get_ins_del (d : β) (k : Nat) (v : β) (m : SMap β) : SMap.get d k (SMap.ins k v (SMap.del k m)) = v := by
  induction m with
  | nil => simp [SMap.del, SMap.ins, SMap.get]
  | cons a t ih =>
    obtain ⟨i, w⟩ := a
    by_cases e : i = k
    · simp [SMap.del, e, ih]
    · by_cases l : k < i
      · simp [SMap.del, e, SMap.ins, l, SMap.get]
      · simp [SMap.del, e, SMap.ins, l, SMap.get, ih]

/-- A key reads what was last written at it. -/
@[simp] theorem SMap.get_put_same [DecidableEq β] (d : β) (k : Nat) (v : β) (m : SMap β) : SMap.get d k (SMap.put d k v m) = v := by
  unfold SMap.put
  split
  · rename_i h; rw [SMap.get_del_same, h]
  · exact SMap.get_ins_del d k v m

/-- A write leaves every other key as it was. -/
theorem SMap.get_put_ne [DecidableEq β] (d e : β) {j k : Nat} (h : j ≠ k) (v : β) (m : SMap β) :
    SMap.get d j (SMap.put e k v m) = SMap.get d j m := by
  unfold SMap.put
  split
  · exact SMap.get_del_ne d h m
  · rw [SMap.get_ins_ne d h, SMap.get_del_ne d h]

@[simp] theorem SMap.get_upd_same [DecidableEq β] (d : β) (k : Nat) (f : β → β) (m : SMap β) :
    SMap.get d k (SMap.upd d k f m) = f (SMap.get d k m) := SMap.get_put_same d k _ m

theorem SMap.get_upd_ne [DecidableEq β] (d : β) {j k : Nat} (h : j ≠ k) (f : β → β) (m : SMap β) :
    SMap.get d j (SMap.upd d k f m) = SMap.get d j m := SMap.get_put_ne d d h _ m

/-! ### The canonical form -/

/-- The form as a list property: keys strictly rising, and no entry that equals what an unlisted key reads as. -/
theorem SMap.wf_iff [DecidableEq β] (d : β) (m : SMap β) :
    SMap.wf d m = true ↔ m.Pairwise (fun a b => a.1 < b.1) ∧ ∀ a ∈ m, a.2 ≠ d := by
  induction m with
  | nil => simp [SMap.wf]
  | cons a t ih =>
    obtain ⟨j, v⟩ := a
    cases t with
    | nil => simp [SMap.wf]
    | cons b t =>
      obtain ⟨k, w⟩ := b
      simp only [SMap.wf, Bool.and_eq_true, decide_eq_true_eq, ih, List.pairwise_cons, List.mem_cons, forall_eq_or_imp]
      constructor
      · rintro ⟨⟨h1, h2⟩, ⟨h3, h4⟩, h5, h6⟩
        exact ⟨⟨⟨h1, fun a ha => lt_trans h1 (h3 a ha)⟩, h3, h4⟩, h2, h5, h6⟩
      · rintro ⟨⟨⟨h1, _⟩, h3, h4⟩, h2, h5, h6⟩
        exact ⟨⟨h1, h2⟩, ⟨h3, h4⟩, h5, h6⟩

theorem SMap.del_eq_filter (k : Nat) (m : SMap β) : SMap.del k m = m.filter (fun a => decide (a.1 ≠ k)) := by
  induction m with
  | nil => rfl
  | cons a t ih =>
    obtain ⟨j, v⟩ := a
    by_cases e : j = k <;> simp [SMap.del, e, ih]

theorem SMap.wf_filter [DecidableEq β] (d : β) (p : Nat × β → Bool) (m : SMap β) (h : SMap.wf d m = true) :
    SMap.wf d (m.filter p) = true := by
  rw [SMap.wf_iff] at *
  exact ⟨h.1.filter p, fun a ha => h.2 a (List.mem_filter.mp ha).1⟩

theorem SMap.wf_del [DecidableEq β] (d : β) (k : Nat) (m : SMap β) (h : SMap.wf d m = true) : SMap.wf d (SMap.del k m) = true := by
  rw [SMap.del_eq_filter]; exact SMap.wf_filter d _ m h

theorem SMap.mem_ins (k : Nat) (v : β) (m : SMap β) (a : Nat × β) : a ∈ SMap.ins k v m ↔ a = (k, v) ∨ a ∈ m := by
  induction m with
  | nil => simp [SMap.ins]
  | cons b t ih =>
    obtain ⟨j, w⟩ := b
    by_cases e : k < j
    · simp [SMap.ins, e]
    · simp only [SMap.ins, e, if_false, List.mem_cons, ih]; tauto

theorem SMap.ins_sorted (k : Nat) (v : β) (m : SMap β) (h : m.Pairwise (fun a b => a.1 < b.1)) (n : ∀ a ∈ m, a.1 ≠ k) :
    (SMap.ins k v m).Pairwise (fun a b => a.1 < b.1) := by
  induction m with
  | nil => simp [SMap.ins]
  | cons b t ih =>
    obtain ⟨j, w⟩ := b
    rw [List.pairwise_cons] at h
    have hj : j ≠ k := n (j, w) (by simp)
    by_cases e : k < j
    · rw [SMap.ins, if_pos e]
      simp only [List.pairwise_cons, List.mem_cons, forall_eq_or_imp]
      exact ⟨⟨e, fun a ha => lt_trans e (h.1 a ha)⟩, h.1, h.2⟩
    · simp only [SMap.ins, e, if_false, List.pairwise_cons, SMap.mem_ins]
      refine ⟨?_, ih h.2 (fun a ha => n a (by simp [ha]))⟩
      rintro a (rfl | ha)
      · exact lt_of_le_of_ne (Nat.le_of_not_lt e) hj
      · exact h.1 a ha

/-- A write keeps the canonical form. -/
theorem SMap.wf_put [DecidableEq β] (d : β) (k : Nat) (v : β) (m : SMap β) (h : SMap.wf d m = true) :
    SMap.wf d (SMap.put d k v m) = true := by
  unfold SMap.put
  split
  · exact SMap.wf_del d k m h
  · rename_i hv
    have hd := SMap.wf_del d k m h
    rw [SMap.wf_iff] at hd ⊢
    refine ⟨SMap.ins_sorted k v _ hd.1 ?_, ?_⟩
    · intro a ha
      rw [SMap.del_eq_filter] at ha
      simpa using (List.mem_filter.mp ha).2
    · intro a ha
      rcases (SMap.mem_ins k v _ a).mp ha with rfl | ha
      · exact hv
      · exact hd.2 a ha

theorem SMap.wf_upd [DecidableEq β] (d : β) (k : Nat) (f : β → β) (m : SMap β) (h : SMap.wf d m = true) :
    SMap.wf d (SMap.upd d k f m) = true := SMap.wf_put d k _ m h

/-- Many writes keep the canonical form. -/
theorem SMap.wf_foldl_put {γ : Type} [DecidableEq β] (d : β) (k : γ → Nat) (v : γ → β) (l : List γ) :
    ∀ m : SMap β, SMap.wf d m = true → SMap.wf d (l.foldl (fun m x => SMap.put d (k x) (v x) m) m) = true := by
  induction l with
  | nil => exact fun m h => h
  | cons x t ih => exact fun m h => ih _ (SMap.wf_put d (k x) (v x) m h)

end Sys2Proof.Machine
end

