-- ==== Sys2Proof/Laws/State.lean ====
section
/-!
SUPPORT. What the updates of the state leave alone: one lemma for each field and each update, and what a register reads after a write.
-/
namespace Sys2Proof.Machine

/-! ### wrSet -/

@[simp] theorem State.wrSet_pending (s : State) (set : Nat) (f : Fld) (v : Nat) : (s.wrSet set f v).pending = s.pending := rfl
@[simp] theorem State.wrSet_stamp (s : State) (set : Nat) (f : Fld) (v : Nat) : (s.wrSet set f v).stamp = s.stamp := rfl
@[simp] theorem State.wrSet_freeCount (s : State) (set : Nat) (f : Fld) (v : Nat) : (s.wrSet set f v).freeCount = s.freeCount := rfl
@[simp] theorem State.wrSet_mem (s : State) (set : Nat) (f : Fld) (v : Nat) : (s.wrSet set f v).mem = s.mem := rfl
@[simp] theorem State.wrSet_gateClaim (s : State) (set : Nat) (f : Fld) (v : Nat) : (s.wrSet set f v).gateClaim = s.gateClaim := rfl
@[simp] theorem State.wrSet_log (s : State) (set : Nat) (f : Fld) (v : Nat) : (s.wrSet set f v).log = s.log := rfl
@[simp] theorem State.wrSet_grans (s : State) (set : Nat) (f : Fld) (v : Nat) : (s.wrSet set f v).grans = s.grans := rfl
@[simp] theorem State.wrSet_zeroQ (s : State) (set : Nat) (f : Fld) (v : Nat) : (s.wrSet set f v).zeroQ = s.zeroQ := rfl
@[simp] theorem State.wrSet_dram (s : State) (set : Nat) (f : Fld) (v : Nat) : (s.wrSet set f v).dram = s.dram := rfl
@[simp] theorem State.wrSet_heap (s : State) (set : Nat) (f : Fld) (v : Nat) : (s.wrSet set f v).heap = s.heap := rfl
@[simp] theorem State.wrSet_pans (s : State) (set : Nat) (f : Fld) (v : Nat) : (s.wrSet set f v).pans = s.pans := rfl
@[simp] theorem State.wrSet_queues (s : State) (set : Nat) (f : Fld) (v : Nat) : (s.wrSet set f v).queues = s.queues := rfl
@[simp] theorem State.wrSet_lists (s : State) (set : Nat) (f : Fld) (v : Nat) : (s.wrSet set f v).lists = s.lists := rfl
@[simp] theorem State.wrSet_rakes (s : State) (set : Nat) (f : Fld) (v : Nat) : (s.wrSet set f v).rakes = s.rakes := rfl
@[simp] theorem State.wrSet_stopQ (s : State) (set : Nat) (f : Fld) (v : Nat) : (s.wrSet set f v).stopQ = s.stopQ := rfl
@[simp] theorem State.wrSet_runCache (s : State) (set : Nat) (f : Fld) (v : Nat) : (s.wrSet set f v).runCache = s.runCache := rfl
@[simp] theorem State.wrSet_walkCache (s : State) (set : Nat) (f : Fld) (v : Nat) : (s.wrSet set f v).walkCache = s.walkCache := rfl
@[simp] theorem State.wrSet_walks (s : State) (set : Nat) (f : Fld) (v : Nat) : (s.wrSet set f v).walks = s.walks := rfl
@[simp] theorem State.wrSet_walkTurn (s : State) (set : Nat) (f : Fld) (v : Nat) : (s.wrSet set f v).walkTurn = s.walkTurn := rfl
@[simp] theorem State.wrSet_icache (s : State) (set : Nat) (f : Fld) (v : Nat) : (s.wrSet set f v).icache = s.icache := rfl
@[simp] theorem State.wrSet_shoots (s : State) (set : Nat) (f : Fld) (v : Nat) : (s.wrSet set f v).shoots = s.shoots := rfl
@[simp] theorem State.wrSet_waits (s : State) (set : Nat) (f : Fld) (v : Nat) : (s.wrSet set f v).waits = s.waits := rfl
@[simp] theorem State.wrSet_coh (s : State) (set : Nat) (f : Fld) (v : Nat) : (s.wrSet set f v).coh = s.coh := rfl
@[simp] theorem State.wrSet_fab (s : State) (set : Nat) (f : Fld) (v : Nat) : (s.wrSet set f v).fab = s.fab := rfl
@[simp] theorem State.wrSet_links (s : State) (set : Nat) (f : Fld) (v : Nat) : (s.wrSet set f v).links = s.links := rfl
@[simp] theorem State.wrSet_rm (s : State) (set : Nat) (f : Fld) (v : Nat) : (s.wrSet set f v).rm = s.rm := rfl
@[simp] theorem State.wrSet_twin (s : State) (set : Nat) (f : Fld) (v : Nat) : (s.wrSet set f v).twin = s.twin := rfl
@[simp] theorem State.wrSet_sluice (s : State) (set : Nat) (f : Fld) (v : Nat) : (s.wrSet set f v).sluice = s.sluice := rfl
@[simp] theorem State.wrSet_sec (s : State) (set : Nat) (f : Fld) (v : Nat) : (s.wrSet set f v).sec = s.sec := rfl
@[simp] theorem State.wrSet_flash (s : State) (set : Nat) (f : Fld) (v : Nat) : (s.wrSet set f v).flash = s.flash := rfl
@[simp] theorem State.wrSet_cars (s : State) (set : Nat) (f : Fld) (v : Nat) : (s.wrSet set f v).cars = s.cars := rfl
@[simp] theorem State.wrSet_board (s : State) (set : Nat) (f : Fld) (v : Nat) : (s.wrSet set f v).board = s.board := rfl
@[simp] theorem State.wrSet_mgmt (s : State) (set : Nat) (f : Fld) (v : Nat) : (s.wrSet set f v).mgmt = s.mgmt := rfl
@[simp] theorem State.wrSet_debugLevel (s : State) (set : Nat) (f : Fld) (v : Nat) : (s.wrSet set f v).debugLevel = s.debugLevel := rfl

/-! ### wr -/

@[simp] theorem State.wr_pending (s : State) (f : Fld) (v : Nat) : (s.wr f v).pending = s.pending := rfl
@[simp] theorem State.wr_stamp (s : State) (f : Fld) (v : Nat) : (s.wr f v).stamp = s.stamp := rfl
@[simp] theorem State.wr_freeCount (s : State) (f : Fld) (v : Nat) : (s.wr f v).freeCount = s.freeCount := rfl
@[simp] theorem State.wr_mem (s : State) (f : Fld) (v : Nat) : (s.wr f v).mem = s.mem := rfl
@[simp] theorem State.wr_gateClaim (s : State) (f : Fld) (v : Nat) : (s.wr f v).gateClaim = s.gateClaim := rfl
@[simp] theorem State.wr_log (s : State) (f : Fld) (v : Nat) : (s.wr f v).log = s.log := rfl
@[simp] theorem State.wr_grans (s : State) (f : Fld) (v : Nat) : (s.wr f v).grans = s.grans := rfl
@[simp] theorem State.wr_zeroQ (s : State) (f : Fld) (v : Nat) : (s.wr f v).zeroQ = s.zeroQ := rfl
@[simp] theorem State.wr_dram (s : State) (f : Fld) (v : Nat) : (s.wr f v).dram = s.dram := rfl
@[simp] theorem State.wr_heap (s : State) (f : Fld) (v : Nat) : (s.wr f v).heap = s.heap := rfl
@[simp] theorem State.wr_pans (s : State) (f : Fld) (v : Nat) : (s.wr f v).pans = s.pans := rfl
@[simp] theorem State.wr_queues (s : State) (f : Fld) (v : Nat) : (s.wr f v).queues = s.queues := rfl
@[simp] theorem State.wr_lists (s : State) (f : Fld) (v : Nat) : (s.wr f v).lists = s.lists := rfl
@[simp] theorem State.wr_rakes (s : State) (f : Fld) (v : Nat) : (s.wr f v).rakes = s.rakes := rfl
@[simp] theorem State.wr_stopQ (s : State) (f : Fld) (v : Nat) : (s.wr f v).stopQ = s.stopQ := rfl
@[simp] theorem State.wr_runCache (s : State) (f : Fld) (v : Nat) : (s.wr f v).runCache = s.runCache := rfl
@[simp] theorem State.wr_walkCache (s : State) (f : Fld) (v : Nat) : (s.wr f v).walkCache = s.walkCache := rfl
@[simp] theorem State.wr_walks (s : State) (f : Fld) (v : Nat) : (s.wr f v).walks = s.walks := rfl
@[simp] theorem State.wr_walkTurn (s : State) (f : Fld) (v : Nat) : (s.wr f v).walkTurn = s.walkTurn := rfl
@[simp] theorem State.wr_icache (s : State) (f : Fld) (v : Nat) : (s.wr f v).icache = s.icache := rfl
@[simp] theorem State.wr_shoots (s : State) (f : Fld) (v : Nat) : (s.wr f v).shoots = s.shoots := rfl
@[simp] theorem State.wr_waits (s : State) (f : Fld) (v : Nat) : (s.wr f v).waits = s.waits := rfl
@[simp] theorem State.wr_coh (s : State) (f : Fld) (v : Nat) : (s.wr f v).coh = s.coh := rfl
@[simp] theorem State.wr_fab (s : State) (f : Fld) (v : Nat) : (s.wr f v).fab = s.fab := rfl
@[simp] theorem State.wr_links (s : State) (f : Fld) (v : Nat) : (s.wr f v).links = s.links := rfl
@[simp] theorem State.wr_rm (s : State) (f : Fld) (v : Nat) : (s.wr f v).rm = s.rm := rfl
@[simp] theorem State.wr_twin (s : State) (f : Fld) (v : Nat) : (s.wr f v).twin = s.twin := rfl
@[simp] theorem State.wr_sluice (s : State) (f : Fld) (v : Nat) : (s.wr f v).sluice = s.sluice := rfl
@[simp] theorem State.wr_sec (s : State) (f : Fld) (v : Nat) : (s.wr f v).sec = s.sec := rfl
@[simp] theorem State.wr_flash (s : State) (f : Fld) (v : Nat) : (s.wr f v).flash = s.flash := rfl
@[simp] theorem State.wr_cars (s : State) (f : Fld) (v : Nat) : (s.wr f v).cars = s.cars := rfl
@[simp] theorem State.wr_board (s : State) (f : Fld) (v : Nat) : (s.wr f v).board = s.board := rfl
@[simp] theorem State.wr_mgmt (s : State) (f : Fld) (v : Nat) : (s.wr f v).mgmt = s.mgmt := rfl
@[simp] theorem State.wr_debugLevel (s : State) (f : Fld) (v : Nat) : (s.wr f v).debugLevel = s.debugLevel := rfl

/-! ### setFld -/

@[simp] theorem State.setFld_pending (s : State) (f : Fld) (i : Nat) : (s.setFld f i).pending = s.pending := rfl
@[simp] theorem State.setFld_stamp (s : State) (f : Fld) (i : Nat) : (s.setFld f i).stamp = s.stamp := rfl
@[simp] theorem State.setFld_freeCount (s : State) (f : Fld) (i : Nat) : (s.setFld f i).freeCount = s.freeCount := rfl
@[simp] theorem State.setFld_mem (s : State) (f : Fld) (i : Nat) : (s.setFld f i).mem = s.mem := rfl
@[simp] theorem State.setFld_gateClaim (s : State) (f : Fld) (i : Nat) : (s.setFld f i).gateClaim = s.gateClaim := rfl
@[simp] theorem State.setFld_log (s : State) (f : Fld) (i : Nat) : (s.setFld f i).log = s.log := rfl
@[simp] theorem State.setFld_grans (s : State) (f : Fld) (i : Nat) : (s.setFld f i).grans = s.grans := rfl
@[simp] theorem State.setFld_zeroQ (s : State) (f : Fld) (i : Nat) : (s.setFld f i).zeroQ = s.zeroQ := rfl
@[simp] theorem State.setFld_dram (s : State) (f : Fld) (i : Nat) : (s.setFld f i).dram = s.dram := rfl
@[simp] theorem State.setFld_heap (s : State) (f : Fld) (i : Nat) : (s.setFld f i).heap = s.heap := rfl
@[simp] theorem State.setFld_pans (s : State) (f : Fld) (i : Nat) : (s.setFld f i).pans = s.pans := rfl
@[simp] theorem State.setFld_queues (s : State) (f : Fld) (i : Nat) : (s.setFld f i).queues = s.queues := rfl
@[simp] theorem State.setFld_lists (s : State) (f : Fld) (i : Nat) : (s.setFld f i).lists = s.lists := rfl
@[simp] theorem State.setFld_rakes (s : State) (f : Fld) (i : Nat) : (s.setFld f i).rakes = s.rakes := rfl
@[simp] theorem State.setFld_stopQ (s : State) (f : Fld) (i : Nat) : (s.setFld f i).stopQ = s.stopQ := rfl
@[simp] theorem State.setFld_runCache (s : State) (f : Fld) (i : Nat) : (s.setFld f i).runCache = s.runCache := rfl
@[simp] theorem State.setFld_walkCache (s : State) (f : Fld) (i : Nat) : (s.setFld f i).walkCache = s.walkCache := rfl
@[simp] theorem State.setFld_walks (s : State) (f : Fld) (i : Nat) : (s.setFld f i).walks = s.walks := rfl
@[simp] theorem State.setFld_walkTurn (s : State) (f : Fld) (i : Nat) : (s.setFld f i).walkTurn = s.walkTurn := rfl
@[simp] theorem State.setFld_icache (s : State) (f : Fld) (i : Nat) : (s.setFld f i).icache = s.icache := rfl
@[simp] theorem State.setFld_shoots (s : State) (f : Fld) (i : Nat) : (s.setFld f i).shoots = s.shoots := rfl
@[simp] theorem State.setFld_waits (s : State) (f : Fld) (i : Nat) : (s.setFld f i).waits = s.waits := rfl
@[simp] theorem State.setFld_coh (s : State) (f : Fld) (i : Nat) : (s.setFld f i).coh = s.coh := rfl
@[simp] theorem State.setFld_fab (s : State) (f : Fld) (i : Nat) : (s.setFld f i).fab = s.fab := rfl
@[simp] theorem State.setFld_links (s : State) (f : Fld) (i : Nat) : (s.setFld f i).links = s.links := rfl
@[simp] theorem State.setFld_rm (s : State) (f : Fld) (i : Nat) : (s.setFld f i).rm = s.rm := rfl
@[simp] theorem State.setFld_twin (s : State) (f : Fld) (i : Nat) : (s.setFld f i).twin = s.twin := rfl
@[simp] theorem State.setFld_sluice (s : State) (f : Fld) (i : Nat) : (s.setFld f i).sluice = s.sluice := rfl
@[simp] theorem State.setFld_sec (s : State) (f : Fld) (i : Nat) : (s.setFld f i).sec = s.sec := rfl
@[simp] theorem State.setFld_flash (s : State) (f : Fld) (i : Nat) : (s.setFld f i).flash = s.flash := rfl
@[simp] theorem State.setFld_cars (s : State) (f : Fld) (i : Nat) : (s.setFld f i).cars = s.cars := rfl
@[simp] theorem State.setFld_board (s : State) (f : Fld) (i : Nat) : (s.setFld f i).board = s.board := rfl
@[simp] theorem State.setFld_mgmt (s : State) (f : Fld) (i : Nat) : (s.setFld f i).mgmt = s.mgmt := rfl
@[simp] theorem State.setFld_debugLevel (s : State) (f : Fld) (i : Nat) : (s.setFld f i).debugLevel = s.debugLevel := rfl

/-! ### clrFld -/

@[simp] theorem State.clrFld_pending (s : State) (f : Fld) (i : Nat) : (s.clrFld f i).pending = s.pending := rfl
@[simp] theorem State.clrFld_stamp (s : State) (f : Fld) (i : Nat) : (s.clrFld f i).stamp = s.stamp := rfl
@[simp] theorem State.clrFld_freeCount (s : State) (f : Fld) (i : Nat) : (s.clrFld f i).freeCount = s.freeCount := rfl
@[simp] theorem State.clrFld_mem (s : State) (f : Fld) (i : Nat) : (s.clrFld f i).mem = s.mem := rfl
@[simp] theorem State.clrFld_gateClaim (s : State) (f : Fld) (i : Nat) : (s.clrFld f i).gateClaim = s.gateClaim := rfl
@[simp] theorem State.clrFld_log (s : State) (f : Fld) (i : Nat) : (s.clrFld f i).log = s.log := rfl
@[simp] theorem State.clrFld_grans (s : State) (f : Fld) (i : Nat) : (s.clrFld f i).grans = s.grans := rfl
@[simp] theorem State.clrFld_zeroQ (s : State) (f : Fld) (i : Nat) : (s.clrFld f i).zeroQ = s.zeroQ := rfl
@[simp] theorem State.clrFld_dram (s : State) (f : Fld) (i : Nat) : (s.clrFld f i).dram = s.dram := rfl
@[simp] theorem State.clrFld_heap (s : State) (f : Fld) (i : Nat) : (s.clrFld f i).heap = s.heap := rfl
@[simp] theorem State.clrFld_pans (s : State) (f : Fld) (i : Nat) : (s.clrFld f i).pans = s.pans := rfl
@[simp] theorem State.clrFld_queues (s : State) (f : Fld) (i : Nat) : (s.clrFld f i).queues = s.queues := rfl
@[simp] theorem State.clrFld_lists (s : State) (f : Fld) (i : Nat) : (s.clrFld f i).lists = s.lists := rfl
@[simp] theorem State.clrFld_rakes (s : State) (f : Fld) (i : Nat) : (s.clrFld f i).rakes = s.rakes := rfl
@[simp] theorem State.clrFld_stopQ (s : State) (f : Fld) (i : Nat) : (s.clrFld f i).stopQ = s.stopQ := rfl
@[simp] theorem State.clrFld_runCache (s : State) (f : Fld) (i : Nat) : (s.clrFld f i).runCache = s.runCache := rfl
@[simp] theorem State.clrFld_walkCache (s : State) (f : Fld) (i : Nat) : (s.clrFld f i).walkCache = s.walkCache := rfl
@[simp] theorem State.clrFld_walks (s : State) (f : Fld) (i : Nat) : (s.clrFld f i).walks = s.walks := rfl
@[simp] theorem State.clrFld_walkTurn (s : State) (f : Fld) (i : Nat) : (s.clrFld f i).walkTurn = s.walkTurn := rfl
@[simp] theorem State.clrFld_icache (s : State) (f : Fld) (i : Nat) : (s.clrFld f i).icache = s.icache := rfl
@[simp] theorem State.clrFld_shoots (s : State) (f : Fld) (i : Nat) : (s.clrFld f i).shoots = s.shoots := rfl
@[simp] theorem State.clrFld_waits (s : State) (f : Fld) (i : Nat) : (s.clrFld f i).waits = s.waits := rfl
@[simp] theorem State.clrFld_coh (s : State) (f : Fld) (i : Nat) : (s.clrFld f i).coh = s.coh := rfl
@[simp] theorem State.clrFld_fab (s : State) (f : Fld) (i : Nat) : (s.clrFld f i).fab = s.fab := rfl
@[simp] theorem State.clrFld_links (s : State) (f : Fld) (i : Nat) : (s.clrFld f i).links = s.links := rfl
@[simp] theorem State.clrFld_rm (s : State) (f : Fld) (i : Nat) : (s.clrFld f i).rm = s.rm := rfl
@[simp] theorem State.clrFld_twin (s : State) (f : Fld) (i : Nat) : (s.clrFld f i).twin = s.twin := rfl
@[simp] theorem State.clrFld_sluice (s : State) (f : Fld) (i : Nat) : (s.clrFld f i).sluice = s.sluice := rfl
@[simp] theorem State.clrFld_sec (s : State) (f : Fld) (i : Nat) : (s.clrFld f i).sec = s.sec := rfl
@[simp] theorem State.clrFld_flash (s : State) (f : Fld) (i : Nat) : (s.clrFld f i).flash = s.flash := rfl
@[simp] theorem State.clrFld_cars (s : State) (f : Fld) (i : Nat) : (s.clrFld f i).cars = s.cars := rfl
@[simp] theorem State.clrFld_board (s : State) (f : Fld) (i : Nat) : (s.clrFld f i).board = s.board := rfl
@[simp] theorem State.clrFld_mgmt (s : State) (f : Fld) (i : Nat) : (s.clrFld f i).mgmt = s.mgmt := rfl
@[simp] theorem State.clrFld_debugLevel (s : State) (f : Fld) (i : Nat) : (s.clrFld f i).debugLevel = s.debugLevel := rfl

/-! ### viewSet -/

@[simp] theorem State.viewSet_pending (s : State) (t : Nat) : (s.viewSet t).pending = s.pending := rfl
@[simp] theorem State.viewSet_stamp (s : State) (t : Nat) : (s.viewSet t).stamp = s.stamp := rfl
@[simp] theorem State.viewSet_freeCount (s : State) (t : Nat) : (s.viewSet t).freeCount = s.freeCount := rfl
@[simp] theorem State.viewSet_mem (s : State) (t : Nat) : (s.viewSet t).mem = s.mem := rfl
@[simp] theorem State.viewSet_gateClaim (s : State) (t : Nat) : (s.viewSet t).gateClaim = s.gateClaim := rfl
@[simp] theorem State.viewSet_log (s : State) (t : Nat) : (s.viewSet t).log = s.log := rfl
@[simp] theorem State.viewSet_grans (s : State) (t : Nat) : (s.viewSet t).grans = s.grans := rfl
@[simp] theorem State.viewSet_zeroQ (s : State) (t : Nat) : (s.viewSet t).zeroQ = s.zeroQ := rfl
@[simp] theorem State.viewSet_dram (s : State) (t : Nat) : (s.viewSet t).dram = s.dram := rfl
@[simp] theorem State.viewSet_heap (s : State) (t : Nat) : (s.viewSet t).heap = s.heap := rfl
@[simp] theorem State.viewSet_pans (s : State) (t : Nat) : (s.viewSet t).pans = s.pans := rfl
@[simp] theorem State.viewSet_queues (s : State) (t : Nat) : (s.viewSet t).queues = s.queues := rfl
@[simp] theorem State.viewSet_lists (s : State) (t : Nat) : (s.viewSet t).lists = s.lists := rfl
@[simp] theorem State.viewSet_rakes (s : State) (t : Nat) : (s.viewSet t).rakes = s.rakes := rfl
@[simp] theorem State.viewSet_stopQ (s : State) (t : Nat) : (s.viewSet t).stopQ = s.stopQ := rfl
@[simp] theorem State.viewSet_runCache (s : State) (t : Nat) : (s.viewSet t).runCache = s.runCache := rfl
@[simp] theorem State.viewSet_walkCache (s : State) (t : Nat) : (s.viewSet t).walkCache = s.walkCache := rfl
@[simp] theorem State.viewSet_walks (s : State) (t : Nat) : (s.viewSet t).walks = s.walks := rfl
@[simp] theorem State.viewSet_walkTurn (s : State) (t : Nat) : (s.viewSet t).walkTurn = s.walkTurn := rfl
@[simp] theorem State.viewSet_icache (s : State) (t : Nat) : (s.viewSet t).icache = s.icache := rfl
@[simp] theorem State.viewSet_shoots (s : State) (t : Nat) : (s.viewSet t).shoots = s.shoots := rfl
@[simp] theorem State.viewSet_waits (s : State) (t : Nat) : (s.viewSet t).waits = s.waits := rfl
@[simp] theorem State.viewSet_coh (s : State) (t : Nat) : (s.viewSet t).coh = s.coh := rfl
@[simp] theorem State.viewSet_fab (s : State) (t : Nat) : (s.viewSet t).fab = s.fab := rfl
@[simp] theorem State.viewSet_links (s : State) (t : Nat) : (s.viewSet t).links = s.links := rfl
@[simp] theorem State.viewSet_rm (s : State) (t : Nat) : (s.viewSet t).rm = s.rm := rfl
@[simp] theorem State.viewSet_twin (s : State) (t : Nat) : (s.viewSet t).twin = s.twin := rfl
@[simp] theorem State.viewSet_sluice (s : State) (t : Nat) : (s.viewSet t).sluice = s.sluice := rfl
@[simp] theorem State.viewSet_sec (s : State) (t : Nat) : (s.viewSet t).sec = s.sec := rfl
@[simp] theorem State.viewSet_flash (s : State) (t : Nat) : (s.viewSet t).flash = s.flash := rfl
@[simp] theorem State.viewSet_cars (s : State) (t : Nat) : (s.viewSet t).cars = s.cars := rfl
@[simp] theorem State.viewSet_board (s : State) (t : Nat) : (s.viewSet t).board = s.board := rfl
@[simp] theorem State.viewSet_mgmt (s : State) (t : Nat) : (s.viewSet t).mgmt = s.mgmt := rfl
@[simp] theorem State.viewSet_debugLevel (s : State) (t : Nat) : (s.viewSet t).debugLevel = s.debugLevel := rfl

/-! ### epochEnter -/

@[simp] theorem State.epochEnter_pending (s : State)  : (s.epochEnter ).pending = s.pending := rfl
@[simp] theorem State.epochEnter_stamp (s : State)  : (s.epochEnter ).stamp = s.stamp := rfl
@[simp] theorem State.epochEnter_freeCount (s : State)  : (s.epochEnter ).freeCount = s.freeCount := rfl
@[simp] theorem State.epochEnter_mem (s : State)  : (s.epochEnter ).mem = s.mem := rfl
@[simp] theorem State.epochEnter_gateClaim (s : State)  : (s.epochEnter ).gateClaim = s.gateClaim := rfl
@[simp] theorem State.epochEnter_log (s : State)  : (s.epochEnter ).log = s.log := rfl
@[simp] theorem State.epochEnter_grans (s : State)  : (s.epochEnter ).grans = s.grans := rfl
@[simp] theorem State.epochEnter_zeroQ (s : State)  : (s.epochEnter ).zeroQ = s.zeroQ := rfl
@[simp] theorem State.epochEnter_dram (s : State)  : (s.epochEnter ).dram = s.dram := rfl
@[simp] theorem State.epochEnter_heap (s : State)  : (s.epochEnter ).heap = s.heap := rfl
@[simp] theorem State.epochEnter_pans (s : State)  : (s.epochEnter ).pans = s.pans := rfl
@[simp] theorem State.epochEnter_queues (s : State)  : (s.epochEnter ).queues = s.queues := rfl
@[simp] theorem State.epochEnter_lists (s : State)  : (s.epochEnter ).lists = s.lists := rfl
@[simp] theorem State.epochEnter_rakes (s : State)  : (s.epochEnter ).rakes = s.rakes := rfl
@[simp] theorem State.epochEnter_stopQ (s : State)  : (s.epochEnter ).stopQ = s.stopQ := rfl
@[simp] theorem State.epochEnter_runCache (s : State)  : (s.epochEnter ).runCache = s.runCache := rfl
@[simp] theorem State.epochEnter_walkCache (s : State)  : (s.epochEnter ).walkCache = s.walkCache := rfl
@[simp] theorem State.epochEnter_walks (s : State)  : (s.epochEnter ).walks = s.walks := rfl
@[simp] theorem State.epochEnter_walkTurn (s : State)  : (s.epochEnter ).walkTurn = s.walkTurn := rfl
@[simp] theorem State.epochEnter_icache (s : State)  : (s.epochEnter ).icache = s.icache := rfl
@[simp] theorem State.epochEnter_shoots (s : State)  : (s.epochEnter ).shoots = s.shoots := rfl
@[simp] theorem State.epochEnter_waits (s : State)  : (s.epochEnter ).waits = s.waits := rfl
@[simp] theorem State.epochEnter_coh (s : State)  : (s.epochEnter ).coh = s.coh := rfl
@[simp] theorem State.epochEnter_fab (s : State)  : (s.epochEnter ).fab = s.fab := rfl
@[simp] theorem State.epochEnter_links (s : State)  : (s.epochEnter ).links = s.links := rfl
@[simp] theorem State.epochEnter_rm (s : State)  : (s.epochEnter ).rm = s.rm := rfl
@[simp] theorem State.epochEnter_twin (s : State)  : (s.epochEnter ).twin = s.twin := rfl
@[simp] theorem State.epochEnter_sluice (s : State)  : (s.epochEnter ).sluice = s.sluice := rfl
@[simp] theorem State.epochEnter_sec (s : State)  : (s.epochEnter ).sec = s.sec := rfl
@[simp] theorem State.epochEnter_flash (s : State)  : (s.epochEnter ).flash = s.flash := rfl
@[simp] theorem State.epochEnter_cars (s : State)  : (s.epochEnter ).cars = s.cars := rfl
@[simp] theorem State.epochEnter_board (s : State)  : (s.epochEnter ).board = s.board := rfl
@[simp] theorem State.epochEnter_mgmt (s : State)  : (s.epochEnter ).mgmt = s.mgmt := rfl
@[simp] theorem State.epochEnter_debugLevel (s : State)  : (s.epochEnter ).debugLevel = s.debugLevel := rfl

/-! ### setByte -/

@[simp] theorem State.setByte_pending (s : State) (a v : Nat) : (s.setByte a v).pending = s.pending := rfl
@[simp] theorem State.setByte_stamp (s : State) (a v : Nat) : (s.setByte a v).stamp = s.stamp := rfl
@[simp] theorem State.setByte_freeCount (s : State) (a v : Nat) : (s.setByte a v).freeCount = s.freeCount := rfl
@[simp] theorem State.setByte_regs (s : State) (a v : Nat) : (s.setByte a v).regs = s.regs := rfl
@[simp] theorem State.setByte_gateClaim (s : State) (a v : Nat) : (s.setByte a v).gateClaim = s.gateClaim := rfl
@[simp] theorem State.setByte_log (s : State) (a v : Nat) : (s.setByte a v).log = s.log := rfl
@[simp] theorem State.setByte_grans (s : State) (a v : Nat) : (s.setByte a v).grans = s.grans := rfl
@[simp] theorem State.setByte_zeroQ (s : State) (a v : Nat) : (s.setByte a v).zeroQ = s.zeroQ := rfl
@[simp] theorem State.setByte_dram (s : State) (a v : Nat) : (s.setByte a v).dram = s.dram := rfl
@[simp] theorem State.setByte_heap (s : State) (a v : Nat) : (s.setByte a v).heap = s.heap := rfl
@[simp] theorem State.setByte_pans (s : State) (a v : Nat) : (s.setByte a v).pans = s.pans := rfl
@[simp] theorem State.setByte_queues (s : State) (a v : Nat) : (s.setByte a v).queues = s.queues := rfl
@[simp] theorem State.setByte_lists (s : State) (a v : Nat) : (s.setByte a v).lists = s.lists := rfl
@[simp] theorem State.setByte_rakes (s : State) (a v : Nat) : (s.setByte a v).rakes = s.rakes := rfl
@[simp] theorem State.setByte_stopQ (s : State) (a v : Nat) : (s.setByte a v).stopQ = s.stopQ := rfl
@[simp] theorem State.setByte_runCache (s : State) (a v : Nat) : (s.setByte a v).runCache = s.runCache := rfl
@[simp] theorem State.setByte_walkCache (s : State) (a v : Nat) : (s.setByte a v).walkCache = s.walkCache := rfl
@[simp] theorem State.setByte_walks (s : State) (a v : Nat) : (s.setByte a v).walks = s.walks := rfl
@[simp] theorem State.setByte_walkTurn (s : State) (a v : Nat) : (s.setByte a v).walkTurn = s.walkTurn := rfl
@[simp] theorem State.setByte_icache (s : State) (a v : Nat) : (s.setByte a v).icache = s.icache := rfl
@[simp] theorem State.setByte_shoots (s : State) (a v : Nat) : (s.setByte a v).shoots = s.shoots := rfl
@[simp] theorem State.setByte_waits (s : State) (a v : Nat) : (s.setByte a v).waits = s.waits := rfl
@[simp] theorem State.setByte_coh (s : State) (a v : Nat) : (s.setByte a v).coh = s.coh := rfl
@[simp] theorem State.setByte_fab (s : State) (a v : Nat) : (s.setByte a v).fab = s.fab := rfl
@[simp] theorem State.setByte_links (s : State) (a v : Nat) : (s.setByte a v).links = s.links := rfl
@[simp] theorem State.setByte_rm (s : State) (a v : Nat) : (s.setByte a v).rm = s.rm := rfl
@[simp] theorem State.setByte_twin (s : State) (a v : Nat) : (s.setByte a v).twin = s.twin := rfl
@[simp] theorem State.setByte_sluice (s : State) (a v : Nat) : (s.setByte a v).sluice = s.sluice := rfl
@[simp] theorem State.setByte_sec (s : State) (a v : Nat) : (s.setByte a v).sec = s.sec := rfl
@[simp] theorem State.setByte_flash (s : State) (a v : Nat) : (s.setByte a v).flash = s.flash := rfl
@[simp] theorem State.setByte_cars (s : State) (a v : Nat) : (s.setByte a v).cars = s.cars := rfl
@[simp] theorem State.setByte_board (s : State) (a v : Nat) : (s.setByte a v).board = s.board := rfl
@[simp] theorem State.setByte_mgmt (s : State) (a v : Nat) : (s.setByte a v).mgmt = s.mgmt := rfl
@[simp] theorem State.setByte_debugLevel (s : State) (a v : Nat) : (s.setByte a v).debugLevel = s.debugLevel := rfl

/-! ### setQueue -/

@[simp] theorem State.setQueue_pending (s : State) (q : Nat) (f : Queue → Queue) : (s.setQueue q f).pending = s.pending := rfl
@[simp] theorem State.setQueue_stamp (s : State) (q : Nat) (f : Queue → Queue) : (s.setQueue q f).stamp = s.stamp := rfl
@[simp] theorem State.setQueue_freeCount (s : State) (q : Nat) (f : Queue → Queue) : (s.setQueue q f).freeCount = s.freeCount := rfl
@[simp] theorem State.setQueue_regs (s : State) (q : Nat) (f : Queue → Queue) : (s.setQueue q f).regs = s.regs := rfl
@[simp] theorem State.setQueue_mem (s : State) (q : Nat) (f : Queue → Queue) : (s.setQueue q f).mem = s.mem := rfl
@[simp] theorem State.setQueue_gateClaim (s : State) (q : Nat) (f : Queue → Queue) : (s.setQueue q f).gateClaim = s.gateClaim := rfl
@[simp] theorem State.setQueue_log (s : State) (q : Nat) (f : Queue → Queue) : (s.setQueue q f).log = s.log := rfl
@[simp] theorem State.setQueue_grans (s : State) (q : Nat) (f : Queue → Queue) : (s.setQueue q f).grans = s.grans := rfl
@[simp] theorem State.setQueue_zeroQ (s : State) (q : Nat) (f : Queue → Queue) : (s.setQueue q f).zeroQ = s.zeroQ := rfl
@[simp] theorem State.setQueue_dram (s : State) (q : Nat) (f : Queue → Queue) : (s.setQueue q f).dram = s.dram := rfl
@[simp] theorem State.setQueue_heap (s : State) (q : Nat) (f : Queue → Queue) : (s.setQueue q f).heap = s.heap := rfl
@[simp] theorem State.setQueue_pans (s : State) (q : Nat) (f : Queue → Queue) : (s.setQueue q f).pans = s.pans := rfl
@[simp] theorem State.setQueue_lists (s : State) (q : Nat) (f : Queue → Queue) : (s.setQueue q f).lists = s.lists := rfl
@[simp] theorem State.setQueue_rakes (s : State) (q : Nat) (f : Queue → Queue) : (s.setQueue q f).rakes = s.rakes := rfl
@[simp] theorem State.setQueue_stopQ (s : State) (q : Nat) (f : Queue → Queue) : (s.setQueue q f).stopQ = s.stopQ := rfl
@[simp] theorem State.setQueue_runCache (s : State) (q : Nat) (f : Queue → Queue) : (s.setQueue q f).runCache = s.runCache := rfl
@[simp] theorem State.setQueue_walkCache (s : State) (q : Nat) (f : Queue → Queue) : (s.setQueue q f).walkCache = s.walkCache := rfl
@[simp] theorem State.setQueue_walks (s : State) (q : Nat) (f : Queue → Queue) : (s.setQueue q f).walks = s.walks := rfl
@[simp] theorem State.setQueue_walkTurn (s : State) (q : Nat) (f : Queue → Queue) : (s.setQueue q f).walkTurn = s.walkTurn := rfl
@[simp] theorem State.setQueue_icache (s : State) (q : Nat) (f : Queue → Queue) : (s.setQueue q f).icache = s.icache := rfl
@[simp] theorem State.setQueue_shoots (s : State) (q : Nat) (f : Queue → Queue) : (s.setQueue q f).shoots = s.shoots := rfl
@[simp] theorem State.setQueue_waits (s : State) (q : Nat) (f : Queue → Queue) : (s.setQueue q f).waits = s.waits := rfl
@[simp] theorem State.setQueue_coh (s : State) (q : Nat) (f : Queue → Queue) : (s.setQueue q f).coh = s.coh := rfl
@[simp] theorem State.setQueue_fab (s : State) (q : Nat) (f : Queue → Queue) : (s.setQueue q f).fab = s.fab := rfl
@[simp] theorem State.setQueue_links (s : State) (q : Nat) (f : Queue → Queue) : (s.setQueue q f).links = s.links := rfl
@[simp] theorem State.setQueue_rm (s : State) (q : Nat) (f : Queue → Queue) : (s.setQueue q f).rm = s.rm := rfl
@[simp] theorem State.setQueue_twin (s : State) (q : Nat) (f : Queue → Queue) : (s.setQueue q f).twin = s.twin := rfl
@[simp] theorem State.setQueue_sluice (s : State) (q : Nat) (f : Queue → Queue) : (s.setQueue q f).sluice = s.sluice := rfl
@[simp] theorem State.setQueue_sec (s : State) (q : Nat) (f : Queue → Queue) : (s.setQueue q f).sec = s.sec := rfl
@[simp] theorem State.setQueue_flash (s : State) (q : Nat) (f : Queue → Queue) : (s.setQueue q f).flash = s.flash := rfl
@[simp] theorem State.setQueue_cars (s : State) (q : Nat) (f : Queue → Queue) : (s.setQueue q f).cars = s.cars := rfl
@[simp] theorem State.setQueue_board (s : State) (q : Nat) (f : Queue → Queue) : (s.setQueue q f).board = s.board := rfl
@[simp] theorem State.setQueue_mgmt (s : State) (q : Nat) (f : Queue → Queue) : (s.setQueue q f).mgmt = s.mgmt := rfl
@[simp] theorem State.setQueue_debugLevel (s : State) (q : Nat) (f : Queue → Queue) : (s.setQueue q f).debugLevel = s.debugLevel := rfl

/-! ### setEnt -/

@[simp] theorem State.setEnt_pending (s : State) (q pos : Nat) (f : Entry → Entry) : (s.setEnt q pos f).pending = s.pending := rfl
@[simp] theorem State.setEnt_stamp (s : State) (q pos : Nat) (f : Entry → Entry) : (s.setEnt q pos f).stamp = s.stamp := rfl
@[simp] theorem State.setEnt_freeCount (s : State) (q pos : Nat) (f : Entry → Entry) : (s.setEnt q pos f).freeCount = s.freeCount := rfl
@[simp] theorem State.setEnt_regs (s : State) (q pos : Nat) (f : Entry → Entry) : (s.setEnt q pos f).regs = s.regs := rfl
@[simp] theorem State.setEnt_mem (s : State) (q pos : Nat) (f : Entry → Entry) : (s.setEnt q pos f).mem = s.mem := rfl
@[simp] theorem State.setEnt_gateClaim (s : State) (q pos : Nat) (f : Entry → Entry) : (s.setEnt q pos f).gateClaim = s.gateClaim := rfl
@[simp] theorem State.setEnt_log (s : State) (q pos : Nat) (f : Entry → Entry) : (s.setEnt q pos f).log = s.log := rfl
@[simp] theorem State.setEnt_grans (s : State) (q pos : Nat) (f : Entry → Entry) : (s.setEnt q pos f).grans = s.grans := rfl
@[simp] theorem State.setEnt_zeroQ (s : State) (q pos : Nat) (f : Entry → Entry) : (s.setEnt q pos f).zeroQ = s.zeroQ := rfl
@[simp] theorem State.setEnt_dram (s : State) (q pos : Nat) (f : Entry → Entry) : (s.setEnt q pos f).dram = s.dram := rfl
@[simp] theorem State.setEnt_heap (s : State) (q pos : Nat) (f : Entry → Entry) : (s.setEnt q pos f).heap = s.heap := rfl
@[simp] theorem State.setEnt_pans (s : State) (q pos : Nat) (f : Entry → Entry) : (s.setEnt q pos f).pans = s.pans := rfl
@[simp] theorem State.setEnt_lists (s : State) (q pos : Nat) (f : Entry → Entry) : (s.setEnt q pos f).lists = s.lists := rfl
@[simp] theorem State.setEnt_rakes (s : State) (q pos : Nat) (f : Entry → Entry) : (s.setEnt q pos f).rakes = s.rakes := rfl
@[simp] theorem State.setEnt_stopQ (s : State) (q pos : Nat) (f : Entry → Entry) : (s.setEnt q pos f).stopQ = s.stopQ := rfl
@[simp] theorem State.setEnt_runCache (s : State) (q pos : Nat) (f : Entry → Entry) : (s.setEnt q pos f).runCache = s.runCache := rfl
@[simp] theorem State.setEnt_walkCache (s : State) (q pos : Nat) (f : Entry → Entry) : (s.setEnt q pos f).walkCache = s.walkCache := rfl
@[simp] theorem State.setEnt_walks (s : State) (q pos : Nat) (f : Entry → Entry) : (s.setEnt q pos f).walks = s.walks := rfl
@[simp] theorem State.setEnt_walkTurn (s : State) (q pos : Nat) (f : Entry → Entry) : (s.setEnt q pos f).walkTurn = s.walkTurn := rfl
@[simp] theorem State.setEnt_icache (s : State) (q pos : Nat) (f : Entry → Entry) : (s.setEnt q pos f).icache = s.icache := rfl
@[simp] theorem State.setEnt_shoots (s : State) (q pos : Nat) (f : Entry → Entry) : (s.setEnt q pos f).shoots = s.shoots := rfl
@[simp] theorem State.setEnt_waits (s : State) (q pos : Nat) (f : Entry → Entry) : (s.setEnt q pos f).waits = s.waits := rfl
@[simp] theorem State.setEnt_coh (s : State) (q pos : Nat) (f : Entry → Entry) : (s.setEnt q pos f).coh = s.coh := rfl
@[simp] theorem State.setEnt_fab (s : State) (q pos : Nat) (f : Entry → Entry) : (s.setEnt q pos f).fab = s.fab := rfl
@[simp] theorem State.setEnt_links (s : State) (q pos : Nat) (f : Entry → Entry) : (s.setEnt q pos f).links = s.links := rfl
@[simp] theorem State.setEnt_rm (s : State) (q pos : Nat) (f : Entry → Entry) : (s.setEnt q pos f).rm = s.rm := rfl
@[simp] theorem State.setEnt_twin (s : State) (q pos : Nat) (f : Entry → Entry) : (s.setEnt q pos f).twin = s.twin := rfl
@[simp] theorem State.setEnt_sluice (s : State) (q pos : Nat) (f : Entry → Entry) : (s.setEnt q pos f).sluice = s.sluice := rfl
@[simp] theorem State.setEnt_sec (s : State) (q pos : Nat) (f : Entry → Entry) : (s.setEnt q pos f).sec = s.sec := rfl
@[simp] theorem State.setEnt_flash (s : State) (q pos : Nat) (f : Entry → Entry) : (s.setEnt q pos f).flash = s.flash := rfl
@[simp] theorem State.setEnt_cars (s : State) (q pos : Nat) (f : Entry → Entry) : (s.setEnt q pos f).cars = s.cars := rfl
@[simp] theorem State.setEnt_board (s : State) (q pos : Nat) (f : Entry → Entry) : (s.setEnt q pos f).board = s.board := rfl
@[simp] theorem State.setEnt_mgmt (s : State) (q pos : Nat) (f : Entry → Entry) : (s.setEnt q pos f).mgmt = s.mgmt := rfl
@[simp] theorem State.setEnt_debugLevel (s : State) (q pos : Nat) (f : Entry → Entry) : (s.setEnt q pos f).debugLevel = s.debugLevel := rfl

/-! ### setPan -/

@[simp] theorem State.setPan_pending (s : State) (n : Nat) (f : Pan → Pan) : (s.setPan n f).pending = s.pending := rfl
@[simp] theorem State.setPan_stamp (s : State) (n : Nat) (f : Pan → Pan) : (s.setPan n f).stamp = s.stamp := rfl
@[simp] theorem State.setPan_freeCount (s : State) (n : Nat) (f : Pan → Pan) : (s.setPan n f).freeCount = s.freeCount := rfl
@[simp] theorem State.setPan_regs (s : State) (n : Nat) (f : Pan → Pan) : (s.setPan n f).regs = s.regs := rfl
@[simp] theorem State.setPan_mem (s : State) (n : Nat) (f : Pan → Pan) : (s.setPan n f).mem = s.mem := rfl
@[simp] theorem State.setPan_gateClaim (s : State) (n : Nat) (f : Pan → Pan) : (s.setPan n f).gateClaim = s.gateClaim := rfl
@[simp] theorem State.setPan_log (s : State) (n : Nat) (f : Pan → Pan) : (s.setPan n f).log = s.log := rfl
@[simp] theorem State.setPan_grans (s : State) (n : Nat) (f : Pan → Pan) : (s.setPan n f).grans = s.grans := rfl
@[simp] theorem State.setPan_zeroQ (s : State) (n : Nat) (f : Pan → Pan) : (s.setPan n f).zeroQ = s.zeroQ := rfl
@[simp] theorem State.setPan_dram (s : State) (n : Nat) (f : Pan → Pan) : (s.setPan n f).dram = s.dram := rfl
@[simp] theorem State.setPan_heap (s : State) (n : Nat) (f : Pan → Pan) : (s.setPan n f).heap = s.heap := rfl
@[simp] theorem State.setPan_queues (s : State) (n : Nat) (f : Pan → Pan) : (s.setPan n f).queues = s.queues := rfl
@[simp] theorem State.setPan_lists (s : State) (n : Nat) (f : Pan → Pan) : (s.setPan n f).lists = s.lists := rfl
@[simp] theorem State.setPan_rakes (s : State) (n : Nat) (f : Pan → Pan) : (s.setPan n f).rakes = s.rakes := rfl
@[simp] theorem State.setPan_stopQ (s : State) (n : Nat) (f : Pan → Pan) : (s.setPan n f).stopQ = s.stopQ := rfl
@[simp] theorem State.setPan_runCache (s : State) (n : Nat) (f : Pan → Pan) : (s.setPan n f).runCache = s.runCache := rfl
@[simp] theorem State.setPan_walkCache (s : State) (n : Nat) (f : Pan → Pan) : (s.setPan n f).walkCache = s.walkCache := rfl
@[simp] theorem State.setPan_walks (s : State) (n : Nat) (f : Pan → Pan) : (s.setPan n f).walks = s.walks := rfl
@[simp] theorem State.setPan_walkTurn (s : State) (n : Nat) (f : Pan → Pan) : (s.setPan n f).walkTurn = s.walkTurn := rfl
@[simp] theorem State.setPan_icache (s : State) (n : Nat) (f : Pan → Pan) : (s.setPan n f).icache = s.icache := rfl
@[simp] theorem State.setPan_shoots (s : State) (n : Nat) (f : Pan → Pan) : (s.setPan n f).shoots = s.shoots := rfl
@[simp] theorem State.setPan_waits (s : State) (n : Nat) (f : Pan → Pan) : (s.setPan n f).waits = s.waits := rfl
@[simp] theorem State.setPan_coh (s : State) (n : Nat) (f : Pan → Pan) : (s.setPan n f).coh = s.coh := rfl
@[simp] theorem State.setPan_fab (s : State) (n : Nat) (f : Pan → Pan) : (s.setPan n f).fab = s.fab := rfl
@[simp] theorem State.setPan_links (s : State) (n : Nat) (f : Pan → Pan) : (s.setPan n f).links = s.links := rfl
@[simp] theorem State.setPan_rm (s : State) (n : Nat) (f : Pan → Pan) : (s.setPan n f).rm = s.rm := rfl
@[simp] theorem State.setPan_twin (s : State) (n : Nat) (f : Pan → Pan) : (s.setPan n f).twin = s.twin := rfl
@[simp] theorem State.setPan_sluice (s : State) (n : Nat) (f : Pan → Pan) : (s.setPan n f).sluice = s.sluice := rfl
@[simp] theorem State.setPan_sec (s : State) (n : Nat) (f : Pan → Pan) : (s.setPan n f).sec = s.sec := rfl
@[simp] theorem State.setPan_flash (s : State) (n : Nat) (f : Pan → Pan) : (s.setPan n f).flash = s.flash := rfl
@[simp] theorem State.setPan_cars (s : State) (n : Nat) (f : Pan → Pan) : (s.setPan n f).cars = s.cars := rfl
@[simp] theorem State.setPan_board (s : State) (n : Nat) (f : Pan → Pan) : (s.setPan n f).board = s.board := rfl
@[simp] theorem State.setPan_mgmt (s : State) (n : Nat) (f : Pan → Pan) : (s.setPan n f).mgmt = s.mgmt := rfl
@[simp] theorem State.setPan_debugLevel (s : State) (n : Nat) (f : Pan → Pan) : (s.setPan n f).debugLevel = s.debugLevel := rfl

/-! ### setRake -/

@[simp] theorem State.setRake_pending (s : State) (r : Nat) (f : Rake → Rake) : (s.setRake r f).pending = s.pending := rfl
@[simp] theorem State.setRake_stamp (s : State) (r : Nat) (f : Rake → Rake) : (s.setRake r f).stamp = s.stamp := rfl
@[simp] theorem State.setRake_freeCount (s : State) (r : Nat) (f : Rake → Rake) : (s.setRake r f).freeCount = s.freeCount := rfl
@[simp] theorem State.setRake_regs (s : State) (r : Nat) (f : Rake → Rake) : (s.setRake r f).regs = s.regs := rfl
@[simp] theorem State.setRake_mem (s : State) (r : Nat) (f : Rake → Rake) : (s.setRake r f).mem = s.mem := rfl
@[simp] theorem State.setRake_gateClaim (s : State) (r : Nat) (f : Rake → Rake) : (s.setRake r f).gateClaim = s.gateClaim := rfl
@[simp] theorem State.setRake_log (s : State) (r : Nat) (f : Rake → Rake) : (s.setRake r f).log = s.log := rfl
@[simp] theorem State.setRake_grans (s : State) (r : Nat) (f : Rake → Rake) : (s.setRake r f).grans = s.grans := rfl
@[simp] theorem State.setRake_zeroQ (s : State) (r : Nat) (f : Rake → Rake) : (s.setRake r f).zeroQ = s.zeroQ := rfl
@[simp] theorem State.setRake_dram (s : State) (r : Nat) (f : Rake → Rake) : (s.setRake r f).dram = s.dram := rfl
@[simp] theorem State.setRake_heap (s : State) (r : Nat) (f : Rake → Rake) : (s.setRake r f).heap = s.heap := rfl
@[simp] theorem State.setRake_pans (s : State) (r : Nat) (f : Rake → Rake) : (s.setRake r f).pans = s.pans := rfl
@[simp] theorem State.setRake_queues (s : State) (r : Nat) (f : Rake → Rake) : (s.setRake r f).queues = s.queues := rfl
@[simp] theorem State.setRake_lists (s : State) (r : Nat) (f : Rake → Rake) : (s.setRake r f).lists = s.lists := rfl
@[simp] theorem State.setRake_stopQ (s : State) (r : Nat) (f : Rake → Rake) : (s.setRake r f).stopQ = s.stopQ := rfl
@[simp] theorem State.setRake_runCache (s : State) (r : Nat) (f : Rake → Rake) : (s.setRake r f).runCache = s.runCache := rfl
@[simp] theorem State.setRake_walkCache (s : State) (r : Nat) (f : Rake → Rake) : (s.setRake r f).walkCache = s.walkCache := rfl
@[simp] theorem State.setRake_walks (s : State) (r : Nat) (f : Rake → Rake) : (s.setRake r f).walks = s.walks := rfl
@[simp] theorem State.setRake_walkTurn (s : State) (r : Nat) (f : Rake → Rake) : (s.setRake r f).walkTurn = s.walkTurn := rfl
@[simp] theorem State.setRake_icache (s : State) (r : Nat) (f : Rake → Rake) : (s.setRake r f).icache = s.icache := rfl
@[simp] theorem State.setRake_shoots (s : State) (r : Nat) (f : Rake → Rake) : (s.setRake r f).shoots = s.shoots := rfl
@[simp] theorem State.setRake_waits (s : State) (r : Nat) (f : Rake → Rake) : (s.setRake r f).waits = s.waits := rfl
@[simp] theorem State.setRake_coh (s : State) (r : Nat) (f : Rake → Rake) : (s.setRake r f).coh = s.coh := rfl
@[simp] theorem State.setRake_fab (s : State) (r : Nat) (f : Rake → Rake) : (s.setRake r f).fab = s.fab := rfl
@[simp] theorem State.setRake_links (s : State) (r : Nat) (f : Rake → Rake) : (s.setRake r f).links = s.links := rfl
@[simp] theorem State.setRake_rm (s : State) (r : Nat) (f : Rake → Rake) : (s.setRake r f).rm = s.rm := rfl
@[simp] theorem State.setRake_twin (s : State) (r : Nat) (f : Rake → Rake) : (s.setRake r f).twin = s.twin := rfl
@[simp] theorem State.setRake_sluice (s : State) (r : Nat) (f : Rake → Rake) : (s.setRake r f).sluice = s.sluice := rfl
@[simp] theorem State.setRake_sec (s : State) (r : Nat) (f : Rake → Rake) : (s.setRake r f).sec = s.sec := rfl
@[simp] theorem State.setRake_flash (s : State) (r : Nat) (f : Rake → Rake) : (s.setRake r f).flash = s.flash := rfl
@[simp] theorem State.setRake_cars (s : State) (r : Nat) (f : Rake → Rake) : (s.setRake r f).cars = s.cars := rfl
@[simp] theorem State.setRake_board (s : State) (r : Nat) (f : Rake → Rake) : (s.setRake r f).board = s.board := rfl
@[simp] theorem State.setRake_mgmt (s : State) (r : Nat) (f : Rake → Rake) : (s.setRake r f).mgmt = s.mgmt := rfl
@[simp] theorem State.setRake_debugLevel (s : State) (r : Nat) (f : Rake → Rake) : (s.setRake r f).debugLevel = s.debugLevel := rfl

/-! ### setLnk -/

@[simp] theorem State.setLnk_pending (s : State) (p : Nat) (f : Link → Link) : (s.setLnk p f).pending = s.pending := rfl
@[simp] theorem State.setLnk_stamp (s : State) (p : Nat) (f : Link → Link) : (s.setLnk p f).stamp = s.stamp := rfl
@[simp] theorem State.setLnk_freeCount (s : State) (p : Nat) (f : Link → Link) : (s.setLnk p f).freeCount = s.freeCount := rfl
@[simp] theorem State.setLnk_regs (s : State) (p : Nat) (f : Link → Link) : (s.setLnk p f).regs = s.regs := rfl
@[simp] theorem State.setLnk_mem (s : State) (p : Nat) (f : Link → Link) : (s.setLnk p f).mem = s.mem := rfl
@[simp] theorem State.setLnk_gateClaim (s : State) (p : Nat) (f : Link → Link) : (s.setLnk p f).gateClaim = s.gateClaim := rfl
@[simp] theorem State.setLnk_log (s : State) (p : Nat) (f : Link → Link) : (s.setLnk p f).log = s.log := rfl
@[simp] theorem State.setLnk_grans (s : State) (p : Nat) (f : Link → Link) : (s.setLnk p f).grans = s.grans := rfl
@[simp] theorem State.setLnk_zeroQ (s : State) (p : Nat) (f : Link → Link) : (s.setLnk p f).zeroQ = s.zeroQ := rfl
@[simp] theorem State.setLnk_dram (s : State) (p : Nat) (f : Link → Link) : (s.setLnk p f).dram = s.dram := rfl
@[simp] theorem State.setLnk_heap (s : State) (p : Nat) (f : Link → Link) : (s.setLnk p f).heap = s.heap := rfl
@[simp] theorem State.setLnk_pans (s : State) (p : Nat) (f : Link → Link) : (s.setLnk p f).pans = s.pans := rfl
@[simp] theorem State.setLnk_queues (s : State) (p : Nat) (f : Link → Link) : (s.setLnk p f).queues = s.queues := rfl
@[simp] theorem State.setLnk_lists (s : State) (p : Nat) (f : Link → Link) : (s.setLnk p f).lists = s.lists := rfl
@[simp] theorem State.setLnk_rakes (s : State) (p : Nat) (f : Link → Link) : (s.setLnk p f).rakes = s.rakes := rfl
@[simp] theorem State.setLnk_stopQ (s : State) (p : Nat) (f : Link → Link) : (s.setLnk p f).stopQ = s.stopQ := rfl
@[simp] theorem State.setLnk_runCache (s : State) (p : Nat) (f : Link → Link) : (s.setLnk p f).runCache = s.runCache := rfl
@[simp] theorem State.setLnk_walkCache (s : State) (p : Nat) (f : Link → Link) : (s.setLnk p f).walkCache = s.walkCache := rfl
@[simp] theorem State.setLnk_walks (s : State) (p : Nat) (f : Link → Link) : (s.setLnk p f).walks = s.walks := rfl
@[simp] theorem State.setLnk_walkTurn (s : State) (p : Nat) (f : Link → Link) : (s.setLnk p f).walkTurn = s.walkTurn := rfl
@[simp] theorem State.setLnk_icache (s : State) (p : Nat) (f : Link → Link) : (s.setLnk p f).icache = s.icache := rfl
@[simp] theorem State.setLnk_shoots (s : State) (p : Nat) (f : Link → Link) : (s.setLnk p f).shoots = s.shoots := rfl
@[simp] theorem State.setLnk_waits (s : State) (p : Nat) (f : Link → Link) : (s.setLnk p f).waits = s.waits := rfl
@[simp] theorem State.setLnk_coh (s : State) (p : Nat) (f : Link → Link) : (s.setLnk p f).coh = s.coh := rfl
@[simp] theorem State.setLnk_fab (s : State) (p : Nat) (f : Link → Link) : (s.setLnk p f).fab = s.fab := rfl
@[simp] theorem State.setLnk_rm (s : State) (p : Nat) (f : Link → Link) : (s.setLnk p f).rm = s.rm := rfl
@[simp] theorem State.setLnk_twin (s : State) (p : Nat) (f : Link → Link) : (s.setLnk p f).twin = s.twin := rfl
@[simp] theorem State.setLnk_sluice (s : State) (p : Nat) (f : Link → Link) : (s.setLnk p f).sluice = s.sluice := rfl
@[simp] theorem State.setLnk_sec (s : State) (p : Nat) (f : Link → Link) : (s.setLnk p f).sec = s.sec := rfl
@[simp] theorem State.setLnk_flash (s : State) (p : Nat) (f : Link → Link) : (s.setLnk p f).flash = s.flash := rfl
@[simp] theorem State.setLnk_cars (s : State) (p : Nat) (f : Link → Link) : (s.setLnk p f).cars = s.cars := rfl
@[simp] theorem State.setLnk_board (s : State) (p : Nat) (f : Link → Link) : (s.setLnk p f).board = s.board := rfl
@[simp] theorem State.setLnk_mgmt (s : State) (p : Nat) (f : Link → Link) : (s.setLnk p f).mgmt = s.mgmt := rfl
@[simp] theorem State.setLnk_debugLevel (s : State) (p : Nat) (f : Link → Link) : (s.setLnk p f).debugLevel = s.debugLevel := rfl

/-! ### setWait -/

@[simp] theorem State.setWait_pending (s : State) (i : Nat) (f : Wait → Wait) : (s.setWait i f).pending = s.pending := rfl
@[simp] theorem State.setWait_stamp (s : State) (i : Nat) (f : Wait → Wait) : (s.setWait i f).stamp = s.stamp := rfl
@[simp] theorem State.setWait_freeCount (s : State) (i : Nat) (f : Wait → Wait) : (s.setWait i f).freeCount = s.freeCount := rfl
@[simp] theorem State.setWait_regs (s : State) (i : Nat) (f : Wait → Wait) : (s.setWait i f).regs = s.regs := rfl
@[simp] theorem State.setWait_mem (s : State) (i : Nat) (f : Wait → Wait) : (s.setWait i f).mem = s.mem := rfl
@[simp] theorem State.setWait_gateClaim (s : State) (i : Nat) (f : Wait → Wait) : (s.setWait i f).gateClaim = s.gateClaim := rfl
@[simp] theorem State.setWait_log (s : State) (i : Nat) (f : Wait → Wait) : (s.setWait i f).log = s.log := rfl
@[simp] theorem State.setWait_grans (s : State) (i : Nat) (f : Wait → Wait) : (s.setWait i f).grans = s.grans := rfl
@[simp] theorem State.setWait_zeroQ (s : State) (i : Nat) (f : Wait → Wait) : (s.setWait i f).zeroQ = s.zeroQ := rfl
@[simp] theorem State.setWait_dram (s : State) (i : Nat) (f : Wait → Wait) : (s.setWait i f).dram = s.dram := rfl
@[simp] theorem State.setWait_heap (s : State) (i : Nat) (f : Wait → Wait) : (s.setWait i f).heap = s.heap := rfl
@[simp] theorem State.setWait_pans (s : State) (i : Nat) (f : Wait → Wait) : (s.setWait i f).pans = s.pans := rfl
@[simp] theorem State.setWait_queues (s : State) (i : Nat) (f : Wait → Wait) : (s.setWait i f).queues = s.queues := rfl
@[simp] theorem State.setWait_lists (s : State) (i : Nat) (f : Wait → Wait) : (s.setWait i f).lists = s.lists := rfl
@[simp] theorem State.setWait_rakes (s : State) (i : Nat) (f : Wait → Wait) : (s.setWait i f).rakes = s.rakes := rfl
@[simp] theorem State.setWait_stopQ (s : State) (i : Nat) (f : Wait → Wait) : (s.setWait i f).stopQ = s.stopQ := rfl
@[simp] theorem State.setWait_runCache (s : State) (i : Nat) (f : Wait → Wait) : (s.setWait i f).runCache = s.runCache := rfl
@[simp] theorem State.setWait_walkCache (s : State) (i : Nat) (f : Wait → Wait) : (s.setWait i f).walkCache = s.walkCache := rfl
@[simp] theorem State.setWait_walks (s : State) (i : Nat) (f : Wait → Wait) : (s.setWait i f).walks = s.walks := rfl
@[simp] theorem State.setWait_walkTurn (s : State) (i : Nat) (f : Wait → Wait) : (s.setWait i f).walkTurn = s.walkTurn := rfl
@[simp] theorem State.setWait_icache (s : State) (i : Nat) (f : Wait → Wait) : (s.setWait i f).icache = s.icache := rfl
@[simp] theorem State.setWait_shoots (s : State) (i : Nat) (f : Wait → Wait) : (s.setWait i f).shoots = s.shoots := rfl
@[simp] theorem State.setWait_coh (s : State) (i : Nat) (f : Wait → Wait) : (s.setWait i f).coh = s.coh := rfl
@[simp] theorem State.setWait_fab (s : State) (i : Nat) (f : Wait → Wait) : (s.setWait i f).fab = s.fab := rfl
@[simp] theorem State.setWait_links (s : State) (i : Nat) (f : Wait → Wait) : (s.setWait i f).links = s.links := rfl
@[simp] theorem State.setWait_rm (s : State) (i : Nat) (f : Wait → Wait) : (s.setWait i f).rm = s.rm := rfl
@[simp] theorem State.setWait_twin (s : State) (i : Nat) (f : Wait → Wait) : (s.setWait i f).twin = s.twin := rfl
@[simp] theorem State.setWait_sluice (s : State) (i : Nat) (f : Wait → Wait) : (s.setWait i f).sluice = s.sluice := rfl
@[simp] theorem State.setWait_sec (s : State) (i : Nat) (f : Wait → Wait) : (s.setWait i f).sec = s.sec := rfl
@[simp] theorem State.setWait_flash (s : State) (i : Nat) (f : Wait → Wait) : (s.setWait i f).flash = s.flash := rfl
@[simp] theorem State.setWait_cars (s : State) (i : Nat) (f : Wait → Wait) : (s.setWait i f).cars = s.cars := rfl
@[simp] theorem State.setWait_board (s : State) (i : Nat) (f : Wait → Wait) : (s.setWait i f).board = s.board := rfl
@[simp] theorem State.setWait_mgmt (s : State) (i : Nat) (f : Wait → Wait) : (s.setWait i f).mgmt = s.mgmt := rfl
@[simp] theorem State.setWait_debugLevel (s : State) (i : Nat) (f : Wait → Wait) : (s.setWait i f).debugLevel = s.debugLevel := rfl

/-! ### setRmState -/

@[simp] theorem State.setRmState_pending (s : State) (b : Bool) (x : Nat) : (s.setRmState b x).pending = s.pending := rfl
@[simp] theorem State.setRmState_stamp (s : State) (b : Bool) (x : Nat) : (s.setRmState b x).stamp = s.stamp := rfl
@[simp] theorem State.setRmState_freeCount (s : State) (b : Bool) (x : Nat) : (s.setRmState b x).freeCount = s.freeCount := rfl
@[simp] theorem State.setRmState_mem (s : State) (b : Bool) (x : Nat) : (s.setRmState b x).mem = s.mem := rfl
@[simp] theorem State.setRmState_gateClaim (s : State) (b : Bool) (x : Nat) : (s.setRmState b x).gateClaim = s.gateClaim := rfl
@[simp] theorem State.setRmState_log (s : State) (b : Bool) (x : Nat) : (s.setRmState b x).log = s.log := rfl
@[simp] theorem State.setRmState_grans (s : State) (b : Bool) (x : Nat) : (s.setRmState b x).grans = s.grans := rfl
@[simp] theorem State.setRmState_zeroQ (s : State) (b : Bool) (x : Nat) : (s.setRmState b x).zeroQ = s.zeroQ := rfl
@[simp] theorem State.setRmState_dram (s : State) (b : Bool) (x : Nat) : (s.setRmState b x).dram = s.dram := rfl
@[simp] theorem State.setRmState_heap (s : State) (b : Bool) (x : Nat) : (s.setRmState b x).heap = s.heap := rfl
@[simp] theorem State.setRmState_pans (s : State) (b : Bool) (x : Nat) : (s.setRmState b x).pans = s.pans := rfl
@[simp] theorem State.setRmState_queues (s : State) (b : Bool) (x : Nat) : (s.setRmState b x).queues = s.queues := rfl
@[simp] theorem State.setRmState_lists (s : State) (b : Bool) (x : Nat) : (s.setRmState b x).lists = s.lists := rfl
@[simp] theorem State.setRmState_rakes (s : State) (b : Bool) (x : Nat) : (s.setRmState b x).rakes = s.rakes := rfl
@[simp] theorem State.setRmState_stopQ (s : State) (b : Bool) (x : Nat) : (s.setRmState b x).stopQ = s.stopQ := rfl
@[simp] theorem State.setRmState_runCache (s : State) (b : Bool) (x : Nat) : (s.setRmState b x).runCache = s.runCache := rfl
@[simp] theorem State.setRmState_walkCache (s : State) (b : Bool) (x : Nat) : (s.setRmState b x).walkCache = s.walkCache := rfl
@[simp] theorem State.setRmState_walks (s : State) (b : Bool) (x : Nat) : (s.setRmState b x).walks = s.walks := rfl
@[simp] theorem State.setRmState_walkTurn (s : State) (b : Bool) (x : Nat) : (s.setRmState b x).walkTurn = s.walkTurn := rfl
@[simp] theorem State.setRmState_icache (s : State) (b : Bool) (x : Nat) : (s.setRmState b x).icache = s.icache := rfl
@[simp] theorem State.setRmState_shoots (s : State) (b : Bool) (x : Nat) : (s.setRmState b x).shoots = s.shoots := rfl
@[simp] theorem State.setRmState_waits (s : State) (b : Bool) (x : Nat) : (s.setRmState b x).waits = s.waits := rfl
@[simp] theorem State.setRmState_coh (s : State) (b : Bool) (x : Nat) : (s.setRmState b x).coh = s.coh := rfl
@[simp] theorem State.setRmState_fab (s : State) (b : Bool) (x : Nat) : (s.setRmState b x).fab = s.fab := rfl
@[simp] theorem State.setRmState_links (s : State) (b : Bool) (x : Nat) : (s.setRmState b x).links = s.links := rfl
@[simp] theorem State.setRmState_rm (s : State) (b : Bool) (x : Nat) : (s.setRmState b x).rm = s.rm := rfl
@[simp] theorem State.setRmState_twin (s : State) (b : Bool) (x : Nat) : (s.setRmState b x).twin = s.twin := rfl
@[simp] theorem State.setRmState_sluice (s : State) (b : Bool) (x : Nat) : (s.setRmState b x).sluice = s.sluice := rfl
@[simp] theorem State.setRmState_sec (s : State) (b : Bool) (x : Nat) : (s.setRmState b x).sec = s.sec := rfl
@[simp] theorem State.setRmState_flash (s : State) (b : Bool) (x : Nat) : (s.setRmState b x).flash = s.flash := rfl
@[simp] theorem State.setRmState_cars (s : State) (b : Bool) (x : Nat) : (s.setRmState b x).cars = s.cars := rfl
@[simp] theorem State.setRmState_board (s : State) (b : Bool) (x : Nat) : (s.setRmState b x).board = s.board := rfl
@[simp] theorem State.setRmState_mgmt (s : State) (b : Bool) (x : Nat) : (s.setRmState b x).mgmt = s.mgmt := rfl
@[simp] theorem State.setRmState_debugLevel (s : State) (b : Bool) (x : Nat) : (s.setRmState b x).debugLevel = s.debugLevel := rfl

/-! ### setActList -/

@[simp] theorem State.setActList_pending (s : State) (k : Nat) (l : List Nat) : (s.setActList k l).pending = s.pending := rfl
@[simp] theorem State.setActList_stamp (s : State) (k : Nat) (l : List Nat) : (s.setActList k l).stamp = s.stamp := rfl
@[simp] theorem State.setActList_freeCount (s : State) (k : Nat) (l : List Nat) : (s.setActList k l).freeCount = s.freeCount := rfl
@[simp] theorem State.setActList_regs (s : State) (k : Nat) (l : List Nat) : (s.setActList k l).regs = s.regs := rfl
@[simp] theorem State.setActList_mem (s : State) (k : Nat) (l : List Nat) : (s.setActList k l).mem = s.mem := rfl
@[simp] theorem State.setActList_gateClaim (s : State) (k : Nat) (l : List Nat) : (s.setActList k l).gateClaim = s.gateClaim := rfl
@[simp] theorem State.setActList_log (s : State) (k : Nat) (l : List Nat) : (s.setActList k l).log = s.log := rfl
@[simp] theorem State.setActList_grans (s : State) (k : Nat) (l : List Nat) : (s.setActList k l).grans = s.grans := rfl
@[simp] theorem State.setActList_zeroQ (s : State) (k : Nat) (l : List Nat) : (s.setActList k l).zeroQ = s.zeroQ := rfl
@[simp] theorem State.setActList_dram (s : State) (k : Nat) (l : List Nat) : (s.setActList k l).dram = s.dram := rfl
@[simp] theorem State.setActList_heap (s : State) (k : Nat) (l : List Nat) : (s.setActList k l).heap = s.heap := rfl
@[simp] theorem State.setActList_pans (s : State) (k : Nat) (l : List Nat) : (s.setActList k l).pans = s.pans := rfl
@[simp] theorem State.setActList_queues (s : State) (k : Nat) (l : List Nat) : (s.setActList k l).queues = s.queues := rfl
@[simp] theorem State.setActList_rakes (s : State) (k : Nat) (l : List Nat) : (s.setActList k l).rakes = s.rakes := rfl
@[simp] theorem State.setActList_stopQ (s : State) (k : Nat) (l : List Nat) : (s.setActList k l).stopQ = s.stopQ := rfl
@[simp] theorem State.setActList_runCache (s : State) (k : Nat) (l : List Nat) : (s.setActList k l).runCache = s.runCache := rfl
@[simp] theorem State.setActList_walkCache (s : State) (k : Nat) (l : List Nat) : (s.setActList k l).walkCache = s.walkCache := rfl
@[simp] theorem State.setActList_walks (s : State) (k : Nat) (l : List Nat) : (s.setActList k l).walks = s.walks := rfl
@[simp] theorem State.setActList_walkTurn (s : State) (k : Nat) (l : List Nat) : (s.setActList k l).walkTurn = s.walkTurn := rfl
@[simp] theorem State.setActList_icache (s : State) (k : Nat) (l : List Nat) : (s.setActList k l).icache = s.icache := rfl
@[simp] theorem State.setActList_shoots (s : State) (k : Nat) (l : List Nat) : (s.setActList k l).shoots = s.shoots := rfl
@[simp] theorem State.setActList_waits (s : State) (k : Nat) (l : List Nat) : (s.setActList k l).waits = s.waits := rfl
@[simp] theorem State.setActList_coh (s : State) (k : Nat) (l : List Nat) : (s.setActList k l).coh = s.coh := rfl
@[simp] theorem State.setActList_fab (s : State) (k : Nat) (l : List Nat) : (s.setActList k l).fab = s.fab := rfl
@[simp] theorem State.setActList_links (s : State) (k : Nat) (l : List Nat) : (s.setActList k l).links = s.links := rfl
@[simp] theorem State.setActList_rm (s : State) (k : Nat) (l : List Nat) : (s.setActList k l).rm = s.rm := rfl
@[simp] theorem State.setActList_twin (s : State) (k : Nat) (l : List Nat) : (s.setActList k l).twin = s.twin := rfl
@[simp] theorem State.setActList_sluice (s : State) (k : Nat) (l : List Nat) : (s.setActList k l).sluice = s.sluice := rfl
@[simp] theorem State.setActList_sec (s : State) (k : Nat) (l : List Nat) : (s.setActList k l).sec = s.sec := rfl
@[simp] theorem State.setActList_flash (s : State) (k : Nat) (l : List Nat) : (s.setActList k l).flash = s.flash := rfl
@[simp] theorem State.setActList_cars (s : State) (k : Nat) (l : List Nat) : (s.setActList k l).cars = s.cars := rfl
@[simp] theorem State.setActList_board (s : State) (k : Nat) (l : List Nat) : (s.setActList k l).board = s.board := rfl
@[simp] theorem State.setActList_mgmt (s : State) (k : Nat) (l : List Nat) : (s.setActList k l).mgmt = s.mgmt := rfl
@[simp] theorem State.setActList_debugLevel (s : State) (k : Nat) (l : List Nat) : (s.setActList k l).debugLevel = s.debugLevel := rfl

/-! ### Events and counters change the logs and registers only -/

/-- The state with logs and registers left out. -/
def State.rest (s : State) : State := { s with regs := [], log := EventLog.empty }

@[simp] theorem State.rest_wr (s : State) (f : Fld) (v : Nat) : (s.wr f v).rest = s.rest := rfl
@[simp] theorem State.rest_setFld (s : State) (f : Fld) (i : Nat) : (s.setFld f i).rest = s.rest := rfl
@[simp] theorem State.rest_log (s : State) (l : EventLog) : State.rest { s with log := l } = s.rest := rfl
@[simp] theorem State.rest_aonWrite (s : State) (e : EventRec) : (s.aonWrite e).rest = s.rest := rfl

@[simp] theorem State.rest_ite (c : Prop) [Decidable c] (a b : State) (x : State) (ha : a.rest = x) (hb : b.rest = x) :
    (if c then a else b).rest = x := by
  split <;> assumption

@[simp] theorem State.rest_stageDrain (s : State) : s.stageDrain.rest = s.rest := by
  unfold State.stageDrain
  split
  · rfl
  · split <;> rfl

@[simp] theorem State.rest_pushRing (s : State) (e : EventRec) : (s.pushRing e).rest = s.rest := by
  have h : ∀ t : State, t.rest = s.rest →
      State.rest (if t.log.staging.length < 2048 then { t with log := { t.log with staging := t.log.staging ++ [e] } }
        else { t with log := { t.log with drops := SMap.upd DropCount.zero (e.id / 256) (DropCount.bump t.stamp) t.log.drops } }) = s.rest := by
    intro t ht
    split <;> exact ht
  unfold State.pushRing
  apply h
  split
  · rfl
  · exact s.rest_stageDrain

@[simp] theorem State.rest_pushAon (s : State) (e : EventRec) : (s.pushAon e).rest = s.rest := by
  have h : ∀ t : State, t.rest = s.rest →
      State.rest (if t.aonAdmits (e.id / 256) then t.aonWrite e
        else { t with log := { t.log with aonDrops := SMap.upd DropCount.zero (e.id / 256) (DropCount.bump t.stamp) t.log.aonDrops } }) = s.rest := by
    intro t ht
    split <;> exact ht
  have g : ∀ (t : State) (r : EventRec) (c : Bool), t.rest = s.rest →
      State.rest (if c then (let u := t.pushRing r; if u.aonAdmits 0xD then u.aonWrite r else u) else t) = s.rest := by
    intro t r c ht
    cases c
    · exact ht
    · have hu : (t.pushRing r).rest = s.rest := (t.rest_pushRing r).trans ht
      show State.rest (if (t.pushRing r).aonAdmits 0xD then (t.pushRing r).aonWrite r else t.pushRing r) = s.rest
      split
      · exact ((t.pushRing r).rest_aonWrite r).trans hu
      · exact hu
  exact h _ (g _ _ _ (s.rest_wr _ _))

@[simp] theorem State.rest_pushUp (s : State) (e : EventRec) : (s.pushUp e).rest = s.rest := by
  unfold State.pushUp
  split <;> rfl

@[simp] theorem State.rest_raise (s : State) (i k x d : Nat) : (s.raise i k x d).rest = s.rest := by
  unfold State.raise
  split
  · rw [State.rest_pushAon, State.rest_pushRing, State.rest_pushUp]
  · rw [State.rest_pushRing, State.rest_pushUp]

@[simp] theorem State.rest_count (s : State) (c : Ctr) (n : Nat) : (s.count c n).rest = s.rest := by
  simp only [State.count]
  split
  · rfl
  split
  · split
    · rfl
    · exact s.rest_setFld _ _
  split
  · rfl
  split
  · exact s.rest_wr _ _
  · rw [State.rest_raise, State.rest_setFld, State.rest_wr]

@[simp] theorem State.rest_countGateRefusal (s : State) : s.countGateRefusal.rest = s.rest := by
  simp only [State.countGateRefusal]
  split
  · rw [State.rest_raise, State.rest_count]
  · rw [State.rest_count]

@[simp] theorem State.rest_epochLeave (s : State) (t : Nat) : (s.epochLeave t).rest = s.rest := by
  unfold State.epochLeave
  split <;> rfl

theorem State.pending_of_rest {s t : State} (h : s.rest = t.rest) : s.pending = t.pending := (congrArg (fun x : State => x.pending) h : s.rest.pending = t.rest.pending)
theorem State.stamp_of_rest {s t : State} (h : s.rest = t.rest) : s.stamp = t.stamp := (congrArg (fun x : State => x.stamp) h : s.rest.stamp = t.rest.stamp)
theorem State.freeCount_of_rest {s t : State} (h : s.rest = t.rest) : s.freeCount = t.freeCount := (congrArg (fun x : State => x.freeCount) h : s.rest.freeCount = t.rest.freeCount)
theorem State.mem_of_rest {s t : State} (h : s.rest = t.rest) : s.mem = t.mem := (congrArg (fun x : State => x.mem) h : s.rest.mem = t.rest.mem)
theorem State.gateClaim_of_rest {s t : State} (h : s.rest = t.rest) : s.gateClaim = t.gateClaim := (congrArg (fun x : State => x.gateClaim) h : s.rest.gateClaim = t.rest.gateClaim)
theorem State.grans_of_rest {s t : State} (h : s.rest = t.rest) : s.grans = t.grans := (congrArg (fun x : State => x.grans) h : s.rest.grans = t.rest.grans)
theorem State.zeroQ_of_rest {s t : State} (h : s.rest = t.rest) : s.zeroQ = t.zeroQ := (congrArg (fun x : State => x.zeroQ) h : s.rest.zeroQ = t.rest.zeroQ)
theorem State.dram_of_rest {s t : State} (h : s.rest = t.rest) : s.dram = t.dram := (congrArg (fun x : State => x.dram) h : s.rest.dram = t.rest.dram)
theorem State.heap_of_rest {s t : State} (h : s.rest = t.rest) : s.heap = t.heap := (congrArg (fun x : State => x.heap) h : s.rest.heap = t.rest.heap)
theorem State.pans_of_rest {s t : State} (h : s.rest = t.rest) : s.pans = t.pans := (congrArg (fun x : State => x.pans) h : s.rest.pans = t.rest.pans)
theorem State.queues_of_rest {s t : State} (h : s.rest = t.rest) : s.queues = t.queues := (congrArg (fun x : State => x.queues) h : s.rest.queues = t.rest.queues)
theorem State.lists_of_rest {s t : State} (h : s.rest = t.rest) : s.lists = t.lists := (congrArg (fun x : State => x.lists) h : s.rest.lists = t.rest.lists)
theorem State.rakes_of_rest {s t : State} (h : s.rest = t.rest) : s.rakes = t.rakes := (congrArg (fun x : State => x.rakes) h : s.rest.rakes = t.rest.rakes)
theorem State.stopQ_of_rest {s t : State} (h : s.rest = t.rest) : s.stopQ = t.stopQ := (congrArg (fun x : State => x.stopQ) h : s.rest.stopQ = t.rest.stopQ)
theorem State.runCache_of_rest {s t : State} (h : s.rest = t.rest) : s.runCache = t.runCache := (congrArg (fun x : State => x.runCache) h : s.rest.runCache = t.rest.runCache)
theorem State.walkCache_of_rest {s t : State} (h : s.rest = t.rest) : s.walkCache = t.walkCache := (congrArg (fun x : State => x.walkCache) h : s.rest.walkCache = t.rest.walkCache)
theorem State.walks_of_rest {s t : State} (h : s.rest = t.rest) : s.walks = t.walks := (congrArg (fun x : State => x.walks) h : s.rest.walks = t.rest.walks)
theorem State.walkTurn_of_rest {s t : State} (h : s.rest = t.rest) : s.walkTurn = t.walkTurn := (congrArg (fun x : State => x.walkTurn) h : s.rest.walkTurn = t.rest.walkTurn)
theorem State.icache_of_rest {s t : State} (h : s.rest = t.rest) : s.icache = t.icache := (congrArg (fun x : State => x.icache) h : s.rest.icache = t.rest.icache)
theorem State.shoots_of_rest {s t : State} (h : s.rest = t.rest) : s.shoots = t.shoots := (congrArg (fun x : State => x.shoots) h : s.rest.shoots = t.rest.shoots)
theorem State.waits_of_rest {s t : State} (h : s.rest = t.rest) : s.waits = t.waits := (congrArg (fun x : State => x.waits) h : s.rest.waits = t.rest.waits)
theorem State.coh_of_rest {s t : State} (h : s.rest = t.rest) : s.coh = t.coh := (congrArg (fun x : State => x.coh) h : s.rest.coh = t.rest.coh)
theorem State.fab_of_rest {s t : State} (h : s.rest = t.rest) : s.fab = t.fab := (congrArg (fun x : State => x.fab) h : s.rest.fab = t.rest.fab)
theorem State.links_of_rest {s t : State} (h : s.rest = t.rest) : s.links = t.links := (congrArg (fun x : State => x.links) h : s.rest.links = t.rest.links)
theorem State.rm_of_rest {s t : State} (h : s.rest = t.rest) : s.rm = t.rm := (congrArg (fun x : State => x.rm) h : s.rest.rm = t.rest.rm)
theorem State.twin_of_rest {s t : State} (h : s.rest = t.rest) : s.twin = t.twin := (congrArg (fun x : State => x.twin) h : s.rest.twin = t.rest.twin)
theorem State.sluice_of_rest {s t : State} (h : s.rest = t.rest) : s.sluice = t.sluice := (congrArg (fun x : State => x.sluice) h : s.rest.sluice = t.rest.sluice)
theorem State.sec_of_rest {s t : State} (h : s.rest = t.rest) : s.sec = t.sec := (congrArg (fun x : State => x.sec) h : s.rest.sec = t.rest.sec)
theorem State.flash_of_rest {s t : State} (h : s.rest = t.rest) : s.flash = t.flash := (congrArg (fun x : State => x.flash) h : s.rest.flash = t.rest.flash)
theorem State.cars_of_rest {s t : State} (h : s.rest = t.rest) : s.cars = t.cars := (congrArg (fun x : State => x.cars) h : s.rest.cars = t.rest.cars)
theorem State.board_of_rest {s t : State} (h : s.rest = t.rest) : s.board = t.board := (congrArg (fun x : State => x.board) h : s.rest.board = t.rest.board)
theorem State.mgmt_of_rest {s t : State} (h : s.rest = t.rest) : s.mgmt = t.mgmt := (congrArg (fun x : State => x.mgmt) h : s.rest.mgmt = t.rest.mgmt)
theorem State.debugLevel_of_rest {s t : State} (h : s.rest = t.rest) : s.debugLevel = t.debugLevel := (congrArg (fun x : State => x.debugLevel) h : s.rest.debugLevel = t.rest.debugLevel)

/-! ### epochLeave -/

@[simp] theorem State.epochLeave_pending (s : State) (t : Nat) : (s.epochLeave t).pending = s.pending := State.pending_of_rest (s.rest_epochLeave t)
@[simp] theorem State.epochLeave_stamp (s : State) (t : Nat) : (s.epochLeave t).stamp = s.stamp := State.stamp_of_rest (s.rest_epochLeave t)
@[simp] theorem State.epochLeave_freeCount (s : State) (t : Nat) : (s.epochLeave t).freeCount = s.freeCount := State.freeCount_of_rest (s.rest_epochLeave t)
@[simp] theorem State.epochLeave_mem (s : State) (t : Nat) : (s.epochLeave t).mem = s.mem := State.mem_of_rest (s.rest_epochLeave t)
@[simp] theorem State.epochLeave_gateClaim (s : State) (t : Nat) : (s.epochLeave t).gateClaim = s.gateClaim := State.gateClaim_of_rest (s.rest_epochLeave t)
@[simp] theorem State.epochLeave_grans (s : State) (t : Nat) : (s.epochLeave t).grans = s.grans := State.grans_of_rest (s.rest_epochLeave t)
@[simp] theorem State.epochLeave_zeroQ (s : State) (t : Nat) : (s.epochLeave t).zeroQ = s.zeroQ := State.zeroQ_of_rest (s.rest_epochLeave t)
@[simp] theorem State.epochLeave_dram (s : State) (t : Nat) : (s.epochLeave t).dram = s.dram := State.dram_of_rest (s.rest_epochLeave t)
@[simp] theorem State.epochLeave_heap (s : State) (t : Nat) : (s.epochLeave t).heap = s.heap := State.heap_of_rest (s.rest_epochLeave t)
@[simp] theorem State.epochLeave_pans (s : State) (t : Nat) : (s.epochLeave t).pans = s.pans := State.pans_of_rest (s.rest_epochLeave t)
@[simp] theorem State.epochLeave_queues (s : State) (t : Nat) : (s.epochLeave t).queues = s.queues := State.queues_of_rest (s.rest_epochLeave t)
@[simp] theorem State.epochLeave_lists (s : State) (t : Nat) : (s.epochLeave t).lists = s.lists := State.lists_of_rest (s.rest_epochLeave t)
@[simp] theorem State.epochLeave_rakes (s : State) (t : Nat) : (s.epochLeave t).rakes = s.rakes := State.rakes_of_rest (s.rest_epochLeave t)
@[simp] theorem State.epochLeave_stopQ (s : State) (t : Nat) : (s.epochLeave t).stopQ = s.stopQ := State.stopQ_of_rest (s.rest_epochLeave t)
@[simp] theorem State.epochLeave_runCache (s : State) (t : Nat) : (s.epochLeave t).runCache = s.runCache := State.runCache_of_rest (s.rest_epochLeave t)
@[simp] theorem State.epochLeave_walkCache (s : State) (t : Nat) : (s.epochLeave t).walkCache = s.walkCache := State.walkCache_of_rest (s.rest_epochLeave t)
@[simp] theorem State.epochLeave_walks (s : State) (t : Nat) : (s.epochLeave t).walks = s.walks := State.walks_of_rest (s.rest_epochLeave t)
@[simp] theorem State.epochLeave_walkTurn (s : State) (t : Nat) : (s.epochLeave t).walkTurn = s.walkTurn := State.walkTurn_of_rest (s.rest_epochLeave t)
@[simp] theorem State.epochLeave_icache (s : State) (t : Nat) : (s.epochLeave t).icache = s.icache := State.icache_of_rest (s.rest_epochLeave t)
@[simp] theorem State.epochLeave_shoots (s : State) (t : Nat) : (s.epochLeave t).shoots = s.shoots := State.shoots_of_rest (s.rest_epochLeave t)
@[simp] theorem State.epochLeave_waits (s : State) (t : Nat) : (s.epochLeave t).waits = s.waits := State.waits_of_rest (s.rest_epochLeave t)
@[simp] theorem State.epochLeave_coh (s : State) (t : Nat) : (s.epochLeave t).coh = s.coh := State.coh_of_rest (s.rest_epochLeave t)
@[simp] theorem State.epochLeave_fab (s : State) (t : Nat) : (s.epochLeave t).fab = s.fab := State.fab_of_rest (s.rest_epochLeave t)
@[simp] theorem State.epochLeave_links (s : State) (t : Nat) : (s.epochLeave t).links = s.links := State.links_of_rest (s.rest_epochLeave t)
@[simp] theorem State.epochLeave_rm (s : State) (t : Nat) : (s.epochLeave t).rm = s.rm := State.rm_of_rest (s.rest_epochLeave t)
@[simp] theorem State.epochLeave_twin (s : State) (t : Nat) : (s.epochLeave t).twin = s.twin := State.twin_of_rest (s.rest_epochLeave t)
@[simp] theorem State.epochLeave_sluice (s : State) (t : Nat) : (s.epochLeave t).sluice = s.sluice := State.sluice_of_rest (s.rest_epochLeave t)
@[simp] theorem State.epochLeave_sec (s : State) (t : Nat) : (s.epochLeave t).sec = s.sec := State.sec_of_rest (s.rest_epochLeave t)
@[simp] theorem State.epochLeave_flash (s : State) (t : Nat) : (s.epochLeave t).flash = s.flash := State.flash_of_rest (s.rest_epochLeave t)
@[simp] theorem State.epochLeave_cars (s : State) (t : Nat) : (s.epochLeave t).cars = s.cars := State.cars_of_rest (s.rest_epochLeave t)
@[simp] theorem State.epochLeave_board (s : State) (t : Nat) : (s.epochLeave t).board = s.board := State.board_of_rest (s.rest_epochLeave t)
@[simp] theorem State.epochLeave_mgmt (s : State) (t : Nat) : (s.epochLeave t).mgmt = s.mgmt := State.mgmt_of_rest (s.rest_epochLeave t)
@[simp] theorem State.epochLeave_debugLevel (s : State) (t : Nat) : (s.epochLeave t).debugLevel = s.debugLevel := State.debugLevel_of_rest (s.rest_epochLeave t)

/-! ### stageDrain -/

@[simp] theorem State.stageDrain_pending (s : State)  : (s.stageDrain ).pending = s.pending := State.pending_of_rest (s.rest_stageDrain)
@[simp] theorem State.stageDrain_stamp (s : State)  : (s.stageDrain ).stamp = s.stamp := State.stamp_of_rest (s.rest_stageDrain)
@[simp] theorem State.stageDrain_freeCount (s : State)  : (s.stageDrain ).freeCount = s.freeCount := State.freeCount_of_rest (s.rest_stageDrain)
@[simp] theorem State.stageDrain_mem (s : State)  : (s.stageDrain ).mem = s.mem := State.mem_of_rest (s.rest_stageDrain)
@[simp] theorem State.stageDrain_gateClaim (s : State)  : (s.stageDrain ).gateClaim = s.gateClaim := State.gateClaim_of_rest (s.rest_stageDrain)
@[simp] theorem State.stageDrain_grans (s : State)  : (s.stageDrain ).grans = s.grans := State.grans_of_rest (s.rest_stageDrain)
@[simp] theorem State.stageDrain_zeroQ (s : State)  : (s.stageDrain ).zeroQ = s.zeroQ := State.zeroQ_of_rest (s.rest_stageDrain)
@[simp] theorem State.stageDrain_dram (s : State)  : (s.stageDrain ).dram = s.dram := State.dram_of_rest (s.rest_stageDrain)
@[simp] theorem State.stageDrain_heap (s : State)  : (s.stageDrain ).heap = s.heap := State.heap_of_rest (s.rest_stageDrain)
@[simp] theorem State.stageDrain_pans (s : State)  : (s.stageDrain ).pans = s.pans := State.pans_of_rest (s.rest_stageDrain)
@[simp] theorem State.stageDrain_queues (s : State)  : (s.stageDrain ).queues = s.queues := State.queues_of_rest (s.rest_stageDrain)
@[simp] theorem State.stageDrain_lists (s : State)  : (s.stageDrain ).lists = s.lists := State.lists_of_rest (s.rest_stageDrain)
@[simp] theorem State.stageDrain_rakes (s : State)  : (s.stageDrain ).rakes = s.rakes := State.rakes_of_rest (s.rest_stageDrain)
@[simp] theorem State.stageDrain_stopQ (s : State)  : (s.stageDrain ).stopQ = s.stopQ := State.stopQ_of_rest (s.rest_stageDrain)
@[simp] theorem State.stageDrain_runCache (s : State)  : (s.stageDrain ).runCache = s.runCache := State.runCache_of_rest (s.rest_stageDrain)
@[simp] theorem State.stageDrain_walkCache (s : State)  : (s.stageDrain ).walkCache = s.walkCache := State.walkCache_of_rest (s.rest_stageDrain)
@[simp] theorem State.stageDrain_walks (s : State)  : (s.stageDrain ).walks = s.walks := State.walks_of_rest (s.rest_stageDrain)
@[simp] theorem State.stageDrain_walkTurn (s : State)  : (s.stageDrain ).walkTurn = s.walkTurn := State.walkTurn_of_rest (s.rest_stageDrain)
@[simp] theorem State.stageDrain_icache (s : State)  : (s.stageDrain ).icache = s.icache := State.icache_of_rest (s.rest_stageDrain)
@[simp] theorem State.stageDrain_shoots (s : State)  : (s.stageDrain ).shoots = s.shoots := State.shoots_of_rest (s.rest_stageDrain)
@[simp] theorem State.stageDrain_waits (s : State)  : (s.stageDrain ).waits = s.waits := State.waits_of_rest (s.rest_stageDrain)
@[simp] theorem State.stageDrain_coh (s : State)  : (s.stageDrain ).coh = s.coh := State.coh_of_rest (s.rest_stageDrain)
@[simp] theorem State.stageDrain_fab (s : State)  : (s.stageDrain ).fab = s.fab := State.fab_of_rest (s.rest_stageDrain)
@[simp] theorem State.stageDrain_links (s : State)  : (s.stageDrain ).links = s.links := State.links_of_rest (s.rest_stageDrain)
@[simp] theorem State.stageDrain_rm (s : State)  : (s.stageDrain ).rm = s.rm := State.rm_of_rest (s.rest_stageDrain)
@[simp] theorem State.stageDrain_twin (s : State)  : (s.stageDrain ).twin = s.twin := State.twin_of_rest (s.rest_stageDrain)
@[simp] theorem State.stageDrain_sluice (s : State)  : (s.stageDrain ).sluice = s.sluice := State.sluice_of_rest (s.rest_stageDrain)
@[simp] theorem State.stageDrain_sec (s : State)  : (s.stageDrain ).sec = s.sec := State.sec_of_rest (s.rest_stageDrain)
@[simp] theorem State.stageDrain_flash (s : State)  : (s.stageDrain ).flash = s.flash := State.flash_of_rest (s.rest_stageDrain)
@[simp] theorem State.stageDrain_cars (s : State)  : (s.stageDrain ).cars = s.cars := State.cars_of_rest (s.rest_stageDrain)
@[simp] theorem State.stageDrain_board (s : State)  : (s.stageDrain ).board = s.board := State.board_of_rest (s.rest_stageDrain)
@[simp] theorem State.stageDrain_mgmt (s : State)  : (s.stageDrain ).mgmt = s.mgmt := State.mgmt_of_rest (s.rest_stageDrain)
@[simp] theorem State.stageDrain_debugLevel (s : State)  : (s.stageDrain ).debugLevel = s.debugLevel := State.debugLevel_of_rest (s.rest_stageDrain)

/-! ### pushRing -/

@[simp] theorem State.pushRing_pending (s : State) (e : EventRec) : (s.pushRing e).pending = s.pending := State.pending_of_rest (s.rest_pushRing e)
@[simp] theorem State.pushRing_stamp (s : State) (e : EventRec) : (s.pushRing e).stamp = s.stamp := State.stamp_of_rest (s.rest_pushRing e)
@[simp] theorem State.pushRing_freeCount (s : State) (e : EventRec) : (s.pushRing e).freeCount = s.freeCount := State.freeCount_of_rest (s.rest_pushRing e)
@[simp] theorem State.pushRing_mem (s : State) (e : EventRec) : (s.pushRing e).mem = s.mem := State.mem_of_rest (s.rest_pushRing e)
@[simp] theorem State.pushRing_gateClaim (s : State) (e : EventRec) : (s.pushRing e).gateClaim = s.gateClaim := State.gateClaim_of_rest (s.rest_pushRing e)
@[simp] theorem State.pushRing_grans (s : State) (e : EventRec) : (s.pushRing e).grans = s.grans := State.grans_of_rest (s.rest_pushRing e)
@[simp] theorem State.pushRing_zeroQ (s : State) (e : EventRec) : (s.pushRing e).zeroQ = s.zeroQ := State.zeroQ_of_rest (s.rest_pushRing e)
@[simp] theorem State.pushRing_dram (s : State) (e : EventRec) : (s.pushRing e).dram = s.dram := State.dram_of_rest (s.rest_pushRing e)
@[simp] theorem State.pushRing_heap (s : State) (e : EventRec) : (s.pushRing e).heap = s.heap := State.heap_of_rest (s.rest_pushRing e)
@[simp] theorem State.pushRing_pans (s : State) (e : EventRec) : (s.pushRing e).pans = s.pans := State.pans_of_rest (s.rest_pushRing e)
@[simp] theorem State.pushRing_queues (s : State) (e : EventRec) : (s.pushRing e).queues = s.queues := State.queues_of_rest (s.rest_pushRing e)
@[simp] theorem State.pushRing_lists (s : State) (e : EventRec) : (s.pushRing e).lists = s.lists := State.lists_of_rest (s.rest_pushRing e)
@[simp] theorem State.pushRing_rakes (s : State) (e : EventRec) : (s.pushRing e).rakes = s.rakes := State.rakes_of_rest (s.rest_pushRing e)
@[simp] theorem State.pushRing_stopQ (s : State) (e : EventRec) : (s.pushRing e).stopQ = s.stopQ := State.stopQ_of_rest (s.rest_pushRing e)
@[simp] theorem State.pushRing_runCache (s : State) (e : EventRec) : (s.pushRing e).runCache = s.runCache := State.runCache_of_rest (s.rest_pushRing e)
@[simp] theorem State.pushRing_walkCache (s : State) (e : EventRec) : (s.pushRing e).walkCache = s.walkCache := State.walkCache_of_rest (s.rest_pushRing e)
@[simp] theorem State.pushRing_walks (s : State) (e : EventRec) : (s.pushRing e).walks = s.walks := State.walks_of_rest (s.rest_pushRing e)
@[simp] theorem State.pushRing_walkTurn (s : State) (e : EventRec) : (s.pushRing e).walkTurn = s.walkTurn := State.walkTurn_of_rest (s.rest_pushRing e)
@[simp] theorem State.pushRing_icache (s : State) (e : EventRec) : (s.pushRing e).icache = s.icache := State.icache_of_rest (s.rest_pushRing e)
@[simp] theorem State.pushRing_shoots (s : State) (e : EventRec) : (s.pushRing e).shoots = s.shoots := State.shoots_of_rest (s.rest_pushRing e)
@[simp] theorem State.pushRing_waits (s : State) (e : EventRec) : (s.pushRing e).waits = s.waits := State.waits_of_rest (s.rest_pushRing e)
@[simp] theorem State.pushRing_coh (s : State) (e : EventRec) : (s.pushRing e).coh = s.coh := State.coh_of_rest (s.rest_pushRing e)
@[simp] theorem State.pushRing_fab (s : State) (e : EventRec) : (s.pushRing e).fab = s.fab := State.fab_of_rest (s.rest_pushRing e)
@[simp] theorem State.pushRing_links (s : State) (e : EventRec) : (s.pushRing e).links = s.links := State.links_of_rest (s.rest_pushRing e)
@[simp] theorem State.pushRing_rm (s : State) (e : EventRec) : (s.pushRing e).rm = s.rm := State.rm_of_rest (s.rest_pushRing e)
@[simp] theorem State.pushRing_twin (s : State) (e : EventRec) : (s.pushRing e).twin = s.twin := State.twin_of_rest (s.rest_pushRing e)
@[simp] theorem State.pushRing_sluice (s : State) (e : EventRec) : (s.pushRing e).sluice = s.sluice := State.sluice_of_rest (s.rest_pushRing e)
@[simp] theorem State.pushRing_sec (s : State) (e : EventRec) : (s.pushRing e).sec = s.sec := State.sec_of_rest (s.rest_pushRing e)
@[simp] theorem State.pushRing_flash (s : State) (e : EventRec) : (s.pushRing e).flash = s.flash := State.flash_of_rest (s.rest_pushRing e)
@[simp] theorem State.pushRing_cars (s : State) (e : EventRec) : (s.pushRing e).cars = s.cars := State.cars_of_rest (s.rest_pushRing e)
@[simp] theorem State.pushRing_board (s : State) (e : EventRec) : (s.pushRing e).board = s.board := State.board_of_rest (s.rest_pushRing e)
@[simp] theorem State.pushRing_mgmt (s : State) (e : EventRec) : (s.pushRing e).mgmt = s.mgmt := State.mgmt_of_rest (s.rest_pushRing e)
@[simp] theorem State.pushRing_debugLevel (s : State) (e : EventRec) : (s.pushRing e).debugLevel = s.debugLevel := State.debugLevel_of_rest (s.rest_pushRing e)

/-! ### pushUp -/

@[simp] theorem State.pushUp_pending (s : State) (e : EventRec) : (s.pushUp e).pending = s.pending := State.pending_of_rest (s.rest_pushUp e)
@[simp] theorem State.pushUp_stamp (s : State) (e : EventRec) : (s.pushUp e).stamp = s.stamp := State.stamp_of_rest (s.rest_pushUp e)
@[simp] theorem State.pushUp_freeCount (s : State) (e : EventRec) : (s.pushUp e).freeCount = s.freeCount := State.freeCount_of_rest (s.rest_pushUp e)
@[simp] theorem State.pushUp_mem (s : State) (e : EventRec) : (s.pushUp e).mem = s.mem := State.mem_of_rest (s.rest_pushUp e)
@[simp] theorem State.pushUp_gateClaim (s : State) (e : EventRec) : (s.pushUp e).gateClaim = s.gateClaim := State.gateClaim_of_rest (s.rest_pushUp e)
@[simp] theorem State.pushUp_grans (s : State) (e : EventRec) : (s.pushUp e).grans = s.grans := State.grans_of_rest (s.rest_pushUp e)
@[simp] theorem State.pushUp_zeroQ (s : State) (e : EventRec) : (s.pushUp e).zeroQ = s.zeroQ := State.zeroQ_of_rest (s.rest_pushUp e)
@[simp] theorem State.pushUp_dram (s : State) (e : EventRec) : (s.pushUp e).dram = s.dram := State.dram_of_rest (s.rest_pushUp e)
@[simp] theorem State.pushUp_heap (s : State) (e : EventRec) : (s.pushUp e).heap = s.heap := State.heap_of_rest (s.rest_pushUp e)
@[simp] theorem State.pushUp_pans (s : State) (e : EventRec) : (s.pushUp e).pans = s.pans := State.pans_of_rest (s.rest_pushUp e)
@[simp] theorem State.pushUp_queues (s : State) (e : EventRec) : (s.pushUp e).queues = s.queues := State.queues_of_rest (s.rest_pushUp e)
@[simp] theorem State.pushUp_lists (s : State) (e : EventRec) : (s.pushUp e).lists = s.lists := State.lists_of_rest (s.rest_pushUp e)
@[simp] theorem State.pushUp_rakes (s : State) (e : EventRec) : (s.pushUp e).rakes = s.rakes := State.rakes_of_rest (s.rest_pushUp e)
@[simp] theorem State.pushUp_stopQ (s : State) (e : EventRec) : (s.pushUp e).stopQ = s.stopQ := State.stopQ_of_rest (s.rest_pushUp e)
@[simp] theorem State.pushUp_runCache (s : State) (e : EventRec) : (s.pushUp e).runCache = s.runCache := State.runCache_of_rest (s.rest_pushUp e)
@[simp] theorem State.pushUp_walkCache (s : State) (e : EventRec) : (s.pushUp e).walkCache = s.walkCache := State.walkCache_of_rest (s.rest_pushUp e)
@[simp] theorem State.pushUp_walks (s : State) (e : EventRec) : (s.pushUp e).walks = s.walks := State.walks_of_rest (s.rest_pushUp e)
@[simp] theorem State.pushUp_walkTurn (s : State) (e : EventRec) : (s.pushUp e).walkTurn = s.walkTurn := State.walkTurn_of_rest (s.rest_pushUp e)
@[simp] theorem State.pushUp_icache (s : State) (e : EventRec) : (s.pushUp e).icache = s.icache := State.icache_of_rest (s.rest_pushUp e)
@[simp] theorem State.pushUp_shoots (s : State) (e : EventRec) : (s.pushUp e).shoots = s.shoots := State.shoots_of_rest (s.rest_pushUp e)
@[simp] theorem State.pushUp_waits (s : State) (e : EventRec) : (s.pushUp e).waits = s.waits := State.waits_of_rest (s.rest_pushUp e)
@[simp] theorem State.pushUp_coh (s : State) (e : EventRec) : (s.pushUp e).coh = s.coh := State.coh_of_rest (s.rest_pushUp e)
@[simp] theorem State.pushUp_fab (s : State) (e : EventRec) : (s.pushUp e).fab = s.fab := State.fab_of_rest (s.rest_pushUp e)
@[simp] theorem State.pushUp_links (s : State) (e : EventRec) : (s.pushUp e).links = s.links := State.links_of_rest (s.rest_pushUp e)
@[simp] theorem State.pushUp_rm (s : State) (e : EventRec) : (s.pushUp e).rm = s.rm := State.rm_of_rest (s.rest_pushUp e)
@[simp] theorem State.pushUp_twin (s : State) (e : EventRec) : (s.pushUp e).twin = s.twin := State.twin_of_rest (s.rest_pushUp e)
@[simp] theorem State.pushUp_sluice (s : State) (e : EventRec) : (s.pushUp e).sluice = s.sluice := State.sluice_of_rest (s.rest_pushUp e)
@[simp] theorem State.pushUp_sec (s : State) (e : EventRec) : (s.pushUp e).sec = s.sec := State.sec_of_rest (s.rest_pushUp e)
@[simp] theorem State.pushUp_flash (s : State) (e : EventRec) : (s.pushUp e).flash = s.flash := State.flash_of_rest (s.rest_pushUp e)
@[simp] theorem State.pushUp_cars (s : State) (e : EventRec) : (s.pushUp e).cars = s.cars := State.cars_of_rest (s.rest_pushUp e)
@[simp] theorem State.pushUp_board (s : State) (e : EventRec) : (s.pushUp e).board = s.board := State.board_of_rest (s.rest_pushUp e)
@[simp] theorem State.pushUp_mgmt (s : State) (e : EventRec) : (s.pushUp e).mgmt = s.mgmt := State.mgmt_of_rest (s.rest_pushUp e)
@[simp] theorem State.pushUp_debugLevel (s : State) (e : EventRec) : (s.pushUp e).debugLevel = s.debugLevel := State.debugLevel_of_rest (s.rest_pushUp e)

/-! ### aonWrite -/

@[simp] theorem State.aonWrite_pending (s : State) (e : EventRec) : (s.aonWrite e).pending = s.pending := State.pending_of_rest (s.rest_aonWrite e)
@[simp] theorem State.aonWrite_stamp (s : State) (e : EventRec) : (s.aonWrite e).stamp = s.stamp := State.stamp_of_rest (s.rest_aonWrite e)
@[simp] theorem State.aonWrite_freeCount (s : State) (e : EventRec) : (s.aonWrite e).freeCount = s.freeCount := State.freeCount_of_rest (s.rest_aonWrite e)
@[simp] theorem State.aonWrite_mem (s : State) (e : EventRec) : (s.aonWrite e).mem = s.mem := State.mem_of_rest (s.rest_aonWrite e)
@[simp] theorem State.aonWrite_gateClaim (s : State) (e : EventRec) : (s.aonWrite e).gateClaim = s.gateClaim := State.gateClaim_of_rest (s.rest_aonWrite e)
@[simp] theorem State.aonWrite_grans (s : State) (e : EventRec) : (s.aonWrite e).grans = s.grans := State.grans_of_rest (s.rest_aonWrite e)
@[simp] theorem State.aonWrite_zeroQ (s : State) (e : EventRec) : (s.aonWrite e).zeroQ = s.zeroQ := State.zeroQ_of_rest (s.rest_aonWrite e)
@[simp] theorem State.aonWrite_dram (s : State) (e : EventRec) : (s.aonWrite e).dram = s.dram := State.dram_of_rest (s.rest_aonWrite e)
@[simp] theorem State.aonWrite_heap (s : State) (e : EventRec) : (s.aonWrite e).heap = s.heap := State.heap_of_rest (s.rest_aonWrite e)
@[simp] theorem State.aonWrite_pans (s : State) (e : EventRec) : (s.aonWrite e).pans = s.pans := State.pans_of_rest (s.rest_aonWrite e)
@[simp] theorem State.aonWrite_queues (s : State) (e : EventRec) : (s.aonWrite e).queues = s.queues := State.queues_of_rest (s.rest_aonWrite e)
@[simp] theorem State.aonWrite_lists (s : State) (e : EventRec) : (s.aonWrite e).lists = s.lists := State.lists_of_rest (s.rest_aonWrite e)
@[simp] theorem State.aonWrite_rakes (s : State) (e : EventRec) : (s.aonWrite e).rakes = s.rakes := State.rakes_of_rest (s.rest_aonWrite e)
@[simp] theorem State.aonWrite_stopQ (s : State) (e : EventRec) : (s.aonWrite e).stopQ = s.stopQ := State.stopQ_of_rest (s.rest_aonWrite e)
@[simp] theorem State.aonWrite_runCache (s : State) (e : EventRec) : (s.aonWrite e).runCache = s.runCache := State.runCache_of_rest (s.rest_aonWrite e)
@[simp] theorem State.aonWrite_walkCache (s : State) (e : EventRec) : (s.aonWrite e).walkCache = s.walkCache := State.walkCache_of_rest (s.rest_aonWrite e)
@[simp] theorem State.aonWrite_walks (s : State) (e : EventRec) : (s.aonWrite e).walks = s.walks := State.walks_of_rest (s.rest_aonWrite e)
@[simp] theorem State.aonWrite_walkTurn (s : State) (e : EventRec) : (s.aonWrite e).walkTurn = s.walkTurn := State.walkTurn_of_rest (s.rest_aonWrite e)
@[simp] theorem State.aonWrite_icache (s : State) (e : EventRec) : (s.aonWrite e).icache = s.icache := State.icache_of_rest (s.rest_aonWrite e)
@[simp] theorem State.aonWrite_shoots (s : State) (e : EventRec) : (s.aonWrite e).shoots = s.shoots := State.shoots_of_rest (s.rest_aonWrite e)
@[simp] theorem State.aonWrite_waits (s : State) (e : EventRec) : (s.aonWrite e).waits = s.waits := State.waits_of_rest (s.rest_aonWrite e)
@[simp] theorem State.aonWrite_coh (s : State) (e : EventRec) : (s.aonWrite e).coh = s.coh := State.coh_of_rest (s.rest_aonWrite e)
@[simp] theorem State.aonWrite_fab (s : State) (e : EventRec) : (s.aonWrite e).fab = s.fab := State.fab_of_rest (s.rest_aonWrite e)
@[simp] theorem State.aonWrite_links (s : State) (e : EventRec) : (s.aonWrite e).links = s.links := State.links_of_rest (s.rest_aonWrite e)
@[simp] theorem State.aonWrite_rm (s : State) (e : EventRec) : (s.aonWrite e).rm = s.rm := State.rm_of_rest (s.rest_aonWrite e)
@[simp] theorem State.aonWrite_twin (s : State) (e : EventRec) : (s.aonWrite e).twin = s.twin := State.twin_of_rest (s.rest_aonWrite e)
@[simp] theorem State.aonWrite_sluice (s : State) (e : EventRec) : (s.aonWrite e).sluice = s.sluice := State.sluice_of_rest (s.rest_aonWrite e)
@[simp] theorem State.aonWrite_sec (s : State) (e : EventRec) : (s.aonWrite e).sec = s.sec := State.sec_of_rest (s.rest_aonWrite e)
@[simp] theorem State.aonWrite_flash (s : State) (e : EventRec) : (s.aonWrite e).flash = s.flash := State.flash_of_rest (s.rest_aonWrite e)
@[simp] theorem State.aonWrite_cars (s : State) (e : EventRec) : (s.aonWrite e).cars = s.cars := State.cars_of_rest (s.rest_aonWrite e)
@[simp] theorem State.aonWrite_board (s : State) (e : EventRec) : (s.aonWrite e).board = s.board := State.board_of_rest (s.rest_aonWrite e)
@[simp] theorem State.aonWrite_mgmt (s : State) (e : EventRec) : (s.aonWrite e).mgmt = s.mgmt := State.mgmt_of_rest (s.rest_aonWrite e)
@[simp] theorem State.aonWrite_debugLevel (s : State) (e : EventRec) : (s.aonWrite e).debugLevel = s.debugLevel := State.debugLevel_of_rest (s.rest_aonWrite e)

/-! ### pushAon -/

@[simp] theorem State.pushAon_pending (s : State) (e : EventRec) : (s.pushAon e).pending = s.pending := State.pending_of_rest (s.rest_pushAon e)
@[simp] theorem State.pushAon_stamp (s : State) (e : EventRec) : (s.pushAon e).stamp = s.stamp := State.stamp_of_rest (s.rest_pushAon e)
@[simp] theorem State.pushAon_freeCount (s : State) (e : EventRec) : (s.pushAon e).freeCount = s.freeCount := State.freeCount_of_rest (s.rest_pushAon e)
@[simp] theorem State.pushAon_mem (s : State) (e : EventRec) : (s.pushAon e).mem = s.mem := State.mem_of_rest (s.rest_pushAon e)
@[simp] theorem State.pushAon_gateClaim (s : State) (e : EventRec) : (s.pushAon e).gateClaim = s.gateClaim := State.gateClaim_of_rest (s.rest_pushAon e)
@[simp] theorem State.pushAon_grans (s : State) (e : EventRec) : (s.pushAon e).grans = s.grans := State.grans_of_rest (s.rest_pushAon e)
@[simp] theorem State.pushAon_zeroQ (s : State) (e : EventRec) : (s.pushAon e).zeroQ = s.zeroQ := State.zeroQ_of_rest (s.rest_pushAon e)
@[simp] theorem State.pushAon_dram (s : State) (e : EventRec) : (s.pushAon e).dram = s.dram := State.dram_of_rest (s.rest_pushAon e)
@[simp] theorem State.pushAon_heap (s : State) (e : EventRec) : (s.pushAon e).heap = s.heap := State.heap_of_rest (s.rest_pushAon e)
@[simp] theorem State.pushAon_pans (s : State) (e : EventRec) : (s.pushAon e).pans = s.pans := State.pans_of_rest (s.rest_pushAon e)
@[simp] theorem State.pushAon_queues (s : State) (e : EventRec) : (s.pushAon e).queues = s.queues := State.queues_of_rest (s.rest_pushAon e)
@[simp] theorem State.pushAon_lists (s : State) (e : EventRec) : (s.pushAon e).lists = s.lists := State.lists_of_rest (s.rest_pushAon e)
@[simp] theorem State.pushAon_rakes (s : State) (e : EventRec) : (s.pushAon e).rakes = s.rakes := State.rakes_of_rest (s.rest_pushAon e)
@[simp] theorem State.pushAon_stopQ (s : State) (e : EventRec) : (s.pushAon e).stopQ = s.stopQ := State.stopQ_of_rest (s.rest_pushAon e)
@[simp] theorem State.pushAon_runCache (s : State) (e : EventRec) : (s.pushAon e).runCache = s.runCache := State.runCache_of_rest (s.rest_pushAon e)
@[simp] theorem State.pushAon_walkCache (s : State) (e : EventRec) : (s.pushAon e).walkCache = s.walkCache := State.walkCache_of_rest (s.rest_pushAon e)
@[simp] theorem State.pushAon_walks (s : State) (e : EventRec) : (s.pushAon e).walks = s.walks := State.walks_of_rest (s.rest_pushAon e)
@[simp] theorem State.pushAon_walkTurn (s : State) (e : EventRec) : (s.pushAon e).walkTurn = s.walkTurn := State.walkTurn_of_rest (s.rest_pushAon e)
@[simp] theorem State.pushAon_icache (s : State) (e : EventRec) : (s.pushAon e).icache = s.icache := State.icache_of_rest (s.rest_pushAon e)
@[simp] theorem State.pushAon_shoots (s : State) (e : EventRec) : (s.pushAon e).shoots = s.shoots := State.shoots_of_rest (s.rest_pushAon e)
@[simp] theorem State.pushAon_waits (s : State) (e : EventRec) : (s.pushAon e).waits = s.waits := State.waits_of_rest (s.rest_pushAon e)
@[simp] theorem State.pushAon_coh (s : State) (e : EventRec) : (s.pushAon e).coh = s.coh := State.coh_of_rest (s.rest_pushAon e)
@[simp] theorem State.pushAon_fab (s : State) (e : EventRec) : (s.pushAon e).fab = s.fab := State.fab_of_rest (s.rest_pushAon e)
@[simp] theorem State.pushAon_links (s : State) (e : EventRec) : (s.pushAon e).links = s.links := State.links_of_rest (s.rest_pushAon e)
@[simp] theorem State.pushAon_rm (s : State) (e : EventRec) : (s.pushAon e).rm = s.rm := State.rm_of_rest (s.rest_pushAon e)
@[simp] theorem State.pushAon_twin (s : State) (e : EventRec) : (s.pushAon e).twin = s.twin := State.twin_of_rest (s.rest_pushAon e)
@[simp] theorem State.pushAon_sluice (s : State) (e : EventRec) : (s.pushAon e).sluice = s.sluice := State.sluice_of_rest (s.rest_pushAon e)
@[simp] theorem State.pushAon_sec (s : State) (e : EventRec) : (s.pushAon e).sec = s.sec := State.sec_of_rest (s.rest_pushAon e)
@[simp] theorem State.pushAon_flash (s : State) (e : EventRec) : (s.pushAon e).flash = s.flash := State.flash_of_rest (s.rest_pushAon e)
@[simp] theorem State.pushAon_cars (s : State) (e : EventRec) : (s.pushAon e).cars = s.cars := State.cars_of_rest (s.rest_pushAon e)
@[simp] theorem State.pushAon_board (s : State) (e : EventRec) : (s.pushAon e).board = s.board := State.board_of_rest (s.rest_pushAon e)
@[simp] theorem State.pushAon_mgmt (s : State) (e : EventRec) : (s.pushAon e).mgmt = s.mgmt := State.mgmt_of_rest (s.rest_pushAon e)
@[simp] theorem State.pushAon_debugLevel (s : State) (e : EventRec) : (s.pushAon e).debugLevel = s.debugLevel := State.debugLevel_of_rest (s.rest_pushAon e)

/-! ### raise -/

@[simp] theorem State.raise_pending (s : State) (i k x d : Nat) : (s.raise i k x d).pending = s.pending := State.pending_of_rest (s.rest_raise i k x d)
@[simp] theorem State.raise_stamp (s : State) (i k x d : Nat) : (s.raise i k x d).stamp = s.stamp := State.stamp_of_rest (s.rest_raise i k x d)
@[simp] theorem State.raise_freeCount (s : State) (i k x d : Nat) : (s.raise i k x d).freeCount = s.freeCount := State.freeCount_of_rest (s.rest_raise i k x d)
@[simp] theorem State.raise_mem (s : State) (i k x d : Nat) : (s.raise i k x d).mem = s.mem := State.mem_of_rest (s.rest_raise i k x d)
@[simp] theorem State.raise_gateClaim (s : State) (i k x d : Nat) : (s.raise i k x d).gateClaim = s.gateClaim := State.gateClaim_of_rest (s.rest_raise i k x d)
@[simp] theorem State.raise_grans (s : State) (i k x d : Nat) : (s.raise i k x d).grans = s.grans := State.grans_of_rest (s.rest_raise i k x d)
@[simp] theorem State.raise_zeroQ (s : State) (i k x d : Nat) : (s.raise i k x d).zeroQ = s.zeroQ := State.zeroQ_of_rest (s.rest_raise i k x d)
@[simp] theorem State.raise_dram (s : State) (i k x d : Nat) : (s.raise i k x d).dram = s.dram := State.dram_of_rest (s.rest_raise i k x d)
@[simp] theorem State.raise_heap (s : State) (i k x d : Nat) : (s.raise i k x d).heap = s.heap := State.heap_of_rest (s.rest_raise i k x d)
@[simp] theorem State.raise_pans (s : State) (i k x d : Nat) : (s.raise i k x d).pans = s.pans := State.pans_of_rest (s.rest_raise i k x d)
@[simp] theorem State.raise_queues (s : State) (i k x d : Nat) : (s.raise i k x d).queues = s.queues := State.queues_of_rest (s.rest_raise i k x d)
@[simp] theorem State.raise_lists (s : State) (i k x d : Nat) : (s.raise i k x d).lists = s.lists := State.lists_of_rest (s.rest_raise i k x d)
@[simp] theorem State.raise_rakes (s : State) (i k x d : Nat) : (s.raise i k x d).rakes = s.rakes := State.rakes_of_rest (s.rest_raise i k x d)
@[simp] theorem State.raise_stopQ (s : State) (i k x d : Nat) : (s.raise i k x d).stopQ = s.stopQ := State.stopQ_of_rest (s.rest_raise i k x d)
@[simp] theorem State.raise_runCache (s : State) (i k x d : Nat) : (s.raise i k x d).runCache = s.runCache := State.runCache_of_rest (s.rest_raise i k x d)
@[simp] theorem State.raise_walkCache (s : State) (i k x d : Nat) : (s.raise i k x d).walkCache = s.walkCache := State.walkCache_of_rest (s.rest_raise i k x d)
@[simp] theorem State.raise_walks (s : State) (i k x d : Nat) : (s.raise i k x d).walks = s.walks := State.walks_of_rest (s.rest_raise i k x d)
@[simp] theorem State.raise_walkTurn (s : State) (i k x d : Nat) : (s.raise i k x d).walkTurn = s.walkTurn := State.walkTurn_of_rest (s.rest_raise i k x d)
@[simp] theorem State.raise_icache (s : State) (i k x d : Nat) : (s.raise i k x d).icache = s.icache := State.icache_of_rest (s.rest_raise i k x d)
@[simp] theorem State.raise_shoots (s : State) (i k x d : Nat) : (s.raise i k x d).shoots = s.shoots := State.shoots_of_rest (s.rest_raise i k x d)
@[simp] theorem State.raise_waits (s : State) (i k x d : Nat) : (s.raise i k x d).waits = s.waits := State.waits_of_rest (s.rest_raise i k x d)
@[simp] theorem State.raise_coh (s : State) (i k x d : Nat) : (s.raise i k x d).coh = s.coh := State.coh_of_rest (s.rest_raise i k x d)
@[simp] theorem State.raise_fab (s : State) (i k x d : Nat) : (s.raise i k x d).fab = s.fab := State.fab_of_rest (s.rest_raise i k x d)
@[simp] theorem State.raise_links (s : State) (i k x d : Nat) : (s.raise i k x d).links = s.links := State.links_of_rest (s.rest_raise i k x d)
@[simp] theorem State.raise_rm (s : State) (i k x d : Nat) : (s.raise i k x d).rm = s.rm := State.rm_of_rest (s.rest_raise i k x d)
@[simp] theorem State.raise_twin (s : State) (i k x d : Nat) : (s.raise i k x d).twin = s.twin := State.twin_of_rest (s.rest_raise i k x d)
@[simp] theorem State.raise_sluice (s : State) (i k x d : Nat) : (s.raise i k x d).sluice = s.sluice := State.sluice_of_rest (s.rest_raise i k x d)
@[simp] theorem State.raise_sec (s : State) (i k x d : Nat) : (s.raise i k x d).sec = s.sec := State.sec_of_rest (s.rest_raise i k x d)
@[simp] theorem State.raise_flash (s : State) (i k x d : Nat) : (s.raise i k x d).flash = s.flash := State.flash_of_rest (s.rest_raise i k x d)
@[simp] theorem State.raise_cars (s : State) (i k x d : Nat) : (s.raise i k x d).cars = s.cars := State.cars_of_rest (s.rest_raise i k x d)
@[simp] theorem State.raise_board (s : State) (i k x d : Nat) : (s.raise i k x d).board = s.board := State.board_of_rest (s.rest_raise i k x d)
@[simp] theorem State.raise_mgmt (s : State) (i k x d : Nat) : (s.raise i k x d).mgmt = s.mgmt := State.mgmt_of_rest (s.rest_raise i k x d)
@[simp] theorem State.raise_debugLevel (s : State) (i k x d : Nat) : (s.raise i k x d).debugLevel = s.debugLevel := State.debugLevel_of_rest (s.rest_raise i k x d)

/-! ### count -/

@[simp] theorem State.count_pending (s : State) (c : Ctr) (n : Nat) : (s.count c n).pending = s.pending := State.pending_of_rest (s.rest_count c n)
@[simp] theorem State.count_stamp (s : State) (c : Ctr) (n : Nat) : (s.count c n).stamp = s.stamp := State.stamp_of_rest (s.rest_count c n)
@[simp] theorem State.count_freeCount (s : State) (c : Ctr) (n : Nat) : (s.count c n).freeCount = s.freeCount := State.freeCount_of_rest (s.rest_count c n)
@[simp] theorem State.count_mem (s : State) (c : Ctr) (n : Nat) : (s.count c n).mem = s.mem := State.mem_of_rest (s.rest_count c n)
@[simp] theorem State.count_gateClaim (s : State) (c : Ctr) (n : Nat) : (s.count c n).gateClaim = s.gateClaim := State.gateClaim_of_rest (s.rest_count c n)
@[simp] theorem State.count_grans (s : State) (c : Ctr) (n : Nat) : (s.count c n).grans = s.grans := State.grans_of_rest (s.rest_count c n)
@[simp] theorem State.count_zeroQ (s : State) (c : Ctr) (n : Nat) : (s.count c n).zeroQ = s.zeroQ := State.zeroQ_of_rest (s.rest_count c n)
@[simp] theorem State.count_dram (s : State) (c : Ctr) (n : Nat) : (s.count c n).dram = s.dram := State.dram_of_rest (s.rest_count c n)
@[simp] theorem State.count_heap (s : State) (c : Ctr) (n : Nat) : (s.count c n).heap = s.heap := State.heap_of_rest (s.rest_count c n)
@[simp] theorem State.count_pans (s : State) (c : Ctr) (n : Nat) : (s.count c n).pans = s.pans := State.pans_of_rest (s.rest_count c n)
@[simp] theorem State.count_queues (s : State) (c : Ctr) (n : Nat) : (s.count c n).queues = s.queues := State.queues_of_rest (s.rest_count c n)
@[simp] theorem State.count_lists (s : State) (c : Ctr) (n : Nat) : (s.count c n).lists = s.lists := State.lists_of_rest (s.rest_count c n)
@[simp] theorem State.count_rakes (s : State) (c : Ctr) (n : Nat) : (s.count c n).rakes = s.rakes := State.rakes_of_rest (s.rest_count c n)
@[simp] theorem State.count_stopQ (s : State) (c : Ctr) (n : Nat) : (s.count c n).stopQ = s.stopQ := State.stopQ_of_rest (s.rest_count c n)
@[simp] theorem State.count_runCache (s : State) (c : Ctr) (n : Nat) : (s.count c n).runCache = s.runCache := State.runCache_of_rest (s.rest_count c n)
@[simp] theorem State.count_walkCache (s : State) (c : Ctr) (n : Nat) : (s.count c n).walkCache = s.walkCache := State.walkCache_of_rest (s.rest_count c n)
@[simp] theorem State.count_walks (s : State) (c : Ctr) (n : Nat) : (s.count c n).walks = s.walks := State.walks_of_rest (s.rest_count c n)
@[simp] theorem State.count_walkTurn (s : State) (c : Ctr) (n : Nat) : (s.count c n).walkTurn = s.walkTurn := State.walkTurn_of_rest (s.rest_count c n)
@[simp] theorem State.count_icache (s : State) (c : Ctr) (n : Nat) : (s.count c n).icache = s.icache := State.icache_of_rest (s.rest_count c n)
@[simp] theorem State.count_shoots (s : State) (c : Ctr) (n : Nat) : (s.count c n).shoots = s.shoots := State.shoots_of_rest (s.rest_count c n)
@[simp] theorem State.count_waits (s : State) (c : Ctr) (n : Nat) : (s.count c n).waits = s.waits := State.waits_of_rest (s.rest_count c n)
@[simp] theorem State.count_coh (s : State) (c : Ctr) (n : Nat) : (s.count c n).coh = s.coh := State.coh_of_rest (s.rest_count c n)
@[simp] theorem State.count_fab (s : State) (c : Ctr) (n : Nat) : (s.count c n).fab = s.fab := State.fab_of_rest (s.rest_count c n)
@[simp] theorem State.count_links (s : State) (c : Ctr) (n : Nat) : (s.count c n).links = s.links := State.links_of_rest (s.rest_count c n)
@[simp] theorem State.count_rm (s : State) (c : Ctr) (n : Nat) : (s.count c n).rm = s.rm := State.rm_of_rest (s.rest_count c n)
@[simp] theorem State.count_twin (s : State) (c : Ctr) (n : Nat) : (s.count c n).twin = s.twin := State.twin_of_rest (s.rest_count c n)
@[simp] theorem State.count_sluice (s : State) (c : Ctr) (n : Nat) : (s.count c n).sluice = s.sluice := State.sluice_of_rest (s.rest_count c n)
@[simp] theorem State.count_sec (s : State) (c : Ctr) (n : Nat) : (s.count c n).sec = s.sec := State.sec_of_rest (s.rest_count c n)
@[simp] theorem State.count_flash (s : State) (c : Ctr) (n : Nat) : (s.count c n).flash = s.flash := State.flash_of_rest (s.rest_count c n)
@[simp] theorem State.count_cars (s : State) (c : Ctr) (n : Nat) : (s.count c n).cars = s.cars := State.cars_of_rest (s.rest_count c n)
@[simp] theorem State.count_board (s : State) (c : Ctr) (n : Nat) : (s.count c n).board = s.board := State.board_of_rest (s.rest_count c n)
@[simp] theorem State.count_mgmt (s : State) (c : Ctr) (n : Nat) : (s.count c n).mgmt = s.mgmt := State.mgmt_of_rest (s.rest_count c n)
@[simp] theorem State.count_debugLevel (s : State) (c : Ctr) (n : Nat) : (s.count c n).debugLevel = s.debugLevel := State.debugLevel_of_rest (s.rest_count c n)

/-! ### countGateRefusal -/

@[simp] theorem State.countGateRefusal_pending (s : State)  : (s.countGateRefusal ).pending = s.pending := State.pending_of_rest (s.rest_countGateRefusal)
@[simp] theorem State.countGateRefusal_stamp (s : State)  : (s.countGateRefusal ).stamp = s.stamp := State.stamp_of_rest (s.rest_countGateRefusal)
@[simp] theorem State.countGateRefusal_freeCount (s : State)  : (s.countGateRefusal ).freeCount = s.freeCount := State.freeCount_of_rest (s.rest_countGateRefusal)
@[simp] theorem State.countGateRefusal_mem (s : State)  : (s.countGateRefusal ).mem = s.mem := State.mem_of_rest (s.rest_countGateRefusal)
@[simp] theorem State.countGateRefusal_gateClaim (s : State)  : (s.countGateRefusal ).gateClaim = s.gateClaim := State.gateClaim_of_rest (s.rest_countGateRefusal)
@[simp] theorem State.countGateRefusal_grans (s : State)  : (s.countGateRefusal ).grans = s.grans := State.grans_of_rest (s.rest_countGateRefusal)
@[simp] theorem State.countGateRefusal_zeroQ (s : State)  : (s.countGateRefusal ).zeroQ = s.zeroQ := State.zeroQ_of_rest (s.rest_countGateRefusal)
@[simp] theorem State.countGateRefusal_dram (s : State)  : (s.countGateRefusal ).dram = s.dram := State.dram_of_rest (s.rest_countGateRefusal)
@[simp] theorem State.countGateRefusal_heap (s : State)  : (s.countGateRefusal ).heap = s.heap := State.heap_of_rest (s.rest_countGateRefusal)
@[simp] theorem State.countGateRefusal_pans (s : State)  : (s.countGateRefusal ).pans = s.pans := State.pans_of_rest (s.rest_countGateRefusal)
@[simp] theorem State.countGateRefusal_queues (s : State)  : (s.countGateRefusal ).queues = s.queues := State.queues_of_rest (s.rest_countGateRefusal)
@[simp] theorem State.countGateRefusal_lists (s : State)  : (s.countGateRefusal ).lists = s.lists := State.lists_of_rest (s.rest_countGateRefusal)
@[simp] theorem State.countGateRefusal_rakes (s : State)  : (s.countGateRefusal ).rakes = s.rakes := State.rakes_of_rest (s.rest_countGateRefusal)
@[simp] theorem State.countGateRefusal_stopQ (s : State)  : (s.countGateRefusal ).stopQ = s.stopQ := State.stopQ_of_rest (s.rest_countGateRefusal)
@[simp] theorem State.countGateRefusal_runCache (s : State)  : (s.countGateRefusal ).runCache = s.runCache := State.runCache_of_rest (s.rest_countGateRefusal)
@[simp] theorem State.countGateRefusal_walkCache (s : State)  : (s.countGateRefusal ).walkCache = s.walkCache := State.walkCache_of_rest (s.rest_countGateRefusal)
@[simp] theorem State.countGateRefusal_walks (s : State)  : (s.countGateRefusal ).walks = s.walks := State.walks_of_rest (s.rest_countGateRefusal)
@[simp] theorem State.countGateRefusal_walkTurn (s : State)  : (s.countGateRefusal ).walkTurn = s.walkTurn := State.walkTurn_of_rest (s.rest_countGateRefusal)
@[simp] theorem State.countGateRefusal_icache (s : State)  : (s.countGateRefusal ).icache = s.icache := State.icache_of_rest (s.rest_countGateRefusal)
@[simp] theorem State.countGateRefusal_shoots (s : State)  : (s.countGateRefusal ).shoots = s.shoots := State.shoots_of_rest (s.rest_countGateRefusal)
@[simp] theorem State.countGateRefusal_waits (s : State)  : (s.countGateRefusal ).waits = s.waits := State.waits_of_rest (s.rest_countGateRefusal)
@[simp] theorem State.countGateRefusal_coh (s : State)  : (s.countGateRefusal ).coh = s.coh := State.coh_of_rest (s.rest_countGateRefusal)
@[simp] theorem State.countGateRefusal_fab (s : State)  : (s.countGateRefusal ).fab = s.fab := State.fab_of_rest (s.rest_countGateRefusal)
@[simp] theorem State.countGateRefusal_links (s : State)  : (s.countGateRefusal ).links = s.links := State.links_of_rest (s.rest_countGateRefusal)
@[simp] theorem State.countGateRefusal_rm (s : State)  : (s.countGateRefusal ).rm = s.rm := State.rm_of_rest (s.rest_countGateRefusal)
@[simp] theorem State.countGateRefusal_twin (s : State)  : (s.countGateRefusal ).twin = s.twin := State.twin_of_rest (s.rest_countGateRefusal)
@[simp] theorem State.countGateRefusal_sluice (s : State)  : (s.countGateRefusal ).sluice = s.sluice := State.sluice_of_rest (s.rest_countGateRefusal)
@[simp] theorem State.countGateRefusal_sec (s : State)  : (s.countGateRefusal ).sec = s.sec := State.sec_of_rest (s.rest_countGateRefusal)
@[simp] theorem State.countGateRefusal_flash (s : State)  : (s.countGateRefusal ).flash = s.flash := State.flash_of_rest (s.rest_countGateRefusal)
@[simp] theorem State.countGateRefusal_cars (s : State)  : (s.countGateRefusal ).cars = s.cars := State.cars_of_rest (s.rest_countGateRefusal)
@[simp] theorem State.countGateRefusal_board (s : State)  : (s.countGateRefusal ).board = s.board := State.board_of_rest (s.rest_countGateRefusal)
@[simp] theorem State.countGateRefusal_mgmt (s : State)  : (s.countGateRefusal ).mgmt = s.mgmt := State.mgmt_of_rest (s.rest_countGateRefusal)
@[simp] theorem State.countGateRefusal_debugLevel (s : State)  : (s.countGateRefusal ).debugLevel = s.debugLevel := State.debugLevel_of_rest (s.rest_countGateRefusal)

end Sys2Proof.Machine
end

