-- ==== Sys2Proof/Laws/Regs.lean ====
section
/-!
SUPPORT. What a register field reads after an update: the value last written at it, and whatever it read before otherwise.
-/
namespace Sys2Proof.Machine

/-- Two fields that are not the same place of the same register. -/
def Fld.apart (f g : Fld) : Prop := f.off ≠ g.off ∨ f.lo ≠ g.lo

theorem Fld.cell_ne {f g : Fld} (hf : f.lo < 64) (hg : g.lo < 64) (h : f.apart g) (a b : Nat) : f.cell a ≠ g.cell b := by
  unfold Fld.apart at h
  unfold Fld.cell
  split <;> split <;> omega

@[simp] theorem State.rdSet_wrSet_same (s : State) (f : Fld) (t v : Nat) : (s.wrSet t f v).rdSet t f = v % 2 ^ f.w :=
  SMap.get_put_same _ _ _ _

theorem State.rdSet_wrSet_ne (s : State) {f g : Fld} (hf : f.lo < 64) (hg : g.lo < 64) (h : f.apart g) (a b v : Nat) :
    (s.wrSet b g v).rdSet a f = s.rdSet a f := SMap.get_put_ne _ _ (Fld.cell_ne hf hg h a b) _ _

/-- Writing a field other than EPOCHCUR.set leaves the active set. -/
theorem State.activeSet_wrSet (s : State) {g : Fld} (b v : Nat) (hg : g.lo < 64) (h : Csr.EPOCHCUR_set.apart g) :
    (s.wrSet b g v).activeSet = s.activeSet := s.rdSet_wrSet_ne (by decide) hg h 0 b v

theorem State.activeSet_wr (s : State) {g : Fld} (v : Nat) (hg : g.lo < 64) (h : Csr.EPOCHCUR_set.apart g) :
    (s.wr g v).activeSet = s.activeSet := s.activeSet_wrSet _ v hg h

/-- A field reads what was last written at it, truncated to its width. -/
theorem State.rd_wr_same (s : State) {f : Fld} (v : Nat) (hf : f.lo < 64) (h : Csr.EPOCHCUR_set.apart f) :
    (s.wr f v).rd f = v % 2 ^ f.w := by
  unfold State.rd
  rw [s.activeSet_wr v hf h]
  exact s.rdSet_wrSet_same f _ v

/-- Writing one field leaves every other as it was. -/
theorem State.rd_wr_ne (s : State) {f g : Fld} (v : Nat) (hf : f.lo < 64) (hg : g.lo < 64) (h : f.apart g)
    (hs : Csr.EPOCHCUR_set.apart g) : (s.wr g v).rd f = s.rd f := by
  unfold State.rd
  rw [s.activeSet_wr v hg hs]
  exact s.rdSet_wrSet_ne hf hg h _ _ v

/-- Writing a field in one register set leaves every other field as it was. -/
theorem State.rd_wrSet_ne (s : State) {f g : Fld} (b v : Nat) (hf : f.lo < 64) (hg : g.lo < 64) (h : f.apart g)
    (hs : Csr.EPOCHCUR_set.apart g) : (s.wrSet b g v).rd f = s.rd f := by
  unfold State.rd
  rw [s.activeSet_wrSet b v hg hs]
  exact s.rdSet_wrSet_ne hf hg h _ _ v

/-- A register field that raising an event does not write: not of EVPOS or AONLOGPOS. -/
def Fld.calm (f : Fld) : Prop := f.lo < 64 ∧ f.off ≠ 0x3100018 ∧ f.off ≠ 0x100068

theorem Fld.calm.apart_evpos {f : Fld} (h : f.calm) : f.apart Csr.EVPOS_producer := Or.inl h.2.1
theorem Fld.calm.apart_aonpos {f : Fld} (h : f.calm) : f.apart Csr.AONLOGPOS_producer := Or.inl h.2.2
theorem Fld.calm.apart_aonreserve {f : Fld} (h : f.calm) : f.apart Csr.AONLOGPOS_reserve := Or.inl h.2.2

/-! ### Fields after updates of other parts of the state -/

@[simp] theorem State.rd_with_pending (s : State) (x : List Instr) (f : Fld) : State.rd { s with pending := x } f = s.rd f := rfl
@[simp] theorem State.rd_with_stamp (s : State) (x : Nat) (f : Fld) : State.rd { s with stamp := x } f = s.rd f := rfl
@[simp] theorem State.rd_with_freeCount (s : State) (x : Nat) (f : Fld) : State.rd { s with freeCount := x } f = s.rd f := rfl
@[simp] theorem State.rd_with_mem (s : State) (x : List Host.Cell) (f : Fld) : State.rd { s with mem := x } f = s.rd f := rfl
@[simp] theorem State.rd_with_gateClaim (s : State) (x : SMap Nat) (f : Fld) : State.rd { s with gateClaim := x } f = s.rd f := rfl
@[simp] theorem State.rd_with_log (s : State) (x : EventLog) (f : Fld) : State.rd { s with log := x } f = s.rd f := rfl
@[simp] theorem State.rd_with_grans (s : State) (x : SMap Granule) (f : Fld) : State.rd { s with grans := x } f = s.rd f := rfl
@[simp] theorem State.rd_with_zeroQ (s : State) (x : List Nat) (f : Fld) : State.rd { s with zeroQ := x } f = s.rd f := rfl
@[simp] theorem State.rd_with_dram (s : State) (x : Dram) (f : Fld) : State.rd { s with dram := x } f = s.rd f := rfl
@[simp] theorem State.rd_with_heap (s : State) (x : Heap) (f : Fld) : State.rd { s with heap := x } f = s.rd f := rfl
@[simp] theorem State.rd_with_pans (s : State) (x : SMap Pan) (f : Fld) : State.rd { s with pans := x } f = s.rd f := rfl
@[simp] theorem State.rd_with_queues (s : State) (x : SMap Queue) (f : Fld) : State.rd { s with queues := x } f = s.rd f := rfl
@[simp] theorem State.rd_with_lists (s : State) (x : SMap (List Nat)) (f : Fld) : State.rd { s with lists := x } f = s.rd f := rfl
@[simp] theorem State.rd_with_rakes (s : State) (x : SMap Rake) (f : Fld) : State.rd { s with rakes := x } f = s.rd f := rfl
@[simp] theorem State.rd_with_stopQ (s : State) (x : SMap Nat) (f : Fld) : State.rd { s with stopQ := x } f = s.rd f := rfl
@[simp] theorem State.rd_with_runCache (s : State) (x : List RunEnt) (f : Fld) : State.rd { s with runCache := x } f = s.rd f := rfl
@[simp] theorem State.rd_with_walkCache (s : State) (x : List WalkEnt) (f : Fld) : State.rd { s with walkCache := x } f = s.rd f := rfl
@[simp] theorem State.rd_with_walks (s : State) (x : List Walk) (f : Fld) : State.rd { s with walks := x } f = s.rd f := rfl
@[simp] theorem State.rd_with_shoots (s : State) (x : List Shoot) (f : Fld) : State.rd { s with shoots := x } f = s.rd f := rfl
@[simp] theorem State.rd_with_waits (s : State) (x : List Wait) (f : Fld) : State.rd { s with waits := x } f = s.rd f := rfl
@[simp] theorem State.rd_with_coh (s : State) (x : Coh) (f : Fld) : State.rd { s with coh := x } f = s.rd f := rfl
@[simp] theorem State.rd_with_fab (s : State) (x : Fab) (f : Fld) : State.rd { s with fab := x } f = s.rd f := rfl
@[simp] theorem State.rd_with_links (s : State) (x : SMap Link) (f : Fld) : State.rd { s with links := x } f = s.rd f := rfl
@[simp] theorem State.rd_with_rm (s : State) (x : Ringmaster) (f : Fld) : State.rd { s with rm := x } f = s.rd f := rfl
@[simp] theorem State.rd_with_twin (s : State) (x : Twin) (f : Fld) : State.rd { s with twin := x } f = s.rd f := rfl
@[simp] theorem State.rd_with_sluice (s : State) (x : SMap Bucket) (f : Fld) : State.rd { s with sluice := x } f = s.rd f := rfl
@[simp] theorem State.rd_with_sec (s : State) (x : Sec) (f : Fld) : State.rd { s with sec := x } f = s.rd f := rfl
@[simp] theorem State.rd_with_flash (s : State) (x : Flash) (f : Fld) : State.rd { s with flash := x } f = s.rd f := rfl
@[simp] theorem State.rd_with_cars (s : State) (x : SMap (List Nat)) (f : Fld) : State.rd { s with cars := x } f = s.rd f := rfl
@[simp] theorem State.rd_with_board (s : State) (x : Board) (f : Fld) : State.rd { s with board := x } f = s.rd f := rfl
@[simp] theorem State.rd_with_mgmt (s : State) (x : Mgmt) (f : Fld) : State.rd { s with mgmt := x } f = s.rd f := rfl
@[simp] theorem State.rd_with_debugLevel (s : State) (x : Nat) (f : Fld) : State.rd { s with debugLevel := x } f = s.rd f := rfl

@[simp] theorem State.rd_setByte (s : State) (a v : Nat) (f : Fld) : (s.setByte a v).rd f = s.rd f := rfl
@[simp] theorem State.rd_setQueue (s : State) (q : Nat) (g : Queue → Queue) (f : Fld) : (s.setQueue q g).rd f = s.rd f := rfl
@[simp] theorem State.rd_setEnt (s : State) (q pos : Nat) (g : Entry → Entry) (f : Fld) : (s.setEnt q pos g).rd f = s.rd f := rfl
@[simp] theorem State.rd_setPan (s : State) (n : Nat) (g : Pan → Pan) (f : Fld) : (s.setPan n g).rd f = s.rd f := rfl
@[simp] theorem State.rd_setRake (s : State) (r : Nat) (g : Rake → Rake) (f : Fld) : (s.setRake r g).rd f = s.rd f := rfl
@[simp] theorem State.rd_setLnk (s : State) (p : Nat) (g : Link → Link) (f : Fld) : (s.setLnk p g).rd f = s.rd f := rfl
@[simp] theorem State.rd_setWait (s : State) (i : Nat) (g : Wait → Wait) (f : Fld) : (s.setWait i g).rd f = s.rd f := rfl
@[simp] theorem State.rd_setActList (s : State) (k : Nat) (l : List Nat) (f : Fld) : (s.setActList k l).rd f = s.rd f := rfl

/-! ### Fields after events and counts -/

/-- A field other than EPOCHCUR.set that keeps both its cells reads as before when EPOCHCUR.set keeps its cell. -/
theorem State.rd_of_rdSet {s t : State} {f : Fld} (h : ∀ a, t.rdSet a f = s.rdSet a f)
    (e : t.rdSet 0 Csr.EPOCHCUR_set = s.rdSet 0 Csr.EPOCHCUR_set) : t.rd f = s.rd f := by
  unfold State.rd State.activeSet
  rw [e, h]

theorem Csr.calm_set : Csr.EPOCHCUR_set.calm := by unfold Fld.calm; decide

theorem State.rdSet_wr_ne (s : State) {f g : Fld} (v a : Nat) (hf : f.lo < 64) (hg : g.lo < 64) (h : f.apart g) :
    (s.wr g v).rdSet a f = s.rdSet a f := s.rdSet_wrSet_ne hf hg h a _ v

theorem State.rdSet_stageDrain (s : State) (a : Nat) {f : Fld} (h : f.calm) : s.stageDrain.rdSet a f = s.rdSet a f := by
  unfold State.stageDrain
  split
  · rfl
  · split
    · exact (State.rdSet_wr_ne _ _ _ h.1 (by decide) h.apart_evpos).trans rfl
    · rfl

theorem State.rdSet_pushUp (s : State) (e : EventRec) (a : Nat) (f : Fld) : (s.pushUp e).rdSet a f = s.rdSet a f := by
  unfold State.pushUp
  split <;> rfl

theorem State.rdSet_pushRing (s : State) (e : EventRec) (a : Nat) {f : Fld} (h : f.calm) : (s.pushRing e).rdSet a f = s.rdSet a f := by
  have g : ∀ t : State, t.rdSet a f = s.rdSet a f →
      State.rdSet (if t.log.staging.length < 2048 then { t with log := { t.log with staging := t.log.staging ++ [e] } }
        else { t with log := { t.log with drops := SMap.upd DropCount.zero (e.id / 256) (DropCount.bump t.stamp) t.log.drops } }) a f
        = s.rdSet a f := by
    intro t ht
    split <;> exact ht
  unfold State.pushRing
  apply g
  split
  · rfl
  · exact s.rdSet_stageDrain a h

theorem State.rdSet_aonWrite (s : State) (e : EventRec) (a : Nat) {f : Fld} (h : f.calm) : (s.aonWrite e).rdSet a f = s.rdSet a f :=
  (State.rdSet_wr_ne _ _ _ h.1 (by decide) h.apart_aonpos).trans rfl

theorem State.rdSet_pushAon (s : State) (e : EventRec) (a : Nat) {f : Fld} (hf : f.calm) : (s.pushAon e).rdSet a f = s.rdSet a f := by
  have h : ∀ t : State, t.rdSet a f = s.rdSet a f →
      State.rdSet (if t.aonAdmits (e.id / 256) then t.aonWrite e
        else { t with log := { t.log with aonDrops := SMap.upd DropCount.zero (e.id / 256) (DropCount.bump t.stamp) t.log.aonDrops } }) a f
        = s.rdSet a f := by
    intro t ht
    split
    · exact (t.rdSet_aonWrite e a hf).trans ht
    · exact ht
  unfold State.pushAon
  have g : ∀ (t : State) (r : EventRec) (c : Bool), t.rdSet a f = s.rdSet a f →
      State.rdSet (if c then (let u := t.pushRing r; if u.aonAdmits 0xD then u.aonWrite r else u) else t) a f = s.rdSet a f := by
    intro t r c ht
    cases c
    · exact ht
    · have hu : (t.pushRing r).rdSet a f = s.rdSet a f := (t.rdSet_pushRing r a hf).trans ht
      show State.rdSet (if (t.pushRing r).aonAdmits 0xD then (t.pushRing r).aonWrite r else t.pushRing r) a f = s.rdSet a f
      split
      · exact ((t.pushRing r).rdSet_aonWrite r a hf).trans hu
      · exact hu
  exact h _ (g _ _ _ (State.rdSet_wr_ne _ _ _ hf.1 (by decide) hf.apart_aonreserve))

/-- Raising an event changes no field but those of EVPOS and AONLOGPOS. -/
theorem State.rdSet_raise (s : State) (i k x d a : Nat) {f : Fld} (h : f.calm) : (s.raise i k x d).rdSet a f = s.rdSet a f := by
  unfold State.raise
  split
  · exact (State.rdSet_pushAon _ _ _ h).trans (((s.pushUp _).rdSet_pushRing _ _ h).trans (s.rdSet_pushUp _ _ _))
  · exact ((s.pushUp _).rdSet_pushRing _ _ h).trans (s.rdSet_pushUp _ _ _)

theorem State.rd_raise (s : State) (i k x d : Nat) {f : Fld} (h : f.calm) : (s.raise i k x d).rd f = s.rd f :=
  State.rd_of_rdSet (fun a => s.rdSet_raise i k x d a h) (s.rdSet_raise i k x d 0 Csr.calm_set)

theorem State.activeSet_raise (s : State) (i k x d : Nat) : (s.raise i k x d).activeSet = s.activeSet := s.rdSet_raise i k x d 0 Csr.calm_set

/-- Counting changes no field but the counter's, its overflow bit's and those of EVPOS and AONLOGPOS. -/
theorem State.rdSet_count (s : State) (c : Ctr) (n a : Nat) {f : Fld} (h : f.calm) (h1 : f.apart c.cnt) (h2 : f.apart c.ovf)
    (g1 : c.cnt.lo < 64) (g2 : c.ovf.lo < 64) : (s.count c n).rdSet a f = s.rdSet a f := by
  simp only [State.count]
  have a1 : ∀ (t : State) (v : Nat), (t.wr c.cnt v).rdSet a f = t.rdSet a f := fun t v => t.rdSet_wr_ne v a h.1 g1 h1
  have a2 : ∀ (t : State) (b : Nat), (t.setFld c.ovf b).rdSet a f = t.rdSet a f := fun t b => t.rdSet_wr_ne _ a h.1 g2 h2
  split
  · rfl
  split
  · split
    · rfl
    · exact a2 _ _
  split
  · rfl
  split
  · exact a1 _ _
  · rw [State.rdSet_raise _ _ _ _ _ _ h, a2, a1]

theorem State.rd_count (s : State) (c : Ctr) (n : Nat) {f : Fld} (h : f.calm) (h1 : f.apart c.cnt) (h2 : f.apart c.ovf)
    (g1 : c.cnt.lo < 64) (g2 : c.ovf.lo < 64) (e1 : Csr.EPOCHCUR_set.apart c.cnt) (e2 : Csr.EPOCHCUR_set.apart c.ovf) :
    (s.count c n).rd f = s.rd f :=
  State.rd_of_rdSet (fun a => s.rdSet_count c n a h h1 h2 g1 g2) (s.rdSet_count c n 0 Csr.calm_set e1 e2 g1 g2)

/-- A counter that is below its maximum, whose overflow bit is clear and to which `n` is added without reaching the maximum. -/
theorem State.count_below (s : State) (c : Ctr) (n : Nat) (hn : n ≠ 0) (ho : s.bit c.ovf c.bit = false) (hv : s.rd c.cnt + n < cntMax) :
    s.count c n = s.wr c.cnt (s.rd c.cnt + n) := by
  have h1 : s.rd c.cnt ≠ cntMax := by omega
  simp [State.count, hn, h1, ho, hv]

@[simp] theorem State.count_zero (s : State) (c : Ctr) : s.count c 0 = s := by simp [State.count]

end Sys2Proof.Machine
end

