-- ==== Sys2Proof/Laws/Waits.lean ====
section
/-!
SUPPORT. Where nothing waits, a command lets nothing go on.
-/
namespace Sys2Proof.Machine
open Sys2Proof Host

theorem State.reqsFail_none (s : State) (h : s.fab.failed = []) : s.reqsFail = s := by
  have e : ({ s.fab with failed := [] } : Fab) = s.fab := by rw [← h]
  unfold State.reqsFail
  rw [h, e]
  rfl

theorem State.lateGo_none (s : State) (h : s.coh.late = []) : s.lateGo = s := by
  have e : ({ s.coh with late := [] } : Coh) = s.coh := by rw [← h]
  unfold State.lateGo
  rw [h, e]
  rfl

theorem State.heldGo_none (s : State) (h : s.coh.held = []) : s.heldGo = s := by
  have e : ({ s.coh with held := [] } : Coh) = s.coh := by rw [← h]
  unfold State.heldGo
  rw [h, e]
  rfl

/-- In a quiet state nothing that waits goes on. -/
theorem State.runWaits_quiet (s : State) (h : s.quiet = true) : s.runWaits = s := by
  simp only [State.quiet, Bool.and_eq_true, List.isEmpty_iff, List.all_eq_true] at h
  obtain ⟨⟨⟨⟨hw, hl⟩, hd⟩, hf⟩, hr⟩ := h
  have hk : ∀ l : List (Nat × Rake), (∀ kv ∈ l, kv ∈ s.rakes) → (l.map (·.1)).foldl State.rakeGoOn s = s := by
    intro l
    induction l with
    | nil => intro _; rfl
    | cons a t ih =>
      intro hm
      have h1 : s.rakeGoOn a.1 = s := by
        have := hr a (hm a (by simp))
        unfold State.rakeGoOn
        cases hx : (s.rake a.1).wait <;> simp_all
      rw [List.map_cons, List.foldl_cons, h1]
      exact ih (fun kv hkv => hm kv (by simp [hkv]))
  unfold State.runWaits
  rw [s.reqsFail_none hf]
  simp only [s.heldGo_none hd]
  simp only [hw, List.foldl_nil]
  rw [hk s.rakes (fun _ h => h), s.lateGo_none hl]

/-- Whether a state is quiet depends on what waits only. -/
theorem State.quiet_of_eq {s t : State} (h : s.quiet = true) (hw : t.waits = s.waits) (hl : t.coh.late = s.coh.late)
    (hd : t.coh.held = s.coh.held)
    (hf : t.fab.failed = s.fab.failed) (hr : t.rakes = s.rakes) : t.quiet = true := by
  unfold State.quiet State.rake at *
  rw [hw, hl, hd, hf, hr]; exact h

end Sys2Proof.Machine
end

