-- ==== Sys2Proof/Laws/Rake.lean ====
section
/-!
SUPPORT. What one instruction of a rake comes to: what is fetched and issued, and what completing does to the machine.
-/
namespace Sys2Proof.Machine
open Sys2Proof Host

/-! ### Queues, entries and rakes after an update -/

@[simp] theorem State.queue_setQueue_same (s : State) (q : Nat) (g : Queue → Queue) : (s.setQueue q g).queue q = g (s.queue q) :=
  SMap.get_upd_same _ _ _ _

theorem State.queue_setQueue_ne (s : State) {q p : Nat} (h : p ≠ q) (g : Queue → Queue) : (s.setQueue q g).queue p = s.queue p :=
  SMap.get_upd_ne _ h _ _

@[simp] theorem State.rake_setRake_same (s : State) (r : Nat) (g : Rake → Rake) : (s.setRake r g).rake r = g (s.rake r) :=
  SMap.get_upd_same _ _ _ _

theorem State.rake_setRake_ne (s : State) {r k : Nat} (h : k ≠ r) (g : Rake → Rake) : (s.setRake r g).rake k = s.rake k :=
  SMap.get_upd_ne _ h _ _

/-- An update of one entry that keeps its position changes that entry only. -/
theorem Queue.ent_map (q : Queue) (pos p : Nat) (g : Entry → Entry) (hg : ∀ e, (g e).pos = e.pos) :
    (q.ents.map (fun e => if e.pos = pos then g e else e)).find? (fun e => e.pos == p)
      = (q.ent p).map (fun e => if e.pos = pos then g e else e) := by
  unfold Queue.ent
  induction q.ents with
  | nil => rfl
  | cons e t ih =>
    have h : (if e.pos = pos then g e else e).pos = e.pos := by split <;> simp [hg]
    rw [List.map_cons, List.find?_cons, List.find?_cons, h]
    cases e.pos == p
    · exact ih
    · rfl

theorem State.ent_setEnt (s : State) (qid pos q p : Nat) (g : Entry → Entry) (hg : ∀ e, (g e).pos = e.pos) :
    ((s.setEnt qid pos g).queue q).ent p
      = ((s.queue q).ent p).map (fun e => if q = qid ∧ e.pos = pos then g e else e) := by
  by_cases h : q = qid
  · subst h
    unfold State.setEnt
    rw [State.queue_setQueue_same]
    exact (Queue.ent_map (s.queue q) pos p g hg).trans (by simp)
  · unfold State.setEnt
    rw [State.queue_setQueue_ne _ h]
    simp [h]

theorem Queue.ent_pos {q : Queue} {p : Nat} {e : Entry} (h : q.ent p = some e) : e.pos = p := by
  have := List.find?_some h
  simpa using this

/-! ### What a body keeps, and what completing then does -/

/-- What the body of an instruction that touches no queue, rake or pan keeps of the state it began in. -/
structure State.Keeps (s t : State) (k : Nat) : Prop where
  regs : ∀ g : Fld, g.afar k → ∀ a, t.rdSet a g = s.rdSet a g
  pending : t.pending = s.pending
  stamp : t.stamp = s.stamp
  claims : t.gateClaim = s.gateClaim
  grans : t.grans = s.grans
  pans : t.pans = s.pans
  queues : t.queues = s.queues
  lists : t.lists = s.lists
  rakes : t.rakes = s.rakes
  late : t.coh.late = s.coh.late
  heap : t.heap = s.heap
  links : t.links = s.links
  rm : t.rm = s.rm
  twin : t.twin = s.twin
  sluice : t.sluice = s.sluice
  sec : t.sec = s.sec
  flash : t.flash = s.flash
  cars : t.cars = s.cars
  board : t.board = s.board
  mgmt : t.mgmt = s.mgmt
  level : t.debugLevel = s.debugLevel

theorem State.Keeps.refl (s : State) (k : Nat) : s.Keeps s k := by
  constructor <;> intros <;> rfl

theorem State.Keeps.trans {s t u : State} {k : Nat} (h : s.Keeps t k) (g : t.Keeps u k) : s.Keeps u k where
  regs x hx a := (g.regs x hx a).trans (h.regs x hx a)
  pending := g.pending.trans h.pending
  stamp := g.stamp.trans h.stamp
  claims := g.claims.trans h.claims
  grans := g.grans.trans h.grans
  pans := g.pans.trans h.pans
  queues := g.queues.trans h.queues
  lists := g.lists.trans h.lists
  rakes := g.rakes.trans h.rakes
  late := g.late.trans h.late
  heap := g.heap.trans h.heap
  links := g.links.trans h.links
  rm := g.rm.trans h.rm
  twin := g.twin.trans h.twin
  sluice := g.sluice.trans h.sluice
  sec := g.sec.trans h.sec
  flash := g.flash.trans h.flash
  cars := g.cars.trans h.cars
  board := g.board.trans h.board
  mgmt := g.mgmt.trans h.mgmt
  level := g.level.trans h.level

/-- An update of logs and registers keeps everything if it leaves the registers that lie afar. -/
theorem State.Keeps.of_rest {s t : State} {k : Nat} (h : t.rest = s.rest) (g : ∀ x : Fld, x.afar k → ∀ a, t.rdSet a x = s.rdSet a x) : s.Keeps t k where
  regs := g
  pending := State.pending_of_rest h
  stamp := State.stamp_of_rest h
  claims := State.gateClaim_of_rest h
  grans := State.grans_of_rest h
  pans := State.pans_of_rest h
  queues := State.queues_of_rest h
  lists := State.lists_of_rest h
  rakes := State.rakes_of_rest h
  late := congrArg Coh.late (State.coh_of_rest h)
  heap := State.heap_of_rest h
  links := State.links_of_rest h
  rm := State.rm_of_rest h
  twin := State.twin_of_rest h
  sluice := State.sluice_of_rest h
  sec := State.sec_of_rest h
  flash := State.flash_of_rest h
  cars := State.cars_of_rest h
  board := State.board_of_rest h
  mgmt := State.mgmt_of_rest h
  level := State.debugLevel_of_rest h

/-- A field that lies afar is not written by raising events. -/
theorem Fld.afar.calm {k : Nat} {g : Fld} (h : g.afar k) : g.calm := ⟨h.1, h.2.1, h.2.2.1⟩

/-- Counting in the stall's own block or in those of the DRAM tiers keeps everything afar. -/
theorem State.Keeps.count (s : State) (k : Nat) (c : Ctr) (n : Nat) (h1 : c.cnt.lo < 64) (h2 : c.ovf.lo < 64)
    (o1 : (0x1000000 + 0x100000 * k ≤ c.cnt.off ∧ c.cnt.off < 0x1100000 + 0x100000 * k) ∨ (0x2800000 ≤ c.cnt.off ∧ c.cnt.off < 0x2C00000))
    (o2 : (0x1000000 + 0x100000 * k ≤ c.ovf.off ∧ c.ovf.off < 0x1100000 + 0x100000 * k) ∨ (0x2800000 ≤ c.ovf.off ∧ c.ovf.off < 0x2C00000)) :
    s.Keeps (s.count c n) k := by
  refine State.Keeps.of_rest (s.rest_count c n) fun x hx a => ?_
  have e (f : Fld) (h : (0x1000000 + 0x100000 * k ≤ f.off ∧ f.off < 0x1100000 + 0x100000 * k) ∨ (0x2800000 ≤ f.off ∧ f.off < 0x2C00000)) :
      x.apart f := by
    left; unfold Fld.afar at hx; omega
  exact s.rdSet_count c n a hx.calm (e _ o1) (e _ o2) h1 h2

theorem State.Keeps.wr (s : State) (k : Nat) (f : Fld) (v : Nat) (h : f.lo < 64)
    (o : (0x1000000 + 0x100000 * k ≤ f.off ∧ f.off < 0x1100000 + 0x100000 * k) ∨ (0x2800000 ≤ f.off ∧ f.off < 0x2C00000)) :
    s.Keeps (s.wr f v) k := by
  refine State.Keeps.of_rest rfl fun x hx a => ?_
  refine s.rdSet_wr_ne v a hx.1 h (Or.inl ?_)
  unfold Fld.afar at hx; omega

/-- EPOCHCUR lies afar, so the active set and the set of the current epoch are kept. -/
theorem Csr.afar_set (k : Nat) (h : k < 16) : Csr.EPOCHCUR_set.afar k := by
  unfold Fld.afar; refine ⟨by decide, by decide, by decide, ?_, by decide, Or.inl rfl⟩; unfold Csr.EPOCHCUR_set; simp only; omega

theorem Csr.afar_counter (k : Nat) (h : k < 16) : Csr.EPOCHCUR_counter.afar k := by
  unfold Fld.afar; refine ⟨by decide, by decide, by decide, ?_, by decide, by decide⟩; unfold Csr.EPOCHCUR_counter; simp only; omega

theorem State.Keeps.rd {s t : State} {k : Nat} (h : s.Keeps t k) (hk : k < 16) (g : Fld) (hg : g.afar k) : t.rd g = s.rd g :=
  State.rd_of_rdSet (h.regs g hg) (h.regs _ (Csr.afar_set k hk) 0)

theorem State.Keeps.activeSet {s t : State} {k : Nat} (h : s.Keeps t k) (hk : k < 16) : t.activeSet = s.activeSet :=
  h.regs _ (Csr.afar_set k hk) 0

theorem State.Keeps.liveSet {s t : State} {k : Nat} (h : s.Keeps t k) (hk : k < 16) : t.liveSet = s.liveSet := by
  unfold State.liveSet
  rw [h.rd hk _ (Csr.afar_counter k hk)]

theorem State.liveSet_viewSet (s : State) (t : Nat) : (s.viewSet t).liveSet = s.liveSet := by
  unfold State.liveSet State.rd State.viewSet
  rw [State.rdSet_wr_ne _ _ _ (by decide) (by decide) (by unfold Fld.apart; decide)]
  rfl

theorem State.liveSet_lt (s : State) : s.liveSet < 2 := by unfold State.liveSet; omega

theorem State.activeSet_viewSet (s : State) (t : Nat) : (s.viewSet t).activeSet = t % 2 := by
  have h : (s.viewSet t).activeSet = t % 2 ^ 1 := SMap.get_put_same _ _ _ _
  simpa using h

/-- What a body does with the configuration set of its entry in view, seen with the set of the current epoch in view again (R407). -/
theorem State.Keeps.viewed {s t : State} {k e : Nat} (hk : k < 16) (hs : s.activeSet = s.liveSet) (h : (s.viewSet e).Keeps t k) :
    s.Keeps (t.viewSet t.liveSet) k := by
  have hl : t.liveSet = s.liveSet := (h.liveSet hk).trans (s.liveSet_viewSet e)
  refine ⟨fun g hg a => ?_, h.pending, h.stamp, h.claims, h.grans, h.pans, h.queues, h.lists, h.rakes, h.late, h.heap, h.links, h.rm, h.twin,
    h.sluice, h.sec, h.flash, h.cars, h.board, h.mgmt, h.level⟩
  rcases hg.2.2.2.2.2 with rfl | ha
  · have h1 : (t.viewSet t.liveSet).rdSet a Csr.EPOCHCUR_set = t.liveSet % 2 ^ 1 := SMap.get_put_same _ _ _ _
    have h2 : s.rdSet a Csr.EPOCHCUR_set = s.liveSet := hs
    rw [h1, h2, hl]
    exact Nat.mod_eq_of_lt s.liveSet_lt
  · have h1 : (t.viewSet t.liveSet).rdSet a g = t.rdSet a g := t.rdSet_wr_ne _ a hg.1 (by decide) ha
    have h2 : (s.viewSet e).rdSet a g = s.rdSet a g := s.rdSet_wr_ne _ a hg.1 (by decide) ha
    rw [h1, h.regs g hg a, h2]

theorem State.jClose_closed (s : State) (r : Nat) (b : Bool) (st : Nat) (h : s.rm.opened = []) : s.jClose r b st = s := by
  unfold State.jClose
  rw [h]
  rfl

/-- Rake `r` waits for nothing, and no drain waits for its instruction. -/
def State.settledRake (s : State) (r : Nat) : State :=
  { s.setRake r (fun k => { k with wait := .none, instr := none }) with
    waits := s.waits.filter (fun (w : Wait) => w.who != WaitWho.rake r)
    shoots := s.shoots.map (fun (x : Shoot) => { x with before := x.before.filter (fun b => b != r) }) }

theorem State.rake_settledRake_same (s : State) (r : Nat) : (s.settledRake r).rake r = { s.rake r with wait := .none, instr := none } :=
  s.rake_setRake_same r (fun k => { k with wait := .none, instr := none })

theorem State.rake_settledRake_ne (s : State) {r k : Nat} (h : k ≠ r) : (s.settledRake r).rake k = s.rake k :=
  s.rake_setRake_ne h (fun k => { k with wait := .none, instr := none })

/-- An instruction that has borrowed no rake frees its own only. -/
theorem State.settleRake_alone (s : State) (r : Nat) (h : s.helpersOf r = []) : s.settleRake r = s.settledRake r := by
  unfold State.settleRake State.freeHelpers
  rw [h]
  rfl

/-- A rake that its instruction leaves, with entry `p` of its queue changed and its pc written, disturbs nothing else. -/
theorem Undisturbed.of_keeps {s t : State} {f : Fetch} {g : Entry → Entry} (pc : Nat) (hg : ∀ x, (g x).pos = x.pos) (hk : s.Keeps t (f.rake / 16)) :
    Undisturbed s (((t.settledRake f.rake).setEnt (s.qidOf f.rake) (s.rake f.rake).pos g).wr (Csr.RAKESTAT_pc (f.rake / 16) (f.rake % 16)) pc) f := by
  have hfr : (f.rake : Nat) / 16 < 16 := by have := f.rake.isLt; omega
  have hwr : (t.settledRake f.rake).Keeps
      ((t.settledRake f.rake).wr (Csr.RAKESTAT_pc (f.rake / 16) (f.rake % 16)) pc) (f.rake / 16) := by
    apply State.Keeps.wr
    · simp [Csr.RAKESTAT_pc]
    · left; simp [Csr.RAKESTAT_pc]; omega
  refine ⟨?_,
    by simpa [State.settledRake] using hk.pending,
    by simpa [State.settledRake] using hk.stamp,
    by simpa [State.settledRake] using hk.claims,
    by simpa [State.settledRake] using hk.grans,
    by simpa [State.settledRake] using hk.pans,
    by simpa [State.settledRake] using hk.lists, ?_, ?_,
    by simpa [State.settledRake] using hk.heap,
    by simpa [State.settledRake] using hk.links,
    by simpa [State.settledRake] using hk.rm,
    by simpa [State.settledRake] using hk.twin,
    by simpa [State.settledRake] using hk.sluice,
    by simpa [State.settledRake] using hk.sec,
    by simpa [State.settledRake] using hk.flash,
    by simpa [State.settledRake] using hk.cars,
    by simpa [State.settledRake] using hk.board,
    by simpa [State.settledRake] using hk.mgmt,
    by simpa [State.settledRake] using hk.level⟩
  · intro x hx
    exact (hwr.rd hfr x hx).trans (hk.rd hfr x hx)
  · intro r hr
    show State.rake (t.settledRake f.rake) r = s.rake r
    rw [State.rake_settledRake_ne _ hr]
    unfold State.rake; rw [hk.rakes]
  · intro q p hqp
    have hent : (((t.settledRake f.rake).setEnt (s.qidOf f.rake) (s.rake f.rake).pos g).queue q).ent p
        = ((t.queue q).ent p).map (fun x => if q = s.qidOf f.rake ∧ x.pos = (s.rake f.rake).pos then g x else x) :=
      State.ent_setEnt _ _ _ _ _ _ hg
    have hqq : t.queue q = s.queue q := by unfold State.queue; rw [hk.queues]
    refine hent.trans ?_
    rw [hqq]
    cases hx : (s.queue q).ent p with
    | none => rfl
    | some x =>
      have hp : x.pos = p := Queue.ent_pos hx
      have : ¬ (q = s.qidOf f.rake ∧ x.pos = (s.rake f.rake).pos) := by
        rw [hp]; tauto
      simp [this]

/-- An instruction whose body completed in state `t` lets the program go on at `pc`. -/
theorem GoesOn.of_complete {i : Instr} {f : Fetch} {s t m : State} {e : Entry} {v : Env} {st pc : Nat} {c : Ctx} {opc : Nat}
    (h : Issues s opc f e) (hi : exec i s = .next (t.complete1 v st pc c).lateGo) (vr : v.r = f.rake) (vq : v.qid = s.qidOf f.rake)
    (ve : v.e = e) (hpc : pc < e.codeWords) (hk : s.Keeps t (f.rake / 16)) (hm : t.mem = m.mem) : GoesOn i f s e st pc c m := by
  have hal : t.helpersOf f.rake = [] := by
    unfold State.helpersOf
    rw [hk.rakes, List.map_eq_nil_iff, List.filter_eq_nil_iff]
    intro kv hkv
    simpa using h.alone kv hkv
  have hsettle := t.settleRake_alone f.rake hal
  have hfr : (f.rake : Nat) / 16 < 16 := by have := f.rake.isLt; omega
  have he : e.pos = (s.rake f.rake).pos := Queue.ent_pos h.hand
  unfold State.complete1 at hi
  simp only [hsettle, ve, vr, vq, Nat.not_lt.mpr (Nat.le_of_lt hpc), ne_of_lt hpc, if_false] at hi
  obtain ⟨g, hgp, hge, hi⟩ : ∃ g : Entry → Entry, (∀ x, (g x).pos = x.pos)
      ∧ ((g e).ctx = { c with pc := pc } ∧ (g e).notes = e.notes ||| noteOf st
        ∧ (g e).worst = (if st = Sts.okDurable then e.worst else Sts.first e.worst st))
      ∧ exec i s = .next (((t.settledRake f.rake).setEnt (s.qidOf f.rake) e.pos g).wr (Csr.RAKESTAT_pc (f.rake / 16) (f.rake % 16)) pc).lateGo := by
    refine ⟨_, ?_, ?_, hi⟩
    · intro _; rfl
    · exact ⟨rfl, rfl, rfl⟩
  refine ⟨_, hi, ?_⟩
  rw [State.lateGo_none]
  swap
  · exact hk.late.trans h.late
  have hrk (r : Nat) : t.rake r = s.rake r := by unfold State.rake; rw [hk.rakes]
  have hqq (q : Nat) : t.queue q = s.queue q := by unfold State.queue; rw [hk.queues]
  have hrake : State.rake (t.settledRake f.rake) f.rake = { s.rake f.rake with wait := .none, instr := none } := by
    rw [State.rake_settledRake_same, hrk]
  have hent (q p : Nat) :
      (((t.settledRake f.rake).setEnt (s.qidOf f.rake) e.pos g).queue q).ent p
        = ((s.queue q).ent p).map (fun x => if q = s.qidOf f.rake ∧ x.pos = e.pos then g x else x) := by
    rw [State.ent_setEnt _ _ _ _ _ _ hgp]
    show ((t.queue q).ent p).map _ = _
    rw [hqq]
  have hh : (s.queue (s.qidOf f.rake)).ent e.pos = some e := by rw [he]; exact h.hand
  refine ⟨?_, hrake, hm, ?_⟩
  · unfold State.inHand
    have hq : (State.rake (t.settledRake f.rake) f.rake).qid = s.qidOf f.rake := by rw [hrake]; rfl
    have hp : (State.rake (t.settledRake f.rake) f.rake).pos = (s.rake f.rake).pos := by rw [hrake]
    show ∃ e', (State.queue _ (State.rake (t.settledRake f.rake) f.rake).qid).ent (State.rake (t.settledRake f.rake) f.rake).pos = some e' ∧ _
    rw [hq, hp]
    have hx := hent (s.qidOf f.rake) (s.rake f.rake).pos
    rw [← he, hh] at hx
    rw [← he]
    exact ⟨g e, hx.trans (by simp), hge⟩
  · have hu := Undisturbed.of_keeps (g := g) pc hgp hk
    rw [← he] at hu
    exact hu

end Sys2Proof.Machine
end

