-- ==== Sys2Proof/Laws/Mem.lean ====
section
/-!
SUPPORT. What reads and writes of local memory do where its channels serve and no stored half-line has a fault: a write stores its bytes
and leaves every other byte, a read returns what is stored, and neither touches anything but the DRAM tiers.
-/
namespace Sys2Proof.Machine
open Sys2Proof Host

/-! ### Bytes -/

theorem State.byte_setByte_same (s : State) (a v : Nat) : (s.setByte a v).byte a = v % 256 := by
  unfold State.byte State.setByte
  simp

theorem State.byte_setByte_ne (s : State) {a b : Nat} (h : b ≠ a) (v : Nat) : (s.setByte a v).byte b = s.byte b := by
  unfold State.byte State.setByte
  rw [show (SMap.get 0 b (SMap.put 0 a (BitVec.ofNat 8 v) s.mem)) = SMap.get 0 b s.mem from SMap.get_put_ne _ _ h _ _]

/-- The state with `bs` stored from `a` on reads them there and everything else as before. -/
theorem State.byte_putBytes (bs : List PByte) : ∀ (s : State) (a b : Nat), (s.putBytes a bs).byte b
    = if a ≤ b ∧ b < a + bs.length then ((bs.map (·.1)).getD (b - a) 0) % 256 else s.byte b := by
  induction bs with
  | nil => intro s a b; simp [State.putBytes]
  | cons x t ih =>
    intro s a b
    rw [State.putBytes, ih]
    by_cases h : b = a
    · subst h
      simp [State.byte_setByte_same]
    · rw [State.byte_setByte_ne _ h]
      by_cases h1 : a + 1 ≤ b
      · have h2 : b - a = (b - (a + 1)) + 1 := by omega
        have h3 : (a ≤ b ∧ b < a + (t.length + 1)) ↔ (a + 1 ≤ b ∧ b < a + 1 + t.length) := by omega
        simp only [List.length_cons, h2, List.map_cons, List.getD_cons_succ, h3]
      · have h3 : ¬ (a ≤ b ∧ b < a + (t.length + 1)) := by omega
        have h4 : ¬ (a + 1 ≤ b ∧ b < a + 1 + t.length) := by omega
        simp only [List.length_cons, h3, h4, if_false]

theorem State.putBytes_append (x y : List PByte) : ∀ (s : State) (a : Nat), s.putBytes a (x ++ y) = (s.putBytes a x).putBytes (a + x.length) y := by
  induction x with
  | nil => intro s a; rfl
  | cons b t ih =>
    intro s a
    simp only [List.cons_append, State.putBytes, ih, List.length_cons]
    congr 1; omega

/-- What is stored depends on memory only. -/
theorem State.putBytes_mem (bs : List PByte) : ∀ {s t : State} (a : Nat), s.mem = t.mem → (s.putBytes a bs).mem = (t.putBytes a bs).mem := by
  induction bs with
  | nil => intro s t a h; exact h
  | cons b u ih =>
    intro s t a h
    refine ih (a + 1) ?_
    unfold State.setByte
    rw [h]

/-! ### What memory accesses keep -/

/-- The state with memory, the DRAM tiers, the instruction caches, the registers and the event logs left out. -/
def State.outside (s : State) : State := { s with regs := [], log := EventLog.empty, dram := Dram.empty, icache := [], mem := [] }

theorem State.outside_of_rest {s t : State} (h : s.rest = t.rest) : s.outside = t.outside :=
  congrArg (fun x : State => { x with dram := Dram.empty, icache := [], mem := [] }) h

/-- A field of the DRAM tiers' blocks that accesses count or keep account in: none is DDRSTAT.state or STKCHSTAT.hold. -/
def Fld.tier (f : Fld) : Prop :=
  f.lo < 64 ∧ 0x2800000 ≤ f.off ∧ f.off < 0x2C00000 ∧ (f.lo ≠ 0 ∨ f.off % 0x20000 ≠ 0x18 ∨ 0x2A00000 ≤ f.off)
    ∧ (f.lo ≠ 0 ∨ f.off < 0x2A10000)

/-- A field that accesses leave alone. -/
def Fld.still (f : Fld) : Prop :=
  f.calm ∧ (f.off < 0x2800000 ∨ 0x2C00000 ≤ f.off ∨ (f.lo = 0 ∧ f.off % 0x20000 = 0x18 ∧ f.off < 0x2A00000) ∨ (f.lo = 0 ∧ 0x2A10000 ≤ f.off))

theorem Fld.still.apart {f g : Fld} (h : f.still) (hg : g.tier) : f.apart g := by
  unfold Fld.still at h; unfold Fld.tier at hg; unfold Fld.apart
  omega

theorem Fld.afar.still {k : Nat} {f : Fld} (h : f.afar k) : f.still := by
  refine ⟨h.calm, ?_⟩
  have := h.2.2.2.2.1
  omega

/-- What an access to memory keeps. -/
structure MemStep (s t : State) : Prop where
  outside : t.outside = s.outside
  regs : ∀ x : Fld, x.still → ∀ a, t.rdSet a x = s.rdSet a x
  faults : t.dram.faults = s.dram.faults
  sram : t.dram.upsets = s.dram.upsets
  ways : s.waysOk → t.waysOk
  unlocked : s.unlocked → t.unlocked

theorem MemStep.refl (s : State) : MemStep s s := ⟨rfl, fun _ _ _ => rfl, rfl, rfl, id, id⟩

theorem MemStep.trans {s t u : State} (h : MemStep s t) (g : MemStep t u) : MemStep s u :=
  ⟨g.outside.trans h.outside, fun x hx a => (g.regs x hx a).trans (h.regs x hx a), g.faults.trans h.faults, g.sram.trans h.sram,
    fun w => g.ways (h.ways w), fun w => g.unlocked (h.unlocked w)⟩

theorem Csr.still_set : Csr.EPOCHCUR_set.still := ⟨Csr.calm_set, by decide⟩

theorem MemStep.rd {s t : State} (h : MemStep s t) {f : Fld} (hf : f.still) : t.rd f = s.rd f :=
  State.rd_of_rdSet (h.regs f hf) (h.regs _ Csr.still_set 0)

theorem Csr.still_ddrstat (c : Nat) (hc : c < 16) : (Csr.DDRSTAT_state c).still := by
  unfold Fld.still Fld.calm Csr.DDRSTAT_state
  refine ⟨⟨by simp, ?_, ?_⟩, Or.inr (Or.inr (Or.inl ⟨rfl, ?_, ?_⟩))⟩ <;> simp only <;> omega

theorem Csr.still_hold (c : Nat) (hc : c < 32) : (Csr.STKCHSTAT_hold c).still := by
  unfold Fld.still Fld.calm Csr.STKCHSTAT_hold
  refine ⟨⟨by simp, ?_, ?_⟩, Or.inr (Or.inr (Or.inr ⟨rfl, ?_⟩))⟩ <;> simp only <;> omega

theorem MemStep.serves {s t : State} (h : MemStep s t) (hs : s.Serves) : t.Serves := by
  refine ⟨h.faults.trans hs.faults, fun c hc => ?_, h.ways hs.ways, h.sram.trans hs.sram, h.unlocked hs.unlocked,
    fun c hc => (h.rd (Csr.still_hold c hc)).trans (hs.released c hc)⟩
  unfold State.chanOos
  rw [h.rd (Csr.still_ddrstat c hc)]
  exact hs.chans c hc

/-- The carve-out lies where it lay. -/
theorem MemStep.outsideCarve {s t : State} (h : MemStep s t) (a n : Nat) : t.outsideCarve a n = s.outsideCarve a n := by
  unfold State.outsideCarve
  rw [h.rd ⟨⟨by decide, by decide, by decide⟩, Or.inl (by decide)⟩]

theorem MemStep.keeps {s t : State} (h : MemStep s t) (k : Nat) : s.Keeps t k where
  regs x hx := h.regs x hx.still
  pending := (congrArg (fun x : State => x.pending) h.outside : t.outside.pending = s.outside.pending)
  stamp := (congrArg (fun x : State => x.stamp) h.outside : t.outside.stamp = s.outside.stamp)
  claims := (congrArg (fun x : State => x.gateClaim) h.outside : t.outside.gateClaim = s.outside.gateClaim)
  grans := (congrArg (fun x : State => x.grans) h.outside : t.outside.grans = s.outside.grans)
  pans := (congrArg (fun x : State => x.pans) h.outside : t.outside.pans = s.outside.pans)
  queues := (congrArg (fun x : State => x.queues) h.outside : t.outside.queues = s.outside.queues)
  lists := (congrArg (fun x : State => x.lists) h.outside : t.outside.lists = s.outside.lists)
  rakes := (congrArg (fun x : State => x.rakes) h.outside : t.outside.rakes = s.outside.rakes)
  late := (congrArg (fun x : State => x.coh.late) h.outside : t.outside.coh.late = s.outside.coh.late)
  heap := (congrArg (fun x : State => x.heap) h.outside : t.outside.heap = s.outside.heap)
  links := (congrArg (fun x : State => x.links) h.outside : t.outside.links = s.outside.links)
  rm := (congrArg (fun x : State => x.rm) h.outside : t.outside.rm = s.outside.rm)
  twin := (congrArg (fun x : State => x.twin) h.outside : t.outside.twin = s.outside.twin)
  sluice := (congrArg (fun x : State => x.sluice) h.outside : t.outside.sluice = s.outside.sluice)
  sec := (congrArg (fun x : State => x.sec) h.outside : t.outside.sec = s.outside.sec)
  flash := (congrArg (fun x : State => x.flash) h.outside : t.outside.flash = s.outside.flash)
  cars := (congrArg (fun x : State => x.cars) h.outside : t.outside.cars = s.outside.cars)
  board := (congrArg (fun x : State => x.board) h.outside : t.outside.board = s.outside.board)
  mgmt := (congrArg (fun x : State => x.mgmt) h.outside : t.outside.mgmt = s.outside.mgmt)
  level := (congrArg (fun x : State => x.debugLevel) h.outside : t.outside.debugLevel = s.outside.debugLevel)

theorem MemStep.waits {s t : State} (h : MemStep s t) : t.waits = s.waits :=
  (congrArg (fun x : State => x.waits) h.outside : t.outside.waits = s.outside.waits)
theorem MemStep.coh {s t : State} (h : MemStep s t) : t.coh = s.coh :=
  (congrArg (fun x : State => x.coh) h.outside : t.outside.coh = s.outside.coh)
theorem MemStep.fab {s t : State} (h : MemStep s t) : t.fab = s.fab :=
  (congrArg (fun x : State => x.fab) h.outside : t.outside.fab = s.outside.fab)
theorem MemStep.shoots {s t : State} (h : MemStep s t) : t.shoots = s.shoots :=
  (congrArg (fun x : State => x.shoots) h.outside : t.outside.shoots = s.outside.shoots)
theorem MemStep.grans {s t : State} (h : MemStep s t) : t.grans = s.grans := (h.keeps 0).grans

/-! ### The single steps of an access -/

/-- A step of the tiers that leaves memory. -/
structure TierStep (s t : State) : Prop extends MemStep s t where
  mem : t.mem = s.mem

theorem TierStep.refl (s : State) : TierStep s s := ⟨MemStep.refl s, rfl⟩
theorem TierStep.trans {s t u : State} (h : TierStep s t) (g : TierStep t u) : TierStep s u :=
  ⟨h.toMemStep.trans g.toMemStep, g.mem.trans h.mem⟩

/-- A step of the tiers that leaves memory and brine buffers, and stores no poison if `q` holds. -/
structure CacheStep (q : Prop) (s t : State) : Prop extends TierStep s t where
  brine : t.dram.brine = s.dram.brine
  poison : q → s.dram.poison = [] → t.dram.poison = []

/-- A step of the tiers that leaves memory, stores no poison and leaves brine buffers. -/
abbrev ReadStep (s t : State) : Prop := CacheStep True s t

theorem CacheStep.refl (q : Prop) (s : State) : CacheStep q s s := ⟨TierStep.refl s, rfl, fun _ h => h⟩
theorem ReadStep.refl (s : State) : ReadStep s s := CacheStep.refl _ s

theorem CacheStep.trans {q : Prop} {s t u : State} (h : CacheStep q s t) (g : CacheStep q t u) : CacheStep q s u :=
  ⟨h.toTierStep.trans g.toTierStep, g.brine.trans h.brine, fun x y => g.poison x (h.poison x y)⟩

theorem CacheStep.sub {q r : Prop} {s t : State} (h : CacheStep q s t) (hr : r → q) : CacheStep r s t :=
  ⟨h.toTierStep, h.brine, fun x => h.poison (hr x)⟩

theorem CacheStep.weak {s t : State} (h : CacheStep True s t) (q : Prop) : CacheStep q s t := h.sub fun _ => trivial

theorem ReadStep.sound {s t : State} (h : ReadStep s t) (hs : s.Sound) : t.Sound :=
  ⟨h.serves hs.toServes, h.poison trivial hs.poison, by rw [h.brine]; exact hs.brine⟩

theorem MemStep.wr (s : State) {f : Fld} (v : Nat) (h : f.tier) : MemStep s (s.wr f v) :=
  ⟨rfl, fun _ hx a => s.rdSet_wr_ne v a hx.1.1 h.1 (hx.apart h), rfl, rfl, id, id⟩

theorem MemStep.of_count (s : State) (c : Ctr) (n : Nat) (h1 : c.cnt.tier) (h2 : c.ovf.tier) : MemStep s (s.count c n) := by
  have hd := State.count_dram s c n
  refine ⟨State.outside_of_rest (s.rest_count c n), fun x hx a => s.rdSet_count c n a hx.1 (hx.apart h1) (hx.apart h2) h1.1 h2.1, ?_, ?_, ?_, ?_⟩
  · rw [hd]
  · rw [hd]
  · unfold State.waysOk; rw [hd]; exact id
  · unfold State.unlocked; rw [hd]; exact id

theorem MemStep.setByte (s : State) (a v : Nat) : MemStep s (s.setByte a v) := ⟨rfl, fun _ _ _ => rfl, rfl, rfl, id, id⟩

theorem MemStep.putBytes (bs : List PByte) : ∀ (s : State) (a : Nat), MemStep s (s.putBytes a bs) := by
  induction bs with
  | nil => exact fun s _ => MemStep.refl s
  | cons b t ih => exact fun s a => (MemStep.setByte s a b.1).trans (ih _ _)

/-- An update of the DRAM tiers that leaves faults, upsets, cached lines and channels. -/
theorem TierStep.dram (s : State) (d : Dram) (h1 : d.faults = s.dram.faults) (h2 : d.cache = s.dram.cache) (h3 : d.upsets = s.dram.upsets)
    (h4 : d.chans = s.dram.chans) : TierStep s { s with dram := d } :=
  ⟨⟨rfl, fun _ _ _ => rfl, h1, h3, fun w => by unfold State.waysOk at *; simpa [h2] using w,
    fun w => by unfold State.unlocked at *; simpa [h4] using w⟩, rfl⟩

theorem SMap.mem_put {β : Type} [DecidableEq β] (d : β) (k : Nat) (v : β) (m : SMap β) (a : Nat × β) (h : a ∈ SMap.put d k v m) :
    a = (k, v) ∨ a ∈ m := by
  unfold SMap.put at h
  split at h
  · rw [SMap.del_eq_filter] at h; exact Or.inr (List.mem_filter.mp h).1
  · rcases (SMap.mem_ins k v _ a).mp h with h | h
    · exact Or.inl h
    · rw [SMap.del_eq_filter] at h; exact Or.inr (List.mem_filter.mp h).1

theorem SMap.get_mem {β : Type} (d : β) (k : Nat) (m : SMap β) : SMap.get d k m = d ∨ (k, SMap.get d k m) ∈ m := by
  induction m with
  | nil => left; rfl
  | cons a t ih =>
    obtain ⟨j, v⟩ := a
    by_cases h : j = k
    · subst h; right; simp [SMap.get]
    · simp only [SMap.get, h, if_false]
      rcases ih with ih | ih
      · left; exact ih
      · right; simp [ih]

theorem State.unlocked.chan {s : State} (h : s.unlocked) (c : Nat) : (s.chan c).locked = [] := by
  unfold State.chan
  rcases SMap.get_mem Channel.idle c s.dram.chans with e | e
  · rw [e]; rfl
  · exact h _ e

/-- A change of a channel that locks nothing. -/
theorem ReadStep.setChan (s : State) (c : Nat) (f : Channel → Channel) (hf : ∀ x, (f x).locked = x.locked) : ReadStep s (s.setChan c f) := by
  refine ⟨⟨⟨rfl, fun _ _ _ => rfl, rfl, rfl, id, fun w kv hkv => ?_⟩, rfl⟩, rfl, fun _ => id⟩
  rcases SMap.mem_put _ _ _ _ _ hkv with e | e
  · subst e; exact (hf _).trans (w.chan c)
  · exact w kv e

theorem SMap.put_nil {β : Type} [DecidableEq β] (d : β) (k : Nat) : SMap.put d k d ([] : SMap β) = [] := by simp [SMap.put, SMap.del]

/-- A fresh code word over a half-line without a fault. -/
theorem CacheStep.recode (s : State) (k : Nat) (p : Bool) (hf : s.dram.faults = []) : CacheStep (p = false) s (s.recode k p) := by
  refine ⟨⟨⟨rfl, fun _ _ _ => rfl, ?_, rfl, id, id⟩, rfl⟩, rfl, ?_⟩
  · show SMap.put HalfFault.none k _ s.dram.faults = s.dram.faults
    rw [hf]; exact SMap.put_nil _ _
  · rintro rfl hp
    show SMap.put false k false s.dram.poison = []
    rw [hp]; exact SMap.put_nil _ _

theorem State.waysOk.ways {s : State} (h : s.waysOk) (d : Nat) : ∀ w ∈ s.ways d, w.pan < 64 := by
  intro w hw
  unfold State.ways at hw
  rcases SMap.get_mem [] (setKey d) s.dram.cache with e | e
  · rw [e] at hw; simp at hw
  · exact h _ e w hw

theorem ReadStep.setWays (s : State) (d : Nat) (ws : List Way) (h : s.waysOk → ∀ w ∈ ws, w.pan < 64) : ReadStep s (s.setWays d ws) := by
  refine ⟨⟨⟨rfl, fun _ _ _ => rfl, rfl, rfl, fun hw kv hkv w hwk => ?_, id⟩, rfl⟩, rfl, fun _ => id⟩
  rcases SMap.mem_put _ _ _ _ _ hkv with e | e
  · subst e; exact h hw w hwk
  · exact hw kv e w hwk

theorem ReadStep.wr (s : State) {f : Fld} (v : Nat) (h : f.tier) : ReadStep s (s.wr f v) := ⟨⟨MemStep.wr s v h, rfl⟩, rfl, fun _ => id⟩

theorem ReadStep.count (s : State) (c : Ctr) (n : Nat) (h1 : c.cnt.tier) (h2 : c.ovf.tier) : ReadStep s (s.count c n) :=
  ⟨⟨MemStep.of_count s c n h1 h2, State.count_mem _ _ _⟩, by rw [State.count_dram], fun _ h => by rw [State.count_dram]; exact h⟩

theorem ReadStep.panLines (s : State) (n : Nat) (up : Bool) (h : n < 64) : ReadStep s (s.panLines n up) := by
  refine ReadStep.wr s _ ?_
  simp only [Fld.tier, Csr.STKPANLINES_lines]; omega

theorem ReadStep.ddrCount (s : State) (c i : Nat) (h : c < 16) (hi : i < 8) : ReadStep s (s.count (ddrCtr c i)) := by
  refine ReadStep.count s _ _ ?_ ?_ <;> simp only [Fld.tier, ddrCtr, Csr.DDRSTAT_cnt_ovf] <;> omega

theorem ReadStep.stkCount (s : State) (i : Nat) (hi : i < 8) : ReadStep s (s.count (stkCtr i)) := by
  refine ReadStep.count s _ _ ?_ ?_ <;> simp only [Fld.tier, stkCtr, Csr.STKSTAT_cnt_ovf] <;> omega

theorem ReadStep.eccPoison (s : State) (st : Nat) (h : st < 17) : ReadStep s (s.count (eccCtr st 3)) := by
  apply ReadStep.count
  · simp only [Fld.tier, eccCtr, Csr.eccOff]; split <;> first | (simp; done) | (simp; omega)
  · simp only [Fld.tier, eccCtr, Csr.ECCSTAT_cnt_ovf, Csr.eccOff]; split <;> first | (simp; done) | (simp; omega)

/-! ### Decoding half-lines without faults -/

theorem State.ddr5Map_lt (s : State) (a : Nat) : (s.ddr5Map a).1 < 16 := by
  have hb (x l : Nat) : bitsOf x l 4 < 2 ^ 4 := Nat.mod_lt _ (by decide)
  unfold State.ddr5Map
  simp only
  split
  · exact Nat.xor_lt_two_pow (Nat.xor_lt_two_pow (hb _ _) (hb _ _)) (Nat.xor_lt_two_pow (hb _ _) (hb _ _))
  · exact hb _ _

/-- What the decode of a half-line without a fault comes to: it changes no bits, and finds poison only where `p` says it was stored. -/
def Decodes (s : State) (p : Bool) (r : (Outcome9 × Nat) × State) : Prop :=
  (r.1 = (.poison, 0) ∨ r.1 = (.clean, 0)) ∧ (p = false → r = ((.clean, 0), s)) ∧ ReadStep s r.2

theorem State.decodeAt_sound (s : State) (x : Spot) (a : Nat) (bs : List Nat) (p : Bool) (acc : Acc) (hf : s.dram.faults = []) (hx : x.st < 17) :
    Decodes s p (s.decodeAt x a bs p acc) := by
  unfold State.decodeAt
  simp only [hf, SMap.get_nil, if_true]
  cases p
  · exact ⟨Or.inr rfl, fun _ => rfl, ReadStep.refl s⟩
  · exact ⟨Or.inl rfl, fun h => absurd h (by simp), ReadStep.eccPoison s _ hx⟩

theorem State.decodeDdr_sound (s : State) (h : Nat) (acc : Acc) (hf : s.dram.faults = []) : Decodes s (s.halfPoison h) (s.decodeDdr h acc) := by
  unfold State.decodeDdr
  simp only [hf, SMap.get_nil, if_true]
  refine s.decodeAt_sound _ _ _ _ _ hf ?_
  have := s.ddr5Map_lt (h * 64)
  show (s.ddr5Map (h * 64)).1 < 17
  omega

theorem State.decodeStk_sound (s : State) (k h : Nat) (acc : Acc) (hf : s.dram.faults = []) : Decodes s (s.halfPoison k) (s.decodeStk k h acc) :=
  s.decodeAt_sound _ _ _ _ _ hf (by show 16 < 17; omega)

theorem State.Sound.half {s : State} (h : s.Sound) (k : Nat) : s.halfPoison k = false := by
  unfold State.halfPoison; rw [h.poison]; rfl

/-- Where nothing is stored poisoned, the decodes of a line find it clean and change nothing. -/
theorem State.decodeLine_clean (s : State) (a n : Nat) (dec : Nat → State → (Outcome9 × Nat) × State) (hd : ∀ h, dec h s = ((.clean, 0), s)) :
    (∀ h, gotOf (s.decodeLine a n dec).1 h = some 0) ∧ (s.decodeLine a n dec).2 = s ∧ ∀ o ∈ (s.decodeLine a n dec).1, o.2 = (.clean, 0) := by
  have H : ∀ (l : List Nat) (r : List (Nat × Outcome9 × Nat) × State), (∀ o ∈ r.1, o.2 = (.clean, 0)) ∧ r.2 = s →
      let q := l.foldl (fun (r : List (Nat × Outcome9 × Nat) × State) h => let (o, s) := dec h r.2; ((h, o) :: r.1, s)) r
      (∀ o ∈ q.1, o.2 = (.clean, 0)) ∧ q.2 = s := by
    intro l
    induction l with
    | nil => exact fun r h => h
    | cons x t ih =>
      intro r ⟨h1, h2⟩
      refine ih _ ?_
      simp only [h2, hd]
      exact ⟨fun o ho => (List.mem_cons.mp ho).elim (fun e => by rw [e]) (h1 o), trivial⟩
  have h := H (rangeFrom (a / 64) ((a + n - 1) / 64 - a / 64 + 1)) ([], s) ⟨by simp, rfl⟩
  refine ⟨fun k => ?_, h.2, h.1⟩
  unfold gotOf
  cases hk : (s.decodeLine a n dec).1.find? (fun o => o.1 == k) with
  | none => rfl
  | some o =>
    obtain ⟨i, o⟩ := o
    have : o = (.clean, 0) := h.1 (i, o) (List.mem_of_find?_eq_some hk)
    subst this; rfl

/-! ### The queues and the stacked cache -/

theorem ReadStep.joinRead (s : State) (c : Nat) (mine : Nat → Bool) (most target req line : Nat) :
    ReadStep s (s.joinRead c mine most target req line) := by
  unfold State.joinRead
  split
  · exact ReadStep.refl s
  · exact ReadStep.setChan s c _ fun _ => rfl

theorem ReadStep.joinDdr (s : State) (req d : Nat) : ReadStep s (s.joinDdr req d) := by
  unfold State.joinDdr; exact ReadStep.joinRead s _ _ _ _ _ _

theorem ReadStep.joinStk (s : State) (req d : Nat) : ReadStep s (s.joinStk req d) := by
  unfold State.joinStk; exact ReadStep.joinRead s _ _ _ _ _ _

theorem ReadStep.touchWay (s : State) (d : Nat) (b : Bool) : ReadStep s (s.touchWay d b) := by
  unfold State.touchWay
  simp only
  split
  · rename_i w hw
    refine ReadStep.setWays s d _ fun h x hx => ?_
    rcases List.mem_cons.mp hx with e | e
    · subst e; exact h.ways d w (List.mem_of_find?_eq_some hw)
    · exact h.ways d x (List.mem_filter.mp e).1
  · exact ReadStep.refl s

theorem ReadStep.queueWrite (s : State) (line : Nat) : ReadStep s (s.queueWrite line) := by
  have hc := s.ddr5Map_lt (line * 128)
  unfold State.queueWrite
  simp only
  generalize (s.ddr5Map (line * 128)).1 = c at *
  have h1 : ReadStep s (s.setChan c (fun x => { x with low := 0 })) := ReadStep.setChan s c _ fun _ => rfl
  split
  · exact h1
  · have fin (t : State) (q : List Nat) (ht : ReadStep s t) :
        ReadStep s (if (decide (t.rd (Csr.DDRWM_wq_high c) ≤ q.length) && !t.on (Csr.DDRSTAT_batching c)) = true then
          (t.wr (Csr.DDRSTAT_batching c) 1).count (ddrCtr c 4) else t) := by
      split
      · have hb : (Csr.DDRSTAT_batching c).tier := by simp only [Fld.tier, Csr.DDRSTAT_batching]; omega
        exact ht.trans ((ReadStep.wr t 1 hb).trans (ReadStep.ddrCount _ c 4 hc (by decide)))
      · exact ht
    split
    · exact fin _ _ (h1.trans (ReadStep.setChan _ c _ fun _ => rfl))
    · exact fin _ _ (h1.trans ((ReadStep.ddrCount _ c 1 hc (by decide)).trans (ReadStep.setChan _ c _ fun _ => rfl)))

theorem stkPc_lt (w : Nat) : stkPc w < 64 := by
  have hb (x l : Nat) : bitsOf x l 6 < 2 ^ 6 := Nat.mod_lt _ (by decide)
  exact Nat.xor_lt_two_pow (hb _ _) (hb _ _)

theorem ReadStep.batchStk (s : State) (g : Nat) (b : Bool) (hg : g < 64) : ReadStep s (s.batchStk g b) := by
  unfold State.batchStk
  refine (ReadStep.setChan s (16 + g) (fun x => { x with batch := b }) fun _ => rfl).trans (ReadStep.wr _ _ ?_)
  simp only [Fld.tier, Csr.STKCHSTAT_batching]; omega

theorem ReadStep.queueStk (s : State) (d : Nat) : ReadStep s (s.queueStk d) := by
  unfold State.queueStk
  dsimp only
  split
  · exact ReadStep.refl s
  · generalize (if ((s.chan (stkChan (linePc d))).wq.filter (fun x => linePc x == linePc d)).length < 32 then (s.chan (stkChan (linePc d))).wq
      else (s.chan (stkChan (linePc d))).wq.erase (((s.chan (stkChan (linePc d))).wq.filter (fun x => linePc x == linePc d)).headD 0)) = q
    have h1 : ReadStep s (s.setChan (stkChan (linePc d)) (fun x => { x with wq := q ++ [d] })) := ReadStep.setChan s _ _ fun _ => rfl
    split
    · exact h1.trans (ReadStep.batchStk _ _ true (stkPc_lt _))
    · exact h1

theorem State.flipBytes_zero (s : State) (a mask : Nat) : s.flipBytes a 0 mask = s := rfl

/-- A half-line is written anew with what a decode of another delivered. -/
theorem CacheStep.rewrite {s u : State} {p : Bool} {r : (Outcome9 × Nat) × State} (h : CacheStep (p = false) s u) (hs : s.dram.faults = [])
    (hr : Decodes u p r) (a k : Nat) (bad : Outcome9 → Bool) (hb : bad .clean = false) :
    CacheStep (p = false) s ((r.2.flipBytes a r.1.2 0).recode k (bad r.1.1)) := by
  obtain ⟨h1, h2, h3⟩ := hr
  have h0 : r.1.2 = 0 := by rcases h1 with e | e <;> rw [e]
  rw [h0, State.flipBytes_zero]
  have h4 := h.trans (h3.weak _)
  have h5 := CacheStep.recode r.2 k (bad r.1.1) (h4.faults.trans hs)
  refine h4.trans ⟨h5.toTierStep, h5.brine, fun hp => h5.poison ?_⟩
  rw [h2 hp]; exact hb

theorem CacheStep.wayBack (s : State) (w : Way) (hs : s.Serves) : CacheStep (∀ k, s.halfPoison k = false) s (s.wayBack w) := by
  have h1 := ReadStep.stkCount s 3 (by decide)
  have hc := s.ddr5Map_lt (w.line * 128)
  have ho : (s.count (stkCtr 3)).chanOos (s.ddr5Map (w.line * 128)).1 = false := (h1.serves hs).chans _ hc
  unfold State.wayBack
  simp only [ho, Bool.false_eq_true, if_false, List.foldl_cons, List.foldl_nil]
  have half (t : State) (ht : CacheStep (∀ k, s.halfPoison k = false) s t) (k a b : Nat) (acc : Acc) :
      CacheStep (∀ k, s.halfPoison k = false) s
        (((t.decodeStk (wayAddr w / 64 + k) (2 * w.line + k) acc).2.flipBytes a (t.decodeStk (wayAddr w / 64 + k) (2 * w.line + k) acc).1.2 0).recode b
          (t.decodeStk (wayAddr w / 64 + k) (2 * w.line + k) acc).1.1.bad) := by
    have hr := t.decodeStk_sound (wayAddr w / 64 + k) (2 * w.line + k) acc (ht.faults.trans hs.faults)
    have := CacheStep.rewrite (CacheStep.refl _ t) (ht.faults.trans hs.faults) hr a b Outcome9.bad rfl
    exact ⟨ht.toTierStep.trans this.toTierStep, this.brine.trans ht.brine, fun hp h0 => by
      have e := ht.poison hp h0
      exact this.poison (by unfold State.halfPoison; rw [e]; rfl) e⟩
  exact (half _ (half _ (h1.weak _) 0 _ _ _) 1 _ _ _).trans ((ReadStep.queueWrite _ _).weak _)

theorem CacheStep.dropWay (s : State) (w : Way) (hs : s.Serves) (h : w.pan < 64) : CacheStep (∀ k, s.halfPoison k = false) s (s.dropWay w) := by
  have h1 := ReadStep.panLines s w.pan false h
  have h2 := CacheStep.wayBack (s.panLines w.pan false) w (h1.serves hs)
  unfold State.dropWay
  dsimp only
  split
  · exact (h1.weak _).trans h2
  · exact h1.weak _

theorem CacheStep.putWay (s : State) (ws : List Way) (w : Way) (p : Nat) (hs : s.Serves) (hn : w.pan < 64) (hw : ∀ w ∈ ws, w.pan < 64) :
    CacheStep (p = 0) s (s.putWay ws w p) := by
  have h1 : ReadStep s ((((s.setWays w.line (w :: ws)).panLines w.pan true).count (stkCtr 2)).count (stkCtr 6)) := by
    refine (ReadStep.setWays s w.line _ fun _ x h => ?_).trans ((ReadStep.panLines _ w.pan true hn).trans
      ((ReadStep.stkCount _ 2 (by decide)).trans (ReadStep.stkCount _ 6 (by decide))))
    rcases List.mem_cons.mp h with e | e
    · subst e; exact hn
    · exact hw x e
  unfold State.putWay
  generalize (((s.setWays w.line (w :: ws)).panLines w.pan true).count (stkCtr 2)).count (stkCtr 6) = u at h1 ⊢
  have code (v : State) (hv : CacheStep (p = 0) s v) (k j : Nat) : CacheStep (p = 0) s (v.recode k (bitOf p j)) := by
    have g := CacheStep.recode v k (bitOf p j) (hv.faults.trans hs.faults)
    exact hv.trans ⟨g.toTierStep, g.brine, fun hp => g.poison (by rw [hp]; simp [bitOf])⟩
  exact (code _ (code _ (h1.weak _) _ 0) _ 1).trans ((ReadStep.queueStk _ _).weak _)

/-- A fill stores poison only where it was stored before, or comes with the line. -/
theorem CacheStep.fill (s : State) (n d : Nat) (b : Bool) (p : Nat) (hs : s.Serves) (hn : n < 64) :
    CacheStep ((∀ k, s.halfPoison k = false) ∧ p = 0) s (s.fill n d b p).2 := by
  have miss : CacheStep ((∀ k, s.halfPoison k = false) ∧ p = 0) s (s.count (stkCtr 4)) := (ReadStep.stkCount s 4 (by decide)).weak _
  have hw := hs.ways.ways d
  have swap (v : Way) (hv : v ∈ s.ways d) : CacheStep ((∀ k, s.halfPoison k = false) ∧ p = 0) s
      ((s.dropWay v).putWay ((s.ways d).filter (fun w => w.slot != v.slot)) ⟨v.slot, d, n, b⟩ p) := by
    have hd := CacheStep.dropWay s v hs (hw v hv)
    have hp := CacheStep.putWay (s.dropWay v) ((s.ways d).filter (fun w => w.slot != v.slot)) ⟨v.slot, d, n, b⟩ p (hd.serves hs) hn
      fun w h => hw w (List.mem_filter.mp h).1
    exact CacheStep.trans (hd.sub And.left) (hp.sub And.right)
  unfold State.fill
  dsimp only
  split
  · rename_i v hv
    have hv' : v ∈ s.ways d := by
      have := List.mem_of_getLast? hv
      split at this
      · exact (List.mem_filter.mp this).1
      · split at this
        · exact this
        · simp at this
    dsimp only
    exact swap v hv'
  · split
    · exact miss
    · split
      · rename_i i _
        have h1 := CacheStep.putWay s (s.ways d) ⟨i, d, n, b⟩ p hs hn hw
        dsimp only
        exact h1.sub And.right
      · exact miss

theorem ReadStep.fill (s : State) (n d : Nat) (b : Bool) (hs : s.Sound) (hn : n < 64) : ReadStep s (s.fill n d b 0).2 := by
  have h := CacheStep.fill s n d b 0 hs.toServes hn
  exact ⟨h.toTierStep, h.brine, fun _ => h.poison ⟨hs.half, rfl⟩⟩

/-! ### Reads -/

/-- The pan that an access is charged to exists. -/
def Acc.ok (acc : Acc) : Prop := ∀ p, acc.pan = some p → p < 64

/-- Bytes as they are stored, none of them poisoned. -/
def State.stored (s : State) (a n : Nat) : List PByte := (rangeFrom a n).map (fun x => (s.byte x, false))

theorem State.stored_of_mem {s t : State} (h : t.mem = s.mem) (a n : Nat) : t.stored a n = s.stored a n := by
  unfold State.stored State.byte; rw [h]

theorem State.stored_clean (s : State) (a n : Nat) : ∀ b ∈ s.stored a n, b.2 = false := by
  intro b hb
  obtain ⟨x, _, rfl⟩ := List.mem_map.mp hb
  rfl

theorem State.lineBytes_sound (s : State) (a n : Nat) (got : Nat → Option Nat) (h0 : ∀ h, got h = some 0) : s.lineBytes a n got 0 = s.stored a n := by
  unfold State.lineBytes State.stored
  refine List.map_congr_left fun x _ => ?_
  simp only [h0, bitOf, Nat.zero_testBit, Bool.false_eq_true, if_false, ite_self]

theorem State.brinePois_sound (s : State) (a n : Nat) (hs : s.Sound) : s.brinePois a n = (0, s) := by
  unfold State.brinePois
  split
  · rename_i b hb
    unfold State.brineRead
    rw [if_pos hs.sram, hs.brine b (List.mem_of_find?_eq_some hb)]
  · rfl

/-- What a read without faults or poison comes to: the stored bytes, and a step that leaves memory alone. -/
def Reads (s : State) (a n : Nat) (r : List PByte × State) : Prop := r.1 = s.stored a n ∧ ReadStep s r.2

theorem Reads.of_step {s t : State} {a n : Nat} {r : List PByte × State} (h : ReadStep s t) (g : Reads t a n r) : Reads s a n r :=
  ⟨g.1.trans (State.stored_of_mem h.mem a n), h.trans g.2⟩

theorem Reads.clean {s : State} {a n : Nat} {r : List PByte × State} (h : Reads s a n r) : ∀ b ∈ r.1, b.2 = false := by
  rw [h.1]; exact s.stored_clean a n

theorem State.fromDdr_sound (s : State) (acc : Acc) (a n : Nat) (hs : s.Sound) : Reads s a n (s.fromDdr acc a n) := by
  have hc := s.ddr5Map_lt a
  have ho : s.chanOos (s.ddr5Map a).1 = false := hs.chans _ hc
  have h1 : ReadStep s ((s.count (ddrCtr (s.ddr5Map a).1 0)).joinDdr acc.req (a / 128)) :=
    (ReadStep.ddrCount s _ 0 hc (by decide)).trans (ReadStep.joinDdr _ _ _)
  unfold State.fromDdr
  simp only [ho, Bool.false_eq_true, if_false]
  generalize (s.count (ddrCtr (s.ddr5Map a).1 0)).joinDdr acc.req (a / 128) = u at h1 ⊢
  have su := h1.sound hs
  split
  · have h2 := ReadStep.ddrCount u _ 3 hc (by decide)
    have s2 := h2.sound su
    refine Reads.of_step (h1.trans h2) ?_
    simp only [State.brinePois_sound _ a n s2]
    refine ⟨?_, ReadStep.refl _⟩
    dsimp only
    refine State.lineBytes_sound _ a n _ fun h => ?_
    simp only [su.half, Bool.false_eq_true, if_false]
  · obtain ⟨g1, g2, _⟩ := u.decodeLine_clean a n (fun h s => s.decodeDdr h acc) fun h => (u.decodeDdr_sound h acc su.faults).2.1 (su.half h)
    generalize u.decodeLine a n (fun h s => s.decodeDdr h acc) = r at g1 g2 ⊢
    obtain ⟨os, w⟩ := r
    dsimp only at g1 g2
    subst g2
    refine Reads.of_step h1 ?_
    simp only [State.brinePois_sound _ a n su]
    exact ⟨State.lineBytes_sound _ a n _ g1, ReadStep.refl _⟩

theorem State.fromCarve_sound (s : State) (acc : Acc) (a n : Nat) (hs : s.Sound) : Reads s a n (s.fromCarve acc a n) := by
  have h := s.fromDdr_sound acc a n hs
  unfold State.fromCarve
  dsimp only
  rw [if_pos]
  · exact h
  · rw [Bool.or_eq_true, List.all_eq_true]
    exact Or.inr fun b hb => by rw [h.clean b hb]; rfl

theorem halvesBad_clean (a : Nat) (bs : List PByte) (h : ∀ b ∈ bs, b.2 = false) : halvesBad a bs = 0 := by
  unfold halvesBad
  have e (k : Nat) : bs.zipIdx.any (fun x => x.1.2 && (a + x.2) / 64 % 2 == k) = false := by
    rw [List.any_eq_false]
    rintro ⟨b, i⟩ hx
    have := h b (by have := List.mem_zipIdx hx; simp_all)
    simp [this]
  rw [e, e]; rfl

theorem State.readDdr_sound (s : State) (acc : Acc) (a n : Nat) (hs : s.Sound) (ha : acc.ok) : Reads s a n (s.readDdr acc a n) := by
  have hc := s.ddr5Map_lt a
  have ho : s.chanOos (s.ddr5Map a).1 = false := hs.chans _ hc
  unfold State.readDdr
  simp only [ho, Bool.false_eq_true, if_false]
  split
  · exact s.fromCarve_sound acc a n hs
  cases hp : acc.pan with
  | none => exact s.fromDdr_sound acc a n hs
  | some p =>
    have hp64 : p < 64 := ha p hp
    dsimp only
    split
    · exact s.fromDdr_sound acc a n hs
    split
    · rename_i w hw
      have h1 : ReadStep s (((s.count (stkCtr 0)).count (stkCtr 5)).joinStk acc.req (wayAddr w / 128)) :=
        (ReadStep.stkCount s 0 (by decide)).trans ((ReadStep.stkCount _ 5 (by decide)).trans (ReadStep.joinStk _ _ _))
      generalize ((s.count (stkCtr 0)).count (stkCtr 5)).joinStk acc.req (wayAddr w / 128) = u at h1 ⊢
      have su := h1.sound hs
      obtain ⟨g1, g2, g3⟩ := u.decodeLine_clean a n (fun h s => s.decodeStk (wayAddr w / 64 + h % 2) h acc)
        fun h => (u.decodeStk_sound _ h acc su.faults).2.1 (su.half _)
      generalize u.decodeLine a n (fun h s => s.decodeStk (wayAddr w / 64 + h % 2) h acc) = r at g1 g2 g3 ⊢
      obtain ⟨os, v⟩ := r
      dsimp only at g1 g2 g3
      subst g2
      have hb : (!w.dirty && os.any (fun o => o.2.1 == .uncorrectable || o.2.1 == .address)) = false := by
        have : os.any (fun o => o.2.1 == .uncorrectable || o.2.1 == .address) = false := by
          rw [List.any_eq_false]; intro o ho; rw [g3 o ho]; decide
        rw [this, Bool.and_false]
      refine Reads.of_step h1 ?_
      simp only [hb, Bool.false_eq_true, if_false, State.brinePois_sound _ a n su]
      exact ⟨State.lineBytes_sound _ a n _ g1, ReadStep.touchWay _ _ _⟩
    · have h0 := ReadStep.stkCount s 1 (by decide)
      have h1 := Reads.of_step h0 ((s.count (stkCtr 1)).fromDdr_sound acc a n (h0.sound hs))
      generalize (s.count (stkCtr 1)).fromDdr acc a n = r at h1 ⊢
      refine ⟨h1.1, ?_⟩
      dsimp only
      split
      · have s1 := h1.2.sound hs
        simp only [s1.half, halvesBad_clean a r.1 h1.clean, Bool.false_eq_true, if_false]
        exact h1.2.trans (ReadStep.fill _ p _ _ s1 hp64)
      · exact h1.2

theorem State.readStk_sound (s : State) (acc : Acc) (a n : Nat) (hs : s.Sound) : Reads s a n (s.readStk acc a n) := by
  have h1 : ReadStep s ((s.count (stkCtr 5)).joinStk acc.req (a / 128)) :=
    (ReadStep.stkCount s 5 (by decide)).trans (ReadStep.joinStk _ _ _)
  unfold State.readStk
  dsimp only
  generalize (s.count (stkCtr 5)).joinStk acc.req (a / 128) = u at h1 ⊢
  have su := h1.sound hs
  refine Reads.of_step h1 ?_
  split
  · refine ⟨State.lineBytes_sound _ a n _ fun h => ?_, ReadStep.refl _⟩
    unfold gotOf
    split
    · rename_i hk
      obtain ⟨x, _, e⟩ := List.mem_map.mp (List.mem_of_find?_eq_some hk)
      simp only [su.half, Bool.false_eq_true, if_false, Prod.mk.injEq] at e
      obtain ⟨_, rfl, rfl⟩ := e
      rfl
    · rfl
  · obtain ⟨g1, g2, _⟩ := u.decodeLine_clean a n (fun h s => s.decodeStk h h acc) fun h => (u.decodeStk_sound _ h acc su.faults).2.1 (su.half _)
    rw [g2]
    exact ⟨State.lineBytes_sound _ a n _ g1, ReadStep.refl _⟩

theorem State.readLine_sound (s : State) (acc : Acc) (a n : Nat) (hs : s.Sound) (ha : acc.ok) : Reads s a n (s.readLine acc a n) := by
  unfold State.readLine
  split
  · exact s.readDdr_sound acc a n hs ha
  · exact s.readStk_sound acc a n hs
  · refine ⟨?_, ReadStep.refl s⟩
    dsimp only
    refine State.lineBytes_sound _ a n _ fun h => ?_
    simp only [hs.half, Bool.false_eq_true, if_false]

theorem rangeFrom_append (a m n : Nat) : rangeFrom a m ++ rangeFrom (a + m) n = rangeFrom a (m + n) := by
  induction m generalizing a with
  | zero => simp [rangeFrom]
  | succ m ih =>
    rw [show m + 1 + n = (m + n) + 1 by omega]
    simp only [rangeFrom, List.cons_append]
    rw [← ih (a + 1), show a + (m + 1) = a + 1 + m by omega]

theorem State.stored_append (s : State) (a m n : Nat) : s.stored a m ++ s.stored (a + m) n = s.stored a (m + n) := by
  unfold State.stored
  rw [← List.map_append, rangeFrom_append]

theorem ReadStep.referenced (s : State) (a n : Nat) : ReadStep s (s.referenced a n) := by
  unfold State.referenced
  simp only
  split
  · exact ReadStep.refl s
  · exact ⟨TierStep.dram s _ rfl rfl rfl rfl, rfl, fun _ => id⟩

/-- A read returns the stored bytes and leaves memory as it is. -/
theorem State.readMem_sound (s : State) (acc : Acc) (a n : Nat) (hs : s.Sound) (ha : acc.ok) : Reads s a n (s.readMem acc a n) := by
  have H : ∀ (fuel a n : Nat) (t : State), n < fuel → t.Sound → Reads t a n (State.readMemFuel acc fuel a n t) := by
    intro fuel
    induction fuel with
    | zero => intro a n t h; omega
    | succ k ih =>
      intro a n t hn ht
      unfold State.readMemFuel
      split
      · rename_i h0; subst h0; exact ⟨rfl, ReadStep.refl t⟩
      · have hk : 0 < min n (128 - a % 128) := by omega
        have hk2 : min n (128 - a % 128) ≤ n := Nat.min_le_left _ _
        have h1 := t.readLine_sound acc a (min n (128 - a % 128)) ht ha
        have h2 := ih (a + min n (128 - a % 128)) (n - min n (128 - a % 128)) _ (by omega) (h1.2.sound ht)
        refine ⟨?_, h1.2.trans h2.2⟩
        dsimp only
        rw [h1.1, h2.1, State.stored_of_mem h1.2.mem, State.stored_append]
        congr 1; omega
  have hr := ReadStep.referenced s a n
  unfold State.readMem
  exact Reads.of_step hr (H (n + 1) a n _ (by omega) (hr.sound hs))

/-! ### Writes -/

theorem TierStep.mergeHalf (s : State) (dec : State → (Outcome9 × Nat) × State) (k a m p : Nat) (w : Bool) (hf : s.dram.faults = [])
    (hd : ∀ t : State, t.dram.faults = [] → ∃ q, Decodes t q (dec t)) : TierStep s (s.mergeHalf dec k a m p w) := by
  unfold State.mergeHalf
  split
  · exact TierStep.refl s
  split
  · exact (CacheStep.recode s _ _ hf).toTierStep
  · obtain ⟨q, h1, _, h3⟩ := hd s hf
    have h0 : (dec s).1.2 = 0 := by rcases h1 with e | e <;> rw [e]
    generalize dec s = r at h0 h1 h3 ⊢
    obtain ⟨⟨o, x⟩, u⟩ := r
    dsimp only at h0 h3 ⊢
    subst h0
    rw [State.flipBytes_zero]
    exact h3.toTierStep.trans (CacheStep.recode u _ _ (h3.faults.trans hf)).toTierStep

theorem TierStep.mergeLine (s : State) (dec : Nat → State → (Outcome9 × Nat) × State) (k a m p : Nat) (hf : s.dram.faults = [])
    (hd : ∀ h, ∀ t : State, t.dram.faults = [] → ∃ q, Decodes t q (dec h t)) : TierStep s (s.mergeLine dec k a m p) := by
  unfold State.mergeLine
  have h1 := TierStep.mergeHalf s (dec 0) k a (halfMask m 0) (halfMask p 0) (m == 2 ^ 128 - 1) hf (hd 0)
  exact h1.trans (TierStep.mergeHalf _ (dec 1) _ _ _ _ _ (h1.faults.trans hf) (hd 1))

theorem TierStep.mergeDdr (s : State) (d m p : Nat) (acc : Acc) (hf : s.dram.faults = []) : TierStep s (s.mergeDdr d m p acc) :=
  TierStep.mergeLine s _ _ _ _ _ hf fun _ t ht => ⟨_, t.decodeDdr_sound _ _ ht⟩

theorem TierStep.mergeStk (s : State) (d m p : Nat) (acc : Acc) (hf : s.dram.faults = []) : TierStep s (s.mergeStk d m p acc) :=
  TierStep.mergeLine s _ _ _ _ _ hf fun _ t ht => ⟨_, t.decodeStk_sound _ _ _ ht⟩

theorem TierStep.mergePlain (s : State) (d m p : Nat) (hf : s.dram.faults = []) : TierStep s (s.mergePlain d m p) := by
  refine TierStep.mergeLine s _ _ _ _ _ hf fun h t _ => ⟨t.halfPoison (2 * d + h), ?_⟩
  cases t.halfPoison (2 * d + h)
  · exact ⟨Or.inr rfl, fun _ => rfl, ReadStep.refl t⟩
  · exact ⟨Or.inl rfl, fun h => absurd h (by simp), ReadStep.refl t⟩

theorem TierStep.mergeWay (s : State) (w : Way) (m p : Nat) (acc : Acc) (hf : s.dram.faults = []) : TierStep s (s.mergeWay w m p acc) := by
  have h1 := (ReadStep.stkCount s 0 (by decide)).trans (ReadStep.stkCount _ 6 (by decide))
  unfold State.mergeWay
  dsimp only
  generalize (s.count (stkCtr 0)).count (stkCtr 6) = u at h1 ⊢
  have h2 := TierStep.mergeLine u (fun h s => s.decodeStk (wayAddr w / 64 + h) (2 * w.line + h) { acc with src := 1 }) (wayAddr w / 64) (w.line * 128) m p
    (h1.faults.trans hf) fun _ t ht => ⟨_, t.decodeStk_sound _ _ _ ht⟩
  refine h1.toTierStep.trans (h2.trans ?_)
  exact ((ReadStep.touchWay _ _ _).trans (ReadStep.queueStk _ _)).toTierStep

theorem TierStep.evictBrine (s : State) (b : BrineLine) (hs : s.Serves) : TierStep s (s.evictBrine b) := by
  have hc := s.ddr5Map_lt (b.line * 128)
  have h0 : TierStep s { s with dram := { s.dram with brine := s.dram.brine.filter (fun x => x.line != b.line) } } := TierStep.dram s _ rfl rfl rfl rfl
  unfold State.evictBrine
  dsimp only
  generalize ({ s with dram := { s.dram with brine := s.dram.brine.filter (fun x => x.line != b.line) } } : State) = t at h0 ⊢
  have hb : t.brineRead b (b.line * 128) 128 = (b.pois, t) := by
    unfold State.brineRead; rw [if_pos (h0.sram.trans hs.sram)]
  have hf := h0.faults.trans hs.faults
  simp only [hb]
  split
  · exact h0.trans (TierStep.mergeWay t _ _ _ _ hf)
  · have h1 := h0.trans (TierStep.mergeDdr t b.line b.mask (b.pois &&& b.mask) ⟨none, 12, false, 1⟩ hf)
    refine TierStep.trans ?_ (ReadStep.queueWrite _ _).toTierStep
    split
    · exact h1
    · exact h1.trans (ReadStep.ddrCount _ _ 2 hc (by decide)).toTierStep

theorem TierStep.brineRoom (s : State) (c : Nat) (hs : s.Serves) : TierStep s (s.brineRoom c) := by
  unfold State.brineRoom
  split
  · exact TierStep.refl s
  · split
    · split
      · exact TierStep.refl s
      · exact TierStep.evictBrine s _ hs
    · exact TierStep.refl s

theorem TierStep.brineJoin (s : State) (b : BrineLine) (m : Nat) (hs : s.Serves) : TierStep s (s.brineJoin b m) := by
  have h1 : TierStep s { s with dram := { s.dram with brine := s.dram.brine.filter (fun (x : BrineLine) => x.line != b.line) ++ [b] } } :=
    TierStep.dram s _ rfl rfl rfl rfl
  unfold State.brineJoin
  dsimp only
  generalize ({ s with dram := { s.dram with brine := s.dram.brine.filter (fun (x : BrineLine) => x.line != b.line) ++ [b] } } : State) = t at h1 ⊢
  have e : t.brineFresh (t.ddr5Map (b.line * 128)).1 b m = t := by unfold State.brineFresh; rw [if_pos (h1.sram.trans hs.sram)]
  rw [e]
  split
  · exact h1.trans (TierStep.evictBrine _ b (h1.serves hs))
  · exact h1

theorem TierStep.brineWrite (s : State) (d m p : Nat) (hs : s.Serves) : TierStep s (s.brineWrite d m p) := by
  unfold State.brineWrite
  dsimp only
  split
  · exact TierStep.brineJoin s _ m hs
  · have h1 := TierStep.brineRoom s (s.ddr5Map (d * 128)).1 hs
    exact h1.trans (TierStep.brineJoin _ _ m (h1.serves hs))

/-- A write stores its bytes: memory is as `putBytes` leaves it, no line met a channel out of service, and nothing outside the tiers changed. -/
structure Writes (s : State) (a : Nat) (bs : List PByte) (r : Bool × State) : Prop extends MemStep s r.2 where
  sound : r.1 = false
  mem : r.2.mem = (s.putBytes a bs).mem

theorem Writes.of_tier {s t : State} {a : Nat} {bs : List PByte} (h : TierStep (s.putBytes a bs) t) : Writes s a bs (false, t) :=
  ⟨(MemStep.putBytes bs s a).trans h.toMemStep, rfl, h.mem⟩

theorem State.writeDdr_sound (s : State) (acc : Acc) (a : Nat) (bs : List PByte) (hs : s.Serves) (ha : acc.ok) (hi : s.inCarve a = false) :
    Writes s a bs (s.writeDdr acc a bs) := by
  have hc := s.ddr5Map_lt a
  have ho : s.chanOos (s.ddr5Map a).1 = false := hs.chans _ hc
  have hp : (s.putBytes a bs).Serves := (MemStep.putBytes bs s a).serves hs
  unfold State.writeDdr
  simp only [ho, hi, Bool.false_eq_true, if_false]
  refine Writes.of_tier ?_
  generalize s.putBytes a bs = t at hp ⊢
  cases hpan : acc.pan with
  | none => exact TierStep.brineWrite t _ _ _ hp
  | some p =>
    have hp64 : p < 64 := ha p hpan
    dsimp only
    split
    · exact TierStep.brineWrite t _ _ _ hp
    split
    · exact TierStep.mergeWay t _ _ _ _ hp.faults
    · have h1 : TierStep t (t.count (stkCtr 1)) := (ReadStep.stkCount t 1 (by decide)).toTierStep
      split
      · generalize ((if halfMask (poisMask a bs) 0 = 0 then 0 else 1) + (if halfMask (poisMask a bs) 1 = 0 then 0 else 2)) = x
        have h2 := h1.trans (CacheStep.fill _ p (a / 128) true x (h1.serves hp) hp64).toTierStep
        split
        · exact h2
        · exact h2.trans (TierStep.brineWrite _ _ _ _ (h2.serves hp))
      · exact h1.trans (TierStep.brineWrite _ _ _ _ (h1.serves hp))

theorem State.writeLine_sound (s : State) (acc : Acc) (a : Nat) (bs : List PByte) (hs : s.Serves) (ha : acc.ok) (hi : s.inCarve a = false) :
    Writes s a bs (s.writeLine acc a bs) := by
  have hf : (s.putBytes a bs).dram.faults = [] := (MemStep.putBytes bs s a).faults.trans hs.faults
  unfold State.writeLine
  split
  · exact s.writeDdr_sound acc a bs hs ha hi
  · exact Writes.of_tier ((TierStep.mergeStk _ _ _ _ _ hf).trans ((ReadStep.stkCount _ 6 (by decide)).trans (ReadStep.queueStk _ _)).toTierStep)
  · exact Writes.of_tier (TierStep.mergePlain _ _ _ _ hf)

/-- Of bytes outside the carve-out, none is in it. -/
theorem State.outsideCarve_at {s : State} {a n x : Nat} (h : s.outsideCarve a n = true) (h1 : a ≤ x) (h2 : x < a + n) : s.inCarve x = false := by
  unfold State.outsideCarve at h
  simp only [Bool.or_eq_true, decide_eq_true_eq] at h
  unfold State.inCarve
  simp only [Bool.and_eq_false_iff, decide_eq_false_iff_not]
  have hg : (0 : Nat) < granSize := by decide
  rcases h with (h | h) | h
  · left; right
    rw [Nat.not_le]
    exact Nat.div_lt_of_lt_mul (by rw [Nat.mul_comm]; omega)
  · right
    rw [Nat.not_lt]
    exact (Nat.le_div_iff_mul_le hg).mpr (by omega)
  · left; left; omega

theorem MemStep.inCarve {s t : State} (h : MemStep s t) (a : Nat) : t.inCarve a = s.inCarve a := by
  unfold State.inCarve
  rw [h.rd ⟨⟨by decide, by decide, by decide⟩, Or.inl (by decide)⟩]

/-- A write outside the carve-out stores its bytes and changes nothing outside the DRAM tiers. -/
theorem State.writeMem_sound (s : State) (acc : Acc) (a : Nat) (bs : List PByte) (hs : s.Serves) (ha : acc.ok)
    (hi : s.outsideCarve a bs.length = true) : Writes s a bs (s.writeMem acc a bs) := by
  have H : ∀ (fuel a : Nat) (bs : List PByte) (t : State), bs.length < fuel → t.Serves → (∀ x, a ≤ x → x < a + bs.length → t.inCarve x = false) →
      Writes t a bs (State.writeMemFuel acc fuel a bs t) := by
    intro fuel
    induction fuel with
    | zero => intro a bs t h; omega
    | succ k ih =>
      intro a bs t hn ht hc
      unfold State.writeMemFuel
      split
      · rename_i h0; subst h0; exact ⟨MemStep.refl t, rfl, rfl⟩
      · rename_i h0
        have hl : 0 < bs.length := List.length_pos_iff.mpr h0
        have h1 := t.writeLine_sound acc a (bs.take (128 - a % 128)) ht ha (hc a (Nat.le_refl _) (by omega))
        have hd : (bs.drop (128 - a % 128)).length < k := by rw [List.length_drop]; omega
        have h2 := ih (a + (bs.take (128 - a % 128)).length) (bs.drop (128 - a % 128)) _ hd (h1.toMemStep.serves ht) (fun x hx1 hx2 => by
          rw [h1.toMemStep.inCarve]
          rw [List.length_take, List.length_drop] at hx2
          exact hc x (by omega) (by omega))
        refine ⟨h1.toMemStep.trans h2.toMemStep, ?_, ?_⟩
        · dsimp only; rw [h1.sound, h2.sound]; rfl
        · dsimp only
          rw [h2.mem]
          conv_rhs => rw [← List.take_append_drop (128 - a % 128) bs, State.putBytes_append]
          exact State.putBytes_mem _ _ h1.mem
  have hr := ReadStep.referenced s a bs.length
  have h := H (bs.length + 1) a bs _ (by omega) (hr.serves hs) (fun x h1 h2 => by
    rw [hr.inCarve]; exact State.outsideCarve_at hi h1 h2)
  exact ⟨hr.toMemStep.trans h.toMemStep, h.sound, h.mem.trans (State.putBytes_mem bs a hr.mem)⟩

end Sys2Proof.Machine
end

