-- ==== Sys2Proof/Laws/Fetch.lean ====
section
/-!
SUPPORT. The fetch of an instruction (R69): it reads memory that is sound and counts, and an instruction that is fetched comes to what its body
comes to.
-/
namespace Sys2Proof.Machine
open Sys2Proof Host

/-! ### What is fetched -/

/-- The lines of a program that the caches take change no memory. -/
theorem ReadStep.icKeep (s : State) (r tag d : Nat) : ReadStep s (s.icKeep r tag d) :=
  ⟨⟨⟨rfl, fun _ _ _ => rfl, rfl, rfl, id, id⟩, rfl⟩, rfl, fun _ => id⟩

theorem ReadStep.foldl {α : Type} (g : State → α → State) (hg : ∀ (t : State) (x : α), t.Sound → ReadStep t (g t x)) :
    ∀ (l : List α) (s : State), s.Sound → ReadStep s (l.foldl g s) := by
  intro l
  induction l with
  | nil => exact fun s _ => ReadStep.refl s
  | cons x t ih =>
    intro s hs
    have h := hg s x hs
    exact h.trans (ih _ (h.sound hs))

theorem ReadStep.icLoad (s : State) (r tag : Nat) (keep : Bool) (ds : List Nat) (hs : s.Sound) (ht : tag ≤ 64) : ReadStep s (s.icLoad r tag keep ds) := by
  refine ReadStep.foldl _ (fun t d h => ?_) ds s hs
  have h1 := (t.readMem_sound ⟨if tag = 64 then none else some tag, 8, false, 0⟩ (t.served (d * 128)) 128 h (by
    intro p hp
    dsimp only at hp
    split at hp
    · simp at hp
    · simp only [Option.some.injEq] at hp; omega)).2
  dsimp only
  split
  · exact h1.trans (ReadStep.icKeep _ r tag d)
  · exact h1

/-- A fetch (R69) reads memory that is sound, and then counts. -/
theorem Fetches.fetched {s : State} {opc : Nat} {f : Fetch} {e : Entry} (h : Fetches s opc f e) :
    s.countFetch f e = s ∨ ∃ u, ReadStep s u ∧ s.Sound ∧ (s.countFetch f e = u.count (icHitCtr (f.rake / 16)) ∨ s.countFetch f e = u.count (icMissCtr (f.rake / 16))) := by
  have ht : codeTag (s.qidOf f.rake) (s.panOf f.rake) ≤ 64 ∨ e.inl = true := by
    rcases h.code with hi | ⟨_, hp⟩
    · exact Or.inr hi
    · left; unfold codeTag; split <;> omega
  unfold State.countFetch State.fetchCode
  split
  · exact Or.inl rfl
  · rename_i hi
    rcases h.code with hj | ⟨hs, _⟩
    · exact absurd hj hi
    have ht := ht.resolve_right hi
    right
    dsimp only
    split
    · exact ⟨_, ReadStep.foldl _ (fun t d _ => ReadStep.icKeep t f.rake _ d) _ s hs, hs, Or.inl rfl⟩
    · generalize codeTag (s.qidOf f.rake) (s.panOf f.rake) = tag at ht ⊢
      have h1 (ds : List Nat) := ReadStep.icLoad s f.rake tag (s.on (Csr.PROGCTL_icache_en (f.rake / 16))) ds hs ht
      exact ⟨_, (h1 _).trans (ReadStep.icLoad _ f.rake tag _ _ ((h1 _).sound hs) ht), hs, Or.inr rfl⟩

theorem Fetches.keeps {s : State} {opc : Nat} {f : Fetch} {e : Entry} (h : Fetches s opc f e) : s.Keeps (s.countFetch f e) (f.rake / 16) := by
  rcases h.fetched with e | ⟨u, hu, _, e | e⟩ <;> rw [e]
  · exact State.Keeps.refl s _
  · refine (hu.keeps _).trans ?_
    apply State.Keeps.count <;> simp [icHitCtr, Csr.ICHITCNT_count, Csr.PROGSTAT_ichit_ovf]
  · refine (hu.keeps _).trans ?_
    apply State.Keeps.count <;> simp [icMissCtr, Csr.ICMISSCNT_count, Csr.PROGSTAT_icmiss_ovf]

theorem Fetches.mem {s : State} {opc : Nat} {f : Fetch} {e : Entry} (h : Fetches s opc f e) : (s.countFetch f e).mem = s.mem := by
  rcases h.fetched with e | ⟨u, hu, _, e | e⟩ <;> rw [e]
  · rw [State.count_mem]; exact hu.mem
  · rw [State.count_mem]; exact hu.mem

/-- An issued instruction comes to what its body comes to. -/
theorem State.runInsn_issues {s : State} {opc : Nat} {f : Fetch} {e : Entry} (h : Issues s opc f e) (ins : Instr) (body : Env → State → Eff) :
    s.runInsn opc f ins false body
      = (((s.envOf opc f ins false e).tagged (s.countFetch f e) body).run (s.envOf opc f ins false e)).lateGo := by
  have h1 : ((s.queue (s.rake f.rake).qid).ent (s.rake f.rake).pos) = some e := h.hand
  have h2 : ¬ (e.codeWords < e.ctx.pc + 1 + (Insn.ofFetch opc f).xw) := Nat.not_lt.mpr h.room
  have h3 : (privileged opc && !isRm (s.rake f.rake).qid) = false := by
    cases hp : privileged opc
    · rfl
    · have h0 : isRm (s.rake f.rake).qid = true := h.level hp
      simp [h0]
  have h4 : (e.ctx.pred (Insn.ofFetch opc f).g == (Insn.ofFetch opc f).gn) = false := by
    have := h.guard
    simpa [Insn.ofFetch] using this
  have h5 : (if isRm (s.rake f.rake).qid then none else s.confirmCode e (1 + (Insn.ofFetch opc f).xw)) = none := by
    split
    · rfl
    · rename_i hr; exact h.stands.resolve_left hr
  unfold State.runInsn
  simp only [h1, h.busy, h.free, h.granted, h.decodes, h2, Bool.not_true, Bool.false_or, Bool.or_false, decide_false, ite_false, Bool.false_eq_true,
    State.envOf, Env.rm, h3, h4, h5, State.countFetch, State.qidOf, State.panOf, bne_self_eq_false]
  rfl

/-- The instruction's own effect: its body completes at once in `t`, seen with the current configuration set. -/
theorem GoesOn.of_ok {i : Instr} {f : Fetch} {s t m : State} {e : Entry} {opc st : Nat} {c : Ctx} {ins : Instr} {body : Env → State → Eff}
    (h : Issues s opc f e) (hi : exec i s = .next (s.runInsn opc f ins false body))
    (hb : (s.envOf opc f ins false e).tagged (s.countFetch f e) body = .ok st c t) (hk : s.Keeps t (f.rake / 16)) (hm : t.mem = m.mem) :
    GoesOn i f s e st (e.ctx.pc + 1 + f.xw) c m := by
  refine GoesOn.of_complete (v := s.envOf opc f ins false e) h ?_ rfl rfl rfl h.more hk hm
  have hc : t.jClose f.rake (rmInst (s.qidOf f.rake)) st = t := State.jClose_closed _ _ _ _ (by rw [hk.rm]; exact h.closed)
  rw [hi, State.runInsn_issues h, hb]
  show Host.Outcome.next (State.lateGo (State.complete1 (t.jClose f.rake (rmInst (s.qidOf f.rake)) st) _ _ _ _)) = _
  rw [hc]
  rfl

/-- As `GoesOn.of_ok`, for a body that jumps. -/
theorem GoesOn.of_jump {i : Instr} {f : Fetch} {s t m : State} {e : Entry} {opc pc : Nat} {c : Ctx} {ins : Instr} {body : Env → State → Eff}
    (h : Issues s opc f e) (hi : exec i s = .next (s.runInsn opc f ins false body))
    (hb : (s.envOf opc f ins false e).tagged (s.countFetch f e) body = .jump pc c t) (hpc : pc < e.codeWords)
    (hk : s.Keeps t (f.rake / 16)) (hm : t.mem = m.mem) : GoesOn i f s e Sts.ok pc c m := by
  refine GoesOn.of_complete (v := s.envOf opc f ins false e) h ?_ rfl rfl rfl hpc hk hm
  rw [hi, State.runInsn_issues h, hb]
  rfl

/-- A body that leaves the state alone, whichever configuration set it sees. -/
theorem Env.tagged_pure {v : Env} {s : State} {body : Env → State → Eff} {f : State → Eff} (hf : ∀ (g : State → State) (x : State), (f x).over g = f (g x))
    (hb : ∀ x, body v x = f x) : ∃ t : State, v.tagged s body = f t ∧ (v.rm = true → t = s) ∧ (v.rm = false → t = (s.viewSet v.e.set).viewSet (s.viewSet v.e.set).liveSet) := by
  unfold Env.tagged
  cases hv : v.rm
  · exact ⟨_, by simp only [Bool.false_eq_true, if_false]; rw [hb, hf], by simp, fun _ => rfl⟩
  · exact ⟨s, by simp [hb], fun _ => rfl, by simp⟩

theorem Env.tagged_ok {v : Env} {s : State} {body : Env → State → Eff} {st : Nat} {c : Ctx} (k : Nat) (hk : k < 16) (hs : s.activeSet = s.liveSet)
    (hb : ∀ x, body v x = .ok st c x) : ∃ t : State, v.tagged s body = .ok st c t ∧ s.Keeps t k ∧ t.mem = s.mem := by
  obtain ⟨t, h1, h2, h3⟩ := Env.tagged_pure (f := fun x => Eff.ok st c x) (v := v) (s := s) (fun _ _ => rfl) hb
  refine ⟨t, h1, ?_⟩
  cases hv : v.rm
  · rw [h3 hv]; exact ⟨State.Keeps.viewed hk hs (State.Keeps.refl _ _), rfl⟩
  · rw [h2 hv]; exact ⟨State.Keeps.refl _ _, rfl⟩

theorem Env.tagged_jump {v : Env} {s : State} {body : Env → State → Eff} {pc : Nat} {c : Ctx} (k : Nat) (hk : k < 16) (hs : s.activeSet = s.liveSet)
    (hb : ∀ x, body v x = .jump pc c x) : ∃ t : State, v.tagged s body = .jump pc c t ∧ s.Keeps t k ∧ t.mem = s.mem := by
  obtain ⟨t, h1, h2, h3⟩ := Env.tagged_pure (f := fun x => Eff.jump pc c x) (v := v) (s := s) (fun _ _ => rfl) hb
  refine ⟨t, h1, ?_⟩
  cases hv : v.rm
  · rw [h3 hv]; exact ⟨State.Keeps.viewed hk hs (State.Keeps.refl _ _), rfl⟩
  · rw [h2 hv]; exact ⟨State.Keeps.refl _ _, rfl⟩

theorem Issues.counted {s : State} {opc : Nat} {f : Fetch} {e : Entry} (h : Issues s opc f e) :
    (s.countFetch f e).activeSet = (s.countFetch f e).liveSet := by
  have hk := h.keeps
  have hfr : (f.rake : Nat) / 16 < 16 := by have := f.rake.isLt; omega
  rw [hk.activeSet hfr, hk.liveSet hfr]; exact h.epoch

/-- An instruction of registers and predicates only: its body completes in context `c` and changes nothing of the state. -/
theorem GoesOn.of_pure {i : Instr} {f : Fetch} {s : State} {e : Entry} {opc st : Nat} {c : Ctx} {ins : Instr} {body : Env → State → Eff}
    (h : Issues s opc f e) (hi : exec i s = .next (s.runInsn opc f ins false body))
    (hb : ∀ x, body (s.envOf opc f ins false e) x = .ok st c x) : GoesOn i f s e st (e.ctx.pc + 1 + f.xw) c s := by
  have hfr : (f.rake : Nat) / 16 < 16 := by have := f.rake.isLt; omega
  obtain ⟨t, h1, h2, h3⟩ := Env.tagged_ok (f.rake / 16) hfr h.counted hb
  exact GoesOn.of_ok h hi h1 (h.keeps.trans h2) (h3.trans h.mem)

/-- A branch: its body jumps to a word of the program and changes nothing of the state. -/
theorem GoesOn.of_branch {i : Instr} {f : Fetch} {s : State} {e : Entry} {opc pc : Nat} {c : Ctx} {ins : Instr} {body : Env → State → Eff}
    (h : Issues s opc f e) (hi : exec i s = .next (s.runInsn opc f ins false body)) (hpc : pc < e.codeWords)
    (hb : ∀ x, body (s.envOf opc f ins false e) x = .jump pc c x) : GoesOn i f s e Sts.ok pc c s := by
  have hfr : (f.rake : Nat) / 16 < 16 := by have := f.rake.isLt; omega
  obtain ⟨t, h1, h2, h3⟩ := Env.tagged_jump (f.rake / 16) hfr h.counted hb
  exact GoesOn.of_jump h hi h1 hpc (h.keeps.trans h2) (h3.trans h.mem)

end Sys2Proof.Machine
end

