-- ==== Sys2Proof/Laws/Access.lean ====
section
/-!
SUPPORT. What reading and writing operands comes to where they are this node's own memory and nothing stands in the way.
-/
namespace Sys2Proof.Machine
open Sys2Proof Host

/-- The wait of a rake's access that waits for nothing. -/
def Wait.Idle (w : Wait) (r : Nat) : Prop := w.who = WaitWho.rake r ∧ w.left = 0 ∧ w.stat = Sts.ok ∧ w.fin = none ∧ w.asked = false

/-- State `t` is reached within an instruction of rake `r` that began in `s`: nothing but memory, the tiers, and the rake's own wait
has changed. -/
structure Going (s t : State) (r : Nat) : Prop where
  keeps : ∀ k, s.Keeps t k
  still : ∀ f : Fld, f.still → t.rd f = s.rd f
  serves : t.Serves
  coh : t.coh = s.coh
  shoots : t.shoots = s.shoots
  waits : t.waits = [] ∨ ∃ w, t.waits = [w] ∧ w.Idle r

theorem Going.start {s : State} (h : s.Serves) (hw : s.waits = []) (r : Nat) : Going s s r :=
  ⟨fun _ => State.Keeps.refl s _, fun _ _ => rfl, h, rfl, rfl, Or.inl hw⟩

theorem Going.step {s t u : State} {r : Nat} (h : Going s t r) (g : MemStep t u) : Going s u r :=
  ⟨fun k => (h.keeps k).trans (g.keeps k), fun _ hf => (g.rd hf).trans (h.still _ hf), g.serves h.serves, g.coh.trans h.coh,
    g.shoots.trans h.shoots, by rw [g.waits]; exact h.waits⟩

/-- Fields of registers that no memory access writes. -/
theorem Csr.still_of {f : Fld} (h : f.lo < 64) (h1 : f.off < 0x2800000) (h2 : f.off ≠ 0x100068) : f.still := by
  refine ⟨⟨h, by omega, h2⟩, Or.inl h1⟩

theorem Going.nodeId {s t : State} {r : Nat} (h : Going s t r) : t.nodeId = s.nodeId :=
  h.still Csr.NODEID_node_id (Csr.still_of (by decide) (by decide) (by decide))

theorem Going.isLocal {s t : State} {r : Nat} (h : Going s t r) (g : Seg) : t.isLocal g = s.isLocal g := by
  unfold State.isLocal; rw [h.nodeId]

theorem Going.homeLines {s t : State} {r : Nat} (h : Going s t r) (g : Seg) : t.homeLines g = s.homeLines g := by
  unfold State.homeLines; rw [h.nodeId]

theorem Going.panMirrored {s t : State} {r n : Nat} (h : Going s t r) (hn : n < 64) : t.panMirrored n = s.panMirrored n := by
  unfold State.panMirrored State.on
  rw [h.still]
  apply Csr.still_of <;> simp only [Csr.PANCTL_mirrored] <;> omega

theorem Going.panDurable {s t : State} {r n : Nat} (h : Going s t r) (hn : n < 64) : t.panDurable n = s.panDurable n := by
  unfold State.panDurable State.on
  rw [h.still]
  apply Csr.still_of <;> simp only [Csr.PANCTL_durable] <;> omega

theorem Going.outsideCarve {s t : State} {r : Nat} (h : Going s t r) (a n : Nat) : t.outsideCarve a n = s.outsideCarve a n := by
  unfold State.outsideCarve
  rw [h.still _ (Csr.still_of (by decide) (by decide) (by decide))]

theorem linePc_lt (d : Nat) : linePc d < 64 := stkPc_lt _

/-- Where nothing is locked or held, no line waits in its DRAM controller. -/
theorem State.Serves.held {s : State} (h : s.Serves) (d : Nat) : s.dramHolds d = false := by
  have hl (x : Nat) : s.lineHeld x = false := by
    have := linePc_lt x
    unfold State.lineHeld State.bit
    rw [h.released _ (by omega)]
    exact Nat.zero_testBit _
  unfold State.dramHolds
  split
  · exact hl d
  · simp only [h.unlocked.chan, hl, List.contains_nil, Bool.and_false, Bool.or_false, Bool.false_or]
    split <;> rfl
  · rfl

theorem Going.conflicts {s t : State} {r : Nat} (h : Going s t r) (hs : s.Serves) (hm : t.mem = s.mem) (b : Bool) (d : Nat) :
    t.conflicts b d = s.conflicts b d := by
  unfold State.conflicts
  rw [h.serves.held, hs.held]
  unfold State.txn State.copying State.dirEnt State.dirWays State.word State.bytes State.byte
  rw [h.coh, h.shoots, hm]

theorem State.conflicts_read {s : State} {d : Nat} (h : s.conflicts true d = false) : s.conflicts false d = false := by
  unfold State.conflicts at *
  simp only [Bool.or_eq_false_iff, Bool.true_and, Bool.false_and, if_true, Bool.false_eq_true, if_false, bne_eq_false_iff_eq, beq_eq_false_iff_ne] at *
  obtain ⟨⟨⟨⟨h0, h1⟩, h2⟩, _⟩, h4⟩ := h
  refine ⟨⟨⟨⟨h0, h1⟩, h2⟩, trivial⟩, ?_, ?_⟩ <;> rw [h4] <;> decide

/-! ### The rake's own wait -/

/-- What serves depends on the tiers and the registers only. -/
theorem State.Serves.of_dram {s t : State} (h : s.Serves) (hd : t.dram = s.dram) (hr : t.regs = s.regs) : t.Serves := by
  have rd (f : Fld) : t.rd f = s.rd f := by
    unfold State.rd State.activeSet State.rdSet; rw [hr]
  refine ⟨by rw [hd]; exact h.faults, fun c hc => ?_, by unfold State.waysOk; rw [hd]; exact h.ways, by rw [hd]; exact h.sram,
    by unfold State.unlocked; rw [hd]; exact h.unlocked, fun c hc => (rd _).trans (h.released c hc)⟩
  unfold State.chanOos; rw [rd]; exact h.chans c hc

theorem State.Sound.of_dram {s t : State} (h : s.Sound) (hd : t.dram = s.dram) (hr : t.regs = s.regs) : t.Sound :=
  ⟨h.toServes.of_dram hd hr, by rw [hd]; exact h.poison, by rw [hd]; exact h.brine⟩

theorem State.needWait_going {s t : State} {r : Nat} (h : Going s t r) :
    ∃ w, (t.needWait (WaitWho.rake r)).1 = w.id ∧ (t.needWait (WaitWho.rake r)).2.waits = [w] ∧ w.Idle r
      ∧ Going s (t.needWait (WaitWho.rake r)).2 r ∧ (t.needWait (WaitWho.rake r)).2.mem = t.mem
      ∧ (t.needWait (WaitWho.rake r)).2.dram = t.dram ∧ (t.needWait (WaitWho.rake r)).2.regs = t.regs := by
  unfold State.needWait
  rcases h.waits with hw | ⟨w, hw, hi⟩
  · rw [hw]
    refine ⟨Wait.fresh t.fab.nextId (WaitWho.rake r), rfl, rfl, ⟨rfl, rfl, rfl, rfl, rfl⟩, ?_, rfl, rfl, rfl⟩
    refine ⟨fun k => ?_, fun f hf => (h.still f hf).symm ▸ rfl, h.serves.of_dram rfl rfl, h.coh, h.shoots, Or.inr ⟨_, rfl, rfl, rfl, rfl, rfl, rfl⟩⟩
    have := h.keeps k
    exact ⟨this.regs, this.pending, this.stamp, this.claims, this.grans, this.pans, this.queues, this.lists, this.rakes, this.late, this.heap,
      this.links, this.rm, this.twin, this.sluice, this.sec, this.flash, this.cars, this.board, this.mgmt, this.level⟩
  · have hf : t.waits.find? (fun x => x.who == WaitWho.rake r) = some w := by
      rw [hw]; simp [hi.1]
    rw [hf]
    exact ⟨w, rfl, hw, hi, h, rfl, rfl, rfl⟩

theorem Going.setWait {s t : State} {r : Nat} {w : Wait} (h : Going s t r) (hw : t.waits = [w]) (f : Wait → Wait)
    (hf : (f w).Idle r) : Going s (t.setWait w.id f) r ∧ (t.setWait w.id f).waits = [f w] := by
  have e : (t.setWait w.id f).waits = [f w] := by unfold State.setWait; rw [hw]; simp
  refine ⟨⟨fun k => ?_, h.still, h.serves.of_dram rfl rfl, h.coh, h.shoots, Or.inr ⟨f w, e, hf⟩⟩, e⟩
  have := h.keeps k
  exact ⟨this.regs, this.pending, this.stamp, this.claims, this.grans, this.pans, this.queues, this.lists, this.rakes, this.late, this.heap,
    this.links, this.rm, this.twin, this.sluice, this.sec, this.flash, this.cars, this.board, this.mgmt, this.level⟩

/-! ### Reading -/

/-- The stretches lie in this node's own memory outside the carve-out, and no partner holds a line of theirs. -/
structure Free (s : State) (gs : List Seg) : Prop where
  here : ∀ g ∈ gs, g.zero = false ∧ s.isLocal g = true ∧ s.outsideCarve (g.addr % 2 ^ 52) g.len = true
  free : ∀ g ∈ gs, ∀ d ∈ s.homeLines g, s.conflicts true d = false

theorem Direct.all {s : State} {n : Nat} {e : Entry} {ls : List Loc} (h : Direct s n e ls) : Free s (segsOf ls) :=
  ⟨fun g hg => by obtain ⟨l, h1, h2⟩ := List.mem_flatMap.mp hg; exact h.here l h1 g h2,
   fun g hg => by obtain ⟨l, h1, h2⟩ := List.mem_flatMap.mp hg; exact h.free l h1 g h2⟩

/-- The bytes of stretches of this node, as they are stored. -/
def State.storedSegs (s : State) (gs : List Seg) : List PByte := gs.flatMap (fun g => s.stored (g.addr % 2 ^ 52) g.len)

theorem State.served_none (s : State) (h : s.shoots = []) (a : Nat) : s.served a = a := by
  unfold State.served; rw [h]; rfl

theorem filter_none {α : Type} {p : α → Bool} {l : List α} (h : ∀ x ∈ l, p x = false) : l.filter p = [] := by
  rw [List.filter_eq_nil_iff]; intro a ha; simp [h a ha]

theorem State.gather_direct {s t : State} {r : Nat} {w : Wait} {gs : List Seg} {pan : Option Nat} (nt : Bool) (h : Going s t r)
    (hw : t.waits = [w]) (hi : w.Idle r) (hs : t.Sound) (h0 : s.Serves) (hf : Free s gs) (hm : t.mem = s.mem)
    (hsh : s.shoots = []) (hp : ∀ p, pan = some p → p < 64) :
    ∃ u, t.gather w.id pan nt gs = .bytes (s.storedSegs gs) u ∧ Going s u r ∧ u.mem = s.mem ∧ u.Sound := by
  have hwait : t.wait w.id = some w := by unfold State.wait; rw [hw]; simp
  have hot : (gs.flatMap t.homeLines).filter (t.conflicts false) = [] := by
    refine filter_none fun d hd => ?_
    obtain ⟨g, h1, h2⟩ := List.mem_flatMap.mp hd
    rw [h.homeLines] at h2
    rw [h.conflicts h0 hm]
    exact State.conflicts_read (hf.free g h1 d h2)
  have far : gs.filter (fun g => !g.zero && !t.isLocal g) = [] := by
    refine filter_none fun g hg => ?_
    rw [h.isLocal, (hf.here g hg).2.1]; simp
  obtain ⟨h1, e1⟩ := h.setWait hw (fun w => { w with lines := [] }) hi
  have s1 : (t.setWait w.id (fun w => { w with lines := [] })).Sound := hs.of_dram rfl rfl
  have m1 : (t.setWait w.id (fun w => { w with lines := [] })).mem = s.mem := hm
  have gok : Sts.goesOn w.stat = true := by rw [hi.2.2.1]; rfl
  unfold State.gather
  simp only [hi.1, hwait, Option.getD_some, hot, far, List.flatMap_nil, List.filter_nil, ne_eq, not_true_eq_false, if_false, gok, Bool.not_true, Bool.false_eq_true]
  generalize t.setWait w.id (fun w => { w with lines := [] }) = t1 at h1 s1 m1
  have H : ∀ (gs : List Seg) (acc : List PByte) (t : State), Going s t r → t.Sound → t.mem = s.mem →
      (∀ g ∈ gs, g.zero = false ∧ s.isLocal g = true ∧ s.outsideCarve (g.addr % 2 ^ 52) g.len = true) →
      ∃ u, gs.foldl (fun (r : List PByte × State) g =>
        if g.zero then (r.1 ++ List.replicate g.len (0, false), r.2)
        else if t1.isLocal g then
          let (x, s) := r.2.readMem ⟨pan, 8, nt, 0⟩ (r.2.served (g.addr % 2 ^ 52)) g.len
          (r.1 ++ x, s)
        else (r.1 ++ ((w.have_ g.addr g.len).getD []), r.2)) (acc, t) = (acc ++ s.storedSegs gs, u) ∧ Going s u r ∧ u.mem = s.mem ∧ u.Sound := by
    intro gs
    induction gs with
    | nil => intro acc t ht hs hm _; exact ⟨t, by simp [State.storedSegs], ht, hm, hs⟩
    | cons g gt ih =>
      intro acc t ht hs hm hl
      obtain ⟨hz, hloc, _⟩ := hl g (by simp)
      have rd := t.readMem_sound ⟨pan, 8, nt, 0⟩ (g.addr % 2 ^ 52) g.len hs hp
      have hsv : t.served (g.addr % 2 ^ 52) = g.addr % 2 ^ 52 := t.served_none (ht.shoots.trans hsh) _
      obtain ⟨u, e, h2, h3, h4⟩ := ih (acc ++ s.stored (g.addr % 2 ^ 52) g.len) _ (ht.step rd.2.toMemStep) (rd.2.sound hs) (rd.2.mem.trans hm)
        (fun x hx => hl x (by simp [hx]))
      refine ⟨u, ?_, h2, h3, h4⟩
      rw [List.foldl_cons]
      simp only [hz, h1.isLocal, hloc, Bool.false_eq_true, if_false, if_true, hsv]
      have e0 : (t.readMem ⟨pan, 8, nt, 0⟩ (g.addr % 2 ^ 52) g.len).1 = s.stored (g.addr % 2 ^ 52) g.len := rd.1.trans (State.stored_of_mem hm _ _)
      rw [e0]
      simp only [h1.isLocal] at e
      rw [e]
      simp [State.storedSegs]
  obtain ⟨u, e, h2, h3, h4⟩ := H gs [] t1 h1 s1 m1 hf.here
  refine ⟨u, ?_, h2, h3, h4⟩
  rw [e]
  simp

/-- Reading operands in this node's own memory goes on with the bytes that are stored there. -/
theorem Env.read_direct {s t : State} {v : Env} {ls : List Loc} (nt : Bool) (k : List PByte → State → Eff) (h : Going s t v.r) (hs : t.Sound)
    (h0 : s.Serves) (hf : Free s (segsOf ls)) (hm : t.mem = s.mem) (hsh : s.shoots = []) (hp : v.pan < 64) :
    ∃ u, v.read t nt ls k = k (s.storedSegs (segsOf ls)) u ∧ Going s u v.r ∧ u.mem = s.mem ∧ u.Sound := by
  obtain ⟨w, e1, e2, hi, h1, m1, d1, r1⟩ := State.needWait_going h
  have s1 : (t.needWait (WaitWho.rake v.r)).2.Sound := hs.of_dram d1 r1
  obtain ⟨u, e, h2, h3, h4⟩ := State.gather_direct (pan := if v.rm then none else some v.pan) nt h1 e2 hi s1 h0 hf (m1.trans hm) hsh (by
    intro p hp'; split at hp'
    · simp at hp'
    · simp at hp'; omega)
  refine ⟨u, ?_, h2, h3, h4⟩
  unfold Env.read
  simp only [e1, e]

/-! ### Writing -/

theorem State.putSegs_mem (ws : List (Seg × List PByte)) : ∀ {s t : State}, s.mem = t.mem → (s.putSegs ws).mem = (t.putSegs ws).mem := by
  induction ws with
  | nil => intro s t h; exact h
  | cons x l ih => intro s t h; exact ih (State.putBytes_mem x.2 _ h)

theorem State.store_direct {s t : State} {r n : Nat} (nt : Bool) (h : Going s t r) (hn : n < 64) (hd : s.panDurable n = false) (a : Nat)
    (bs : List PByte) (o : DurOwner) (hc : s.outsideCarve a bs.length = true) :
    ∃ u, t.store ⟨some n, 8, nt, 0⟩ (some n) a bs o = (false, u) ∧ Going s u r ∧ u.mem = (t.putBytes a bs).mem ∧ u.waits = t.waits := by
  have w := t.writeMem_sound ⟨some n, 8, nt, 0⟩ a bs h.serves (by intro p hp; simp at hp; omega)
    ((h.outsideCarve _ _).trans hc)
  have hg := h.step w.toMemStep
  refine ⟨_, ?_, hg, w.mem, w.toMemStep.waits⟩
  unfold State.store
  simp only [hg.panDurable hn, hd, Bool.false_eq_true, if_false, w.sound]

theorem State.outsideCarve_le {s : State} {a m n : Nat} (h : s.outsideCarve a n = true) (hm : m ≤ n) : s.outsideCarve a m = true := by
  unfold State.outsideCarve at *
  simp only [Bool.or_eq_true, decide_eq_true_eq] at *
  omega

theorem State.stores_direct {s t : State} {r n : Nat} {w : Wait} {ws : List (Seg × List PByte)} (nt : Bool) (o : DurOwner) (h : Going s t r)
    (hw : t.waits = [w]) (hi : w.Idle r) (h0 : s.Serves) (hf : Free s (ws.map (·.1))) (hl : ∀ x ∈ ws, x.2.length ≤ x.1.len) (hm : t.mem = s.mem)
    (hsh : s.shoots = []) (hn : n < 64) (hmi : s.panMirrored n = false) (hd : s.panDurable n = false) :
    ∃ u w', t.stores w.id (some n) nt o ws = .sent false u ∧ Going s u r ∧ u.mem = (t.putSegs ws).mem ∧ u.waits = [w'] ∧ w'.Idle r
      ∧ w'.id = w.id := by
  have hwait : t.wait w.id = some w := by unfold State.wait; rw [hw]; simp
  have hot : (ws.flatMap (fun x => t.homeLines x.1)).eraseDups.filter (fun d => t.conflicts true d || t.heldFrom w.id d) = [] := by
    refine filter_none fun d hd => ?_
    obtain ⟨x, h1, h2⟩ := List.mem_flatMap.mp (List.mem_eraseDups.mp hd)
    rw [h.homeLines] at h2
    rw [h.conflicts h0 hm, hf.free x.1 (List.mem_map_of_mem h1) d h2]
    unfold State.heldFrom
    rw [hw]
    simp
  have far : t.farParts ws = [] := by
    unfold State.farParts
    rw [filter_none]
    · rfl
    · intro x hx
      rw [h.isLocal, (hf.here x.1 (List.mem_map_of_mem hx)).2.1]; rfl
  have gok : Sts.goesOn w.stat = true := by rw [hi.2.2.1]; rfl
  obtain ⟨h1, e1⟩ := h.setWait hw (fun w => { w with lines := [], sent := true, todo := (false, []) }) hi
  have m1 : (t.setWait w.id (fun w => { w with lines := [], sent := true, todo := (false, []) })).mem = t.mem := rfl
  unfold State.stores State.storesGo
  simp only [hwait, Option.getD_some, hi.2.2.2.2, hi.2.1, far, gok, hot, ne_eq, not_true_eq_false, if_false, if_true, Bool.false_eq_true, Bool.not_true]
  generalize t.setWait w.id (fun w => { w with lines := [], sent := true, todo := (false, []) }) = t1 at h1 e1 m1
  have hi1 : ({ w with lines := [], sent := true, todo := (false, []) } : Wait).Idle r := hi
  have hid : ({ w with lines := [], sent := true, todo := (false, []) } : Wait).id = w.id := rfl
  generalize ({ w with lines := [], sent := true, todo := (false, []) } : Wait) = w1 at e1 hi1 hid
  have H : ∀ (ws : List (Seg × List PByte)) (t1 : State) (w1 : Wait), Going s t1 r → t1.waits = [w1] → w1.Idle r → w1.id = w.id →
      (∀ x ∈ ws, s.isLocal x.1 = true ∧ s.outsideCarve (x.1.addr % 2 ^ 52) x.2.length = true) →
      ∃ u w', ws.foldl (State.storeStep w.id (some n) nt o) (false, t1) = (false, u)
        ∧ Going s u r ∧ u.mem = (t1.putSegs ws).mem ∧ u.waits = [w'] ∧ w'.Idle r ∧ w'.id = w.id := by
    intro ws
    induction ws with
    | nil => intro t1 w1 h1 e1 hi1 hid _; exact ⟨t1, w1, rfl, h1, rfl, e1, hi1, hid⟩
    | cons x l ih =>
      intro t1 w1 h1 e1 hi1 hid hl
      have hx : t1.isLocal x.1 = true := by rw [h1.isLocal]; exact (hl x (by simp)).1
      have hsv : t1.served (x.1.addr % 2 ^ 52) = x.1.addr % 2 ^ 52 := t1.served_none (h1.shoots.trans hsh) _
      obtain ⟨u, eu, hu, mu, wu⟩ := State.store_direct nt h1 hn hd (x.1.addr % 2 ^ 52) x.2 o (hl x (by simp)).2
      have hmu : u.panMirrored n = false := by rw [hu.panMirrored hn]; exact hmi
      obtain ⟨h2, e2⟩ := hu.setWait (wu.trans e1) (fun w => { w with left := w.left + 0 }) hi1
      obtain ⟨u', w', a1, a2, a3, a4, a5, a6⟩ := ih _ _ h2 e2 hi1 hid (fun y hy => hl y (by simp [hy]))
      refine ⟨u', w', ?_, a2, a3.trans (State.putSegs_mem l mu), a4, a5, a6⟩
      rw [List.foldl_cons]
      have hstep : State.storeStep w.id (some n) nt o (false, t1) x = (false, u.setWait w1.id (fun w => { w with left := w.left + 0 })) := by
        rw [hid]
        unfold State.storeStep
        simp only [hx, if_true, hsv, eu, hmu, Bool.false_eq_true, if_false, Bool.or_false]
      rw [hstep]
      exact a1
  obtain ⟨u, w', a1, a2, a3, a4, a5, a6⟩ := H ws t1 w1 h1 e1 hi1 hid fun x hx =>
    ⟨(hf.here x.1 (List.mem_map_of_mem hx)).2.1, State.outsideCarve_le (hf.here x.1 (List.mem_map_of_mem hx)).2.2 (hl x hx)⟩
  refine ⟨u, w', ?_, a2, a3.trans (State.putSegs_mem ws m1), a4, a5, a6⟩
  rw [a1]

theorem overSegs_fst (gs : List Seg) : ∀ bs : List PByte, (overSegs gs bs).map (·.1) = gs := by
  induction gs with
  | nil => intro bs; rfl
  | cons g t ih => intro bs; simp [overSegs, ih]

theorem overSegs_len (gs : List Seg) : ∀ (bs : List PByte), ∀ x ∈ overSegs gs bs, x.2.length ≤ x.1.len := by
  induction gs with
  | nil => intro bs x hx; simp [overSegs] at hx
  | cons g t ih =>
    intro bs x hx
    rcases List.mem_cons.mp hx with e | e
    · subst e; exact List.length_take_le _ _
    · exact ih _ x e

/-- Storing over operands in this node's own memory completes at once, with the bytes stored. -/
theorem Env.write_direct {s t : State} {v : Env} {ws : List (Seg × List PByte)} (nt : Bool) (st : Nat) (c : Ctx) (h : Going s t v.r)
    (h0 : s.Serves) (hf : Free s (ws.map (·.1))) (hl : ∀ x ∈ ws, x.2.length ≤ x.1.len) (hm : t.mem = s.mem) (hsh : s.shoots = []) (hp : v.pan < 64)
    (hrm : v.rm = false)
    (hmi : s.panMirrored v.pan = false) (hd : s.panDurable v.pan = false) (hst : Sts.first st Sts.ok = st) :
    ∃ u, v.write t nt ws st c = .ok st c u ∧ Going s u v.r ∧ u.mem = (s.putSegs ws).mem := by
  obtain ⟨w, e1, e2, hi, h1, m1, d1, r1⟩ := State.needWait_going h
  obtain ⟨u, w', a1, a2, a3, a4, a5, a6⟩ := State.stores_direct nt (.entry v.qid v.e.pos) h1 e2 hi h0 hf hl (m1.trans hm) hsh hp hmi hd
  refine ⟨u, ?_, a2, a3.trans (State.putSegs_mem ws (m1.trans hm))⟩
  have hdu : v.durable u ws = u := by
    unfold Env.durable
    rw [a2.panDurable hp, hd]
    simp
  have hw : u.wait w.id = some w' := by unfold State.wait; rw [a4, ← a6]; simp
  have g0 : Sts.goesOn Sts.ok = true := rfl
  have nl : ¬ Sts.ok = Sts.poison := by decide
  unfold Env.write Env.writeThen
  simp only [hrm, Bool.false_eq_true, if_false, e1, a1, Env.afterStores, Env.settled, hdu, id, hw, a5.2.1, a5.2.2.1, g0, if_true, hst, ne_eq,
    not_true_eq_false, nl]

theorem Going.gran {s t : State} {r : Nat} (h : Going s t r) (g : Nat) : t.gran g = s.gran g := by
  unfold State.gran; rw [(h.keeps 0).grans]

theorem Going.confirm {s t : State} {r : Nat} (h : Going s t r) (r0 : Nat) (l : Loc) : t.confirm r0 l = s.confirm r0 l := by
  have sg (g : Seg) : t.segGrans g = s.segGrans g := by unfold State.segGrans; rw [h.nodeId]
  unfold State.confirm State.remapped State.restamped
  simp only [h.isLocal, sg, h.gran]

theorem Env.resume_going {s t : State} {v : Env} (h : Going s t v.r) (k : Unit → Eff) : v.resume t k = k () := by
  unfold Env.resume State.waitOf
  rcases h.waits with hw | ⟨w, hw, hi⟩
  · rw [hw]; rfl
  · have : (WaitWho.rake v.r == WaitWho.rake v.r) = true := by simp
    rw [hw]
    simp only [List.find?, hi.1, this, hi.2.2.2.1]

/-- The check point lets operands in this node's own memory through. -/
theorem Env.access_direct {s t : State} {v : Env} {ls : List Loc} (zf : Bool) (k : List Loc → State → Eff) (h : Going s t v.r)
    (ha : v.again = false) (hrm : v.rm = false) (hz : ∀ l ∈ ls, ∀ g ∈ l.segs, g.zero = false) (hr : ∀ l ∈ ls, l.denied = false)
    (hc : ∀ l ∈ ls, s.confirm v.e.r0 l = none) :
    v.access t true zf (.inr ls) k = k ls t := by
  have h2 : ls.any (fun l => l.segs.any (·.zero)) = false := by
    simp only [List.any_eq_false, Bool.not_eq_true]
    intro l hl g hg
    simp [hz l hl g hg]
  have h4 : ls.any (·.denied) = false := by
    simp only [List.any_eq_false, Bool.not_eq_true]
    exact hr
  have h3 : ls.findSome? (t.confirm v.e.r0) = none := by
    rw [List.findSome?_eq_none_iff]; intro l hl; rw [h.confirm]; exact hc l hl
  unfold Env.access
  rw [Env.resume_going h]
  unfold Env.check
  have h5 : ls.any (fun l => !l.wr && l.segs.any (·.zero)) = false := by
    simp only [List.any_eq_false, Bool.not_eq_true]
    intro l hl
    rw [List.any_eq_false] at h2
    have := h2 l hl
    simp_all
  simp [ha, hrm, h5, h4, h3]

/-! ### Instructions of pans over operands of this node -/

/-- A register outside the stalls reads, in an entry's view, as it does in the state where only fetches were counted. -/
theorem State.rd_seenBy_count (s : State) (e : Entry) (c : Ctr) {g : Fld} (h : g.calm) (h1 : g.off < 0x500000 ∨ 0x2000000 ≤ g.off)
    (hc : 0x1000000 ≤ c.cnt.off ∧ c.cnt.off < 0x2000000 ∧ c.cnt.lo < 64) (ho : 0x1000000 ≤ c.ovf.off ∧ c.ovf.off < 0x2000000 ∧ c.ovf.lo < 64) :
    ((s.count c).seenBy e).rd g = (s.seenBy e).rd g := by
  have ha : g.apart Csr.EPOCHCUR_set := Or.inl (by unfold Csr.EPOCHCUR_set; simp only; omega)
  refine State.rd_of_rdSet (fun a => ?_) ?_
  · unfold State.seenBy State.viewSet
    rw [State.rdSet_wr_ne _ _ _ h.1 (by decide) ha, State.rdSet_wr_ne _ _ _ h.1 (by decide) ha]
    exact s.rdSet_count c 1 a h (Or.inl (by omega)) (Or.inl (by omega)) hc.2.2 ho.2.2
  · show ((s.count c).viewSet e.set).activeSet = (s.viewSet e.set).activeSet
    rw [State.activeSet_viewSet, State.activeSet_viewSet]

/-- Operands that can be read and written at once can be so in every state that is sound and agrees in what they depend on. -/
theorem Direct.of {s t : State} {n : Nat} {e : Entry} {ls : List Loc} (h : Direct s n e ls) (hs : t.Sound) (hm : t.mem = s.mem) (hc : t.coh = s.coh)
    (hsh : t.shoots = s.shoots) (hw : t.waits = s.waits) (hg : t.grans = s.grans)
    (hr : ∀ f : Fld, f.calm → f.off < 0x500000 → t.rd f = s.rd f) : Direct t n e ls := by
  have hn := h.pan
  have nid : t.nodeId = s.nodeId := hr _ ⟨by decide, by decide, by decide⟩ (by decide)
  have loc (g : Seg) : t.isLocal g = s.isLocal g := by unfold State.isLocal; rw [nid]
  have hl (g : Seg) : t.homeLines g = s.homeLines g := by unfold State.homeLines; rw [nid]
  have oc (a k : Nat) : t.outsideCarve a k = s.outsideCarve a k := by
    unfold State.outsideCarve; rw [hr _ ⟨by decide, by decide, by decide⟩ (by decide)]
  have cf (b : Bool) (d : Nat) : t.conflicts b d = s.conflicts b d := by
    unfold State.conflicts
    rw [hs.toServes.held, h.sound.toServes.held]
    unfold State.txn State.copying State.dirEnt State.dirWays State.word State.bytes State.byte
    rw [hc, hsh, hm]
  have sg (g : Seg) : t.segGrans g = s.segGrans g := by unfold State.segGrans; rw [nid]
  have gr (g : Nat) : t.gran g = s.gran g := by unfold State.gran; rw [hg]
  refine ⟨hs, hn, hw.trans h.waits, hsh.trans h.shoots, ?_, ?_, fun l hl' g hg' => ?_, fun l hl' g hg' d hd => ?_, h.rights, fun l hl' => ?_⟩
  · unfold State.panMirrored State.on
    rw [hr]
    · exact h.mirrored
    · unfold Fld.calm Csr.PANCTL_mirrored; refine ⟨by simp, ?_, ?_⟩ <;> simp only <;> omega
    · simp only [Csr.PANCTL_mirrored]; omega
  · unfold State.panDurable State.on
    rw [hr]
    · exact h.durable
    · unfold Fld.calm Csr.PANCTL_durable; refine ⟨by simp, ?_, ?_⟩ <;> simp only <;> omega
    · simp only [Csr.PANCTL_durable]; omega
  · rw [loc, oc]; exact h.here l hl' g hg'
  · rw [cf]; rw [hl] at hd; exact h.free l hl' g hg' d hd
  · have := h.stands l hl'
    unfold State.confirm State.remapped State.restamped at *
    simpa only [loc, sg, gr] using this

/-- Counting a fetch changes nothing that operands depend on. -/
theorem Direct.count {s : State} {n : Nat} {e : Entry} {ls : List Loc} (c : Ctr) (h : Direct (s.seenBy e) n e ls)
    (hc : 0x1000000 ≤ c.cnt.off ∧ c.cnt.off < 0x2000000 ∧ c.cnt.lo < 64) (ho : 0x1000000 ≤ c.ovf.off ∧ c.ovf.off < 0x2000000 ∧ c.ovf.lo < 64) :
    Direct ((s.count c).seenBy e) n e ls := by
  have hr := s.rest_count c 1
  have dr : (s.count c).dram = s.dram := State.dram_of_rest hr
  have rd (g : Fld) (h1 : g.calm) (h2 : g.off < 0x500000 ∨ 0x2000000 ≤ g.off) := s.rd_seenBy_count e c h1 h2 hc ho
  refine h.of ⟨⟨?_, fun k hk => ?_, ?_, ?_, ?_, fun k hk => ?_⟩, ?_, ?_⟩ (State.mem_of_rest hr) (State.coh_of_rest hr) (State.shoots_of_rest hr)
    (State.waits_of_rest hr) (State.grans_of_rest hr) fun g h1 h2 => rd g h1 (Or.inl h2)
  · show (s.count c).dram.faults = []; rw [dr]; exact h.sound.faults
  · unfold State.chanOos
    rw [rd]
    · exact h.sound.chans k hk
    · unfold Fld.calm Csr.DDRSTAT_state; refine ⟨by simp, ?_, ?_⟩ <;> simp only <;> omega
    · right; simp only [Csr.DDRSTAT_state]; omega
  · have := h.sound.ways
    unfold State.waysOk at *
    show ∀ kv ∈ (s.count c).dram.cache, _
    rw [dr]; exact this
  · show (s.count c).dram.upsets = []; rw [dr]; exact h.sound.sram
  · have := h.sound.unlocked
    unfold State.unlocked at *
    show ∀ kv ∈ (s.count c).dram.chans, _
    rw [dr]; exact this
  · rw [rd]
    · exact h.sound.released k hk
    · unfold Fld.calm Csr.STKCHSTAT_hold; refine ⟨by simp, ?_, ?_⟩ <;> simp only <;> omega
    · right; simp only [Csr.STKCHSTAT_hold]; omega
  · show (s.count c).dram.poison = []; rw [dr]; exact h.sound.poison
  · show ∀ b ∈ (s.count c).dram.brine, _; rw [dr]; exact h.sound.brine

/-- A read of memory changes nothing that operands depend on. -/
theorem Direct.read {s u : State} {n : Nat} {e : Entry} {ls : List Loc} (h : Direct (s.seenBy e) n e ls) (hs : s.Sound) (hu : ReadStep s u) :
    Direct (u.seenBy e) n e ls := by
  have su := hu.sound hs
  have rd (g : Fld) (hg : g.still) (h1 : g.apart Csr.EPOCHCUR_set) : (u.seenBy e).rd g = (s.seenBy e).rd g := by
    refine State.rd_of_rdSet (fun a => ?_) ?_
    · unfold State.seenBy State.viewSet
      rw [State.rdSet_wr_ne _ _ _ hg.1.1 (by decide) h1, State.rdSet_wr_ne _ _ _ hg.1.1 (by decide) h1]
      exact hu.regs g hg a
    · show (u.viewSet e.set).activeSet = (s.viewSet e.set).activeSet
      rw [State.activeSet_viewSet, State.activeSet_viewSet]
  have v : (u.seenBy e).Sound := by
    have base := h.sound
    refine ⟨⟨su.faults, fun k hk => ?_, su.ways, su.sram, su.unlocked, fun k hk => ?_⟩, su.poison, su.brine⟩
    · unfold State.chanOos
      rw [rd _ (Csr.still_ddrstat k hk) (Or.inl (by simp only [Csr.DDRSTAT_state, Csr.EPOCHCUR_set]; omega))]
      exact base.chans k hk
    · rw [rd _ (Csr.still_hold k hk) (Or.inl (by simp only [Csr.STKCHSTAT_hold, Csr.EPOCHCUR_set]; omega))]
      exact base.released k hk
  exact h.of v hu.mem hu.toMemStep.coh hu.toMemStep.shoots hu.toMemStep.waits hu.toMemStep.grans fun f h1 h2 =>
    rd f ⟨h1, Or.inl (by omega)⟩ (Or.inl (by unfold Csr.EPOCHCUR_set; simp only; omega))

theorem Direct.counted {s : State} {n opc : Nat} {e : Entry} {ls : List Loc} {f : Fetch} (hf : Fetches s opc f e) (h : Direct (s.seenBy e) n e ls) :
    Direct ((s.countFetch f e).seenBy e) n e ls := by
  have hr := f.rake.isLt
  rcases hf.fetched with q | ⟨u, hu, hs, q | q⟩ <;> rw [q]
  · exact h
  · refine (h.read hs hu).count _ ?_ ?_ <;> simp only [icHitCtr, Csr.ICHITCNT_count, Csr.PROGSTAT_ichit_ovf] <;> omega
  · refine (h.read hs hu).count _ ?_ ?_ <;> simp only [icMissCtr, Csr.ICMISSCNT_count, Csr.PROGSTAT_icmiss_ovf] <;> omega

/-- An instruction of a pan's entry whose body completes at once in a state that keeps what memory accesses keep. -/
theorem GoesOn.of_memory {i : Instr} {f : Fetch} {s u m : State} {e : Entry} {opc st : Nat} {c : Ctx} {ins : Instr} {body : Env → State → Eff}
    (h : Issues s opc f e) (hi : exec i s = .next (s.runInsn opc f ins false body)) (hu : isRm (s.qidOf f.rake) = false)
    (hb : body (s.envOf opc f ins false e) ((s.countFetch f e).seenBy e) = .ok st c u)
    (hk : ∀ k, ((s.countFetch f e).seenBy e).Keeps u k) (hm : u.mem = m.mem) : GoesOn i f s e st (nextPc f e) c m := by
  have hfr : (f.rake : Nat) / 16 < 16 := by have := f.rake.isLt; omega
  refine GoesOn.of_ok (t := u.viewSet u.liveSet) h hi ?_ (h.keeps.trans (State.Keeps.viewed hfr h.counted (hk _))) hm
  have hrm : (s.envOf opc f ins false e).rm = false := hu
  unfold Env.tagged
  rw [hrm]
  have he : (s.countFetch f e).viewSet (s.envOf opc f ins false e).e.set = (s.countFetch f e).seenBy e := rfl
  simp only [Bool.false_eq_true, if_false, he, hb]
  rfl

theorem State.storedSegs_eq (s : State) (gs : List Seg) : s.storedSegs gs = plain (s.bytesOf gs) := by
  unfold State.storedSegs State.bytesOf plain State.stored State.bytes
  rw [List.map_flatMap]
  congr 1
  funext g
  rw [List.map_map]
  rfl

theorem anyPoison_plain (bs : List Nat) : anyPoison (plain bs) = false := by
  unfold anyPoison plain
  simp

/-- What an instruction of a pan's entry begins with, whose operands can be read and written at once. -/
theorem Performs.start {s : State} {opc : Nat} {f : Fetch} {e : Entry} {ls : List Loc} (h : Performs s opc f e ls) :
    Going ((s.countFetch f e).seenBy e) ((s.countFetch f e).seenBy e) f.rake ∧ ((s.countFetch f e).seenBy e).mem = s.mem
      ∧ Direct ((s.countFetch f e).seenBy e) (s.panOf f.rake) e ls := by
  have d := h.direct.counted h.toFetches
  exact ⟨Going.start d.sound.toServes d.waits _, h.mem, d⟩

theorem State.bytesOf_mem {s t : State} (h : s.mem = t.mem) (gs : List Seg) : s.bytesOf gs = t.bytesOf gs := by
  unfold State.bytesOf State.bytes State.byte
  rw [h]

theorem Direct.sub {s : State} {n : Nat} {e : Entry} {ls : List Loc} (h : Direct s n e ls) {gs : List Seg} (hg : ∀ g ∈ gs, g ∈ segsOf ls) :
    Free s gs :=
  ⟨fun g m => h.all.here g (hg g m), fun g m d hd => h.all.free g (hg g m) d hd⟩

/-- An instruction that reads some of its operands and then stores over others. -/
theorem GoesOn.read_write {i : Instr} {f : Fetch} {s : State} {e : Entry} {opc : Nat} {ins : Instr} {body : Env → State → Eff} {ls a : List Loc}
    {zf nt : Bool} {ws : List PByte → List (Seg × List PByte)} {st : Nat} {c : Ctx}
    {st' : List PByte → Nat} {c' : List PByte → Ctx} (h : Performs s opc f e ls) (hi : exec i s = .next (s.runInsn opc f ins false body))
    {k : List Loc → State → Eff} (hb : ∀ x, body (s.envOf opc f ins false e) x = (s.envOf opc f ins false e).access x true zf (.inr ls) k)
    (hk : ∀ y, k ls y =
      (s.envOf opc f ins false e).read y nt a fun bs z => (s.envOf opc f ins false e).write z nt (ws bs) (st' bs) (c' bs))
    (ha : ∀ g ∈ segsOf a, g ∈ segsOf ls) (hw : ∀ bs, ∀ g ∈ (ws bs).map (·.1), g ∈ segsOf ls)
    (hl : ∀ bs, ∀ x ∈ ws bs, x.2.length ≤ x.1.len)
    (hs : st' (plain (s.bytesOf (segsOf a))) = st) (hc : c' (plain (s.bytesOf (segsOf a))) = c) (hst : Sts.first st Sts.ok = st) :
    GoesOn i f s e st (nextPc f e) c (s.putSegs (ws (plain (s.bytesOf (segsOf a))))) := by
  obtain ⟨g0, m0, d⟩ := h.start
  have vr : (s.envOf opc f ins false e).r = f.rake := rfl
  have vp : (s.envOf opc f ins false e).pan = s.panOf f.rake := rfl
  have hrm : (s.envOf opc f ins false e).rm = false := h.user
  obtain ⟨u, e1, g1, m1, s1⟩ := Env.read_direct (v := s.envOf opc f ins false e) nt
    (fun bs z => (s.envOf opc f ins false e).write z nt (ws bs) (st' bs) (c' bs)) g0 d.sound d.sound.toServes (d.sub ha) rfl d.shoots (by rw [vp]; exact d.pan)
  have hbs : ((s.countFetch f e).seenBy e).storedSegs (segsOf a) = plain (s.bytesOf (segsOf a)) := by
    rw [State.storedSegs_eq, State.bytesOf_mem m0]
  rw [hbs] at e1
  obtain ⟨u', e2, g2, m2⟩ := Env.write_direct (v := s.envOf opc f ins false e) nt (st' (plain (s.bytesOf (segsOf a))))
    (c' (plain (s.bytesOf (segsOf a)))) g1 d.sound.toServes (d.sub (hw _)) (hl _) m1 d.shoots (by rw [vp]; exact d.pan) hrm (by rw [vp]; exact d.mirrored)
    (by rw [vp]; exact d.durable) (by rw [hs]; exact hst)
  refine GoesOn.of_memory (u := u') h.toIssues hi h.user ?_ g2.keeps (m2.trans (State.putSegs_mem _ m0))
  rw [hb, Env.access_direct zf _ g0 rfl hrm (fun l hl g hg => (d.here l hl g hg).1) d.rights d.stands, hk, e1, e2, hs, hc]

/-- An instruction that stores over its operands. -/
theorem GoesOn.write_only {i : Instr} {f : Fetch} {s : State} {e : Entry} {opc : Nat} {ins : Instr} {body : Env → State → Eff} {ls : List Loc}
    {zf nt : Bool} {ws : List (Seg × List PByte)} {st : Nat} {c : Ctx}
    (h : Performs s opc f e ls) (hi : exec i s = .next (s.runInsn opc f ins false body))
    {k : List Loc → State → Eff} (hb : ∀ x, body (s.envOf opc f ins false e) x = (s.envOf opc f ins false e).access x true zf (.inr ls) k)
    (hk : ∀ y, k ls y = (s.envOf opc f ins false e).write y nt ws st c)
    (hw : ∀ g ∈ ws.map (·.1), g ∈ segsOf ls) (hl : ∀ x ∈ ws, x.2.length ≤ x.1.len) (hst : Sts.first st Sts.ok = st) :
    GoesOn i f s e st (nextPc f e) c (s.putSegs ws) := by
  obtain ⟨g0, m0, d⟩ := h.start
  have vp : (s.envOf opc f ins false e).pan = s.panOf f.rake := rfl
  have hrm : (s.envOf opc f ins false e).rm = false := h.user
  obtain ⟨u', e2, g2, m2⟩ := Env.write_direct (v := s.envOf opc f ins false e) nt st c g0 d.sound.toServes (d.sub hw) hl rfl d.shoots (by rw [vp]; exact d.pan) hrm
    (by rw [vp]; exact d.mirrored) (by rw [vp]; exact d.durable) hst
  refine GoesOn.of_memory (u := u') h.toIssues hi h.user ?_ g2.keeps (m2.trans (State.putSegs_mem _ m0))
  rw [hb, Env.access_direct zf _ g0 rfl hrm (fun l hl g hg => (d.here l hl g hg).1) d.rights d.stands, hk, e2]

/-- An instruction that reads its operands into the context. -/
theorem GoesOn.read_only {i : Instr} {f : Fetch} {s : State} {e : Entry} {opc : Nat} {ins : Instr} {body : Env → State → Eff} {ls : List Loc}
    {zf nt : Bool} {st : Nat} {c : Ctx} {st' : List PByte → Nat} {c' : List PByte → Ctx}
    (h : Performs s opc f e ls) (hi : exec i s = .next (s.runInsn opc f ins false body))
    {k : List Loc → State → Eff} (hb : ∀ x, body (s.envOf opc f ins false e) x = (s.envOf opc f ins false e).access x true zf (.inr ls) k)
    (hk : ∀ y, k ls y = (s.envOf opc f ins false e).read y nt ls fun bs z => .ok (st' bs) (c' bs) z)
    (hs : st' (plain (s.bytesOf (segsOf ls))) = st) (hc : c' (plain (s.bytesOf (segsOf ls))) = c) :
    GoesOn i f s e st (nextPc f e) c s := by
  obtain ⟨g0, m0, d⟩ := h.start
  have vp : (s.envOf opc f ins false e).pan = s.panOf f.rake := rfl
  have hrm : (s.envOf opc f ins false e).rm = false := h.user
  obtain ⟨u, e1, g1, m1, s1⟩ := Env.read_direct (v := s.envOf opc f ins false e) nt
    (fun bs z => Eff.ok (st' bs) (c' bs) z) g0 d.sound d.sound.toServes (d.sub fun _ h => h) rfl d.shoots (by rw [vp]; exact d.pan)
  have hbs : ((s.countFetch f e).seenBy e).storedSegs (segsOf ls) = plain (s.bytesOf (segsOf ls)) := by
    rw [State.storedSegs_eq, State.bytesOf_mem m0]
  rw [hbs] at e1
  refine GoesOn.of_memory (u := u) h.toIssues hi h.user ?_ g1.keeps (m1.trans m0)
  rw [hb, Env.access_direct zf _ g0 rfl hrm (fun l hl g hg => (d.here l hl g hg).1) d.rights d.stands, hk, e1, hs, hc]

end Sys2Proof.Machine
end

