-- ==== Sys2Proof/Laws/Forms.lean ====
section
/-!
SUPPORT. The hypotheses of statements about memory instructions, in the words of the meanings: locations, lengths, check pairs.
-/
namespace Sys2Proof.Machine
open Sys2Proof Host

theorem Entry.locate_wr {e : Entry} {c : Ctx} {op x n : Nat} {w : Bool} {l : Loc} (h : e.locate c op x n w = .inr l) : l.wr = w := by
  unfold Entry.locate at h
  simp only at h
  generalize e.wins.getD (bitsOf op 48 3) Win.unused = k at h
  generalize bitsOf op 0 40 + x + (if bitOf op 45 = true then c.reg (bitsOf op 40 5) else 0) = o at h
  iterate 4 (split at h; · simp at h)
  simp only [Sum.inr.injEq] at h
  rw [← h]

theorem allLocs_cons (a : Sum Nat Loc) (t : List (Sum Nat Loc)) : allLocs (a :: t) = (match a, allLocs t with
    | .inl x, .inl y => .inl (Sts.first x y)
    | .inl x, .inr _ => .inl x
    | .inr _, .inl y => .inl y
    | .inr x, .inr y => .inr (x :: y)) := rfl

theorem allLocs_wr {α : Type} {w : Bool} {g : α → Sum Nat Loc} (hg : ∀ x l, g x = .inr l → l.wr = w) :
    ∀ {rs : List α} {ls : List Loc}, allLocs (rs.map g) = .inr ls → ∀ l ∈ ls, l.wr = w := by
  intro rs
  induction rs with
  | nil => intro ls h; simp [allLocs] at h; simp [h]
  | cons r t ih =>
    intro ls h
    rw [List.map_cons, allLocs_cons] at h
    cases h1 : g r with
    | inl x => cases h2 : allLocs (t.map g) <;> simp [h1, h2] at h
    | inr l =>
      cases h2 : allLocs (t.map g) with
      | inl x => simp [h1, h2] at h
      | inr l2 =>
        simp [h1, h2] at h
        subst h
        intro x hx
        rcases List.mem_cons.mp hx with rfl | hx
        · exact hg _ _ h1
        · exact ih h2 x hx

theorem lengthIs.len {f : Fetch} {e : Entry} {k n : Nat} (h : lengthIs f e k n) (s : State) (opc : Nat) (ins : Instr) :
    (s.envOf opc f ins false e).len k = .inr n := by
  unfold lengthIs at h
  unfold Env.len Insn.m State.envOf Insn.ofFetch Env.poi Env.reg
  simp only
  split at h
  · obtain ⟨h1, h2, h3⟩ := h
    subst h1
    have h4 : e.ctx.reg k < 4294967296 := h3
    simp [*]
  · simp [*]

theorem foldsOk.pair {f : Fetch} {e : Entry} (h : foldsOk f e) (s : State) (opc : Nat) (ins : Instr) :
    (!(s.envOf opc f ins false e).cf || (s.envOf opc f ins false e).pairOk f.rb) = true := by
  unfold foldsOk Ctx.pairAt at h
  unfold Env.cf Env.pairOk Insn.m State.envOf Insn.ofFetch Env.reg
  simp only
  by_cases hb : bitOf f.mod.toNat 1 = true
  · have := h hb; simp [this]
  · simp [hb]

theorem Env.moved_plain (s : State) (f : Fetch) (e : Entry) (opc : Nat) (ins : Instr) (bs : List Nat) :
    (s.envOf opc f ins false e).moved (plain bs) = movedCtx f e bs := by
  unfold Env.moved movedCtx Env.setSp Ctx.setSp
  rw [anyPoison_plain]
  rfl

theorem Direct.noZero {s : State} {n : Nat} {e : Entry} {ls : List Loc} (h : Direct s n e ls) {a : List Loc} (ha : ∀ l ∈ a, l ∈ ls) :
    anyZero a = false := by
  unfold anyZero
  simp only [List.any_eq_false, Bool.not_eq_true]
  exact fun l hl g hg => (h.here l (ha l hl) g hg).1

theorem filter_wr {a b : List Loc} (ha : ∀ l ∈ a, l.wr = false) (hb : ∀ l ∈ b, l.wr = true) :
    (a ++ b).filter (fun l => !l.wr) = a ∧ (a ++ b).filter (·.wr) = b := by
  constructor
  · rw [List.filter_append, List.filter_eq_self.mpr (fun l hl => by simp [ha l hl]), List.filter_eq_nil_iff.mpr (fun l hl => by simp [hb l hl])]
    simp
  · rw [List.filter_append, List.filter_eq_nil_iff.mpr (fun l hl => by simp [ha l hl]), List.filter_eq_self.mpr (fun l hl => by simp [hb l hl])]
    simp

/-- The movement of R114: the sources' bytes go over the destinations. -/
theorem GoesOn.of_move {i : Instr} {f : Fetch} {s : State} {e : Entry} {opc : Nat} {ins : Instr} {body : Env → State → Eff} {a b : List Loc}
    (h : Performs s opc f e (a ++ b)) (hi : exec i s = .next (s.runInsn opc f ins false body)) {ok : Bool} (hok : ok = true)
    (hf : foldsOk f e) (ha : ∀ l ∈ a, l.wr = false) (hb : ∀ l ∈ b, l.wr = true) (hc : clash (segsOf a) (segsOf b) = false)
    (hm : ∀ x, body (s.envOf opc f ins false e) x = (s.envOf opc f ins false e).move x ok (.inr a) (.inr b) true) :
    GoesOn i f s e Sts.ok (nextPc f e) (movedCtx f e (s.bytesOf (segsOf a))) (s.putSegs (overSegs (segsOf b) (plain (s.bytesOf (segsOf a))))) := by
  obtain ⟨f1, f2⟩ := filter_wr ha hb
  have z := h.direct.noZero (a := a) (fun l hl => by simp [hl])
  refine GoesOn.read_write (a := a) (ws := fun bs => overSegs (segsOf b) bs) (st' := fun bs => accessStatus (anyPoison bs) (anyZero a))
    (c' := fun bs => (s.envOf opc f ins false e).moved bs) h hi (zf := (s.envOf opc f ins false e).zf) (nt := (s.envOf opc f ins false e).nt)
    (k := fun ls s' =>
    (s.envOf opc f ins false e).read s' (s.envOf opc f ins false e).nt (ls.filter (fun l => !l.wr)) fun bs s' =>
      (s.envOf opc f ins false e).write s' (s.envOf opc f ins false e).nt (overSegs (segsOf (ls.filter (·.wr))) bs)
        (accessStatus (anyPoison bs) (anyZero (ls.filter (fun l => !l.wr)))) ((s.envOf opc f ins false e).moved bs)) (fun x => ?_) (fun y => ?_) ?_ ?_
    (fun bs => overSegs_len _ bs) ?_ ?_ rfl
  · rw [hm]
    unfold Env.move
    have := hf.pair s opc ins
    simp only [hok, hc, Bool.true_and, Bool.and_false, Bool.false_eq_true, if_false]
    rw [show (s.envOf opc f ins false e).i.rb = (f.rb : Nat) from rfl, this]
  · simp only [f1, f2]
  · intro g hg; unfold segsOf at *; rw [List.flatMap_append]; exact List.mem_append_left _ hg
  · intro bs g hg; rw [overSegs_fst] at hg; unfold segsOf at *; rw [List.flatMap_append]; exact List.mem_append_right _ hg
  · simp only [anyPoison_plain, z]; rfl
  · simp only [Env.moved_plain]

theorem mem_segsOf_left {a b : List Loc} {g : Seg} (h : g ∈ segsOf a) : g ∈ segsOf (a ++ b) := by
  unfold segsOf at *; rw [List.flatMap_append]; exact List.mem_append_left _ h

theorem mem_segsOf_right {a b : List Loc} {g : Seg} (h : g ∈ segsOf b) : g ∈ segsOf (a ++ b) := by
  unfold segsOf at *; rw [List.flatMap_append]; exact List.mem_append_right _ h

/-- An instruction that reads a list, then reads some operands that the list names and stores over others (R116). -/
theorem GoesOn.of_list {i : Instr} {f : Fetch} {s : State} {e : Entry} {opc : Nat} {ins : Instr} {body : Env → State → Eff} {l a b : List Loc}
    {st : Nat} {c : Ctx} {st' : List PByte → Nat} {c' : List PByte → Ctx} {ws : List PByte → List (Seg × List PByte)}
    {k1 k3 : List Loc → State → Eff} {k2 : List PByte → State → Eff} {l0 : List Loc}
    (h : Performs s opc f e (l ++ (a ++ b))) (hi : exec i s = .next (s.runInsn opc f ins false body))
    {zf nt : Bool}
    (h1 : ∀ x, body (s.envOf opc f ins false e) x = (s.envOf opc f ins false e).access x true zf (.inr l0) k1)
    (h0 : ∀ x ∈ l0, x ∈ l ++ (a ++ b) ∨ (x.segs = [] ∧ x.denied = false))
    (h2 : ∀ x, k1 l0 x = (s.envOf opc f ins false e).read x nt l k2)
    (h3 : ∀ x, k2 (plain (s.bytesOf (segsOf l))) x = (s.envOf opc f ins false e).access x true zf (.inr (a ++ b)) k3)
    (h4 : ∀ x, k3 (a ++ b) x = (s.envOf opc f ins false e).read x nt a fun bs z => (s.envOf opc f ins false e).write z nt (ws bs) (st' bs) (c' bs))
    (hw : ∀ bs, ∀ g ∈ (ws bs).map (·.1), g ∈ segsOf b) (hl : ∀ bs, ∀ x ∈ ws bs, x.2.length ≤ x.1.len)
    (hs : st' (plain (s.bytesOf (segsOf a))) = st) (hc : c' (plain (s.bytesOf (segsOf a))) = c) (hst : Sts.first st Sts.ok = st) :
    GoesOn i f s e st (nextPc f e) c (s.putSegs (ws (plain (s.bytesOf (segsOf a))))) := by
  obtain ⟨g0, m0, d⟩ := h.start
  have vp : (s.envOf opc f ins false e).pan = s.panOf f.rake := rfl
  have hrm : (s.envOf opc f ins false e).rm = false := h.user
  have hp : (s.envOf opc f ins false e).pan < 64 := by rw [vp]; exact d.pan
  obtain ⟨u, e1, g1, m1, s1⟩ := Env.read_direct (v := s.envOf opc f ins false e) nt k2 g0 d.sound d.sound.toServes (d.sub fun g hg => mem_segsOf_left hg) rfl d.shoots hp
  rw [State.storedSegs_eq, State.bytesOf_mem m0] at e1
  obtain ⟨u', e2, g2, m2, s2⟩ := Env.read_direct (v := s.envOf opc f ins false e) nt
    (fun bs z => (s.envOf opc f ins false e).write z nt (ws bs) (st' bs) (c' bs)) g1 s1 d.sound.toServes (d.sub fun g hg => mem_segsOf_right (mem_segsOf_left hg)) m1 d.shoots hp
  rw [State.storedSegs_eq, State.bytesOf_mem m0] at e2
  obtain ⟨u'', e3, g3, m3⟩ := Env.write_direct (v := s.envOf opc f ins false e) nt (st' (plain (s.bytesOf (segsOf a))))
    (c' (plain (s.bytesOf (segsOf a)))) g2 d.sound.toServes (d.sub (fun g hg => mem_segsOf_right (mem_segsOf_right (hw _ g hg)))) (hl _) m2 d.shoots hp hrm (by rw [vp]; exact d.mirrored)
    (by rw [vp]; exact d.durable) (by rw [hs]; exact hst)
  refine GoesOn.of_memory (u := u'') h.toIssues hi h.user ?_ g3.keeps (m3.trans (State.putSegs_mem _ m0))
  have none0 (x : Loc) (h : x.segs = []) : ((s.countFetch f e).seenBy e).confirm e.r0 x = none := by unfold State.confirm; rw [h]; rfl
  rw [h1, Env.access_direct zf _ g0 rfl hrm
      (fun x hx g hg => (h0 x hx).elim (fun m => (d.here x m g hg).1) (fun m => by rw [m.1] at hg; simp at hg))
      (fun x hx => (h0 x hx).elim (fun m => d.rights x m) (fun m => m.2)) (fun x hx => (h0 x hx).elim (fun m => d.stands x m) (fun m => none0 x m.1)),
    h2, e1, h3, Env.access_direct zf _ g1 rfl hrm (fun x hx g hg => (d.here x (List.mem_append_right _ hx) g hg).1)
      (fun x hx => d.rights x (List.mem_append_right _ hx)) (fun x hx => d.stands x (List.mem_append_right _ hx)), h4, e2, e3, hs, hc]

theorem allLocs_append {a b : List (Sum Nat Loc)} {x y : List Loc} (ha : allLocs a = .inr x) (hb : allLocs b = .inr y) : allLocs (a ++ b) = .inr (x ++ y) := by
  induction a generalizing x with
  | nil => simp [allLocs] at ha; subst ha; simpa using hb
  | cons h t ih =>
    rw [allLocs_cons] at ha
    rw [List.cons_append, allLocs_cons]
    cases h1 : h with
    | inl v => cases h2 : allLocs t <;> simp [h1, h2] at ha
    | inr l =>
      cases h2 : allLocs t with
      | inl v => simp [h1, h2] at ha
      | inr l2 =>
        simp [h1, h2] at ha
        subst ha
        rw [ih h2]
        rfl

theorem allLocs_one {a : Sum Nat Loc} {l : Loc} (h : a = .inr l) : allLocs [a] = .inr [l] := by rw [h]; rfl

theorem allLocs_two {a b : Sum Nat Loc} {l m : Loc} (h : a = .inr l) (g : b = .inr m) : allLocs [a, b] = .inr [l, m] := by rw [h, g]; rfl

theorem listInRange.ok {f : Fetch} {e : Entry} (h : listInRange f e) (h2 : foldsOk f e) (s : State) (opc : Nat) (ins : Instr) :
    (s.envOf opc f ins false e).listOk = true := by
  have h3 := h2.pair s opc ins
  obtain ⟨a, b, c, d, g⟩ := h
  unfold Env.listOk
  rw [show (s.envOf opc f ins false e).i.rb = (f.rb : Nat) from rfl, h3]
  simp only [Env.elemBytes, Env.idx64, Env.aligned, State.envOf, Insn.ofFetch, Env.va, Env.ctx, a, b, c, d]
  simp only [decide_true, Bool.and_self, Bool.and_true, Bool.true_and, beq_iff_eq]
  convert g
  rfl

theorem map_fst_plain (bs : List Nat) : (plain bs).map (·.1) = bs := by simp [plain, Function.comp_def]

theorem Env.offsets_plain (s : State) (f : Fetch) (e : Entry) (opc : Nat) (ins : Instr) (bs : List Nat) :
    (s.envOf opc f ins false e).offsets (plain bs) = (List.range f.imm.toNat).map (indexAt f bs) := by
  have h (a b : Nat) : (List.take b (List.drop a (plain bs))).map (·.1) = (bs.drop a).take b := by
    rw [List.map_take, List.map_drop, map_fst_plain]
  unfold Env.offsets valueOf
  simp only [h]
  rfl

end Sys2Proof.Machine
end

