-- ==== Sys2Proof/Laws/Place.lean ====
section
/-!
SUPPORT. Placement answers wherever a run fits: the free value says which one it takes, never whether there is one (R38, R39).
-/
namespace Sys2Proof.Machine
open Sys2Proof Host

theorem scanUp_isSome {p : Nat → Bool} : ∀ {n i j : Nat}, i ≤ j → j < i + n → p j = true → (scanUp p n i).isSome = true
  | 0, _, _, h, k, _ => by omega
  | n + 1, i, j, h, k, hp => by
    unfold scanUp
    split
    · rfl
    · rename_i hi
      have : i ≠ j := fun e => hi (e ▸ hp)
      exact scanUp_isSome (by omega) (by omega) hp

theorem scanRound_isSome {p : Nat → Bool} {m start j : Nat} (hs : start ≤ m) (hj : j < m) (hp : p j = true) :
    (scanRound p m start).isSome = true := by
  unfold scanRound
  split
  · rfl
  · rename_i h
    rcases Nat.lt_or_ge j start with hl | hg
    · exact scanUp_isSome (Nat.zero_le j) (by omega) hp
    · have := scanUp_isSome (n := m - start) hg (by omega) hp
      simp [h] at this

theorem State.fitRun_isSome {s : State} {n t k ch v j : Nat} (hj : j < s.tierSpan t / k)
    (h : (rangeFrom (tierBase t + j * k) k).all (s.mayTake n t ch) = true) : (s.fitRun n t k ch v).isSome = true := by
  unfold State.fitRun
  simp only [Option.isSome_map]
  exact scanRound_isSome (by have := Nat.mod_lt v (show max (s.tierSpan t / k) 1 > 0 by omega); omega) hj h

/-- Placement of `k` granules for pan `n` in tier `t` answers where the tier is usable, the soft quota holds and run `j` is free. -/
theorem State.place_isSome {s : State} {n t k j : Nat} {b : Bool} (hu : s.usable n t = true)
    (hq : s.rd (Csr.PANUSE_used n t) + k ≤ s.rd (Csr.PANQUOTA_soft n t)) (hc : (t = 1 && s.on (Csr.PANCTL_placement n)) = false)
    (hj : j < s.tierSpan t / k) (h : (rangeFrom (tierBase t + j * k) k).all (s.mayTake n t 0) = true) : (s.place n t k b).isSome = true := by
  have hf : ∀ v, (s.fits n t k v).isSome = true := by
    intro v
    unfold State.fits
    rw [hc]
    simp only [Option.isSome_map, Bool.false_eq_true, if_false]
    exact State.fitRun_isSome hj h
  obtain ⟨a, ha⟩ := Option.isSome_iff_exists.1 (hf (s.drawFree 32).1)
  have e : State.fits (s.drawFree 32).2 n t k (s.drawFree 32).1 = some a := ha
  have u : State.usable (s.drawFree 32).2 n t = true := hu
  have q : decide (State.rd (s.drawFree 32).2 (Csr.PANUSE_used n t) + k ≤ State.rd (s.drawFree 32).2 (Csr.PANQUOTA_soft n t)) = true :=
    decide_eq_true hq
  unfold State.place
  simp only [u, q, e, Bool.and_self, if_true, Option.isSome_some]

/-- One page of a pan that is not durable finds a new home in tier `t` where placement does. -/
theorem State.startMoves_isSome {s : State} {rake : Option Nat} {n t j : Nat} {m : Mover} (hd : s.panDurable n = false)
    (hu : s.usable n t = true) (hq : s.rd (Csr.PANUSE_used n t) + m.count ≤ s.rd (Csr.PANQUOTA_soft n t))
    (hc : (t = 1 && s.on (Csr.PANCTL_placement n)) = false) (hj : j < s.tierSpan t / m.count)
    (h : (rangeFrom (tierBase t + j * m.count) m.count).all (s.mayTake n t 0) = true) : ∃ w, s.startMoves rake n t [m] [] = some w := by
  obtain ⟨x, hx⟩ := Option.isSome_iff_exists.1 (State.place_isSome (b := true) hu hq hc hj h)
  simp [State.startMoves, State.newHomes, State.newHome, hd, hx]

end Sys2Proof.Machine
end

