-- ==== Sys2Proof/Machine/Tap.lean ====
section
/-!
DEFINITION. The test access port (R458, R563): what a clock of TCK does to it. The table has no command that clocks TCK, so no step uses it
(log entry 72).
-/
namespace Sys2Proof.Machine

/-- The controller of IEEE 1149.1: the next state at a rising TCK, by TMS. -/
def TapState.next (x : TapState) (tms : Bool) : TapState :=
  match x, tms with
  | .reset, true => .reset
  | .reset, false => .idle
  | .idle, true => .selDr
  | .idle, false => .idle
  | .selDr, true => .selIr
  | .selDr, false => .capDr
  | .capDr, true => .ex1Dr
  | .capDr, false => .shDr
  | .shDr, true => .ex1Dr
  | .shDr, false => .shDr
  | .ex1Dr, true => .updDr
  | .ex1Dr, false => .pauDr
  | .pauDr, true => .ex2Dr
  | .pauDr, false => .pauDr
  | .ex2Dr, true => .updDr
  | .ex2Dr, false => .shDr
  | .updDr, true => .selDr
  | .updDr, false => .idle
  | .selIr, true => .reset
  | .selIr, false => .capIr
  | .capIr, true => .ex1Ir
  | .capIr, false => .shIr
  | .shIr, true => .ex1Ir
  | .shIr, false => .shIr
  | .ex1Ir, true => .updIr
  | .ex1Ir, false => .pauIr
  | .pauIr, true => .ex2Ir
  | .pauIr, false => .pauIr
  | .ex2Ir, true => .updIr
  | .ex2Ir, false => .shIr
  | .updIr, true => .selDr
  | .updIr, false => .idle

/-- The test instructions of Table 20-10. -/
inductive TapOp where
  | idcode | sample | extestPulse | extestTrain | bypass
deriving DecidableEq, Repr

/-- R458: while debug is locked, JTAG offers its instructions only while PRST_N holds the device in reset. -/
def State.tapOffers (s : State) : Bool := s.on Csr.SECSTAT_debug_unlocked || s.board.prst

/-- The instruction that an opcode is: BYPASS where it is not available, or none of Table 20-10. -/
def State.tapOp (s : State) (ir : Nat) : TapOp :=
  if !s.tapOffers then .bypass
  else if ir = 1 then .idcode
  else if ir = 2 then .sample
  else if ir = 3 then .extestPulse
  else if ir = 4 then .extestTrain
  else .bypass

/-- R563: cells of the boundary register, one per input pad and two per other pad: 311 for each DDR5 channel, whose ALERT_N alone is an
input; 264 for the heap PCIe pads; 54 for the low-speed ones. Directions of DDR5 and PCIe pads are those of their standards (PRESUMED: log
entry 72). -/
def boundaryCells : Nat := 16 * 311 + 264 + 54

/-- Bits of the data register that an instruction selects. -/
def TapOp.length : TapOp → Nat
  | .idcode => 32
  | .bypass => 1
  | _ => boundaryCells

/-- What Capture-DR loads, with the pads' cells at `pads`. -/
def TapOp.capture (pads : Nat) : TapOp → Nat
  | .idcode => 0x171009CF
  | .bypass => 0
  | _ => pads % 2 ^ boundaryCells

/-- A clock of TCK: the bit that TDO has, if any, and the port after it. The instruction register captures 01 (IEEE 1149.1). -/
def Tap.clock (t : Tap) (op : TapOp) (tms tdi : Bool) (pads : Nat) : Option Bool × Tap :=
  let d := if tdi then 1 else 0
  let out : Option Bool := match t.st with
    | .shDr => some (bitOf t.drShift 0)
    | .shIr => some (bitOf t.irShift 0)
    | _ => none
  let u : Tap := match t.st with
    | .reset => { t with ir := 1 }
    | .capIr => { t with irShift := 1 }
    | .shIr => { t with irShift := t.irShift / 2 + d * 2 ^ 7 }
    | .updIr => { t with ir := t.irShift }
    | .capDr => { t with drShift := op.capture pads }
    | .shDr => { t with drShift := t.drShift / 2 + d * 2 ^ (op.length - 1) }
    | .updDr => if op = .idcode ∨ op = .bypass then t else { t with cells := t.drShift }
    | _ => t
  (out, { u with st := t.st.next tms })

/-- R563: a clock of TCK. -/
def State.tapClock (s : State) (tms tdi : Bool) (pads : Nat) : Option Bool × State :=
  let t := s.board.tap
  let r := t.clock (s.tapOp t.ir) tms tdi pads
  (r.1, { s with board := { s.board with tap := r.2 } })

/-- TRST_N asserted: Test-Logic-Reset. -/
def State.tapReset (s : State) : State := { s with board := { s.board with tap := Tap.start } }

end Sys2Proof.Machine
end

