-- ==== Sys2Proof/Tests/States.lean ====
section
/-!
SUPPORT. Small states and operands for the tests, and the hypotheses of statements from parts that can be decided.
-/
namespace Sys2Proof.Tests
open Sys2Proof Sys2Proof.Machine Host

/-- The device serves: power is good and no reset is in progress. -/
def lit : State := { State.reset with board := { Board.start with reset := none, prst := false } }

/-- A context in which nothing is written. -/
def ctx0 : Ctx := ⟨[], 0, [], [], 0, 0⟩

/-- A window of 4 KiB of DDR5 at node-local address `a` on node 0. -/
def win (a : Nat) : Win := { Win.unused with kind := 1, rd := true, wr := true, len := 4096, runs := [⟨0, 4096, a, a, false⟩] }

/-- An entry of position 0 with 8 words of inline code and two windows. -/
def ent (c : Ctx) : Entry :=
  { pos := 0, st := .running 3, inl := true, ordered := false, notify := false, waitDur := false, codeWords := 8, tag := 7, runLimit := 0,
    entryWord := 0, prog := 0, codeRuns := [], wins := [win 0x1000, win 0x4000], args := [], r0 := 1, shadow := 64, set := 1, port := 0,
    worst := 0, word := 0, notes := 0, ran := 0, limit := 0, gen := none, ctx := c, reserved := 1, slot := none, again := none, durPos := none,
    done := false, result := 0 }

/-- An enabled queue of depth 4 with one entry admitted. -/
def que (e : Entry) : Queue :=
  { Queue.blank with st := .enabled, home := 0, body := 0x10000, depthLog := 2, pan := 2, cqBase := 0x20000, cqLog := 4, conc := 4,
                     tail := 1, admPos := 1, cqResv := 1, ents := [e] }

/-- Rake 3 runs entry `e` of queue 5. -/
def run (e : Entry) : State :=
  { lit with queues := [(5, que e)], rakes := [(3, { Rake.idle with busy := true, qid := 5 })] }

/-- Rake 3 waits within instruction `i` of entry `e`. -/
def stuck (e : Entry) (w : RakeWait) (i : Instr) : State :=
  { run e with rakes := [(3, { Rake.idle with busy := true, qid := 5, wait := w, instr := some i })] }

/-- A context with a check pair of kind 1 in s4 and s5. -/
def pair : Ctx := (ctx0.setReg 4 0x1234 false).setReg 5 (2 ^ 56) false

/-- An entry whose windows hold 64 KiB each. -/
def big (c : Ctx) : Entry :=
  { ent c with wins := [{ win 0x100000 with len := 65536, runs := [⟨0, 65536, 0x100000, 0, false⟩] },
                        { win 0x200000 with len := 65536, runs := [⟨0, 65536, 0x200000, 0, false⟩] }] }

/-- `n` bytes of window `w` of such an entry. -/
def far (w n : Nat) (wr : Bool) : Loc := ⟨[⟨0x100000 + 0x100000 * w, n, 0, false⟩], w, wr, false, true⟩

/-- An entry whose window 0 is a page of 2 MiB at PVA 0x200000 that lies at node-local address `a`. -/
def leafEnt (a : Nat) (c : Ctx) : Entry :=
  { ent c with wins := [{ win a with base := 0x200000, len := 0x200000, runs := [⟨0, 0x200000, a, 0x200000, false⟩] }] }

/-- The page table of pan 2 maps that page with leaf `x`. -/
def paged (x : Nat) (s : State) : State :=
  let s := s.wr (Csr.PANPTROOT_root 2) 0x50
  (((s.setPte 0x50000 0 (ptePointer 0x51000)).setPte 0x51000 0 (ptePointer 0x52000)).setPte 0x52000 0 (ptePointer 0x53000)).setPte 0x53000 1 x

/-- Pan 2 is active and may hold 16 granules of each tier. -/
def roomy (s : State) : State :=
  let s := (((s.wr (Csr.PANQUOTA_hard 2 0) 16).wr (Csr.PANQUOTA_soft 2 0) 16).wr (Csr.PANQUOTA_hard 2 1) 16).wr (Csr.PANQUOTA_soft 2 1) 16
  (((s.wr (Csr.PANSTAT_state 2) 1).wr (Csr.PANCTL_stk_mode 2) 1).wr (Csr.STKSEGMAP_seg 0) 1).wr Csr.DDR5TOP_granules 16384

/-- A change of translations of pan 2 is in progress. -/
def shift (r : Option Nat) (old : List Nat) (cs : List (Nat × Nat × Nat × Nat)) (s : State) : State :=
  { s with shoots := [⟨r, 2, [], old, cs, [], [], [], none⟩] }

/-- Rake 3 runs entry `e` of a queue of Ringmaster A. -/
def runRm (e : Entry) : State :=
  { lit with queues := [(0x7FF00, { que e with pan := 0 })], rakes := [(3, { Rake.idle with busy := true, qid := 0x7FF00 })] }

/-- Such an entry, whose window 0 lies in the DDR5 carve-out. -/
def sysEnt (c : Ctx) : Entry := { ent c with wins := [win 0x700000000] }

/-- The shadow is OPEN. -/
def opened (s : State) : State := s.wr Csr.EPOCHSTAT_shadow 0

/-- A second queue, 9, of pan 2. -/
def two (s : State) : State := s.setQueue 9 (fun _ => { Queue.blank with st := .enabled, body := 0x30000, depthLog := 2, pan := 2 })

/-- The link of port 3 is up. -/
def linked (s : State) : State := (s.wr (Csr.PORTSTAT_state 3) 3).wr (Csr.PEERINFO_valid 3) 1

/-- A request with code `c` from the partner at port 3, and the response's port. -/
def req (c : Nat) : Msg := { code := c, srcPartner := true, srcPort := 3, life := 4, tag := 5, pan := 2 }

/-- An entry that is held with fault generation 9. -/
def heldEnt : Entry := { ent ctx0 with st := .held, gen := some 9 }

/-- Queue 9 in a state, with nothing in it. -/
def two' (x : QState) : State := lit.setQueue 9 (fun _ => { Queue.blank with st := x, body := 0x30000, depthLog := 2, pan := 2 })

/-- The descriptor registers of stall 1 describe a queue of pan 2, which owns granules 1 to 3. -/
def described (s : State) : State :=
  let s := (((s.wr (Csr.QDESC0_body_base 1) 0x200000).wr (Csr.QDESC0_depth_log2 1) 4).wr (Csr.QDESC1_cq_base 1) 0x400000).wr (Csr.QDESC1_cq_log2 1) 17
  let s := (((s.wr (Csr.QDESC2_shadow_base 1) 0x800000).wr (Csr.QDESC2_shadow_pages 1) 1).wr (Csr.QDESC0_pan 1) 2).wr Csr.DDR5TOP_granules 16384
  let s := (s.wr (Csr.QDESC3_concurrency 1) 1).wr (Csr.QDESC4_quantum 1) 1
  { s with grans := [1, 2, 3, 4].map (fun g => (g, { Granule.fresh with st := .owned, owner := 2 })) }

/-- Pan 2 is active and partner 3 may use it and its queue 9, of depth 4 with one record written. -/
def served (s : State) : State :=
  let s := ((((s.wr (Csr.MEMBER_valid 0) 1).wr (Csr.MEMBER_src_port 0) 3).wr (Csr.MEMBER_pan 0) 2).wr (Csr.MEMBER_rd 0) 1).wr (Csr.MEMBER_wr 0) 1
  let s := ((s.wr (Csr.MEMBER_submit 0) 1).wr (Csr.PANSTAT_state 2) 1).wr Csr.BOOTSTAT_stage 7
  s.setQueue 9 (fun _ => { que (ent ctx0) with ownPort := 3, cqProd := 4, tail := 1 })

/-- A fault record. -/
def frec : FaultRec := ⟨true, false, 0, 1, 0, false, 9, 9, 0, 1, 0, 0x200000, 5⟩

/-- Slot 1 of queue 9 holds an INLINE entry of one NOP. -/
def written : State :=
  { lit.setQueue 9 (fun _ => { que (ent ctx0) with ents := [], tail := 2, shPages := 1 }) with mem := [(0x10100, 3), (0x10102, 1)] }

/-- That entry. -/
def nopEnt : Entry :=
  match parseEntry (ofLeBytes (written.bytes 0x10100 256)) 1 0 9 with
  | .inr e => e
  | .inl _ => ent ctx0

/-- What resolving it comes to. -/
def resolved : Resolved × State :=
  ((written.readMem Acc.sys 0x10100 256).2.setQueue 9 (fun y => { y with resolving := some (written.stamp, 0) })).resolveEntry 9 nopEnt []

/-- Partner 3 may lend, and slots 0 to 2 are taken, slot 2 by its extent at 0x200000. -/
def lending (st : Nat) : State :=
  let s := (served (linked lit)).wr (Csr.MEMBER_lend 0) 1
  let s := ((s.wr (Csr.LENTSTAT_state 0) 1).wr (Csr.LENTSTAT_state 1) 1).wr (Csr.LENTSTAT_state 2) st
  (s.wr (Csr.LENTSRC_lender_base 2) 0x200000).wr (Csr.LENTSRC_lender_port 2) 3

/-- Channels 0 and 15 have one rank of 16 Gb devices, and channel 15 is in a state. -/
def ddr (st : Nat) (s : State) : State :=
  let s := [0, 15].foldl (fun s c => (((s.wr (Csr.DDRCFG_dpc c) 1).wr (Csr.DDRCFG_speed c) 0).wr (Csr.DDRCFG_ranks c) 1).wr (Csr.DDRCFG_density c) 2) s
  (((s.wr (Csr.DDRSTAT_state 15) st).wr (Csr.DDRGEO_data_ranks 15) 1).wr (Csr.DDRGEO_rows 15) 65536).wr Csr.DDR5TOP_granules 16384

/-- Pan 2 is durable, holds a page of DDR5 that has a backing granule, and demotes pages by itself. -/
def falling : State :=
  let s := (roomy (paged 0x60004F lit)).setPan 2 (fun p => { p with backing := [(3, tierBase 2 + 5)] })
  let s := ((s.wr (Csr.PANCTL_durable 2) 1).wr (Csr.PANHEAP_auto_demote 2) 1).wr (Csr.PANUSE_used 2 1) 1
  (s.wr (Csr.PANHEAP_dem_high 2) 0).wr (Csr.PANHEAP_dem_low 2) 0

/-- Partner 3's pan 2 owns granule 3 of DDR5. -/
def home : State :=
  { (served (linked lit)).wr Csr.DDR5TOP_granules 16384 with grans := [(3, { Granule.fresh with st := .owned, owner := 2 })] }

/-- The last line of that granule, and a coherent request for it. -/
def line : Nat := 0xFFFF
def coh (c q3 n : Nat) : Msg := { req c with q2 := 0x7FFF80, q3 := q3, data := List.replicate n 7 }

/-- A transaction of that line, whose owner, member `r`, was asked with code `c`. -/
def busy (who : TxnWho) (r c : Nat) : Txn :=
  ⟨line, who, entNew line 2 2 r, [⟨5, 0, r, c⟩], none, false, none, none, false, false, false, false, [], false, 0⟩

/-- The line is busy. -/
def busyAt (x : Txn) : State := let s := home.setDir line x.ent; { s with coh := { s.coh with txns := [x] } }

/-- A request of this node for 8 bytes with tag 5 has no response yet. -/
def out8 (c : Nat) (u : ReqFor) : OutReq := ⟨5, 0, 0, 3, u, { code := c, tag := 5, dstPartner := true, dstPort := 3, life := 4, length := 8 }, 0, false⟩
def asked (q : OutReq) (s : State) : State := { s with fab := { s.fab with reqs := [q] } }

/-- An instruction of rake 3 whose fields are all zero. -/
def fet : Fetch := ⟨3, 0, 0, 0, 0, false, 0, 0, 0, 0, 0, 0, 0⟩

/-- `n` bytes of window `w`, read or written. -/
def loc (w n : Nat) (wr : Bool) : Loc := ⟨[⟨0x1000 + 0x3000 * w, n, 0x1000 + 0x3000 * w, false⟩], w, wr, false, true⟩

/-- The address operand of window 1. -/
def w1 : BitVec 64 := 0x1000000000000

/-- A flit with header `h` and the first bytes of its body; `x` is what its CRC is folded with. -/
def flit (h : Nat) (body : List Nat) (x : Option Nat) : List Nat :=
  let b := leBytes 8 h ++ (body ++ List.replicate (240 - body.length) 0)
  b ++ leBytes 8 (flitCrc (b ++ List.replicate 8 0) x)

/-- Port 3 is in link state `n`, with a partner known or not. -/
def port (n k : Nat) (s : State) : State := (s.wr (Csr.PORTSTAT_state 3) n).wr (Csr.PEERINFO_valid 3) k

/-- The link at port 3 in full, changed. -/
def end3 (f : Link → Link) (s : State) : State := s.setLnk 3 f

/-- A flit kept for replay. -/
def tx0 : TxFlit := ⟨0, 1, 0, [], [], 0, false, false, false, none⟩

/-- Ringmaster A is active and B in state `n`. -/
def leads (n : Nat) (s : State) : State := (s.wr Csr.TRPSTAT_a_state 4).wr Csr.TRPSTAT_b_state n

/-- The twin port is port 3, whose link is up, and TWINSTAT holds a state and a role. -/
def twin3 (st role : Nat) (s : State) : State :=
  ((((port 3 1 s).wr (Csr.PORTCTL_role 3) 1).wr Csr.TWINCTL_port 3).wr Csr.TWINSTAT_state st).wr Csr.TWINSTAT_role role

/-- Two sessions: one of the tenant over port 3, one over the management path. -/
def met : Sec := { Sec.idle with tenant := 6, offered := 6, sessions := [⟨5, 3, true, 6, 21⟩, ⟨9, 8, true, 4, 22⟩] }

/-- The link of port 3 is up, with those sessions, and SECSTAT.state is `n`. -/
def sealed (n : Nat) : State := { (port 3 1 lit).wr Csr.SECSTAT_state n with sec := met }

/-- An owner's command, whose nonce was issued. -/
def order : Owner := ⟨1, 7, [], true⟩

/-- The device has an owner, and SECSTAT.state is `n`. -/
def owned (n : Nat) : State := { lit.wr Csr.SECSTAT_state n with sec := { met with owner := some 5, nonces := [7] } }

/-- A presence window is open. -/
def shown (s : State) : State := { s with sec := { s.sec with window := some 60000000000 } }

/-- The state of the board, changed. -/
def onBoard (f : Board → Board) (s : State) : State := { s with board := f s.board }

theorem mkFetches {s : State} {opc : Nat} {f : Fetch} {e : Entry}
    (h : (s.rake f.rake).busy = true ∧ (s.rake f.rake).instr = none ∧ s.inHand f.rake = some e ∧ (Insn.ofFetch opc f).decodes = true ∧
      e.ctx.pc + 1 + f.xw ≤ e.codeWords ∧ (privileged opc = true → isRm (s.qidOf f.rake) = true) ∧ s.rm.opened = [] ∧ s.coh.late = [] ∧
      s.activeSet = s.liveSet ∧ s.rakesHeld (f.rake / 16) = false ∧ (∀ kv ∈ s.rakes, kv.2.helps ≠ f.rake + 1) ∧
      (isRm (s.qidOf f.rake) = true ∨ s.confirmCode e (1 + f.xw) = none) ∧ e.inl = true) : Fetches s opc f e := by
  obtain ⟨a, b, c, d, g, i, j, k, l, m, n, o, p⟩ := h
  exact ⟨a, b, c, d, g, i, j, k, l, m, n, o, .inl p⟩

theorem mkIssues {s : State} {opc : Nat} {f : Fetch} {e : Entry}
    (h : ((s.rake f.rake).busy = true ∧ (s.rake f.rake).instr = none ∧ s.inHand f.rake = some e ∧ (Insn.ofFetch opc f).decodes = true ∧
      e.ctx.pc + 1 + f.xw ≤ e.codeWords ∧ (privileged opc = true → isRm (s.qidOf f.rake) = true) ∧ s.rm.opened = [] ∧ s.coh.late = [] ∧
      s.activeSet = s.liveSet ∧ s.rakesHeld (f.rake / 16) = false ∧ (∀ kv ∈ s.rakes, kv.2.helps ≠ f.rake + 1) ∧
      (isRm (s.qidOf f.rake) = true ∨ s.confirmCode e (1 + f.xw) = none) ∧ e.inl = true) ∧
      e.ctx.pred f.g ≠ f.gn ∧ e.ctx.pc + 1 + f.xw < e.codeWords) : Issues s opc f e :=
  ⟨mkFetches h.1, h.2.1, h.2.2⟩

/-- Nothing in the store is faulty or held. -/
abbrev Clean (s : State) : Prop :=
  (s.dram.faults = [] ∧ s.dram.upsets = [] ∧ s.dram.poison = []) ∧ (∀ c, c < 16 → s.chanOos c = false) ∧ (∀ kv ∈ s.dram.cache, ∀ w ∈ kv.2, w.pan < 64) ∧
    (∀ kv ∈ s.dram.chans, kv.2.locked = []) ∧ (∀ c, c < 32 → s.rd (Csr.STKCHSTAT_hold c) = 0) ∧ ∀ b ∈ s.dram.brine, b.pois = 0

theorem mkSound {s : State} (h : Clean s) : s.Sound :=
  { faults := h.1.1, sram := h.1.2.1, poison := h.1.2.2, chans := h.2.1, ways := h.2.2.1, unlocked := h.2.2.2.1, released := h.2.2.2.2.1,
    brine := h.2.2.2.2.2 }

theorem mkDirect {s : State} {n : Nat} {e : Entry} {ls : List Loc}
    (h : n < 64 ∧ s.waits = [] ∧ s.shoots = [] ∧ s.panMirrored n = false ∧ s.panDurable n = false ∧
      (∀ l ∈ ls, ∀ g ∈ l.segs, g.zero = false ∧ s.isLocal g = true ∧ s.outsideCarve (g.addr % 2 ^ 52) g.len) ∧
      (∀ l ∈ ls, ∀ g ∈ l.segs, ∀ d ∈ s.homeLines g, s.conflicts true d = false) ∧ (∀ l ∈ ls, l.denied = false) ∧
      ∀ l ∈ ls, s.confirm e.r0 l = none) (c : Clean s := by decide +kernel) : Direct s n e ls := by
  obtain ⟨a, b, d, g, i, j, k, l, m⟩ := h
  exact ⟨mkSound c, a, b, d, g, i, j, k, l, m⟩

theorem mkReaches {s : State} {w : Writer} {o v : Nat} (h : s.serves = true ∧ (s.regWrite w o v).1 = .done) : s.Reaches w o v := ⟨h.1, h.2⟩

theorem mkCommands {s : State} {w : Writer} {k op q t : Nat}
    (h : (s.serves = true ∧ (s.regWrite w (0x1006000 + 0x100000 * k) (op + q * 16 + t * 2 ^ 24)).1 = .done) ∧ s.stallFailed k = false ∧
      s.on (Csr.QCMDSTAT_busy k) = false) : s.Commands w k op q t := ⟨mkReaches h.1, h.2.1, h.2.2⟩

theorem mkArrives {s : State} {p : Nat} {m : Msg} {u p' : Nat}
    (h : s.portHears p = true ∧ s.quiet = true ∧ s.activeSet = s.liveSet ∧ s.nxOk p m = true ∧ vcOf m.code = 1 ∧ m.dstNode = s.nodeId ∧
      m.dstPartner = false ∧ s.outsideDomain p = false ∧ (s.charge p m u).isSome = true ∧ (∀ e ∈ s.fab.cc, e.key ≠ reqKey m) ∧
      s.ringPort p' = false) : s.Arrives p m u p' :=
  ⟨h.1, h.2.1, h.2.2.1, h.2.2.2.1, h.2.2.2.2.1, h.2.2.2.2.2.1, h.2.2.2.2.2.2.1, h.2.2.2.2.2.2.2.1, h.2.2.2.2.2.2.2.2.1, h.2.2.2.2.2.2.2.2.2.1,
    h.2.2.2.2.2.2.2.2.2.2⟩

theorem mkTakes {s : State} {p : Nat} {m : Msg} {u p' : Nat}
    (h : (s.portHears p = true ∧ s.quiet = true ∧ s.activeSet = s.liveSet ∧ s.nxOk p m = true ∧ vcOf m.code = 1 ∧ m.dstNode = s.nodeId ∧
      m.dstPartner = false ∧ s.outsideDomain p = false ∧ (s.charge p m u).isSome = true ∧ (∀ e ∈ s.fab.cc, e.key ≠ reqKey m) ∧
      s.ringPort p' = false) ∧ s.hop (s.respond m 0x30 0) = .port p' 0 false ∧ s.board.reset = none ∧ s.nodeDown m = false ∧
      (s.slAction p m.pan (meterBytes m) m.colour).1 = 0) : s.Takes p m u p' := ⟨mkArrives h.1, h.2.1, h.2.2.1, h.2.2.2.1, h.2.2.2.2⟩

theorem mkGets {s : State} {p : Nat} {m : Msg}
    (h : s.portHears p = true ∧ (s.consume p 2).nxOk p m = true ∧ vcOf m.code = 2 ∧ m.dstNode = s.nodeId ∧ m.dstPartner = false ∧
      s.ringPort p = false) : s.Gets p m := ⟨h.1, h.2.1, h.2.2.1, h.2.2.2.1, h.2.2.2.2.1, h.2.2.2.2.2⟩

theorem mkPerforms {s : State} {opc : Nat} {f : Fetch} {e : Entry} {ls : List Loc} (h : Issues s opc f e) (u : isRm (s.qidOf f.rake) = false)
    (d : Direct (s.seenBy e) (s.panOf f.rake) e ls) : Performs s opc f e ls := ⟨h, u, d⟩

theorem mkTakesLine {s : State} {p : Nat} {m : Msg} {u p' r : Nat} (t : s.Takes p m u p') (d : s.Sound)
    (h : s.rightHolder m = some r ∧ s.goneMember m = none ∧ s.nxOwned m = true ∧ s.blocked m = false ∧ s.lineSlot (lineOf m) = none ∧
      s.moving (lineOf m * 128) = false ∧ s.outsideCarve (lineOf m * 128) 128 = true ∧ s.panMirrored m.pan = false ∧
      ((s.dirWays (lineOf m)).filter (fun e => entSt e != 0 && entLine e == lineOf m)).length ≤ 1) : s.TakesLine p m u p' r :=
  ⟨t, h.1, h.2.1, h.2.2.1, h.2.2.2.1, h.2.2.2.2.1, h.2.2.2.2.2.1, d, h.2.2.2.2.2.2.1, h.2.2.2.2.2.2.2.1, h.2.2.2.2.2.2.2.2⟩

theorem mkRange {p : Nat → Prop} {a n : Nat} (h : ∀ i, i < n → p (a + i)) : ∀ x, a ≤ x → x < a + n → p x := fun x l u => by
  have := h (x - a) (by omega)
  rwa [Nat.add_sub_cancel' l] at this

theorem mkSysHolds {s : State} {e : Entry} {op n : Nat} {b : List Nat} {g : Seg} (h : e.locate e.ctx op 0 n false = .inr ⟨[g], 0, false, false, true⟩)
    (hk : (e.wins.getD 0 Win.unused).kind = 1) (hb : b = s.bytesOf [g]) (hg : g.zero = false ∧ g.addr / 2 ^ 52 = s.nodeId)
    (hr : ∀ i, i < max 1 g.len → s.region (g.addr % 2 ^ 52 + i) = .system) : s.sysHolds e op n b :=
  ⟨_, h, hk, rfl, hb, fun x hx => by
    obtain rfl := List.mem_singleton.1 hx
    exact ⟨hg.1, hg.2, mkRange hr⟩⟩

theorem no_rake (k : Fin 16) : Car.ddr 15 ≠ .rake k := nofun

theorem no_midway (b : Fin 2) (k : Fin 36) : Car.ddr 15 ≠ .midway b k := nofun

theorem mkBelow {n : Nat} {p q : Nat → Prop} (h : ∀ r, r < n → p r → q r) : ∀ r, r < n ∧ p r → q r := fun r x => h r x.1 x.2

theorem mkNone {n : Nat} {p : Nat → Prop} (h : ∀ r, r < n → ¬p r) : ∀ r, ¬(r < n ∧ p r) := fun r x => h r x.1 x.2

end Sys2Proof.Tests
end

