-- ==== Sys2Proof/WellFormed.lean ====
section
/-!
DEFINITION. Which commands are well formed: operands within the widths that the spec gives their fields. Meanings do not assume it.
-/
namespace Sys2Proof

/-- Bytes. -/
def bytesOk (b : List Nat) : Bool := b.all (fun x => decide (x < 256))

/-- An offset of the register window (R2): 8-byte aligned, within 64 MiB. -/
def offOk (o : Nat) : Bool := o % 8 == 0 && decide (o < 0x4000000)

/-- The 256 bytes of a flit (R340). -/
def flitOk (b : List Nat) : Bool := b.length == 256 && bytesOk b

/-- The body of a control message with its code in byte 0 (R371); a control flit carries 240 bytes. -/
def ctrlOk (code : Nat) (b : List Nat) : Bool := b.head? == some code && decide (b.length ≤ 240) && bytesOk b

/-- The fields of an NX header within the widths of Table 13-1, and its data within its length. -/
def Msg.ok (m : Msg) : Bool :=
  decide (m.code < 256) && decide (m.colour < 4) && decide (m.dstPort < 8) && decide (m.dstNode < 4096) && decide (m.srcPort < 8)
    && decide (m.srcNode < 4096) && decide (m.route < 64) && decide (m.life < 64) && decide (m.tag < 2 ^ 16) && decide (m.tagEpoch < 2 ^ 16)
    && decide (m.pan < 64) && decide (m.length ≤ 4096) && decide (m.status < 256) && decide (m.q2 < 2 ^ 64) && decide (m.q3 < 2 ^ 64)
    && decide (m.data.length ≤ 4096) && bytesOk m.data

/-- An NX message of a row with code `code`. -/
def nxOf (code : Nat) (m : Msg) : Bool := m.code == code && m.ok

/-- The Carousel schedules a DRAM channel. -/
def drams : Car → Bool
  | .rake _ => false
  | .midway _ _ => false
  | .ddr _ => true
  | .stk _ => true

/-- A nonce of 256 bits and a signature of bytes (R461). -/
def ownerOk (o : Owner) : Bool := decide (o.nonce < 2 ^ 256) && bytesOk o.sig

/-- Well-formed commands. -/
def Instr.wf : Instr → Bool
  | .registerWrite _ off _ => offOk off
  | .evposConsumerWrite _ _ => true
  | .errlogposConsumerWrite _ _ => true
  | .fqposConsumerWrite _ _ _ => true
  | .aonlogposConsumerWrite _ _ => true
  | .dropRecordWrite _ _ => true
  | .granuleZeroingDone g => decide (g < 2 ^ 31)
  | .panDrainComplete _ => true
  | .stkSegFlipDone _ => true
  | .lendOffer _ m _ _ => nxOf 0x0C m
  | .lendOfferTimeout _ => true
  | .lendRecall _ m _ _ => nxOf 0x0D m
  | .lentRecallDone _ => true
  | .lentPathLost _ => true
  | .lentLostCleared _ => true
  | .entryAdmit _ far => far.all (fun x => decide (x.1 < 256))
  | .entryDispatch _ => true
  | .durableRecordWrite _ pos => decide (pos < 2 ^ 32)
  | .runLimitExpire _ => true
  | .nop _ => true
  | .br _ => true
  | .loop _ => true
  | .fence _ => true
  | .signal _ => true
  | .wait _ => true
  | .waitSatisfied _ => true
  | .waitTimeout _ => true
  | .alu _ => true
  | .li _ => true
  | .cmp _ => true
  | .plog _ => true
  | .lds _ => true
  | .sts _ => true
  | .rdsys _ => true
  | .copy _ => true
  | .fill _ => true
  | .gather _ => true
  | .scatter _ => true
  | .stride _ => true
  | .tload _ => true
  | .tstore _ => true
  | .aadd _ => true
  | .aand _ => true
  | .aor _ => true
  | .axor _ => true
  | .aminu _ => true
  | .amaxu _ => true
  | .amins _ => true
  | .amaxs _ => true
  | .aswap _ => true
  | .acas _ => true
  | .afadd _ => true
  | .crcInit _ => true
  | .crcRun _ => true
  | .crcSave _ => true
  | .crcLoad _ => true
  | .crcVerify _ => true
  | .crcFinal _ => true
  | .promote _ => true
  | .demote _ => true
  | .pin f => !f.mod.toNat.testBit 0
  | .unpin f => f.mod.toNat.testBit 0
  | .durableSync _ => true
  | .durableSyncDone _ => true
  | .durableSyncTimeout _ => true
  | .submit _ => true
  | .submitSlotFreed _ => true
  | .notify _ => true
  | .qstat _ => true
  | .carve _ => true
  | .map _ => true
  | .unmap _ => true
  | .shootdownDrainDone _ => true
  | .panInstall f => f.mod.toNat % 8 == 0
  | .panDestroy f => f.mod.toNat % 8 == 1
  | .portRekey f => f.mod.toNat % 8 == 2
  | .portEnd f => f.mod.toNat % 8 == 3
  | .commit _ => true
  | .claim _ => true
  | .scrub _ => true
  | .attnQk _ => true
  | .attnSv _ => true
  | .attnPart _ => true
  | .mergePart _ => true
  | .kvq _ => true
  | .kvdq _ => true
  | .topk _ => true
  | .scale _ => true
  | .create _ _ _ => true
  | .enable _ _ _ => true
  | .pause _ _ _ => true
  | .stop _ _ _ => true
  | .destroy _ _ _ => true
  | .move _ _ _ _ => true
  | .queueMoveDone _ => true
  | .setparam _ _ _ => true
  | .read _ _ _ => true
  | .tokenRefill _ => true
  | .sluiceTick => true
  | .sluiceStop _ _ _ _ => true
  | .sluiceThrottle _ _ _ _ _ => true
  | .sluiceRelease _ _ _ => true
  | .sluiceCommandExpire _ _ => true
  | .carouselRound c _ barred _ => drams c || barred.isEmpty
  | .carouselPreempt _ _ => true
  | .pageWalkDone _ va => decide (va < 2 ^ 56)
  | .faultBatchClose _ => true
  | .faultBatchPost _ => true
  | .fqResume _ m _ _ => nxOf 0x0B m
  | .fqresumeResume _ _ _ _ _ => true
  | .fqresumeAbort _ _ _ _ _ => true
  | .xlctlFlush _ => true
  | .dbSq _ m _ _ => nxOf 0x08 m
  | .dbCq _ m _ _ => nxOf 0x09 m
  | .dbFq _ m _ _ => nxOf 0x0A m
  | .ddrTrain _ _ => true
  | .ddrTrainRetry _ => true
  | .ddrMigrate _ _ _ => true
  | .ddrRetrainPauseEnd _ _ => true
  | .dramReadOverdue c => drams c
  | .writeBatchIdle _ => true
  | .refreshDue c rank _ => drams c && decide (rank < 32)
  | .ddrPeriodicRetrain _ => true
  | .migrationLineCopy _ => true
  | .stkSweepDone _ => true
  | .stkTrainRun _ => true
  | .stkTrainRunDone errs => decide ((errs.map (·.1)).Nodup)
  | .stkTrainClear _ => true
  | .stkTrainHoldLong _ => true
  | .patrolRead st found => found.all (fun u => u.flips.all (fun f =>
      if st.val < 16 then decide (f.1 < 40) && decide (f.2 < 16) else if st.val = 16 then decide (f.1 < 36) && decide (f.2 < 16)
      else decide (f.1 < 32) && decide (f.2 < 13)))
  | .retireGranule _ => true
  | .retireRankGranules _ _ _ => true
  | .retireRow _ _ _ _ _ _ _ => true
  | .retireRowDone _ => true
  | .heapEnumerate ds => decide ((ds.map (·.port)).Nodup) && ds.all (fun d => decide (d.rate.val ≤ 6))
  | .heapTransferDone _ va rs => decide (va < 2 ^ 56) && rs.all (fun r => decide (r.block < 2 ^ 18) && decide (r.flips < 2 ^ 32768) &&
      decide (r.guard < 2 ^ 64) && decide (r.ref < 2 ^ 48) && decide (r.app < 2 ^ 16))
  | .autoDemoteSweep _ => true
  | .logBlockClose _ => true
  | .logBlockWritten _ => true
  | .checkpointRound _ => true
  | .checkpointRoundDone _ => true
  | .pwrfailAssert => true
  | .durFlushDone => true
  | .durFlushLate => true
  | .pwrfailRecovered => true
  | .durableRecovery rs => rs.blocks.all (fun r => decide (r.flips < 2 ^ 32768))
  | .heapCmdTimeout _ => true
  | .heapCtrlNotReady _ => true
  | .heapLinkDown _ => true
  | .heapReformat _ => true
  | .rdS _ m _ _ => nxOf 0x40 m
  | .rdX _ m _ _ => nxOf 0x41 m
  | .upg _ m _ _ => nxOf 0x42 m
  | .rdNc _ m _ _ => nxOf 0x43 m
  | .wrNc _ m _ _ => nxOf 0x44 m
  | .wb _ m _ _ => nxOf 0x45 m
  | .evict _ m _ _ => nxOf 0x46 m
  | .atom _ m _ _ => nxOf 0x47 m
  | .snpAck _ m _ _ => nxOf 0x63 m
  | .snpAckD _ m _ _ => nxOf 0x64 m
  | .goAck _ m _ _ => nxOf 0x62 m
  | .data _ m _ _ => nxOf 0x60 m
  | .go _ m _ _ => nxOf 0x61 m
  | .nak _ m _ _ => nxOf 0x65 m
  | .wbAck _ m _ _ => nxOf 0x66 m
  | .cohCmp _ m _ _ => nxOf 0x67 m
  | .atomRsp _ m _ _ => nxOf 0x68 m
  | .nakBackoffExpire tag ep => decide (tag < 2 ^ 16) && decide (ep < 2 ^ 16)
  | .resvLapse line => decide (line < 2 ^ 45)
  | .snoopTimeout line => decide (line < 2 ^ 45)
  | .cohSweepDone _ => true
  | .linkEnable _ _ => true
  | .linkDisable _ _ => true
  | .searchAttempt _ => true
  | .searchNow _ _ => true
  | .partnerSignalDetect _ => true
  | .trainingTimeout _ => true
  | .initSend _ => true
  | .initFlit _ b _ _ _ _ => flitOk b
  | .nullFlit _ b _ _ => flitOk b
  | .dataFlit _ b _ _ => flitOk b
  | .ctrlFlit _ b _ _ => flitOk b
  | .tagFlit _ b _ _ => flitOk b
  | .replayReq _ b _ _ => flitOk b
  | .replayTimerExpire _ => true
  | .flitSlot _ => true
  | .tagTimerExpire _ => true
  | .txRekeyDue _ => true
  | .lpiIdleExpire _ => true
  | .sleepIdleExpire _ => true
  | .lpiReq _ b => ctrlOk 0x02 b
  | .lpiAck _ b => ctrlOk 0x03 b
  | .sleepReq _ b => ctrlOk 0x04 b
  | .sleepAck _ b => ctrlOk 0x05 b
  | .lpiReqTimeout _ => true
  | .wakePattern _ => true
  | .fastRetrainFail _ => true
  | .signalLoss _ => true
  | .laserLow _ _ => true
  | .portcmdRetrain _ _ => true
  | .retrainDone _ _ _ => true
  | .retrainExpire _ => true
  | .failoverDone _ _ => true
  | .linkNotice _ b => ctrlOk 0x06 b
  | .echoTimer _ => true
  | .echo _ b => ctrlOk 0x07 b
  | .echoRsp _ b => ctrlOk 0x08 b
  | .sluiceCmd _ b => ctrlOk 0x01 b
  | .encStart _ b => ctrlOk 0x51 b
  | .rekey _ b => ctrlOk 0x52 b
  | .mrd _ m _ _ => nxOf 0x01 m
  | .mwr _ m _ _ => nxOf 0x02 m
  | .mirrorWr _ m _ _ => nxOf 0x10 m
  | .rsp _ m _ _ => nxOf 0x30 m
  | .rspData _ m _ _ => nxOf 0x31 m
  | .rspDur _ m _ _ => nxOf 0x32 m
  | .messageForward _ m _ _ => m.ok
  | .nxReqTimeout tag ep => decide (tag < 2 ^ 16) && decide (ep < 2 ^ 16)
  | .ccEntryExpire _ => true
  | .ccEntryWaitDone => true
  | .drainHold _ b => ctrlOk 0x40 b
  | .drainRelease _ b => ctrlOk 0x42 b
  | .fabcmdHold _ _ => true
  | .fabcmdRelease _ => true
  | .fabDrained => true
  | .drainHoldTimeout => true
  | .nodeState _ b => ctrlOk 0x43 b
  | .routeDownWrite _ _ _ => true
  | .congestionMap => true
  | .shadowCopyDone => true
  | .epochDrainDone => true
  | .epochDrainSlow => true
  | .snapshotStart => true
  | .snapshotCommit => true
  | .rmHeartbeat => true
  | .rmHbTimeout => true
  | .rmYield _ => true
  | .rmMachineCheck => true
  | .rmReload _ _ => true
  | .stallPoll _ => true
  | .stallFail _ => true
  | .stallQueuesMoved => true
  | .twinHello _ b => ctrlOk 0x60 b
  | .twinHbSend => true
  | .twinHb _ b => ctrlOk 0x61 b
  | .twinAlloc _ b => ctrlOk 0x62 b
  | .twinAck _ b => ctrlOk 0x63 b
  | .twinPan _ b => ctrlOk 0x64 b
  | .twinResync _ b => ctrlOk 0x65 b
  | .twinYield _ b => ctrlOk 0x66 b
  | .twinTimeout => true
  | .twinTakeover _ => true
  | .twincmdResync _ => true
  | .twincmdUnpair _ => true
  | .spdmRequest _ _ => true
  | .spdmFrag _ b => ctrlOk 0x50 b
  | .spdmHeartbeatLoss _ => true
  | .seal _ policy => bytesOk policy
  | .unseal _ => true
  | .resume _ => true
  | .switchRequest => true
  | .zeroDone => true
  | .offerTenancy o root => ownerOk o && decide (root < 2 ^ 384)
  | .withdrawOffer o => ownerOk o
  | .ownerEvict o => ownerOk o
  | .floorRaise o _ => ownerOk o
  | .floorLower o _ => ownerOk o
  | .firmwareRollback o _ => ownerOk o
  | .ownershipTransfer o digest => ownerOk o && decide (digest < 2 ^ 384)
  | .ownerClear o => ownerOk o
  | .debugUnlock o => ownerOk o
  | .tamperClear o _ => ownerOk o
  | .nonce _ => true
  | .presPress _ => true
  | .presLongPress => true
  | .presenceWindowExpire => true
  | .tamperEvent => true
  | .vaonLow => true
  | .vaonReturn => true
  | .xtalMissing => true
  | .refAbsent => true
  | .refReturn => true
  | .pllLockTimeout _ => true
  | .aonTick => true
  | .stampCalibrate _ => true
  | .stallGate _ => true
  | .stallWake _ => true
  | .stallWakeDone _ => true
  | .dramPowerDown _ => true
  | .deepEnter => true
  | .deepExit => true
  | .budgetInterval mw => mw.length == 8
  | .rakeClockChange => true
  | .hlPowerCheck _ => true
  | .hlPowerRelease => true
  | .sensorSample _ _ _ => true
  | .tripRestart => true
  | .vmonSample _ _ => true
  | .pmbAlert => true
  | .powerUp _ => true
  | .railOrder _ _ => true
  | .strapSample _ _ _ => true
  | .prstAssert => true
  | .prstStuck => true
  | .rstcmdWarm _ _ _ => true
  | .rstcmdHard _ _ _ => true
  | .watchdogExpire _ => true
  | .bootStageEnd _ => true
  | .imageFetchDone _ => true
  | .netFetchTimeout => true
  | .imageConfirm => true
  | .settingsCommit _ => true
  | .csrRead _ off count => decide (off < 2 ^ 32) && decide (count < 2 ^ 32)
  | .csrWrite _ off _ => decide (off < 2 ^ 32)
  | .reset _ kind _ => decide (kind < 256)
  | .sluice _ b => bytesOk b
  | .logRead _ log start count => decide (log < 256) && decide (start < 2 ^ 32) && decide (count < 256)
  | .dumpRead _ slot off len => decide (slot < 256) && decide (off < 2 ^ 32) && decide (len < 2 ^ 32)
  | .subscribe _ slot _ _ _ _ _ => decide (slot < 256)
  | .rtcSet _ _ => true
  | .mapPublish _ => true
  | .eventBatchPublish _ => true
  | .eventStageDrain => true
  | .tracePoint _ _ _ => true
  | .dumpTake _ _ => true
  | .dumpMarkRead _ _ => true
  | .dumpCopyDone => true
  | .ageMeasure d => d.length == 32
  | .marginReplan => true
  | .rtcTrim => true
  | .rtcSnapshot => true
  | .alarmFire _ => true
  | .mainPowerLoss => true
  | .aonSupplyLoss => true
  | .prstRelease _ => true
  | .ddrTrainDone _ _ => true
  | .pageCopyDone va _ => decide (va < 2 ^ 56)
  | .mr4Poll _ _ => true
  | .pldmFirmwareUpdate _ _ => true
  | .partnerMessageForward _ m _ _ => m.ok

end Sys2Proof
end

