-- ==== Sys2Proof/Tests/Slice0.lean ====
section
/-!
SUPPORT. Tests of the model's own: ill-formed commands are refused, and single commands on small states give what the spec's text and tables say.
-/
namespace Sys2Proof.Tests
open Sys2Proof Sys2Proof.Machine Host

/-! ### Well-formedness -/

/-- A management request. -/
def ask : Req := ⟨false, none, 7, true, true⟩

/-- An owner's command with a nonce that is too wide. -/
def wide : Owner := ⟨1, 2 ^ 256, [], false⟩

/-- Ill-formed commands, one for a check each, are refused. -/
theorem test_wf_refuses_1 : ([.registerWrite (.rm false) 4 0, .granuleZeroingDone (2 ^ 31), .lendOffer 0 { code := 0x0C, pan := 64 } 0 false,
   .lendRecall 0 { code := 0x0D, pan := 64 } 0 false, .entryAdmit 0 [(256, false)], .durableRecordWrite 0 (2 ^ 32), .pin { fet with mod := 1 },
   .unpin fet, .panInstall { fet with mod := 1 }, .panDestroy fet, .portRekey fet, .portEnd fet, .carouselRound (.rake 0) 0 [1] false,
   .pageWalkDone 0 (2 ^ 56), .fqResume 0 { code := 0x0B, pan := 64 } 0 false, .dbSq 0 { code := 0x08, pan := 64 } 0 false,
   .dbCq 0 { code := 0x09, pan := 64 } 0 false, .dbFq 0 { code := 0x0A, pan := 64 } 0 false, .dramReadOverdue (.rake 0), .refreshDue (.ddr 0) 32 false,
   .stkTrainRunDone [(0, 1), (0, 2)], .patrolRead 0 [⟨false, [(80, 0)], none, false⟩], .heapEnumerate [⟨1, 1, true, [], 0, 8, 9, 0⟩, ⟨1, 1, true, [], 0, 8, 9, 0⟩],
   .heapTransferDone 0 (2 ^ 56) [],
   .heapTransferDone 0 0 [⟨2 ^ 18, false, 0, 0, 0, 0⟩], .rdS 0 { code := 0x40, pan := 64 } 0 false, .rdX 0 { code := 0x41, pan := 64 } 0 false] : List Instr).all (fun i => !i.wf) = true := by decide +kernel

/-- Ill-formed commands, one for a check each, are refused. -/
theorem test_wf_refuses_2 : ([.upg 0 { code := 0x42, pan := 64 } 0 false, .rdNc 0 { code := 0x43, pan := 64 } 0 false, .wrNc 0 { code := 0x44, pan := 64 } 0 false,
   .wb 0 { code := 0x45, pan := 64 } 0 false, .evict 0 { code := 0x46, pan := 64 } 0 false, .atom 0 { code := 0x47, pan := 64 } 0 false,
   .snpAck 0 { code := 0x63, pan := 64 } 0 false, .snpAckD 0 { code := 0x64, pan := 64 } 0 false, .goAck 0 { code := 0x62, pan := 64 } 0 false,
   .data 0 { code := 0x60, pan := 64 } 0 false, .go 0 { code := 0x61, pan := 64 } 0 false, .nak 0 { code := 0x65, pan := 64 } 0 false,
   .wbAck 0 { code := 0x66, pan := 64 } 0 false, .cohCmp 0 { code := 0x67, pan := 64 } 0 false, .atomRsp 0 { code := 0x68, pan := 64 } 0 false,
   .nakBackoffExpire (2 ^ 16) 0, .resvLapse (2 ^ 45), .snoopTimeout (2 ^ 45), .initFlit 0 [] false [] 0 0, .nullFlit 0 [] false [],
   .dataFlit 0 [] false [], .ctrlFlit 0 [] false [], .tagFlit 0 [] false [], .replayReq 0 [] false [], .lpiReq 0 [0x02, 256], .lpiAck 0 [0x03, 256]] : List Instr).all (fun i => !i.wf) = true := by decide +kernel

/-- Ill-formed commands, one for a check each, are refused. -/
theorem test_wf_refuses_3 : ([.sleepReq 0 [0x04, 256], .sleepAck 0 [0x05, 256], .linkNotice 0 [0x06, 256], .echo 0 [0x07, 256], .echoRsp 0 [0x08, 256], .sluiceCmd 0 [0x01, 256],
   .encStart 0 [0x51, 256], .rekey 0 [0x52, 256], .mrd 0 { code := 0x01, pan := 64 } 0 false, .mwr 0 { code := 0x02, pan := 64 } 0 false,
   .mirrorWr 0 { code := 0x10, pan := 64 } 0 false, .rsp 0 { code := 0x30, pan := 64 } 0 false, .rspData 0 { code := 0x31, pan := 64 } 0 false,
   .rspDur 0 { code := 0x32, pan := 64 } 0 false, .messageForward 0 { code := 0x30, pan := 64 } 0 false, .nxReqTimeout 0 (2 ^ 16),
   .drainHold 0 [0x40, 256], .drainRelease 0 [0x42, 256], .nodeState 0 [0x43, 256], .twinHello 0 [0x60, 256], .twinHb 0 [0x61, 256],
   .twinAlloc 0 [0x62, 256], .twinAck 0 [0x63, 256], .twinPan 0 [0x64, 256], .twinResync 0 [0x65, 256], .twinYield 0 [0x66, 256]] : List Instr).all (fun i => !i.wf) = true := by decide +kernel

/-- Ill-formed commands, one for a check each, are refused. -/
theorem test_wf_refuses_4 : ([.spdmFrag 0 [0x50, 256], .seal 0 [256], .offerTenancy wide 0, .withdrawOffer wide, .ownerEvict wide, .floorRaise wide 0, .floorLower wide 0,
   .firmwareRollback wide 0, .ownershipTransfer wide 0, .ownerClear wide, .debugUnlock wide, .tamperClear wide false, .budgetInterval [],
   .csrRead ask (2 ^ 32) 1, .csrWrite ask (2 ^ 32) 0, .reset ask 256 false, .sluice ask [256], .logRead ask 0 (2 ^ 32) 1, .dumpRead ask 0 0 (2 ^ 32),
   .subscribe ask 256 0 0 0 false false, .ageMeasure [], .pageCopyDone (2 ^ 56) 0, .partnerMessageForward 0 { code := 0x30, pan := 64 } 0 false] : List Instr).all (fun i => !i.wf) = true := by decide +kernel

/-- Messages with one field each beyond its width (Table 13-1). -/
def badMsgs : List Msg :=
  [{ code := 256 }, { code := 0, colour := 4 }, { code := 0, dstPort := 8 }, { code := 0, dstNode := 4096 }, { code := 0, srcPort := 8 },
   { code := 0, srcNode := 4096 }, { code := 0, route := 64 }, { code := 0, life := 64 }, { code := 0, tag := 2 ^ 16 }, { code := 0, tagEpoch := 2 ^ 16 },
   { code := 0, pan := 64 }, { code := 0, length := 4097 }, { code := 0, status := 256 }, { code := 0, q2 := 2 ^ 64 }, { code := 0, q3 := 2 ^ 64 },
   { code := 0, data := [256] }]

theorem test_msg_refuses : badMsgs.all (fun m => !m.ok) = true := by decide +kernel

theorem test_wf_codes : (Instr.rdS 0 { code := 0x41 } 0 false).wf = false ∧ (Instr.lpiReq 0 [0x03]).wf = false ∧
    (Instr.registerWrite (.rm false) 0x4000000 0).wf = false ∧ (Instr.rdS 0 { code := 0x40 } 0 false).wf = true := by decide +kernel

/-! ### One command on a small state -/

/-- What a command answers, seen through `f`. -/
def after {α : Type} [Inhabited α] (i : Instr) (s : State) (f : State → α) : α :=
  match exec i s with
  | .next t => f t
  | _ => default

/-- Table 09-8: the check value of CRC-32C. -/
theorem test_crc32c : crcFinal 1 (crcUpdate 1 (crcInit 1) [0x31, 0x32, 0x33, 0x34, 0x35, 0x36, 0x37, 0x38, 0x39]) = 0xE3069283 := by decide +kernel

/-- R96: the program goes on at the next word after an instruction of one word. -/
theorem test_nop : after (.nop fet) (run (ent ctx0)) (fun t => (t.inHand 3).map (fun e => e.ctx.pc)) = some 1 := by decide +kernel

/-- R107: LI writes op64. -/
theorem test_li : after (.li { fet with ra := 5, op := 0x8000000000000001 }) (run (ent ctx0)) (fun t => (t.inHand 3).map (fun e => e.ctx.reg 5)) =
    some 0x8000000000000001 := by decide +kernel

/-- R97: an instruction whose guard is false writes nothing. -/
theorem test_guard : after (.li { fet with ra := 5, op := 7, g := 1 }) (run (ent ctx0)) (fun t => (t.inHand 3).map (fun e => e.ctx.reg 5)) = some 0 := by
  decide +kernel

/-- R105, Table 04-5: SUB of 1 from 0 wraps, and the source may be the destination. -/
theorem test_sub : after (.alu { fet with mod := 0x21, ra := 6, imm := 1, op := 6 }) (run (ent ctx0))
    (fun t => (t.inHand 3).map (fun e => e.ctx.reg 6)) = some 0xFFFFFFFFFFFFFFFF := by decide +kernel

/-- R106: LTS compares as signed numbers, LTU as unsigned ones. -/
theorem test_cmp : after (.cmp { fet with mod := 4, ra := 6, op := 2 }) (run (ent (ctx0.setReg 6 (2 ^ 64 - 1) false)))
      (fun t => (t.inHand 3).map (fun e => e.ctx.pred 2)) = some true ∧
    after (.cmp { fet with mod := 2, ra := 6, op := 2 }) (run (ent (ctx0.setReg 6 (2 ^ 64 - 1) false)))
      (fun t => (t.inHand 3).map (fun e => e.ctx.pred 2)) = some false := by decide +kernel

/-- R339: the waits between attempts of a search. -/
theorem test_search_wait : searchWait 1 = 1 ∧ searchWait 2 = 2 ∧ searchWait 10 = 512 ∧ searchWait 11 = 1000 := by decide +kernel

/-- R460: a press of the presence button opens a window of 60 s. -/
theorem test_press : after (.presPress false) lit (fun t => t.rd Csr.PRESSTAT_window_s) = 60 := by decide +kernel

/-- R487: above p_max_w the hard-limit block imposes point 0. -/
theorem test_hard_limit : after (.hlPowerCheck 200001) ((lit.wr Csr.HLFUSE_p_max_w 200).wr Csr.PWRSTAT_point 3) (fun t => t.rd Csr.PWRSTAT_point) = 0 := by
  decide +kernel

/-- R541: a device held in reset discards register writes. -/
theorem test_held : after (.registerWrite .mgmt 0x200010 9) State.reset (fun t => t.rd Csr.PWRMCAP_mgmt_cap_w) = 150 ∧
    after (.registerWrite .mgmt 0x200010 9) lit (fun t => t.rd Csr.PWRMCAP_mgmt_cap_w) = 9 := by decide +kernel

/-- The front command runs first, with the rest of the queue. -/
theorem test_front : (match step { lit with pending := [.presPress false, .aonTick] } with
    | .next t => (t.pending.length, t.rd Csr.PRESSTAT_presses)
    | _ => (0, 0)) = (1, 1) := by decide +kernel

/-- With nothing waiting a nanosecond passes (log entry 14). -/
theorem test_tick : (match step { lit with stamp := 2 ^ 64 - 1 } with
    | .next t => t.stamp
    | _ => 1) = 0 := by decide +kernel

/-- The table gives no bits, so no word spells a command. -/
theorem test_no_words : decodeTableWord 64 0 = none := by decide +kernel

end Sys2Proof.Tests
end

