-- ==== Sys2Proof/Tests/Witnesses.lean ====
section
/-!
SUPPORT. For every statement that has hypotheses, states and operands that meet them together, clause by clause.
-/
namespace Sys2Proof.Tests
open Sys2Proof Sys2Proof.Machine Host

section Witnesses
set_option linter.unusedVariables false
set_option Elab.async false

/-- States and operands that meet the hypotheses of each clause of Obligations.ControlAndScalar. -/
theorem wit_ControlAndScalar :
  (∃ (s : State) (f : Fetch) (e : Entry), Issues s 0 f e) ∧
  (∃ (s : State) (f : Fetch) (e : Entry), Issues s 4 f e) ∧
  (∃ (s : State) (f : Fetch) (e : Entry), Issues s 1 f e ∧ bitOf f.mod.toNat 0 = false ∧ bitsOf f.imm.toNat 0 16 < e.codeWords) ∧
  (∃ (s : State) (f : Fetch) (e : Entry), Issues s 1 f e ∧ bitOf f.mod.toNat 0 = true ∧ e.ctx.poi f.ra.val = false ∧ e.ctx.reg f.ra.val < 2 ^ 16 ∧
    e.ctx.reg f.ra.val < e.codeWords) ∧
  (∃ (s : State) (f : Fetch) (e : Entry), Issues s 2 f e ∧ f.ra ≠ f.rb ∧ (e.ctx.reg f.ra.val % 2 ^ 64 + 2 ^ 64 - f.imm.toNat) % 2 ^ 64 ≠ 0 ∧
    bitsOf f.op.toNat 0 16 < e.codeWords) ∧
  (∃ (s : State) (f : Fetch) (e : Entry), Issues s 2 f e ∧ f.ra ≠ f.rb ∧ (e.ctx.reg f.ra.val % 2 ^ 64 + 2 ^ 64 - f.imm.toNat) % 2 ^ 64 = 0) ∧
  (∃ (s : State) (f : Fetch) (e : Entry), Issues s 8 f e) ∧
  (∃ (s : State) (f : Fetch) (e : Entry), Issues s 7 f e) ∧
  (∃ (s : State) (f : Fetch) (e : Entry), Issues s 9 f e) ∧
  (∃ (s : State) (f : Fetch) (e : Entry), Issues s 10 f e) :=
  ⟨⟨run (ent ctx0), fet, ent ctx0, mkIssues (by decide +kernel)⟩,
   ⟨run (ent ctx0), fet, ent ctx0, mkIssues (by decide +kernel)⟩,
   ⟨run (ent ctx0), {fet with imm := 7}, ent ctx0, mkIssues (by decide +kernel), by decide +kernel, by decide +kernel⟩,
   ⟨run (ent (ctx0.setReg 4 7 false)), {fet with mod := 1, ra := 4}, ent (ctx0.setReg 4 7 false), mkIssues (by decide +kernel), by decide +kernel⟩,
   ⟨run (ent ctx0), {fet with ra := 4, rb := 6, imm := 3, op := 7}, ent ctx0, mkIssues (by decide +kernel), by decide +kernel⟩,
   ⟨run (ent ctx0), {fet with rb := 6}, ent ctx0, mkIssues (by decide +kernel), by decide +kernel, by decide +kernel⟩,
   ⟨run (ent ctx0), {fet with ra := 31, op := 77}, ent ctx0, mkIssues (by decide +kernel)⟩,
   ⟨run (ent (ctx0.setReg 4 7 true)), {fet with mod := 0x20, ra := 4, imm := 0xFFFFFFFF, op := 31}, ent (ctx0.setReg 4 7 true),
    mkIssues (by decide +kernel)⟩,
   ⟨run (ent ctx0), {fet with mod := 8, imm := 0xFFFFFFFF, op := 7}, ent ctx0, mkIssues (by decide +kernel)⟩,
   ⟨run (ent ctx0), {fet with mod := 4, op := 0x7}, ent ctx0, mkIssues (by decide +kernel)⟩⟩

/-- States and operands that meet the hypotheses of each clause of Obligations.CopiesAndFills. -/
theorem wit_CopiesAndFills :
  (∃ (s : State) (f : Fetch) (e : Entry) (n : Nat) (src : Loc) (dst : Loc), Performs s 16 f e [src, dst] ∧ lengthIs f e f.ra.val n ∧ foldsOk f e ∧
    e.locate e.ctx f.x0.toNat 0 n false = Sum.inr src ∧ e.locate e.ctx f.op.toNat 0 n true = Sum.inr dst ∧ clash src.segs dst.segs = false) ∧
  (∃ (s : State) (f : Fetch) (e : Entry) (n : Nat) (dst : Loc), Performs s 17 f e [dst] ∧ lengthIs f e f.rb.val n ∧
    e.locate e.ctx f.op.toNat 0 n true = Sum.inr dst) ∧
  (∃ (s : State) (f : Fetch) (e : Entry) (n : Nat) (srcs : List Loc) (dsts : List Loc), Performs s 20 f e (srcs ++ dsts) ∧ lengthIs f e f.ra.val n ∧
    foldsOk f e ∧ 1 ≤ bitsOf f.x1.toNat 0 32 ∧ bitsOf f.x1.toNat 0 32 ≤ 1048576 ∧
    allLocs (List.map (fun r => e.locate e.ctx f.x0.toNat (r * f.y0.toNat) n false) (List.range (bitsOf f.x1.toNat 0 32))) = Sum.inr srcs ∧
    allLocs (List.map (fun r => e.locate e.ctx f.op.toNat (r * f.y1.toNat) n true) (List.range (bitsOf f.x1.toNat 0 32))) = Sum.inr dsts ∧
    clash (segsOf srcs) (segsOf dsts) = false) :=
  ⟨⟨run (ent ctx0), {fet with imm := 16, op := w1, xw := 1}, ent ctx0, 16, loc 0 16 false, loc 1 16 true,
    mkPerforms (mkIssues (by decide +kernel)) (by decide +kernel) (mkDirect (by decide +kernel)), by unfold lengthIs; decide +kernel,
    by unfold foldsOk Ctx.pairAt; decide +kernel, by decide +kernel⟩,
   ⟨run (ent ctx0), {fet with imm := 4096, op := w1}, ent ctx0, 4096, loc 1 4096 true,
    mkPerforms (mkIssues (by decide +kernel)) (by decide +kernel) (mkDirect (by decide +kernel)), by unfold lengthIs; decide +kernel, by decide +kernel⟩,
   ⟨run (ent ctx0), {fet with imm := 16, op := w1, xw := 2, x1 := 2}, ent ctx0, 16, [loc 0 16 false, loc 0 16 false], [loc 1 16 true, loc 1 16 true],
    mkPerforms (mkIssues (by decide +kernel)) (by decide +kernel) (mkDirect (by decide +kernel)), by unfold lengthIs; decide +kernel,
    by unfold foldsOk Ctx.pairAt; decide +kernel, by decide +kernel⟩⟩

/-- States and operands that meet the hypotheses of each clause of Obligations.ListMoves. -/
theorem wit_ListMoves :
  (∃ (s : State) (f : Fetch) (e : Entry) (list : Loc) (srcs : List Loc) (dst : Loc), listInRange f e ∧ foldsOk f e ∧
    e.locate e.ctx f.x1.toNat 0 (listBytes f) false = Sum.inr list ∧ Performs s 18 f e (list :: srcs ++ [dst]) ∧
    allLocs (List.map (fun i => e.locate e.ctx f.x0.toNat (indexAt f (s.bytesOf list.segs) i) (bitsOf f.y0.toNat 0 32) false) (List.range
    f.imm.toNat)) = Sum.inr srcs ∧
    e.locate e.ctx f.op.toNat 0 (f.imm.toNat * bitsOf f.y0.toNat 0 32) true = Sum.inr dst) ∧
  (∃ (s : State) (f : Fetch) (e : Entry) (list : Loc) (src : Loc) (dsts : List Loc), listInRange f e ∧ foldsOk f e ∧
    e.locate e.ctx f.x1.toNat 0 (listBytes f) false = Sum.inr list ∧ Performs s 19 f e (list :: src :: dsts) ∧
    e.locate e.ctx f.x0.toNat 0 (f.imm.toNat * bitsOf f.y0.toNat 0 32) false = Sum.inr src ∧
    allLocs (List.map (fun i => e.locate e.ctx f.op.toNat (indexAt f (s.bytesOf list.segs) i) (bitsOf f.y0.toNat 0 32) true) (List.range f.imm.toNat))
    = Sum.inr dsts) :=
  ⟨⟨run (ent ctx0), {fet with imm := 1, op := w1, xw := 2, x1 := 0x800, y0 := 16}, ent ctx0, ⟨[⟨0x1800, 4, 0x1800, false⟩], 0, false, false, true⟩, [loc 0 16 false],
    loc 1 16 true, by unfold listInRange; decide +kernel, by unfold foldsOk Ctx.pairAt; decide +kernel, by decide +kernel,
    mkPerforms (mkIssues (by decide +kernel)) (by decide +kernel) (mkDirect (by decide +kernel)), by decide +kernel, by decide +kernel⟩,
   ⟨run (ent ctx0), {fet with imm := 1, op := w1, xw := 2, x1 := 0x800, y0 := 16}, ent ctx0, ⟨[⟨0x1800, 4, 0x1800, false⟩], 0, false, false, true⟩, loc 0 16 false,
    [loc 1 16 true], by unfold listInRange; decide +kernel, by unfold foldsOk Ctx.pairAt; decide +kernel, by decide +kernel,
    mkPerforms (mkIssues (by decide +kernel)) (by decide +kernel) (mkDirect (by decide +kernel)), by decide +kernel, by decide +kernel⟩⟩

/-- States and operands that meet the hypotheses of each clause of Obligations.TilesAndScalars. -/
theorem wit_TilesAndScalars :
  (∃ (s : State) (f : Fetch) (e : Entry) (l : Loc), Performs s 24 f e [l] ∧ foldsOk f e ∧ 1 ≤ f.imm.toNat ∧ f.imm.toNat ≤ 4096 ∧
    e.locate e.ctx f.op.toNat 0 f.imm.toNat false = Sum.inr l) ∧
  (∃ (s : State) (f : Fetch) (e : Entry) (l : Loc), Performs s 25 f e [l] ∧ 1 ≤ f.imm.toNat ∧ f.imm.toNat ≤ 4096 ∧
    e.locate e.ctx f.op.toNat 0 f.imm.toNat true = Sum.inr l) ∧
  (∃ (s : State) (f : Fetch) (e : Entry) (l : Loc), Performs s 11 f e [l] ∧
    e.locate e.ctx f.op.toNat 0 (2 ^ bitsOf f.mod.toNat 0 2) false = Sum.inr l ∧ e.va e.ctx f.op.toNat % 2 ^ bitsOf f.mod.toNat 0 2 = 0) ∧
  (∃ (s : State) (f : Fetch) (e : Entry) (l : Loc), Performs s 12 f e [l] ∧
    e.locate e.ctx f.op.toNat 0 (2 ^ bitsOf f.mod.toNat 0 2) true = Sum.inr l ∧ e.va e.ctx f.op.toNat % 2 ^ bitsOf f.mod.toNat 0 2 = 0) :=
  ⟨⟨run (ent ctx0), {fet with ra := 15, imm := 4096}, ent ctx0, loc 0 4096 false,
    mkPerforms (mkIssues (by decide +kernel)) (by decide +kernel) (mkDirect (by decide +kernel)), by unfold foldsOk Ctx.pairAt; decide +kernel,
    by decide +kernel⟩,
   ⟨run (ent ctx0), {fet with ra := 15, imm := 4096}, ent ctx0, loc 0 4096 true,
    mkPerforms (mkIssues (by decide +kernel)) (by decide +kernel) (mkDirect (by decide +kernel)), by decide +kernel⟩,
   ⟨run (ent ctx0), {fet with mod := 3, ra := 4}, ent ctx0, loc 0 8 false,
    mkPerforms (mkIssues (by decide +kernel)) (by decide +kernel) (mkDirect (by decide +kernel)), by decide +kernel, by decide +kernel⟩,
   ⟨run (ent ctx0), {fet with mod := 3, ra := 4}, ent ctx0, loc 0 8 true,
    mkPerforms (mkIssues (by decide +kernel)) (by decide +kernel) (mkDirect (by decide +kernel)), by decide +kernel, by decide +kernel⟩⟩

/-- States and operands that meet the hypotheses of each clause of Obligations.Atomics. -/
theorem wit_Atomics :
  (∃ (s : State) (f : Fetch) (e : Entry) (l : Loc), Performs s 48 f e [l] ∧ l.holds (atomicSize f) ∧
    e.locate e.ctx f.op.toNat 0 (atomicSize f) true = Sum.inr l ∧
    (bitOf f.mod.toNat 1 = true → e.locate e.ctx f.op.toNat 0 (atomicSize f) false = Sum.inr { l with wr := false }) ∧
    e.va e.ctx f.op.toNat % atomicSize f = 0) ∧
  (∃ (s : State) (f : Fetch) (e : Entry) (l : Loc), Performs s 49 f e [l] ∧ l.holds (atomicSize f) ∧
    e.locate e.ctx f.op.toNat 0 (atomicSize f) true = Sum.inr l ∧
    (bitOf f.mod.toNat 1 = true → e.locate e.ctx f.op.toNat 0 (atomicSize f) false = Sum.inr { l with wr := false }) ∧
    e.va e.ctx f.op.toNat % atomicSize f = 0) ∧
  (∃ (s : State) (f : Fetch) (e : Entry) (l : Loc), Performs s 50 f e [l] ∧ l.holds (atomicSize f) ∧
    e.locate e.ctx f.op.toNat 0 (atomicSize f) true = Sum.inr l ∧
    (bitOf f.mod.toNat 1 = true → e.locate e.ctx f.op.toNat 0 (atomicSize f) false = Sum.inr { l with wr := false }) ∧
    e.va e.ctx f.op.toNat % atomicSize f = 0) ∧
  (∃ (s : State) (f : Fetch) (e : Entry) (l : Loc), Performs s 51 f e [l] ∧ l.holds (atomicSize f) ∧
    e.locate e.ctx f.op.toNat 0 (atomicSize f) true = Sum.inr l ∧
    (bitOf f.mod.toNat 1 = true → e.locate e.ctx f.op.toNat 0 (atomicSize f) false = Sum.inr { l with wr := false }) ∧
    e.va e.ctx f.op.toNat % atomicSize f = 0) ∧
  (∃ (s : State) (f : Fetch) (e : Entry) (l : Loc), Performs s 52 f e [l] ∧ l.holds (atomicSize f) ∧
    e.locate e.ctx f.op.toNat 0 (atomicSize f) true = Sum.inr l ∧
    (bitOf f.mod.toNat 1 = true → e.locate e.ctx f.op.toNat 0 (atomicSize f) false = Sum.inr { l with wr := false }) ∧
    e.va e.ctx f.op.toNat % atomicSize f = 0) ∧
  (∃ (s : State) (f : Fetch) (e : Entry) (l : Loc), Performs s 53 f e [l] ∧ l.holds (atomicSize f) ∧
    e.locate e.ctx f.op.toNat 0 (atomicSize f) true = Sum.inr l ∧
    (bitOf f.mod.toNat 1 = true → e.locate e.ctx f.op.toNat 0 (atomicSize f) false = Sum.inr { l with wr := false }) ∧
    e.va e.ctx f.op.toNat % atomicSize f = 0) ∧
  (∃ (s : State) (f : Fetch) (e : Entry) (l : Loc), Performs s 54 f e [l] ∧ l.holds (atomicSize f) ∧
    e.locate e.ctx f.op.toNat 0 (atomicSize f) true = Sum.inr l ∧
    (bitOf f.mod.toNat 1 = true → e.locate e.ctx f.op.toNat 0 (atomicSize f) false = Sum.inr { l with wr := false }) ∧
    e.va e.ctx f.op.toNat % atomicSize f = 0) ∧
  (∃ (s : State) (f : Fetch) (e : Entry) (l : Loc), Performs s 55 f e [l] ∧ l.holds (atomicSize f) ∧
    e.locate e.ctx f.op.toNat 0 (atomicSize f) true = Sum.inr l ∧
    (bitOf f.mod.toNat 1 = true → e.locate e.ctx f.op.toNat 0 (atomicSize f) false = Sum.inr { l with wr := false }) ∧
    e.va e.ctx f.op.toNat % atomicSize f = 0) ∧
  (∃ (s : State) (f : Fetch) (e : Entry) (l : Loc), Performs s 56 f e [l] ∧ l.holds (atomicSize f) ∧
    e.locate e.ctx f.op.toNat 0 (atomicSize f) true = Sum.inr l ∧
    (bitOf f.mod.toNat 1 = true → e.locate e.ctx f.op.toNat 0 (atomicSize f) false = Sum.inr { l with wr := false }) ∧
    e.va e.ctx f.op.toNat % atomicSize f = 0) ∧
  (∃ (s : State) (f : Fetch) (e : Entry) (l : Loc), Performs s 57 f e [l] ∧ l.holds (atomicSize f) ∧
    e.locate e.ctx f.op.toNat 0 (atomicSize f) true = Sum.inr l ∧
    (bitOf f.mod.toNat 1 = true → e.locate e.ctx f.op.toNat 0 (atomicSize f) false = Sum.inr { l with wr := false }) ∧
    e.va e.ctx f.op.toNat % atomicSize f = 0) ∧
  (∃ (s : State) (f : Fetch) (e : Entry) (l : Loc), Performs s 58 f e [l] ∧ l.holds (atomicSize f) ∧
    e.locate e.ctx f.op.toNat 0 (atomicSize f) true = Sum.inr l ∧
    (bitOf f.mod.toNat 1 = true → e.locate e.ctx f.op.toNat 0 (atomicSize f) false = Sum.inr { l with wr := false }) ∧
    e.va e.ctx f.op.toNat % atomicSize f = 0) :=
  ⟨⟨run (ent ctx0), {fet with mod := 3, ra := 4}, ent ctx0, loc 0 8 true,
    mkPerforms (mkIssues (by decide +kernel)) (by decide +kernel) (mkDirect (by decide +kernel)), by unfold Loc.holds; decide +kernel, by decide +kernel⟩,
   ⟨run (ent ctx0), {fet with mod := 3, ra := 4}, ent ctx0, loc 0 8 true,
    mkPerforms (mkIssues (by decide +kernel)) (by decide +kernel) (mkDirect (by decide +kernel)), by unfold Loc.holds; decide +kernel, by decide +kernel⟩,
   ⟨run (ent ctx0), {fet with mod := 3, ra := 4}, ent ctx0, loc 0 8 true,
    mkPerforms (mkIssues (by decide +kernel)) (by decide +kernel) (mkDirect (by decide +kernel)), by unfold Loc.holds; decide +kernel, by decide +kernel⟩,
   ⟨run (ent ctx0), {fet with mod := 3, ra := 4}, ent ctx0, loc 0 8 true,
    mkPerforms (mkIssues (by decide +kernel)) (by decide +kernel) (mkDirect (by decide +kernel)), by unfold Loc.holds; decide +kernel, by decide +kernel⟩,
   ⟨run (ent ctx0), {fet with mod := 3, ra := 4}, ent ctx0, loc 0 8 true,
    mkPerforms (mkIssues (by decide +kernel)) (by decide +kernel) (mkDirect (by decide +kernel)), by unfold Loc.holds; decide +kernel, by decide +kernel⟩,
   ⟨run (ent ctx0), {fet with mod := 3, ra := 4}, ent ctx0, loc 0 8 true,
    mkPerforms (mkIssues (by decide +kernel)) (by decide +kernel) (mkDirect (by decide +kernel)), by unfold Loc.holds; decide +kernel, by decide +kernel⟩,
   ⟨run (ent ctx0), {fet with mod := 3, ra := 4}, ent ctx0, loc 0 8 true,
    mkPerforms (mkIssues (by decide +kernel)) (by decide +kernel) (mkDirect (by decide +kernel)), by unfold Loc.holds; decide +kernel, by decide +kernel⟩,
   ⟨run (ent ctx0), {fet with mod := 3, ra := 4}, ent ctx0, loc 0 8 true,
    mkPerforms (mkIssues (by decide +kernel)) (by decide +kernel) (mkDirect (by decide +kernel)), by unfold Loc.holds; decide +kernel, by decide +kernel⟩,
   ⟨run (ent ctx0), {fet with mod := 3, ra := 4}, ent ctx0, loc 0 8 true,
    mkPerforms (mkIssues (by decide +kernel)) (by decide +kernel) (mkDirect (by decide +kernel)), by unfold Loc.holds; decide +kernel, by decide +kernel⟩,
   ⟨run (ent ctx0), {fet with mod := 3, ra := 4, rb := 5, imm := 7}, ent ctx0, loc 0 8 true,
    mkPerforms (mkIssues (by decide +kernel)) (by decide +kernel) (mkDirect (by decide +kernel)), by unfold Loc.holds; decide +kernel, by decide +kernel⟩,
   ⟨run (ent ctx0), {fet with mod := 2, ra := 4}, ent ctx0, loc 0 4 true,
    mkPerforms (mkIssues (by decide +kernel)) (by decide +kernel) (mkDirect (by decide +kernel)), by unfold Loc.holds; decide +kernel, by decide +kernel⟩⟩

/-- States and operands that meet the hypotheses of each clause of Obligations.SignalsAndWaits. -/
theorem wit_SignalsAndWaits :
  (∃ (s : State) (f : Fetch) (e : Entry) (l : Loc), Performs s 5 f e [l] ∧ l.holds 8 ∧ e.locate e.ctx f.op.toNat 0 8 true = Sum.inr l ∧
    e.va e.ctx f.op.toNat % 8 = 0) ∧
  (∃ (s : State) (f : Fetch) (e : Entry) (l : Loc), e.locate e.ctx f.op.toNat 0 8 false = Sum.inr l ∧ e.va e.ctx f.op.toNat % 8 = 0 ∧
    e.ctx.poi f.rb.val = false ∧ Performs s 6 f e [l] ∧ subMod (ofLeBytes (s.bytesOf l.segs)) (e.ctx.reg f.rb.val) 64 < 2 ^ 63) ∧
  (∃ (s : State) (f : Fetch) (e : Entry) (l : Loc), e.locate e.ctx f.op.toNat 0 8 false = Sum.inr l ∧ e.va e.ctx f.op.toNat % 8 = 0 ∧
    e.ctx.poi f.rb.val = false ∧ Performs s 6 f e [l] ∧ (¬subMod (ofLeBytes (s.bytesOf l.segs)) (e.ctx.reg f.rb.val) 64 < 2 ^ 63)) ∧
  (∃ (s : State) (f : Fetch) (e : Entry) (l : Loc) (last : Option (Nat × Bool)), e.locate e.ctx f.op.toNat 0 8 false = Sum.inr l ∧
    e.va e.ctx f.op.toNat % 8 = 0 ∧ e.ctx.poi f.rb.val = false ∧ Performs (s.freed f.rake.val) 6 f e [l] ∧
    (s.rake f.rake.val).wait = RakeWait.counter last ∧ (s.rake f.rake.val).instr = some (Instr.wait f) ∧ s.answered ∧
    subMod (ofLeBytes (s.bytesOf l.segs)) (e.ctx.reg f.rb.val) 64 < 2 ^ 63) ∧
  (∃ (s : State) (f : Fetch) (e : Entry) (x : Nat) (p : Bool), Issues (s.freed f.rake.val) 6 f e ∧
    (s.rake f.rake.val).wait = RakeWait.counter (some (x, p)) ∧ (s.rake f.rake.val).instr = some (Instr.wait f) ∧ f.imm ≠ 0 ∧
    bitsOf f.mod.toNat 5 3 ≠ 0) :=
  ⟨⟨run (ent ctx0), {fet with imm := 5}, ent ctx0, loc 0 8 true,
    mkPerforms (mkIssues (by decide +kernel)) (by decide +kernel) (mkDirect (by decide +kernel)), by unfold Loc.holds; decide +kernel, by decide +kernel,
    by decide +kernel⟩,
   ⟨run (ent ctx0), {fet with ra := 4, rb := 6}, ent ctx0, loc 0 8 false, by decide +kernel, by decide +kernel, by decide +kernel,
    mkPerforms (mkIssues (by decide +kernel)) (by decide +kernel) (mkDirect (by decide +kernel)), by decide +kernel⟩,
   ⟨run (ent (ctx0.setReg 6 1 false)), {fet with ra := 4, rb := 6}, ent (ctx0.setReg 6 1 false), loc 0 8 false, by decide +kernel, by decide +kernel,
    by decide +kernel, mkPerforms (mkIssues (by decide +kernel)) (by decide +kernel) (mkDirect (by decide +kernel)), by decide +kernel⟩,
   ⟨stuck (ent ctx0) (.counter none) (.wait {fet with ra := 4, rb := 6}), {fet with ra := 4, rb := 6}, ent ctx0, loc 0 8 false, none, by decide +kernel,
    by decide +kernel, by decide +kernel, mkPerforms (mkIssues (by decide +kernel)) (by decide +kernel) (mkDirect (by decide +kernel)), by decide +kernel,
    by decide +kernel, by unfold State.answered; decide +kernel, by decide +kernel⟩,
   ⟨stuck (ent ctx0) (.counter (some (7, true))) (.wait {fet with mod := 0xE0, ra := 4, rb := 6, imm := 9}), {fet with mod := 0xE0, ra := 4, rb := 6, imm := 9},
    ent ctx0, 7, true, mkIssues (by decide +kernel), by decide +kernel⟩⟩

/-- States and operands that meet the hypotheses of each clause of Obligations.CheckPairs. -/
theorem wit_CheckPairs :
  (∃ (s : State) (f : Fetch) (e : Entry), Issues s 64 f e ∧ f.ra.val % 2 = 0 ∧
    (if bitOf f.mod.toNat 3 = true then f.op.toNat else crcInit (bitsOf f.mod.toNat 0 2)) < 2 ^ crcWidth (bitsOf f.mod.toNat 0 2)) ∧
  (∃ (s : State) (f : Fetch) (e : Entry) (l : Loc) (n : Nat), Performs s 65 f e [l] ∧ e.ctx.pairAt f.ra.val ∧ lengthIs f e f.rb.val n ∧
    e.locate e.ctx f.op.toNat 0 n false = Sum.inr l) ∧
  (∃ (s : State) (f : Fetch) (e : Entry) (l : Loc), Performs s 66 f e [l] ∧ f.ra.val % 2 = 0 ∧ e.va e.ctx f.op.toNat % 16 = 0 ∧
    e.locate e.ctx f.op.toNat 0 16 true = Sum.inr l) ∧
  (∃ (s : State) (f : Fetch) (e : Entry) (l : Loc), Performs s 67 f e [l] ∧ f.ra.val % 2 = 0 ∧ e.va e.ctx f.op.toNat % 16 = 0 ∧
    e.locate e.ctx f.op.toNat 0 16 false = Sum.inr l ∧
    recordOk (ofLeBytes (List.drop 8 (s.bytesOf l.segs))) (ofLeBytes (List.take 8 (s.bytesOf l.segs))) = true) ∧
  (∃ (s : State) (f : Fetch) (e : Entry) (l : Loc), Performs s 68 f e [l] ∧ bitOf f.mod.toNat 3 = true ∧ e.ctx.pairAt f.ra.val ∧
    e.ctx.poi f.ra.val = false ∧ e.va e.ctx f.op.toNat % (crcWidth (bitsOf (e.ctx.reg (f.ra.val + 1)) 56 3) / 8) = 0 ∧
    e.locate e.ctx f.op.toNat 0 (crcWidth (bitsOf (e.ctx.reg (f.ra.val + 1)) 56 3) / 8) false = Sum.inr l) ∧
  (∃ (s : State) (f : Fetch) (e : Entry), Issues s 68 f e ∧ bitOf f.mod.toNat 3 = false ∧ e.ctx.pairAt f.ra.val ∧ e.ctx.poi f.ra.val = false ∧
    e.ctx.poi f.rb.val = false) ∧
  (∃ (s : State) (f : Fetch) (e : Entry), Issues s 69 f e ∧ e.ctx.pairAt f.ra.val) :=
  ⟨⟨run (ent ctx0), {fet with mod := 5, ra := 4, rb := 6}, ent ctx0, mkIssues (by decide +kernel), by decide +kernel, by decide +kernel⟩,
   ⟨run (ent pair), {fet with ra := 4, imm := 16}, ent pair, loc 0 16 false, 16,
    mkPerforms (mkIssues (by decide +kernel)) (by decide +kernel) (mkDirect (by decide +kernel)), by unfold Ctx.pairAt; decide +kernel,
    by unfold lengthIs; decide +kernel, by decide +kernel⟩,
   ⟨run (ent pair), {fet with ra := 4}, ent pair, loc 0 16 true,
    mkPerforms (mkIssues (by decide +kernel)) (by decide +kernel) (mkDirect (by decide +kernel)), by decide +kernel⟩,
   ⟨{run (ent ctx0) with mem := [(0x100F, 1)]}, {fet with ra := 4}, ent ctx0, loc 0 16 false,
    mkPerforms (mkIssues (by decide +kernel)) (by decide +kernel) (mkDirect (by decide +kernel)), by decide +kernel⟩,
   ⟨run (ent pair), {fet with mod := 8, ra := 4}, ent pair, loc 0 4 false,
    mkPerforms (mkIssues (by decide +kernel)) (by decide +kernel) (mkDirect (by decide +kernel)), by decide +kernel, by unfold Ctx.pairAt; decide +kernel,
    by decide +kernel⟩,
   ⟨run (ent pair), {fet with ra := 4, rb := 6}, ent pair, mkIssues (by decide +kernel), by decide +kernel, by unfold Ctx.pairAt; decide +kernel,
    by decide +kernel, by decide +kernel⟩,
   ⟨run (ent pair), {fet with ra := 4, rb := 6}, ent pair, mkIssues (by decide +kernel), by unfold Ctx.pairAt; decide +kernel⟩⟩

/-- States and operands that meet the hypotheses of each clause of Obligations.CheckValuesOfTable. -/
theorem wit_CheckValuesOfTable :
  (∃ (i : Nat), i < 32) ∧
  (∃ (i : Nat), i < 64) :=
  ⟨⟨31, by decide +kernel⟩,
   ⟨63, by decide +kernel⟩⟩

/-- States and operands that meet the hypotheses of each clause of Obligations.Attention. -/
theorem wit_Attention :
  (∃ (s : State) (f : Fetch) (e : Entry) (b : Nat) (c : Nat) (sigma : Nat) (o : Loc) (q : Loc) (k : Loc), (Performs s 80 f e (o :: k.mapped :: q :: List.map (fun x => x.loc) ((s.envOf 80 f (Instr.attnQk f) false e).kvParts (Shape.of f.imm.toNat) f.x1.toNat b c [0, 1] false))) ∧
    tokensAre f e b c ∧ finiteIs e true f.rb.val 0 sigma ∧ e.locate e.ctx f.op.toNat 0 ((Shape.of f.imm.toNat).hq * (4 * c)) true = Sum.inr o ∧
    e.locate e.ctx f.x0.toNat 0 ((Shape.of f.imm.toNat).hq * queryBytes f) false = Sum.inr q ∧
    (s.envOf 80 f (Instr.attnQk f) false e).kvAll (Shape.of f.imm.toNat) f.x1.toNat b c false = Sum.inr k ∧ e.va e.ctx f.op.toNat % 8 = 0 ∧
    (s.envOf 80 f (Instr.attnQk f) false e).kvAligned f.x1.toNat = true ∧ extraPasses (Shape.of f.imm.toNat) k c = (0, 0)) ∧
  (∃ (s : State) (f : Fetch) (e : Entry) (b : Nat) (c : Nat) (sigma : Nat) (o : Loc) (q : Loc) (k : Loc), (Performs s 81 f e (o :: k.mapped :: q :: List.map (fun x => x.loc) ((s.envOf 81 f (Instr.attnSv f) false e).kvParts (Shape.of f.imm.toNat) f.x1.toNat b c [2, 3] false))) ∧
    tokensAre f e b c ∧ sigma = 0 ∧ e.locate e.ctx f.op.toNat 0 ((Shape.of f.imm.toNat).hq * (4 * (Shape.of f.imm.toNat).d)) true = Sum.inr o ∧
    (e.locate e.ctx f.x0.toNat 0 ((Shape.of f.imm.toNat).hq * ((if bitOf f.mod.toNat 1 = true then 2 else 4) * c)) false = Sum.inr q) ∧
    (s.envOf 81 f (Instr.attnSv f) false e).kvAll (Shape.of f.imm.toNat) f.x1.toNat b c false = Sum.inr k ∧ e.va e.ctx f.op.toNat % 8 = 0 ∧
    (s.envOf 81 f (Instr.attnSv f) false e).kvAligned f.x1.toNat = true ∧ extraPasses (Shape.of f.imm.toNat) k c = (0, 0)) ∧
  (∃ (s : State) (f : Fetch) (e : Entry) (b : Nat) (c : Nat) (sigma : Nat) (o : Loc) (q : Loc) (k : Loc), (Performs s 82 f e (o :: k.mapped :: q :: List.map (fun x => x.loc) ((s.envOf 82 f (Instr.attnPart f) false e).kvParts (Shape.of f.imm.toNat) f.x1.toNat b c [0, 1, 2, 3] false))) ∧
    tokensAre f e b c ∧ finiteIs e true f.rb.val 0 sigma ∧
    e.locate e.ctx f.op.toNat 0 ((Shape.of f.imm.toNat).hq * (8 + 4 * (Shape.of f.imm.toNat).d)) true = Sum.inr o ∧
    e.locate e.ctx f.x0.toNat 0 ((Shape.of f.imm.toNat).hq * queryBytes f) false = Sum.inr q ∧
    (s.envOf 82 f (Instr.attnPart f) false e).kvAll (Shape.of f.imm.toNat) f.x1.toNat b c false = Sum.inr k ∧ e.va e.ctx f.op.toNat % 8 = 0 ∧
    (s.envOf 82 f (Instr.attnPart f) false e).kvAligned f.x1.toNat = true ∧ extraPasses (Shape.of f.imm.toNat) k c = (0, 0)) :=
  ⟨⟨run (big ctx0), {fet with op := w1, xw := 2, y0 := 0x100000000}, big ctx0, 0, 1, 0, far 1 4 true, far 0 64 false, far 0 8448 false,
    mkPerforms (mkIssues (by decide +kernel)) (by decide +kernel) (mkDirect (by decide +kernel)), by unfold tokensAre; decide +kernel,
    by unfold finiteIs; decide +kernel, by decide +kernel⟩,
   ⟨run (big ctx0), {fet with op := w1, xw := 2, y0 := 0x100000000}, big ctx0, 0, 1, 0, far 1 128 true, far 0 4 false, far 0 8448 false,
    mkPerforms (mkIssues (by decide +kernel)) (by decide +kernel) (mkDirect (by decide +kernel)), by unfold tokensAre; decide +kernel, by decide +kernel⟩,
   ⟨run (big ctx0), {fet with op := w1, xw := 2, y0 := 0x100000000}, big ctx0, 0, 1, 0, far 1 136 true, far 0 64 false, far 0 8448 false,
    mkPerforms (mkIssues (by decide +kernel)) (by decide +kernel) (mkDirect (by decide +kernel)), by unfold tokensAre; decide +kernel,
    by unfold finiteIs; decide +kernel, by decide +kernel⟩⟩

/-- States and operands that meet the hypotheses of each clause of Obligations.MergeRankScale. -/
theorem wit_MergeRankScale :
  (∃ (s : State) (f : Fetch) (e : Entry) (o : Loc) (srcs : List Loc), Performs s 83 f e (o :: srcs) ∧
    (∀ (l : Loc), l ∈ srcs → l.holds ((bitsOf f.imm.toNat 3 8 + 1) * (8 + 4 * (32 * (bitsOf f.imm.toNat 0 3 + 1))))) ∧ 1 ≤ bitsOf f.x1.toNat 0 16 ∧
    bitsOf f.x1.toNat 0 16 ≤ 4096 ∧ bitsOf f.x1.toNat 16 32 % 8 = 0 ∧
    (bitsOf f.imm.toNat 3 8 + 1) * (8 + 4 * (32 * (bitsOf f.imm.toNat 0 3 + 1))) ≤ bitsOf f.x1.toNat 16 32 ∧ e.va e.ctx f.op.toNat % 8 = 0 ∧
    e.locate e.ctx f.op.toNat 0 (if bitOf f.mod.toNat 0 = true then (bitsOf f.imm.toNat 3 8 + 1) * (32 * (bitsOf f.imm.toNat 0 3 + 1)) * if bitOf
    f.mod.toNat 1 = true then 2 else 4 else (bitsOf f.imm.toNat 3 8 + 1) * (8 + 4 * (32 * (bitsOf f.imm.toNat 0 3 + 1)))) true = Sum.inr o ∧
    allLocs (List.map (fun i => e.locate e.ctx f.x0.toNat (i * bitsOf f.x1.toNat 16 32) ((bitsOf f.imm.toNat 3 8 + 1) * (8 + 4 * (32 * (bitsOf
    f.imm.toNat 0 3 + 1)))) false) (List.range (bitsOf f.x1.toNat 0 16))) = Sum.inr srcs ∧
    (∀ (l : Loc), l ∈ srcs → clash l.segs o.segs = false) ∧ (∀ (l : Loc), l ∈ srcs.tail → joinSegs l.segs ≠ joinSegs o.segs)) ∧
  (∃ (s : State) (f : Fetch) (e : Entry) (o : Loc) (x : Loc), Performs s 92 f e [o, x] ∧
    x.holds (4 * bitsOf f.x1.toNat 0 24 * (bitsOf f.imm.toNat 0 8 + 1)) ∧ 1 ≤ bitsOf f.imm.toNat 8 13 ∧ bitsOf f.imm.toNat 8 13 ≤ 4096 ∧
    bitsOf f.imm.toNat 8 13 ≤ bitsOf f.x1.toNat 0 24 ∧ e.va e.ctx f.op.toNat % 8 = 0 ∧
    e.locate e.ctx f.op.toNat 0 (8 * bitsOf f.imm.toNat 8 13 * (bitsOf f.imm.toNat 0 8 + 1)) true = Sum.inr o ∧
    e.locate e.ctx f.x0.toNat 0 (4 * bitsOf f.x1.toNat 0 24 * (bitsOf f.imm.toNat 0 8 + 1)) false = Sum.inr x) ∧
  (∃ (s : State) (f : Fetch) (e : Entry) (o : Loc) (x : Loc) (c : Nat), Performs s 93 f e [o, x] ∧ 1 ≤ bitsOf f.x1.toNat 0 32 ∧
    finiteIs e (bitOf f.mod.toNat 3) f.ra.val f.imm.toNat c ∧ e.va e.ctx f.op.toNat % 4 = 0 ∧
    e.locate e.ctx f.op.toNat 0 (bitsOf f.x1.toNat 0 32 * if bitOf f.mod.toNat 2 = true then 2 else 4) true = Sum.inr o ∧
    e.locate e.ctx f.x0.toNat 0 (bitsOf f.x1.toNat 0 32 * if bitOf f.mod.toNat 1 = true then 2 else 4) false = Sum.inr x ∧
    clash x.segs o.segs = false) :=
  ⟨⟨run (big ctx0), {fet with op := w1, xw := 1, x1 := 0x880001}, big ctx0, far 1 136 true, [far 0 136 false],
    mkPerforms (mkIssues (by decide +kernel)) (by decide +kernel) (mkDirect (by decide +kernel)), by unfold Loc.holds; decide +kernel, by decide +kernel⟩,
   ⟨run (big ctx0), {fet with op := w1, xw := 1, imm := 0x100, x1 := 2}, big ctx0, far 1 8 true, far 0 8 false,
    mkPerforms (mkIssues (by decide +kernel)) (by decide +kernel) (mkDirect (by decide +kernel)), by unfold Loc.holds; decide +kernel, by decide +kernel⟩,
   ⟨run (big ctx0), {fet with op := w1, xw := 1, imm := 0x3F800000, x1 := 2}, big ctx0, far 1 8 true, far 0 8 false, 0x3F800000,
    mkPerforms (mkIssues (by decide +kernel)) (by decide +kernel) (mkDirect (by decide +kernel)), by decide +kernel, by unfold finiteIs; decide +kernel,
    by decide +kernel⟩⟩

/-- States and operands that meet the hypotheses of each clause of Obligations.CacheFormats. -/
theorem wit_CacheFormats :
  (∃ (s : State) (f : Fetch) (e : Entry) (b : Nat) (c : Nat) (k : Loc) (x : Loc), tokensAre f e b c ∧
    Performs s 88 f e (x :: k :: List.map (fun x => x.loc) ((s.envOf 88 f (Instr.kvq f) false e).kvParts (Shape.of f.imm.toNat) f.op.toNat b c [0, 1, 2, 3] true)) ∧
    x.holds (c * (Shape.of f.imm.toNat).hkv * 2 * (Shape.of f.imm.toNat).d * if (Shape.of f.imm.toNat).qfmt = 0 then 2 else 4) ∧
    (s.envOf 88 f (Instr.kvq f) false e).kvAligned f.op.toNat = true ∧
    e.locate e.ctx f.x0.toNat 0 (c * (Shape.of f.imm.toNat).hkv * 2 * (Shape.of f.imm.toNat).d * if (Shape.of f.imm.toNat).qfmt = 0 then 2 else 4)
    false = Sum.inr x ∧
    (s.envOf 88 f (Instr.kvq f) false e).kvAll (Shape.of f.imm.toNat) f.op.toNat b c true = Sum.inr k) ∧
  (∃ (s : State) (f : Fetch) (e : Entry) (b : Nat) (c : Nat) (k : Loc) (o : Loc), tokensAre f e b c ∧
    Performs s 89 f e (o :: k.mapped :: List.map (fun x => x.loc) ((s.envOf 89 f (Instr.kvdq f) false e).kvParts (Shape.of f.imm.toNat) f.x0.toNat b c
    [0, 1, 2, 3] false)) ∧
    e.va e.ctx f.op.toNat % 4 = 0 ∧ (s.envOf 89 f (Instr.kvdq f) false e).kvAligned f.x0.toNat = true ∧
    e.locate e.ctx f.op.toNat 0 (c * (Shape.of f.imm.toNat).hkv * 2 * (Shape.of f.imm.toNat).d * if bitOf f.mod.toNat 1 = true then 2 else 4) true = Sum.inr o ∧
    (s.envOf 89 f (Instr.kvdq f) false e).kvAll (Shape.of f.imm.toNat) f.x0.toNat b c false = Sum.inr k) :=
  ⟨⟨run (big ctx0), {fet with op := w1, xw := 2, y0 := 0x100000000}, big ctx0, 0, 1, far 1 8448 true, far 0 128 false,
    by unfold tokensAre; decide +kernel, mkPerforms (mkIssues (by decide +kernel)) (by decide +kernel) (mkDirect (by decide +kernel)),
    by unfold Loc.holds; decide +kernel, by decide +kernel⟩,
   ⟨run (big ctx0), {fet with op := w1, xw := 2, y0 := 0x100000000}, big ctx0, 0, 1, far 0 8448 false, far 1 256 true,
    by unfold tokensAre; decide +kernel, mkPerforms (mkIssues (by decide +kernel)) (by decide +kernel) (mkDirect (by decide +kernel)), by decide +kernel⟩⟩

/-- States and operands that meet the hypotheses of each clause of Obligations.SuppliesAndStamp. -/
theorem wit_SuppliesAndStamp :
  (∃ (s : State), s.board.main = true ∧ s.board.flush = 2) ∧
  (∃ (s : State), s.board.main = true) ∧
  (∃ (s : State), s.board.vaon = true) ∧
  (∃ (s : State), s.board.vaon = false) ∧
  (∃ (s : State), s.uncoreLit = true ∧ s.on Csr.STAMPSTAT_xtal_fail = false) ∧
  (∃ (s : State), s.board.vaon = false ∧ s.board.vbat = false) ∧
  (∃ (s : State), (s.board.vaon = true ∨ s.board.vbat = true) ∧ s.uncoreLit = true) ∧
  (∃ (s : State), (s.board.vaon = true ∨ s.board.vbat = true) ∧ s.uncoreLit = false) ∧
  (∃ (s : State) (x : Nat), (s.board.vaon = true ∨ s.board.vbat = true) ∧ s.board.rtcLoad = some x) ∧
  (∃ (s : State), (s.board.vaon = true ∨ s.board.vbat = true) ∧ s.board.rtcLoad = none ∧ s.board.rtcHold = 0 ∧ s.rd Csr.RTCSUB_ticks < 32767) ∧
  (∃ (s : State), (s.board.vaon = true ∨ s.board.vbat = true) ∧ s.board.rtcLoad = none ∧ s.board.rtcHold = 0 ∧ s.rd Csr.RTCSUB_ticks = 32767) ∧
  (∃ (s : State), (s.board.vaon = true ∨ s.board.vbat = true) ∧ s.board.rtcLoad = none ∧ 0 < s.board.rtcHold) ∧
  (∃ (s : State) (m : Nat), s.uncoreLit = true ∧ (-128 ≤ ((((5 * m + 128) / 256) : Nat) : Int) - 1953125 ∧
    ((((5 * m + 128) / 256) : Nat) : Int) - 1953125 ≤ 127)) ∧
  (∃ (s : State) (m : Nat), s.uncoreLit = true ∧
    (((((5 * m + 128) / 256) : Nat) : Int) - 1953125 < -128 ∨ 127 < ((((5 * m + 128) / 256) : Nat) : Int) - 1953125)) :=
  ⟨⟨onBoard (fun b => {b with flush := 2}) (lit), by decide +kernel⟩,
   ⟨run (ent ctx0), by decide +kernel⟩,
   ⟨lit, by decide +kernel⟩,
   ⟨onBoard (fun b => {b with vaon := false}) (lit), by decide +kernel⟩,
   ⟨lit, by decide +kernel⟩,
   ⟨onBoard (fun b => {b with vaon := false, vbat := false}) (lit), by decide +kernel⟩,
   ⟨{lit with stamp := 77}, by decide +kernel⟩,
   ⟨onBoard (fun b => {b with trip := true, acc := 3, aonStamp := 8}) (lit), by decide +kernel⟩,
   ⟨onBoard (fun b => {b with rtcLoad := some 1800000000}) (lit), 1800000000, by decide +kernel⟩,
   ⟨lit, by decide +kernel⟩,
   ⟨lit.wr Csr.RTCSUB_ticks 32767, by decide +kernel⟩,
   ⟨onBoard (fun b => {b with rtcHold := 3}) (lit), by decide +kernel⟩,
   ⟨lit, 100000000, by decide +kernel⟩,
   ⟨lit, 101000000, by decide +kernel⟩⟩

/-- States and operands that meet the hypotheses of each clause of Obligations.ClocksAndPowerStates. -/
theorem wit_ClocksAndPowerStates :
  (∃ (s : State), s.board.main = true ∧ s.board.refGone = false ∧ s.board.flush ≠ 1 ∧ s.board.reset ≠ some ResetKind.powerUp) ∧
  (∃ (s : State), s.board.main = true ∧ s.board.refGone = false ∧ (s.board.flush = 1 ∨ s.board.reset = some ResetKind.powerUp)) ∧
  (∃ (s : State), s.board.main = true ∧ s.board.refGone = true ∧ s.board.flush ≠ 1 ∧ s.board.reset ≠ some ResetKind.hard ∧
    s.board.reset ≠ some ResetKind.powerUp) ∧
  (∃ (s : State), s.board.main = true ∧ s.board.refGone = true ∧ s.board.reset = some ResetKind.powerUp ∧ s.board.prst = false ∧
    s.board.railOrder = false ∧ s.board.trip = false ∧ s.board.test = false) ∧
  (∃ (s : State) (p : Pll), s.board.main = true ∧ (p = Pll.base ∨ p = Pll.mid ∨ ∃ b, p = Pll.stk b) ∧ s.rd Csr.BOOTSTAT_stage = 7 ∧
    s.board.reset = none ∧ s.board.flush ≠ 1) ∧
  (∃ (s : State) (p : Pll), s.board.main = true ∧ (p = Pll.base ∨ p = Pll.mid ∨ ∃ b, p = Pll.stk b) ∧ s.rd Csr.BOOTSTAT_stage ≠ 7) ∧
  (∃ (s : State) (k : Fin 16) (a : Bool), s.board.main = true ∧ s.rmActive = some a ∧ s.stallFailed k.val = false) ∧
  (∃ (s : State), s.board.main = true) ∧
  (∃ (s : State), s.board.main = true) ∧
  (∃ (s : State), s.board.main = true) ∧
  (∃ (s : State) (k : Fin 16), s.bit Csr.STALLPWR_gated k.val = false ∧ s.bit Csr.STALLPWR_waking k.val = false ∧ s.stallFailed k.val = false ∧
    s.relist.stallIdle k.val = true ∧ s.uncoreLit = true ∧ s.board.reset = none) ∧
  (∃ (s : State) (k : Fin 16), s.relist.stallIdle k.val = false) ∧
  (∃ (s : State) (k : Fin 16), s.bit Csr.STALLPWR_gated k.val = true ∧ s.bit Csr.STALLPWR_waking k.val = false ∧ s.inDeep = false) ∧
  (∃ (s : State) (k : Fin 16), s.bit Csr.STALLPWR_waking k.val = true) ∧
  (∃ (s : State), s.deepReady = true) ∧
  (∃ (s : State), s.deepReady = false) ∧
  (∃ (s : State), s.inDeep = true) ∧
  (∃ (s : State), s.inDeep = false) ∧
  (∃ (s : State) (j : Nat), s.board.raising = some j ∧ j < 5) ∧
  (∃ (s : State), s.board.raising = none) :=
  ⟨⟨run (ent ctx0), by decide +kernel⟩,
   ⟨onBoard (fun b => {b with flush := 1}) (run (ent ctx0)), by decide +kernel⟩,
   ⟨onBoard (fun b => {b with refGone := true}) (lit), by decide +kernel⟩,
   ⟨onBoard (fun b => {b with refGone := true, reset := some .powerUp}) (lit), by decide +kernel⟩,
   ⟨lit.wr Csr.BOOTSTAT_stage 7, .stk 7, by decide +kernel⟩,
   ⟨lit, .mid, by decide +kernel⟩,
   ⟨leads 3 (opened lit), 15, false, by decide +kernel⟩,
   ⟨lit, by decide +kernel⟩,
   ⟨port 3 1 lit, by decide +kernel⟩,
   ⟨lit, by decide +kernel⟩,
   ⟨(lit.wr Csr.STALLPWR_gated 0), 15, by decide +kernel⟩,
   ⟨two (run (ent ctx0)), 0, by decide +kernel⟩,
   ⟨lit.wr Csr.STALLPWR_gated 0xFFFF, 15, by decide +kernel⟩,
   ⟨(lit.wr Csr.STALLPWR_gated 0xFFFF).wr Csr.STALLPWR_waking 0x8000, 15, by decide +kernel⟩,
   ⟨(((((lit.wr Csr.STALLPWR_gated 0xFFFF).wr Csr.PWRSTAT_state 1).wr Csr.PWRPOL_deep_en 1).wr Csr.BOOTSTAT_stage 7).wr Csr.TRPSTAT_mode 0),
    by decide +kernel⟩,
   ⟨lit, by decide +kernel⟩,
   ⟨(((((lit.wr Csr.STALLPWR_gated 0xFFFF).wr Csr.PWRSTAT_state 2).wr Csr.PWRPOL_deep_en 1).wr Csr.BOOTSTAT_stage 7).wr Csr.STALLPWR_waking 0),
    by decide +kernel⟩,
   ⟨lit, by decide +kernel⟩,
   ⟨onBoard (fun b => {b with raising := some 4}) (lit), 4, by decide +kernel⟩,
   ⟨lit, by decide +kernel⟩⟩

/-- States and operands that meet the hypotheses of each clause of Obligations.PowerBudget. -/
theorem wit_PowerBudget :
  (∃ (s : State), s.uncoreLit = true ∧ s.board.reset = none) ∧
  (∃ (s : State), s.uncoreLit = false) ∧
  (∃ (s : State) (x : Nat), 1000 * s.rd Csr.HLFUSE_p_max_w < x ∧ s.on Csr.PWRSTAT_hl_power = false ∧ s.board.own.duty ≤ 16) ∧
  (∃ (s : State) (x : Nat), x ≤ 1000 * s.rd Csr.HLFUSE_p_max_w) ∧
  (∃ (s : State), s.on Csr.PWRSTAT_hl_power = true) :=
  ⟨⟨((lit.wr Csr.PWRCAP_p_cap_w 100).wr Csr.PWRCAP_boost_en 1).wr Csr.PWRCAP_min_duty 4, by decide +kernel⟩,
   ⟨onBoard (fun b => {b with trip := true}) (lit), by decide +kernel⟩,
   ⟨(lit.wr Csr.HLFUSE_p_max_w 200).wr Csr.PWRCAP_min_duty 4, 200001, by decide +kernel⟩,
   ⟨(lit.wr Csr.HLFUSE_p_max_w 200).wr Csr.PWRCAP_min_duty 4, 200000, by decide +kernel⟩,
   ⟨(lit.wr Csr.HLFUSE_p_max_w 200).wr Csr.PWRSTAT_hl_power 1, by decide +kernel⟩⟩

/-- States and operands that meet the hypotheses of each clause of Obligations.MonitorsAndCalendar. -/
theorem wit_MonitorsAndCalendar :
  (∃ (s : State) (v : BitVec 12) (bad : Bool), s.board.main = true ∧ (bad = true ∨ toSigned 12 v.toNat < -400 ∨ 1200 < toSigned 12 v.toNat)) ∧
  (∃ (s : State) (v : BitVec 12) (bad : Bool), s.board.main = true ∧ (¬(bad = true ∨ toSigned 12 v.toNat < -400 ∨ 1200 < toSigned 12 v.toNat)) ∧
    toSigned 12 v.toNat < (((8 * s.rd Csr.HLFUSE_t_trip) : Nat) : Int)) ∧
  (∃ (s : State) (v : BitVec 12) (bad : Bool), s.board.main = true ∧ (¬(bad = true ∨ toSigned 12 v.toNat < -400 ∨ 1200 < toSigned 12 v.toNat)) ∧
    (((8 * s.rd Csr.HLFUSE_t_trip) : Nat) : Int) ≤ toSigned 12 v.toNat ∧ s.board.trip = false ∧ s.board.flush ≠ 1 ∧
    s.board.reset ≠ some ResetKind.powerUp) ∧
  (∃ (s : State), s.board.main = true ∧ s.board.trip = true ∧ s.hotter 90 = false ∧ s.board.reset = none ∧ s.board.flush ≠ 1) ∧
  (∃ (s : State), s.hotter 90 = true) ∧
  (∃ (s : State), s.board.main = true) ∧
  (∃ (s : State), s.board.main = true) ∧
  (∃ (s : State), s.inDeep = true) ∧
  (∃ (s : State), s.inDeep = false ∧ s.uncoreLit = true) ∧
  (∃ (s : State) (steps : Nat), steps = planSteps (List.foldl max 0 (List.map (fun i => s.rd (Csr.AGE_d_ppm i)) (List.range 32))) (s.rd Csr.AGEPLAN_steps) ∧
    s.rd Csr.HLFUSE_vcore_max < 512 ∧ s.uncoreLit = true) ∧
  (∃ (s : State), s.rd Csr.RTCSEC_seconds % 32 = 0 ∧ s.rd Csr.RTCSUB_ticks = 0 ∧ s.board.rtcHold = 0 ∧ (s.board.vaon = true ∨ s.board.vbat = true) ∧
    toSigned 8 (s.rd Csr.RTCTRIM_trim) < 0) ∧
  (∃ (s : State), s.rd Csr.RTCSEC_seconds % 32 = 0 ∧ s.rd Csr.RTCSUB_ticks = 0 ∧ s.board.rtcHold = 0 ∧ (s.board.vaon = true ∨ s.board.vbat = true) ∧
    0 ≤ toSigned 8 (s.rd Csr.RTCTRIM_trim)) ∧
  (∃ (s : State), (s.board.vaon = true ∨ s.board.vbat = true)) ∧
  (∃ (s : State) (k : Fin 2), s.on Csr.RTCSEC_valid = true ∧ s.on (Csr.ALARM_en k.val) = true ∧
    s.rd (Csr.ALARM_at_sec k.val) ≤ s.rd Csr.RTCSEC_seconds) ∧
  (∃ (s : State) (k : Fin 2), s.on (Csr.ALARM_en k.val) = false) :=
  ⟨⟨((lit.wr Csr.HLFUSE_t_trip 125).wr Csr.HLFUSE_t_throttle 105), 1201, false, by decide +kernel⟩,
   ⟨((lit.wr Csr.HLFUSE_t_trip 125).wr Csr.HLFUSE_t_throttle 105), 999, false, by decide +kernel⟩,
   ⟨((lit.wr Csr.HLFUSE_t_trip 125).wr Csr.HLFUSE_t_throttle 105), 1000, false, by decide +kernel⟩,
   ⟨onBoard (fun b => {b with trip := true}) (lit), by decide +kernel⟩,
   ⟨lit.wr (Csr.TEMP_reading 47) 720, by decide +kernel⟩,
   ⟨(lit.wr (Csr.VMON_low_mv 23) 700).wr (Csr.VMON_high_mv 23) 900, by decide +kernel⟩,
   ⟨lit, by decide +kernel⟩,
   ⟨lit.wr Csr.PWRSTAT_state 2, by decide +kernel⟩,
   ⟨lit, by decide +kernel⟩,
   ⟨(lit.wr Csr.HLFUSE_vcore_max 345).wr (Csr.AGE_d_ppm 31) 6000, 4, by decide +kernel⟩,
   ⟨lit.wr Csr.RTCTRIM_trim 0xFE, by decide +kernel⟩,
   ⟨lit.wr Csr.RTCTRIM_trim 3, by decide +kernel⟩,
   ⟨(lit.wr Csr.RTCSEC_seconds 44).wr Csr.RTCSUB_ticks 5, by decide +kernel⟩,
   ⟨((lit.wr Csr.RTCSEC_valid 1).wr (Csr.ALARM_en 1) 1).wr (Csr.ALARM_pin 1) 1, 1, by decide +kernel⟩,
   ⟨lit, 1, by decide +kernel⟩⟩

/-- States and operands that meet the hypotheses of each clause of Obligations.Resets. -/
theorem wit_Resets :
  (∃ (s : State), s.board.main = false) ∧
  (∃ (s : State), s.board.main = true) ∧
  (∃ (s : State), s.board.main = true ∧ s.board.prst = true) ∧
  (∃ (s : State), s.board.main = true ∧ s.board.strapped = false ∧ s.rd Csr.BOOTSTAT_stage = 0) ∧
  (∃ (s : State), (s.board.strapped = true ∨ s.rd Csr.BOOTSTAT_stage ≠ 0)) ∧
  (∃ (s : State), (s.board.main = true ∧ s.board.flush ≠ 1 ∧ s.board.reset ≠ some ResetKind.hard ∧ s.board.reset ≠ some ResetKind.powerUp) ∧
    s.board.prst = false ∧ s.board.prstIgnored = false) ∧
  (∃ (s : State), s.board.main = true ∧ s.board.flush = 1 ∧ s.board.prst = false ∧ s.board.prstIgnored = false) ∧
  (∃ (s : State), s.board.main = true ∧ s.board.flush ≠ 1 ∧ s.board.prst = true) ∧
  (∃ (s : State), s.board.main = true ∧ s.board.prstIgnored = true) ∧
  (∃ (s : State), s.board.main = true ∧ s.board.prstIgnored = false ∧ s.board.prst = true ∧ s.board.reset = some ResetKind.powerUp ∧
    s.board.refGone = false ∧ s.board.trip = false) ∧
  (∃ (s : State), s.board.main = true ∧ s.board.prstIgnored = false ∧ s.board.prst = true ∧ s.board.reset ≠ some ResetKind.powerUp) ∧
  (∃ (s : State) (w : Writer) (rec_ : Bool), s.Reaches w 2097664 (2 + 165 * 2 ^ 8 + if rec_ = true then 2 ^ 16 else 0) ∧
    s.board.reset ≠ some ResetKind.hard) ∧
  (∃ (s : State) (w : Writer) (rec_ : Bool), s.Reaches w 2097664 (1 + 165 * 2 ^ 8 + if rec_ = true then 2 ^ 16 else 0) ∧ s.board.reset = none) ∧
  (∃ (s : State) (w : Writer) (rec_ : Bool) (key : BitVec 8) (op : Nat) (c : Instr), key ≠ 165 ∧ (op = 1 ∧ c = Instr.rstcmdWarm w key rec_ ∨ op = 2 ∧
    c = Instr.rstcmdHard w key rec_) ∧ s.Reaches w 2097664 (op + key.toNat * 2 ^ 8 + if rec_ = true then 2 ^ 16 else 0)) ∧
  (∃ (s : State), (s.board.main = true ∧ s.board.flush ≠ 1 ∧ s.board.reset ≠ some ResetKind.hard ∧ s.board.reset ≠ some ResetKind.powerUp) ∧
    s.heldInReset = false) ∧
  (∃ (s : State) (r : Req), s.heldInReset = false ∧ s.mgmtPath r.eth = true ∧ r.known = true ∧ r.good = true ∧ s.mgmtAccepts r = true ∧
    s.board.reset = none) ∧
  (∃ (s : State) (r : Req), s.heldInReset = false ∧ s.mgmtPath r.eth = true ∧ r.known = true ∧ r.good = true ∧ s.mgmtAccepts r = true ∧
    s.board.reset = none) ∧
  (∃ (s : State) (r : Req), s.heldInReset = false ∧ s.mgmtPath r.eth = true ∧ r.known = true ∧ r.good = true ∧ s.mgmtAccepts r = false) :=
  ⟨⟨onBoard (fun b => {b with main := false, aonStamp := 5}) (lit), by decide +kernel⟩,
   ⟨lit, by decide +kernel⟩,
   ⟨onBoard (fun b => {b with prst := true}) (lit), by decide +kernel⟩,
   ⟨State.reset, by decide +kernel⟩,
   ⟨lit.wr Csr.BOOTSTAT_stage 1, by decide +kernel⟩,
   ⟨run (ent ctx0), by decide +kernel⟩,
   ⟨onBoard (fun b => {b with flush := 1}) (lit), by decide +kernel⟩,
   ⟨onBoard (fun b => {b with prst := true}) (run (ent ctx0)), by decide +kernel⟩,
   ⟨onBoard (fun b => {b with prstIgnored := true}) (lit), by decide +kernel⟩,
   ⟨State.reset, by decide +kernel⟩,
   ⟨onBoard (fun b => {b with prst := true, railOrder := true}) (lit), by decide +kernel⟩,
   ⟨opened (run (ent ctx0)), .rm false, true, mkReaches (by decide +kernel), by decide +kernel⟩,
   ⟨opened (run (ent ctx0)), .rm false, true, mkReaches (by decide +kernel), by decide +kernel⟩,
   ⟨opened lit, .rm false, true, 0xA4, 2, .rstcmdHard (.rm false) 0xA4 true, by decide +kernel, by decide +kernel, mkReaches (by decide +kernel)⟩,
   ⟨run (ent ctx0), by decide +kernel⟩,
   ⟨(lit.wr Csr.MGMTCTL_i3c_en 1), ⟨false, none, 7, true, true⟩, by decide +kernel⟩,
   ⟨(lit.wr Csr.MGMTCTL_i3c_en 1), ⟨false, none, 7, true, true⟩, by decide +kernel⟩,
   ⟨owned 0, ⟨false, none, 7, true, true⟩, by decide +kernel⟩⟩

/-- States and operands that meet the hypotheses of each clause of Obligations.Boot. -/
theorem wit_Boot :
  (∃ (s : State), s.heldInReset = true) ∧
  (∃ (s : State), s.heldInReset = false ∧ s.rd Csr.BOOTSTAT_stage = 0) ∧
  (∃ (s : State), s.heldInReset = false ∧ (s.rd Csr.BOOTSTAT_stage = 0 ∨ s.rd Csr.BOOTSTAT_stage = 1 ∧ s.bootStrap ≠ 2)) ∧
  (∃ (s : State), s.heldInReset = false ∧ s.rd Csr.BOOTSTAT_stage = 1 ∧ s.bootStrap = 2) ∧
  (∃ (s : State), s.heldInReset = false ∧ s.rd Csr.BOOTSTAT_stage = 2 ∧ s.rd Csr.BOOTSTAT_source = 3) ∧
  (∃ (s : State), s.heldInReset = false ∧ s.rd Csr.BOOTSTAT_stage = 9) ∧
  (∃ (s : State), s.heldInReset = false ∧ 1 ≤ s.rd Csr.BOOTSTAT_stage ∧ s.rd Csr.BOOTSTAT_stage ≤ 3) ∧
  (∃ (s : State), s.heldInReset = false ∧ s.rd Csr.BOOTSTAT_stage = 3) ∧
  (∃ (s : State), s.heldInReset = false ∧ s.rd Csr.BOOTSTAT_stage = 3) ∧
  (∃ (s : State), s.heldInReset = false ∧ s.rd Csr.BOOTSTAT_stage ≤ 6) ∧
  (∃ (s : State) (src : Nat) (i : Nat) (u : State), s.heldInReset = false ∧ s.rd Csr.BOOTSTAT_stage = 1 ∧ s.chooseImage = some (src, i, u) ∧ src < 4 ∧
    i < 2) ∧
  (∃ (s : State) (i : Nat), s.heldInReset = false ∧ s.rd Csr.BOOTSTAT_stage = 1 ∧ s.sec.rollback = none ∧ s.board.reset ≠ some ResetKind.hard ∧
    s.bootStrap = 1 ∧ i < 2 ∧ s.slotBoots i = true ∧ SMap.get 0 i s.flash.unread < 3 ∧ s.slotIn 1 = none ∧ s.slotIn 2 = some i) ∧
  (∃ (s : State) (i : Nat), s.heldInReset = false ∧ s.rd Csr.BOOTSTAT_stage = 1 ∧ s.sec.rollback = none ∧ s.board.reset ≠ some ResetKind.hard ∧
    s.bootStrap = 1 ∧ i < 2 ∧ s.slotBoots i = true ∧ SMap.get 0 i s.flash.unread < 3 ∧ s.slotIn 1 = some i ∧ s.rd (Csr.IMGSLOT_tries i) < 3) ∧
  (∃ (s : State), s.heldInReset = false ∧ s.rd Csr.BOOTSTAT_stage = 2 ∧ s.board.reset ≠ some ResetKind.warm) ∧
  (∃ (s : State), s.heldInReset = false ∧ s.rd Csr.BOOTSTAT_stage = 2 ∧ s.board.reset = some ResetKind.warm ∧ s.coh.txns ≠ []) ∧
  (∃ (s : State), s.heldInReset = false ∧ s.rd Csr.BOOTSTAT_stage = 3 ∧ s.ddrServes = true) ∧
  (∃ (s : State), s.heldInReset = false ∧ (s.rd Csr.BOOTSTAT_stage = 3 ∨ s.rd Csr.BOOTSTAT_stage = 4) ∧ s.board.heapDone = false) ∧
  (∃ (s : State), s.heldInReset = false ∧ s.rd Csr.BOOTSTAT_stage = 5 ∧ s.board.reset ≠ some ResetKind.hard) ∧
  (∃ (s : State), s.heldInReset = false ∧ s.rd Csr.BOOTSTAT_stage = 6) ∧
  (∃ (s : State), s.heldInReset = false ∧ s.rd Csr.BOOTSTAT_stage = 6) ∧
  (∃ (s : State) (i : Image), i.good = true ∧ s.flash.floor ≤ i.svn.toNat ∧ s.rd Csr.BOOTSTAT_stage = 1) ∧
  (∃ (s : State) (i : Image), i.good = true ∧ s.flash.floor ≤ i.svn.toNat ∧ s.rd Csr.BOOTSTAT_stage = 9) ∧
  (∃ (s : State) (i : Image), (i.good = false ∨ i.svn.toNat < s.flash.floor) ∧ s.rd Csr.BOOTSTAT_stage = 1 ∧
    s.board.fetches + 1 < s.rd Csr.BOOTCTL_net_tries) ∧
  (∃ (s : State) (i : Image), (i.good = false ∨ i.svn.toNat < s.flash.floor) ∧ s.rd Csr.BOOTSTAT_stage = 1 ∧
    s.rd Csr.BOOTCTL_net_tries ≤ s.board.fetches + 1 ∧ s.bootStrap = 2) ∧
  (∃ (s : State), s.rd Csr.BOOTSTAT_stage = 1 ∧ s.bootStrap = 0 ∧ s.board.netImage = none ∧ s.on Csr.BOOTSTAT_fallback = false) ∧
  (∃ (s : State), s.rd Csr.BOOTSTAT_stage = 1 ∧ s.bootStrap = 2 ∧ s.board.netImage = none) ∧
  (∃ (s : State) (i : Nat), i < 2 ∧ s.rd Csr.BOOTSTAT_stage = 7 ∧ s.board.netImage = none ∧ s.flash.last = some i) ∧
  (∃ (s : State) (svn : Nat) (build : Nat), svn < 2 ^ 16 ∧ build < 2 ^ 32 ∧ s.rd Csr.BOOTSTAT_stage = 7 ∧ s.board.netImage = some (svn, build)) ∧
  (∃ (s : State) (w : Writer), s.Reaches w 2097720 (setBits (s.readWord 2097720) 20 1 1) ∧ s.rd Csr.BOOTSTAT_stage ≠ 9) ∧
  (∃ (s : State) (r : Req) (x : Image), s.heldInReset = false ∧ s.mgmtPath r.eth = true ∧ r.known = true ∧ r.good = true ∧ s.mgmtAccepts r = true ∧
    x.good = true) ∧
  (∃ (s : State) (r : Req), s.heldInReset = false ∧ s.mgmtPath r.eth = true ∧ r.known = true ∧ r.good = true ∧ s.mgmtAccepts r = true ∧
    s.spareSlot ∈ s.flash.whole ∧ s.rd (Csr.IMGSLOT_state s.spareSlot) ≠ 2) ∧
  (∃ (s : State) (r : Req), s.heldInReset = false ∧ s.mgmtPath r.eth = true ∧ r.known = true ∧ r.good = true ∧ r.eth = false ∧
    s.rd Csr.BOOTSTAT_stage = 9) ∧
  (∃ (s : State) (r : Req), s.heldInReset = false ∧ s.mgmtPath r.eth = true ∧ r.known = true ∧ r.good = true ∧ r.eth = false) :=
  ⟨⟨State.reset, by decide +kernel⟩,
   ⟨lit, by decide +kernel⟩,
   ⟨(lit.wr Csr.STRAPS_boot 1).wr Csr.BOOTSTAT_stage 1, by decide +kernel⟩,
   ⟨(lit.wr Csr.STRAPS_boot 2).wr Csr.BOOTSTAT_stage 1, by decide +kernel⟩,
   ⟨(lit.wr Csr.BOOTSTAT_source 3).wr Csr.BOOTSTAT_stage 2, by decide +kernel⟩,
   ⟨(lit).wr Csr.BOOTSTAT_stage 9, by decide +kernel⟩,
   ⟨(lit).wr Csr.BOOTSTAT_stage 3, by decide +kernel⟩,
   ⟨(lit).wr Csr.BOOTSTAT_stage 3, by decide +kernel⟩,
   ⟨(lit).wr Csr.BOOTSTAT_stage 3, by decide +kernel⟩,
   ⟨(lit).wr Csr.BOOTSTAT_stage 6, by decide +kernel⟩,
   ⟨{(((lit.wr Csr.BOOTSTAT_stage 1).wr Csr.STRAPS_boot 1).wr (Csr.IMGSLOT_state 1) 2) with flash := {lit.flash with whole := [1]}}, 1, 1,
    ({(((lit.wr Csr.BOOTSTAT_stage 1).wr Csr.STRAPS_boot 1).wr (Csr.IMGSLOT_state 1) 2) with flash := {lit.flash with whole := [1]}}).wr Csr.SECVER_rollback_pending 0,
    by decide +kernel⟩,
   ⟨{(((lit.wr Csr.BOOTSTAT_stage 1).wr Csr.STRAPS_boot 1).wr (Csr.IMGSLOT_state 1) 2) with flash := {lit.flash with whole := [1]}}, 1,
    by decide +kernel⟩,
   ⟨{(((lit.wr Csr.BOOTSTAT_stage 1).wr Csr.STRAPS_boot 1).wr (Csr.IMGSLOT_state 1) 1) with flash := {lit.flash with whole := [1]}}, 1,
    by decide +kernel⟩,
   ⟨(lit).wr Csr.BOOTSTAT_stage 2, by decide +kernel⟩,
   ⟨(onBoard (fun b => {b with reset := some .warm}) (busyAt (busy .own 0 84))).wr Csr.BOOTSTAT_stage 2, by decide +kernel⟩,
   ⟨(List.range 16).foldl (fun s c => s.wr (Csr.DDRSTAT_state c) 2) ((lit).wr Csr.BOOTSTAT_stage 3), by decide +kernel⟩,
   ⟨(lit).wr Csr.BOOTSTAT_stage 4, by decide +kernel⟩,
   ⟨(lit).wr Csr.BOOTSTAT_stage 5, by decide +kernel⟩,
   ⟨(lit).wr Csr.BOOTSTAT_stage 6, by decide +kernel⟩,
   ⟨(lit).wr Csr.BOOTSTAT_stage 6, by decide +kernel⟩,
   ⟨(lit).wr Csr.BOOTSTAT_stage 1, ⟨3, 0x99, true⟩, by decide +kernel⟩,
   ⟨(lit).wr Csr.BOOTSTAT_stage 9, ⟨3, 0x99, true⟩, by decide +kernel⟩,
   ⟨(lit.wr Csr.BOOTCTL_net_tries 3).wr Csr.BOOTSTAT_stage 1, ⟨3, 0x99, false⟩, by decide +kernel⟩,
   ⟨((lit.wr Csr.BOOTCTL_net_tries 1).wr Csr.STRAPS_boot 2).wr Csr.BOOTSTAT_stage 1, ⟨3, 0x99, false⟩, by decide +kernel⟩,
   ⟨(lit).wr Csr.BOOTSTAT_stage 1, by decide +kernel⟩,
   ⟨(lit.wr Csr.STRAPS_boot 2).wr Csr.BOOTSTAT_stage 1, by decide +kernel⟩,
   ⟨{(((lit.wr Csr.BOOTSTAT_stage 7).wr (Csr.IMGSLOT_state 0) 2).wr (Csr.IMGSLOT_state 1) 1) with flash := {lit.flash with last := some 1}}, 1,
    by decide +kernel⟩,
   ⟨onBoard (fun b => {b with netImage := some (3, 0x99)}) ((lit).wr Csr.BOOTSTAT_stage 7), 3, 0x99, by decide +kernel⟩,
   ⟨opened ((lit).wr Csr.BOOTSTAT_stage 7), .rm false, mkReaches (by decide +kernel), by decide +kernel⟩,
   ⟨(lit.wr Csr.MGMTCTL_i3c_en 1), ⟨false, none, 7, true, true⟩, ⟨3, 0x99, true⟩, by decide +kernel⟩,
   ⟨{(lit.wr Csr.MGMTCTL_i3c_en 1) with flash := {lit.flash with whole := [0,1]}}, ⟨false, none, 7, true, true⟩, by decide +kernel⟩,
   ⟨((lit.wr Csr.MGMTCTL_i3c_en 1)).wr Csr.BOOTSTAT_stage 9, ⟨false, none, 7, true, true⟩, by decide +kernel⟩,
   ⟨((lit.wr Csr.MGMTCTL_i3c_en 1)).wr Csr.BOOTSTAT_stage 9, ⟨false, none, 7, true, true⟩, by decide +kernel⟩⟩

/-- States and operands that meet the hypotheses of each clause of Obligations.ManagementRequests. -/
theorem wit_ManagementRequests :
  (∃ (s : State) (r : Req) (c : Instr) (op : Nat), s.heldInReset = false ∧ s.mgmtPath r.eth = true ∧ ((∃ off n, c = Instr.csrRead r off n ∧
    op = 1) ∨ (∃ off v, c = Instr.csrWrite r off v ∧ op = 2) ∨ (∃ kind rec_, c = Instr.reset r kind rec_ ∧ op = 3) ∨ (∃ b, c = Instr.sluice r b ∧
    op = 4) ∨ (∃ log start n, c = Instr.logRead r log start n ∧ op = 5) ∨ (∃ slot off n, c = Instr.dumpRead r slot off n ∧
    op = 6) ∨ (∃ slot addr port mask maps events, c = Instr.subscribe r slot addr port mask maps events ∧ op = 7) ∨ ∃ sec, c = Instr.rtcSet r sec ∧
    op = 8) ∧ r.known = false) ∧
  (∃ (s : State) (r : Req) (c : Instr) (op : Nat), s.heldInReset = false ∧ s.mgmtPath r.eth = true ∧ ((∃ off n, c = Instr.csrRead r off n ∧
    op = 1) ∨ (∃ off v, c = Instr.csrWrite r off v ∧ op = 2) ∨ (∃ kind rec_, c = Instr.reset r kind rec_ ∧ op = 3) ∨ (∃ b, c = Instr.sluice r b ∧
    op = 4) ∨ (∃ log start n, c = Instr.logRead r log start n ∧ op = 5) ∨ (∃ slot off n, c = Instr.dumpRead r slot off n ∧
    op = 6) ∨ (∃ slot addr port mask maps events, c = Instr.subscribe r slot addr port mask maps events ∧ op = 7) ∨ ∃ sec, c = Instr.rtcSet r sec ∧
    op = 8) ∧ r.known = true ∧ r.good = false) ∧
  (∃ (s : State) (r : Req) (c : Instr) (op : Nat), s.heldInReset = false ∧ s.mgmtPath r.eth = true ∧ ((∃ off n, c = Instr.csrRead r off n ∧
    op = 1) ∨ (∃ off v, c = Instr.csrWrite r off v ∧ op = 2) ∨ (∃ kind rec_, c = Instr.reset r kind rec_ ∧ op = 3) ∨ (∃ b, c = Instr.sluice r b ∧
    op = 4) ∨ (∃ log start n, c = Instr.logRead r log start n ∧ op = 5) ∨ (∃ slot off n, c = Instr.dumpRead r slot off n ∧
    op = 6) ∨ (∃ slot addr port mask maps events, c = Instr.subscribe r slot addr port mask maps events ∧ op = 7) ∨ ∃ sec, c = Instr.rtcSet r sec ∧
    op = 8) ∧ r.known = true ∧ r.good = true ∧ s.mgmtAccepts r = false) ∧
  (∃ (s : State) (r : Req), s.heldInReset = false ∧ s.mgmtPath r.eth = true ∧ r.known = true ∧ r.good = true) ∧
  (∃ (s : State) (r : Req) (off : Nat) (count : Nat), s.heldInReset = false ∧ s.mgmtPath r.eth = true ∧ (r.known = true ∧ r.good = true ∧
    s.mgmtAccepts r = true) ∧ off % 8 = 0 ∧ 0 < count ∧ count ≤ 64 ∧ off + 8 * count ≤ 67108864) ∧
  (∃ (s : State) (r : Req), s.heldInReset = false ∧ s.mgmtPath r.eth = true ∧ (r.known = true ∧ r.good = true ∧ s.mgmtAccepts r = true)) ∧
  (∃ (s : State) (r : Req) (off : Nat) (v : Word), s.heldInReset = false ∧ s.mgmtPath r.eth = true ∧ (r.known = true ∧ r.good = true ∧
    s.mgmtAccepts r = true) ∧ (s.deepExit.upRead.csrWrite Writer.mgmt off (BitVec.toNat v)).fst = WriteResult.done) ∧
  (∃ (s : State) (r : Req) (off : Nat) (v : Word), s.heldInReset = false ∧ s.mgmtPath r.eth = true ∧ (r.known = true ∧ r.good = true ∧
    s.mgmtAccepts r = true) ∧ (s.deepExit.upRead.csrWrite Writer.mgmt off (BitVec.toNat v)).fst = WriteResult.refused) ∧
  (∃ (s : State) (r : Req) (off : Nat), s.heldInReset = false ∧ s.mgmtPath r.eth = true ∧ (r.known = true ∧ r.good = true ∧ s.mgmtAccepts r = true) ∧
    off % 8 ≠ 0 ∧ s.deepExit.upRead.uncoreLit = true) ∧
  (∃ (s : State) (r : Req) (b : List Nat), s.heldInReset = false ∧ s.mgmtPath r.eth = true ∧ (r.known = true ∧ r.good = true ∧
    s.mgmtAccepts r = true) ∧ b.length = 23 ∧ s.mgmt.down.length < 64) ∧
  (∃ (s : State) (r : Req) (b : List Nat), s.heldInReset = false ∧ s.mgmtPath r.eth = true ∧ (r.known = true ∧ r.good = true ∧
    s.mgmtAccepts r = true) ∧ b.length = 23 ∧ 64 ≤ s.mgmt.down.length) ∧
  (∃ (s : State) (r : Req) (log : Nat) (count : Nat), s.heldInReset = false ∧ s.mgmtPath r.eth = true ∧ (r.known = true ∧ r.good = true ∧
    s.mgmtAccepts r = true) ∧ log ≤ 2 ∧ 0 < count ∧ count ≤ 32) ∧
  (∃ (s : State) (r : Req) (slot : Nat) (off : Nat) (len : Nat) (d : Dump), s.heldInReset = false ∧ s.mgmtPath r.eth = true ∧ (r.known = true ∧
    r.good = true ∧ s.mgmtAccepts r = true) ∧ slot ≤ 1 ∧ 0 < len ∧ len ≤ 1024 ∧ off + len ≤ 8388608 ∧ SMap.get none slot s.mgmt.dumps = some d) ∧
  (∃ (s : State) (r : Req) (slot : Nat) (off : Nat) (len : Nat), s.heldInReset = false ∧ s.mgmtPath r.eth = true ∧ (r.known = true ∧ r.good = true ∧
    s.mgmtAccepts r = true) ∧ slot ≤ 1 ∧ 0 < len ∧ len ≤ 1024 ∧ off + len ≤ 8388608 ∧ SMap.get none slot s.mgmt.dumps = none) ∧
  (∃ (s : State) (r : Req) (slot : Nat) (addr : BitVec 128) (id : Nat), s.heldInReset = false ∧ s.mgmtPath r.eth = true ∧ (r.known = true ∧
    r.good = true ∧ s.mgmtAccepts r = true) ∧ slot ≤ 3 ∧ addr ≠ 0 ∧ r.sess = some id) ∧
  (∃ (s : State) (r : Req) (slot : Nat), s.heldInReset = false ∧ s.mgmtPath r.eth = true ∧ (r.known = true ∧ r.good = true ∧ s.mgmtAccepts r = true) ∧
    slot ≤ 3) ∧
  (∃ (s : State) (r : Req), s.heldInReset = false ∧ s.mgmtPath r.eth = true ∧ (r.known = true ∧ r.good = true ∧ s.mgmtAccepts r = true)) :=
  ⟨⟨lit.wr Csr.MGMTCTL_i3c_en 1, ⟨false, none, 7, true, false⟩, .rtcSet ⟨false, none, 7, true, false⟩ 5, 8, by decide +kernel, by decide +kernel,
    .inr (.inr (.inr (.inr (.inr (.inr (.inr ⟨_, rfl, rfl⟩)))))), by decide +kernel⟩,
   ⟨lit.wr Csr.MGMTCTL_i3c_en 1, ⟨false, none, 7, false, true⟩, .rtcSet ⟨false, none, 7, false, true⟩ 5, 8, by decide +kernel, by decide +kernel,
    .inr (.inr (.inr (.inr (.inr (.inr (.inr ⟨_, rfl, rfl⟩)))))), by decide +kernel, by decide +kernel⟩,
   ⟨owned 0, ⟨false, none, 7, true, true⟩, .rtcSet ⟨false, none, 7, true, true⟩ 5, 8, by decide +kernel, by decide +kernel,
    .inr (.inr (.inr (.inr (.inr (.inr (.inr ⟨_, rfl, rfl⟩)))))), by decide +kernel⟩,
   ⟨lit.wr Csr.MGMTCTL_i3c_en 1, ⟨false, none, 7, true, true⟩, by decide +kernel⟩,
   ⟨lit.wr Csr.MGMTCTL_i3c_en 1, ⟨false, none, 7, true, true⟩, 0x3FFFF00, 32, by decide +kernel⟩,
   ⟨lit.wr Csr.MGMTCTL_i3c_en 1, ⟨false, none, 7, true, true⟩, by decide +kernel⟩,
   ⟨opened (lit.wr Csr.MGMTCTL_i3c_en 1), ⟨false, none, 7, true, true⟩, 0x200010, 200, by decide +kernel⟩,
   ⟨lit.wr Csr.MGMTCTL_i3c_en 1, ⟨false, none, 7, true, true⟩, 0x20000, 1, by decide +kernel⟩,
   ⟨lit.wr Csr.MGMTCTL_i3c_en 1, ⟨false, none, 7, true, true⟩, 0x20001, by decide +kernel⟩,
   ⟨lit.wr Csr.MGMTCTL_i3c_en 1, ⟨false, none, 7, true, true⟩, List.replicate 23 0, by decide +kernel⟩,
   ⟨let s := lit.wr Csr.MGMTCTL_i3c_en 1; {s with mgmt := {s.mgmt with down := List.replicate 64 (1, [])}}, ⟨false, none, 7, true, true⟩,
    List.replicate 23 0, by decide +kernel⟩,
   ⟨lit.wr Csr.MGMTCTL_i3c_en 1, ⟨false, none, 7, true, true⟩, 2, 32, by decide +kernel⟩,
   ⟨let s := lit.wr Csr.MGMTCTL_i3c_en 1; {s with mgmt := {s.mgmt with dumps := [(1, some ⟨0, 0, 5, 6, false⟩)]}}, ⟨false, none, 7, true, true⟩, 1,
    0x7FFC00, 1024, ⟨0, 0, 5, 6, false⟩, by decide +kernel⟩,
   ⟨lit.wr Csr.MGMTCTL_i3c_en 1, ⟨false, none, 7, true, true⟩, 1, 0x7FFFFE, 2, by decide +kernel⟩,
   ⟨{lit.wr Csr.MGMTCTL_i3c_en 1 with sec := met}, ⟨false, some 9, 7, true, true⟩, 3, 5, 9, by decide +kernel⟩,
   ⟨lit.wr Csr.MGMTCTL_i3c_en 1, ⟨false, none, 7, true, true⟩, 3, by decide +kernel⟩,
   ⟨lit.wr Csr.MGMTCTL_i3c_en 1, ⟨false, none, 7, true, true⟩, by decide +kernel⟩⟩

/-- States and operands that meet the hypotheses of each clause of Obligations.PublicationsAndDumps. -/
theorem wit_PublicationsAndDumps :
  (∃ (s : State) (k : Fin 4) (x : Sub) (m : CongMap), SMap.get none k.val s.mgmt.subs = some x ∧ s.serves = true ∧ x.maps = true ∧
    s.fab.map = some m) ∧
  (∃ (s : State) (k : Fin 4) (x : Sub), SMap.get none k.val s.mgmt.subs = some x ∧ s.serves = true ∧ x.events = true ∧
    List.take 40 (List.filter (fun y => bitOf x.mask (y.fst.id / 256)) (s.eventsFrom x.next)) ≠ []) ∧
  (∃ (s : State) (k : Fin 4) (x : Sub), SMap.get none k.val s.mgmt.subs = some x ∧ s.serves = true ∧ x.maps = false) ∧
  (∃ (s : State) (k : Fin 4) (x : Sub), SMap.get none k.val s.mgmt.subs = some x ∧ s.serves = true ∧ x.events = false) ∧
  (∃ (s : State) (e : EventRec) (es : List EventRec), s.uncoreLit = true ∧ s.log.staging = e :: es ∧ s.evBacklog < 32768) ∧
  (∃ (s : State), s.log.staging = []) ∧
  (∃ (s : State) (d : Fin 28) (point : BitVec 16), s.on Csr.TRACECTL_en = true ∧ s.bit (Csr.TRACEEN_groups d.val) (point.toNat / 1024) = true ∧
    s.traceLit d.val = true ∧ s.on Csr.TRACECTL_stopped = false ∧ s.inDeep = false) ∧
  (∃ (s : State) (d : Fin 28) (point : BitVec 16), (s.on Csr.TRACECTL_en = false ∨ s.bit (Csr.TRACEEN_groups d.val) (point.toNat / 1024) = false ∨
    s.traceLit d.val = false ∨ s.on Csr.TRACECTL_stopped = true)) ∧
  (∃ (c : FwCore), c ≠ FwCore.booth) ∧
  (∃ (s : State) (w : Writer), s.Reaches w 51380280 1) ∧
  (∃ (s : State) (w : Writer) (mask : BitVec 2), s.Reaches w 51380280 (mask.toNat * 2)) ∧
  (∃ (s : State) (d : Dump) (k : Nat), s.heldInReset = false ∧ s.mgmt.buffer = some d ∧ k < 2 ∧ s.dumpSlot k ≠ 1 ∧ (k = 1 → s.dumpSlot 0 = 1)) ∧
  (∃ (s : State) (d : Dump), s.heldInReset = false ∧ s.mgmt.buffer = some d ∧ s.dumpSlot 0 = 1 ∧ s.dumpSlot 1 = 1) ∧
  (∃ (s : State), s.mgmt.buffer = none) :=
  ⟨⟨let s := {lit with mgmt := {lit.mgmt with subs := [(3, some ⟨1, 2, 0xFFFF, true, false, 9, 0xFFFFFFFF, 0⟩)]}}; {s with fab := {s.fab with map := some ⟨1, 2, 3, [], []⟩}},
    3, ⟨1, 2, 0xFFFF, true, false, 9, 0xFFFFFFFF, 0⟩, ⟨1, 2, 3, [], []⟩, by decide +kernel⟩,
   ⟨let s := ({lit with mgmt := {lit.mgmt with subs := [(3, some ⟨1, 2, 0xFFFF, false, true, 9, 0xFFFFFFFF, 0⟩)]}}).wr Csr.EVPOS_producer 1; {s with log := {s.log with ring := [(0, {EventRec.zero with id := 0x101})]}},
    3, ⟨1, 2, 0xFFFF, false, true, 9, 0xFFFFFFFF, 0⟩, by decide +kernel⟩,
   ⟨{lit with mgmt := {lit.mgmt with subs := [(3, some ⟨1, 2, 0xFFFF, false, true, 9, 0xFFFFFFFF, 0⟩)]}}, 3, ⟨1, 2, 0xFFFF, false, true, 9, 0xFFFFFFFF,
    0⟩, by decide +kernel⟩,
   ⟨{lit with mgmt := {lit.mgmt with subs := [(3, some ⟨1, 2, 0xFFFF, true, false, 9, 0xFFFFFFFF, 0⟩)]}}, 3, ⟨1, 2, 0xFFFF, true, false, 9, 0xFFFFFFFF,
    0⟩, by decide +kernel⟩,
   ⟨{lit with log := {lit.log with staging := [EventRec.zero]}}, EventRec.zero, [], by decide +kernel⟩,
   ⟨lit, by decide +kernel⟩,
   ⟨(lit.wr Csr.TRACECTL_en 1).wr (Csr.TRACEEN_groups 27) 0x80, 27, 0x1C05, by decide +kernel⟩,
   ⟨lit.wr Csr.TRACECTL_stopped 1, 27, 0x1C05, by decide +kernel⟩,
   ⟨.rm true, by decide +kernel⟩,
   ⟨opened lit, .rm false, mkReaches (by decide +kernel)⟩,
   ⟨opened (lit.wr Csr.DUMPSTAT_slot1 1), .rm false, 3, mkReaches (by decide +kernel)⟩,
   ⟨let s := (lit.wr Csr.DUMPSTAT_slot0 1).wr Csr.DUMPSTAT_slot1 2; {s with mgmt := {s.mgmt with buffer := some ⟨0, 0, 5, 6, false⟩}}, ⟨0, 0, 5, 6,
    false⟩, 1, by decide +kernel⟩,
   ⟨let s := (lit.wr Csr.DUMPSTAT_slot0 1).wr Csr.DUMPSTAT_slot1 1; {s with mgmt := {s.mgmt with buffer := some ⟨0, 0, 5, 6, false⟩}}, ⟨0, 0, 5, 6,
    false⟩, by decide +kernel⟩,
   ⟨lit, by decide +kernel⟩⟩

/-- States and operands that meet the hypotheses of each clause of Obligations.NotPerformed. -/
theorem wit_NotPerformed :
  (∃ (s : State) (c : Instr) (opc : Nat) (f : Fetch), rakeOp c = some (opc, f) ∧ (s.rake f.rake.val).busy = false) ∧
  (∃ (s : State) (c : Instr) (opc : Nat) (f : Fetch) (e : Entry), rakeOp c = some (opc, f) ∧ (s.rake f.rake.val).busy = true ∧
    (s.rake f.rake.val).instr = none ∧ s.inHand f.rake.val = some e ∧ e.onRake = some f.rake.val ∧ s.coh.late = [] ∧
    (¬((Insn.ofFetch opc f).decodes = true ∧ e.ctx.pc + 1 + f.xw.val ≤ e.codeWords))) ∧
  (∃ (s : State) (c : Instr) (opc : Nat) (f : Fetch) (e : Entry), rakeOp c = some (opc, f) ∧ (s.rake f.rake.val).busy = true ∧
    (s.rake f.rake.val).instr = none ∧ s.inHand f.rake.val = some e ∧ e.onRake = some f.rake.val ∧ s.coh.late = [] ∧
    ((Insn.ofFetch opc f).decodes = true ∧ e.ctx.pc + 1 + f.xw.val ≤ e.codeWords) ∧ privileged opc = true ∧ isRm (s.qidOf f.rake.val) = false) ∧
  (∃ (s : State) (c : Instr) (opc : Nat) (f : Fetch) (e : Entry), rakeOp c = some (opc, f) ∧ Fetches s opc f e ∧ e.ctx.pred f.g.val = f.gn ∧
    e.ctx.pc + 1 + f.xw.val < e.codeWords) ∧
  (∃ (s : State) (c : Instr) (opc : Nat) (f : Fetch) (e : Entry), rakeOp c = some (opc, f) ∧ Fetches s opc f e ∧ e.ctx.pred f.g.val = f.gn ∧
    e.ctx.pc + 1 + f.xw.val = e.codeWords ∧ e.durPos = none ∧ e.worst = Sts.ok) :=
  ⟨⟨lit, .nop fet, 0, fet, by decide +kernel⟩,
   ⟨run (ent ctx0), .nop {fet with g := 5, gn := true, xw := 1}, 0, {fet with g := 5, gn := true, xw := 1}, ent ctx0, by decide +kernel⟩,
   ⟨run (ent ctx0), .carve fet, 0xC0, fet, ent ctx0, by decide +kernel⟩,
   ⟨run (ent {ctx0 with p := 2}), .nop {fet with g := 1, gn := true}, 0, {fet with g := 1, gn := true}, ent {ctx0 with p := 2}, by decide +kernel,
    mkFetches (by decide +kernel), by decide +kernel, by decide +kernel⟩,
   ⟨run {ent {ctx0 with p := 2} with codeWords := 1}, .nop {fet with g := 1, gn := true}, 0, {fet with g := 1, gn := true},
    {ent {ctx0 with p := 2} with codeWords := 1}, by decide +kernel, mkFetches (by decide +kernel), by decide +kernel⟩⟩

/-- States and operands that meet the hypotheses of each clause of Obligations.StepRunsFrontCommand. -/
theorem wit_StepRunsFrontCommand :
  (∃ (s : State) (c : Instr) (rest : List Instr), s.pending = c :: rest) ∧
  (∃ (s : State), s.pending = [] ∧ s.uncoreLit = true) ∧
  (∃ (s : State), s.pending = [] ∧ s.uncoreLit = false) :=
  ⟨⟨{lit with pending := [.aonTick, .deepExit]}, .aonTick, [.deepExit], by decide +kernel⟩,
   ⟨lit, by decide +kernel⟩,
   ⟨onBoard (fun b => {b with trip := true}) (lit), by decide +kernel⟩⟩

/-- States and operands that meet the hypotheses of each clause of Obligations.DeviceAfterReset. -/
theorem wit_DeviceAfterReset :
  (∃ (p : Nat), p < 8) ∧
  (∃ (k : Nat), k < 64) ∧
  (∃ (o : Nat) (r : RegRow) (f : FieldRow), Csr.find o = some r ∧ f ∈ r.fields) ∧
  (∃ (o : Nat) (r : RegRow) (f : FieldRow), Csr.find o = some r ∧ f ∈ r.fields) :=
  ⟨⟨7, by decide +kernel⟩,
   ⟨63, by decide +kernel⟩,
   ⟨0x200008, (Csr.find 0x200008).get rfl, (((Csr.find 0x200008).get rfl).fields[0]?).get rfl, (Option.some_get _).symm,
    List.mem_of_getElem? (Option.some_get _).symm⟩,
   ⟨0x200008, (Csr.find 0x200008).get rfl, (((Csr.find 0x200008).get rfl).fields[0]?).get rfl, (Option.some_get _).symm,
    List.mem_of_getElem? (Option.some_get _).symm⟩⟩

/-- States and operands that meet the hypotheses of each clause of Obligations.HeldDeviceIgnores. -/
theorem wit_HeldDeviceIgnores :
  (∃ (s : State) (c : Instr), s.serves = false ∧ reachesDevice c = true) ∧
  (∃ (s : State) (c : Instr), s.heldInReset = true ∧ asksFirmware c = true) :=
  ⟨⟨State.reset, .registerWrite (.rm false) 0 0, by decide +kernel⟩,
   ⟨State.reset, .nonce ⟨false, none, 7, true, true⟩, by decide +kernel⟩⟩

/-- States and operands that meet the hypotheses of each clause of Obligations.StepsKeepMemoryForm. -/
theorem wit_StepsKeepMemoryForm :
  (∃ (s : State), SMap.wf 0 s.mem = true) :=
  ⟨{lit with pending := [.aonTick], mem := [(5, 7)]}, by decide +kernel⟩

/-- States and operands that meet the hypotheses of each clause of Obligations.Placement. -/
theorem wit_Placement :
  (∃ (s : State) (f : Fetch) (e : Entry) (ps : List (Mover × Nat)), Issues s 112 f e ∧ isRm (s.qidOf f.rake.val) = false ∧
    (s.envOf 112 f (Instr.promote f) false e).range (s.seenBy e) = Range.pages ps (s.seenBy e) ∧
    (false = true → ∀ (p : Mover × Nat), p ∈ List.filter (fun p => decide (bitsOf f.mod.toNat 0 2 < tierOf p.fst.addr)) ps → bitOf p.snd 4 = false) ∧
    List.filter (fun p => decide (bitsOf f.mod.toNat 0 2 < tierOf p.fst.addr)) ps = []) ∧
  (∃ (s : State) (f : Fetch) (e : Entry) (ps : List (Mover × Nat)) (w : State), Issues s 112 f e ∧ isRm (s.qidOf f.rake.val) = false ∧
    (s.envOf 112 f (Instr.promote f) false e).range (s.seenBy e) = Range.pages ps (s.seenBy e) ∧
    (false = true → ∀ (p : Mover × Nat), p ∈ List.filter (fun p => decide (bitsOf f.mod.toNat 0 2 < tierOf p.fst.addr)) ps → bitOf p.snd 4 = false) ∧
    List.filter (fun p => decide (bitsOf f.mod.toNat 0 2 < tierOf p.fst.addr)) ps ≠ [] ∧
    (((s.countFetch f e).seenBy e).viewSet (s.seenBy e).liveSet).startMoves (some f.rake.val) (s.panOf f.rake.val) (bitsOf f.mod.toNat 0 2) (List.map
    (fun x => x.fst) (List.filter (fun p => decide (bitsOf f.mod.toNat 0 2 < tierOf p.fst.addr)) ps)) [] = some w) ∧
  (∃ (s : State) (f : Fetch) (e : Entry) (ps : List (Mover × Nat)), Issues s 113 f e ∧ isRm (s.qidOf f.rake.val) = false ∧
    (s.envOf 113 f (Instr.demote f) false e).range (s.seenBy e) = Range.pages ps (s.seenBy e) ∧
    (true = true → ∀ (p : Mover × Nat), p ∈ List.filter (fun p => decide (tierOf p.fst.addr < bitsOf f.mod.toNat 0 2)) ps → bitOf p.snd 4 = false) ∧
    List.filter (fun p => decide (tierOf p.fst.addr < bitsOf f.mod.toNat 0 2)) ps = []) ∧
  (∃ (s : State) (f : Fetch) (e : Entry) (ps : List (Mover × Nat)) (w : State), Issues s 113 f e ∧ isRm (s.qidOf f.rake.val) = false ∧
    (s.envOf 113 f (Instr.demote f) false e).range (s.seenBy e) = Range.pages ps (s.seenBy e) ∧
    (true = true → ∀ (p : Mover × Nat), p ∈ List.filter (fun p => decide (tierOf p.fst.addr < bitsOf f.mod.toNat 0 2)) ps → bitOf p.snd 4 = false) ∧
    List.filter (fun p => decide (tierOf p.fst.addr < bitsOf f.mod.toNat 0 2)) ps ≠ [] ∧
    (((s.countFetch f e).seenBy e).viewSet (s.seenBy e).liveSet).startMoves (some f.rake.val) (s.panOf f.rake.val) (bitsOf f.mod.toNat 0 2) (List.map
    (fun x => x.fst) (List.filter (fun p => decide (tierOf p.fst.addr < bitsOf f.mod.toNat 0 2)) ps)) [] = some w) ∧
  (∃ (s : State) (f : Fetch) (e : Entry) (p : Mover × Nat) (table : Nat), Issues s 114 f e ∧ isRm (s.qidOf f.rake.val) = false ∧ (s.seenBy e).Sound ∧
    (s.envOf 114 f (Instr.pin f) false e).range (s.seenBy e) = Range.pages [p] (s.seenBy e) ∧
    (s.seenBy e).leafAt (s.panOf f.rake.val) p.fst.va = some (p.fst.k, table, pteIndex p.fst.va p.fst.k, p.snd) ∧
    (s.seenBy e).outsideCarve (table + 8 * pteIndex p.fst.va p.fst.k) 8 = true) ∧
  (∃ (s : State) (f : Fetch) (e : Entry) (p : Mover × Nat) (table : Nat), Issues s 114 f e ∧ isRm (s.qidOf f.rake.val) = false ∧ (s.seenBy e).Sound ∧
    (s.envOf 114 f (Instr.unpin f) false e).range (s.seenBy e) = Range.pages [p] (s.seenBy e) ∧
    (s.seenBy e).leafAt (s.panOf f.rake.val) p.fst.va = some (p.fst.k, table, pteIndex p.fst.va p.fst.k, p.snd) ∧
    (s.seenBy e).outsideCarve (table + 8 * pteIndex p.fst.va p.fst.k) 8 = true) :=
  ⟨⟨paged 0x60004F (run (leafEnt 0x600000 ctx0)), {fet with mod := 2, imm := 1}, leafEnt 0x600000 ctx0, [(⟨0x200000, 1, 0x600000⟩, 0x60004F)],
    mkIssues (by decide +kernel), by decide +kernel⟩,
   (by
    let s := roomy (paged 0x60004F (run (leafEnt 0x600000 ctx0)))
    let e := leafEnt 0x600000 ctx0
    let f : Fetch := { fet with mod := 0, imm := 1 }
    obtain ⟨w, h⟩ := State.startMoves_isSome (s := ((s.countFetch f e).seenBy e).viewSet (s.seenBy e).liveSet) (rake := some 3) (n := 2) (t := 0) (j := 0)
      (m := ⟨0x200000, 1, 0x600000⟩) (by decide +kernel) (by decide +kernel) (by decide +kernel) (by decide +kernel) (by decide +kernel) (by decide +kernel)
    refine ⟨s, f, e, [(⟨0x200000, 1, 0x600000⟩, 0x60004F)], w, mkIssues (by decide +kernel), by decide +kernel, by decide +kernel, by decide +kernel, by decide +kernel, ?_⟩
    rw [show s.panOf f.rake.val = 2 by decide +kernel, show bitsOf f.mod.toNat 0 2 = 0 by decide +kernel,
      show List.map _ _ = [(⟨0x200000, 1, 0x600000⟩ : Mover)] by decide +kernel]
    exact h),
   ⟨paged 0x60004F (run (leafEnt 0x600000 ctx0)), {fet with mod := 1, imm := 1}, leafEnt 0x600000 ctx0, [(⟨0x200000, 1, 0x600000⟩, 0x60004F)],
    mkIssues (by decide +kernel), by decide +kernel⟩,
   (by
    let s := roomy (paged 0x10000060000F (run (leafEnt 0x100000600000 ctx0)))
    let e := leafEnt 0x100000600000 ctx0
    let f : Fetch := { fet with mod := 1, imm := 1 }
    obtain ⟨w, h⟩ := State.startMoves_isSome (s := ((s.countFetch f e).seenBy e).viewSet (s.seenBy e).liveSet) (rake := some 3) (n := 2) (t := 1) (j := 0)
      (m := ⟨0x200000, 1, 0x100000600000⟩) (by decide +kernel) (by decide +kernel) (by decide +kernel) (by decide +kernel) (by decide +kernel) (by decide +kernel)
    refine ⟨s, f, e, [(⟨0x200000, 1, 0x100000600000⟩, 0x10000060000F)], w, mkIssues (by decide +kernel), by decide +kernel, by decide +kernel, by decide +kernel, by decide +kernel, ?_⟩
    rw [show s.panOf f.rake.val = 2 by decide +kernel, show bitsOf f.mod.toNat 0 2 = 1 by decide +kernel,
      show List.map _ _ = [(⟨0x200000, 1, 0x100000600000⟩ : Mover)] by decide +kernel]
    exact h),
   ⟨paged 0x60004F (run (leafEnt 0x600000 ctx0)), {fet with imm := 1}, leafEnt 0x600000 ctx0, (⟨0x200000, 1, 0x600000⟩, 0x60004F), 0x53000,
    mkIssues (by decide +kernel), by decide +kernel, mkSound (by decide +kernel), by decide +kernel, by decide +kernel⟩,
   ⟨paged 0x60004F (run (leafEnt 0x600000 ctx0)), {fet with mod := 1, imm := 1}, leafEnt 0x600000 ctx0, (⟨0x200000, 1, 0x600000⟩, 0x60004F), 0x53000,
    mkIssues (by decide +kernel), by decide +kernel, mkSound (by decide +kernel), by decide +kernel, by decide +kernel⟩⟩

/-- States and operands that meet the hypotheses of each clause of Obligations.PageMoves. -/
theorem wit_PageMoves :
  (∃ (s : State) (n : Nat) (va : Nat) (k : Nat) (a : Nat) (b : Nat) (table : Nat) (e0 : Nat) (i : Nat) (x : Shoot) (m : Fin 64), s.Sound ∧
    s.quiet = true ∧ SMap.wf 0 s.mem = true ∧ s.nodeId * 2 ^ 52 + b < 2 ^ 64 ∧ s.copyOf n va = some (x, va, k, a, b) ∧ s.heldIn a (span k) = [] ∧
    (s.coh.txns.any fun y => decide (a ≤ y.line * 128) && decide (y.line * 128 < a + span k)) = false ∧ s.moveWaits n va = false ∧
    s.leafAt n va = some (k, table, i, e0) ∧ i = pteIndex va k ∧ tierOf a ≠ 3 ∧ tierOf b ≠ 3 ∧ s.outsideCarve (table + 8 * i) 8 = true ∧
    (∀ (z : Nat), z < 64 → s.rd (Csr.LENTSTAT_state z) ≠ 3) ∧ (∀ (p : Nat), p < 8 → s.rd (Csr.HEAPPORT_state p) ≠ 3) ∧ m.val = n ∧ tierOf a ≠ 2 ∧
    tierOf b ≠ 2) ∧
  (∃ (s : State) (n : Nat) (va : Nat) (k : Nat) (a : Nat) (b : Nat) (table : Nat) (e0 : Nat) (i : Nat) (x : Shoot) (m : Fin 64), s.Sound ∧
    s.quiet = true ∧ SMap.wf 0 s.mem = true ∧ s.nodeId * 2 ^ 52 + b < 2 ^ 64 ∧ s.copyOf n va = some (x, va, k, a, b) ∧ s.heldIn a (span k) = [] ∧
    (s.coh.txns.any fun y => decide (a ≤ y.line * 128) && decide (y.line * 128 < a + span k)) = false ∧ s.moveWaits n va = false ∧
    s.leafAt n va = some (k, table, i, e0) ∧ i = pteIndex va k ∧ tierOf a ≠ 3 ∧ tierOf b ≠ 3 ∧ s.outsideCarve (table + 8 * i) 8 = true ∧
    (∀ (z : Nat), z < 64 → s.rd (Csr.LENTSTAT_state z) ≠ 3) ∧ (∀ (p : Nat), p < 8 → s.rd (Csr.HEAPPORT_state p) ≠ 3) ∧ m.val = n ∧
    (tierOf a = 2 ∨ tierOf b = 2)) ∧
  (∃ (s : State) (i : Nat) (x : Shoot), s.quiet = true ∧ s.shoots[i]? = some x ∧ x.copies = [] ∧ x.before = [] ∧ x.resume = [] ∧ s.oldBusy x = false ∧
    x.rake = none) ∧
  (∃ (s : State) (i : Nat) (x : Shoot) (opc : Nat) (ins : Instr) (f : Fetch) (e : Entry), s.quiet = true ∧ s.shoots[i]? = some x ∧ x.copies = [] ∧
    x.before = [] ∧ x.resume = [] ∧ s.oldBusy x = false ∧ x.rake = some f.rake.val ∧ x.old = [] ∧ rakeOp ins = some (opc, f) ∧
    Issues (s.freed f.rake.val) opc f e ∧ (s.rake f.rake.val).instr = some ins ∧ (s.rake f.rake.val).wait = RakeWait.drain ∧ x.began = none) ∧
  (∃ (s : State) (i : Nat) (x : Shoot) (opc : Nat) (ins : Instr) (f : Fetch) (e : Entry), s.quiet = true ∧ s.shoots[i]? = some x ∧ x.copies = [] ∧
    x.before = [] ∧ x.resume = [] ∧ s.oldBusy x = false ∧ x.rake = some f.rake.val ∧ x.old = [] ∧ rakeOp ins = some (opc, f) ∧
    Issues (s.freed f.rake.val) opc f e ∧ (s.rake f.rake.val).instr = some ins ∧ (s.rake f.rake.val).wait = RakeWait.drain) :=
  ⟨⟨shift none [] [(0x200000, 1, 0x600000, 0x800000)] (paged 0x60004F lit), 2, 0x200000, 1, 0x600000, 0x800000, 0x53000, 0x60004F, 1, ⟨none, 2, [], [],
    [(0x200000, 1, 0x600000, 0x800000)], [], [], [], none⟩, 2, mkSound (by decide +kernel), by decide +kernel⟩,
   ⟨shift none [] [(0x200000, 1, 0x600000, 0x1000000800000)] (paged 0x60004F lit), 2, 0x200000, 1, 0x600000, 0x1000000800000, 0x53000, 0x60004F, 1,
    ⟨none, 2, [], [], [(0x200000, 1, 0x600000, 0x1000000800000)], [], [], [], none⟩, 2, mkSound (by decide +kernel), by decide +kernel⟩,
   ⟨{shift none [7] [] lit with grans := [(7, {Granule.fresh with st := .owned, owner := 2})]}, 0, ⟨none, 2, [], [7], [], [], [], [], none⟩, by decide +kernel⟩,
   ⟨shift (some 3) [] [] (stuck (leafEnt 0x600000 ctx0) .drain (.pin {fet with imm := 1})), 0, ⟨some 3, 2, [], [], [], [], [], [], none⟩, 0x72,
    .pin {fet with imm := 1}, {fet with imm := 1}, leafEnt 0x600000 ctx0, by decide +kernel, by decide +kernel, by decide +kernel, (by decide +kernel),
    by decide +kernel, by decide +kernel, by decide +kernel, (by decide +kernel), by decide +kernel, mkIssues (by decide +kernel), by decide +kernel,
    by decide +kernel⟩,
   ⟨shift (some 3) [] [] (stuck (leafEnt 0x600000 ctx0) .drain (.pin {fet with imm := 1})), 0, ⟨some 3, 2, [], [], [], [], [], [], none⟩, 0x72,
    .pin {fet with imm := 1}, {fet with imm := 1}, leafEnt 0x600000 ctx0, by decide +kernel, by decide +kernel, by decide +kernel, (by decide +kernel),
    by decide +kernel, by decide +kernel, by decide +kernel, (by decide +kernel), by decide +kernel, mkIssues (by decide +kernel), by decide +kernel,
    by decide +kernel⟩⟩

/-- States and operands that meet the hypotheses of each clause of Obligations.DurableSync. -/
theorem wit_DurableSync :
  (∃ (s : State) (f : Fetch) (e : Entry), Issues s 115 f e ∧ isRm (s.qidOf f.rake.val) = false ∧
    (¬if bitsOf f.mod.toNat 0 1 = 0 then e.durPos.isSome = true else (s.seenBy e).panDurable (s.panOf f.rake.val) = true ∧
    (s.pan (s.panOf f.rake.val)).pos ≠ 0)) ∧
  (∃ (s : State) (f : Fetch) (e : Entry), Issues s 115 f e ∧ isRm (s.qidOf f.rake.val) = false ∧
    (if bitsOf f.mod.toNat 0 1 = 0 then e.durPos.isSome = true else (s.seenBy e).panDurable (s.panOf f.rake.val) = true ∧
    (s.pan (s.panOf f.rake.val)).pos ≠ 0) ∧
    (if bitsOf f.mod.toNat 0 1 = 0 then s.entryDurable (s.qidOf f.rake.val) e = true else ∀ (w : Undur), w ∈ (s.pan (s.panOf f.rake.val)).undur →
    (s.pan (s.panOf f.rake.val)).pos ≤ w.pos)) ∧
  (∃ (s : State) (f : Fetch) (e : Entry), Issues s 115 f e ∧ isRm (s.qidOf f.rake.val) = false ∧
    (if bitsOf f.mod.toNat 0 1 = 0 then e.durPos.isSome = true else (s.seenBy e).panDurable (s.panOf f.rake.val) = true ∧
    (s.pan (s.panOf f.rake.val)).pos ≠ 0) ∧
    (¬if bitsOf f.mod.toNat 0 1 = 0 then s.entryDurable (s.qidOf f.rake.val) e = true else ∀ (w : Undur), w ∈ (s.pan (s.panOf f.rake.val)).undur →
    (s.pan (s.panOf f.rake.val)).pos ≤ w.pos)) ∧
  (∃ (s : State) (f : Fetch) (e : Entry) (pos : Nat), Issues (s.freed f.rake.val) 115 f e ∧ isRm (s.qidOf f.rake.val) = false ∧
    (s.rake f.rake.val).instr = some (Instr.durableSync f) ∧ (s.rake f.rake.val).wait = RakeWait.durable (bitsOf f.mod.toNat 0 1) pos ∧
    (if bitsOf f.mod.toNat 0 1 = 0 then s.entryDurable (s.qidOf f.rake.val) e = true else ∀ (w : Undur), w ∈ (s.pan (s.panOf f.rake.val)).undur → pos ≤ w.pos)) ∧
  (∃ (s : State) (f : Fetch) (e : Entry) (pos : Nat), Issues (s.freed f.rake.val) 115 f e ∧ isRm (s.qidOf f.rake.val) = false ∧
    (s.rake f.rake.val).instr = some (Instr.durableSync f) ∧ (s.rake f.rake.val).wait = RakeWait.durable (bitsOf f.mod.toNat 0 1) pos ∧ f.imm ≠ 0 ∧
    e.onRake = some f.rake.val) :=
  ⟨⟨run (ent ctx0), fet, ent ctx0, mkIssues (by decide +kernel), by decide +kernel, by decide +kernel⟩,
   ⟨run {ent ctx0 with durPos := some 0}, fet, {ent ctx0 with durPos := some 0}, mkIssues (by decide +kernel), by decide +kernel⟩,
   ⟨run {ent ctx0 with durPos := some 1}, fet, {ent ctx0 with durPos := some 1}, mkIssues (by decide +kernel), by decide +kernel⟩,
   ⟨stuck {ent ctx0 with durPos := some 0} (.durable 0 0) (.durableSync fet), fet, {ent ctx0 with durPos := some 0}, 0, mkIssues (by decide +kernel),
    by decide +kernel⟩,
   ⟨stuck {ent ctx0 with durPos := some 1} (.durable 0 0) (.durableSync {fet with imm := 4}), {fet with imm := 4}, {ent ctx0 with durPos := some 1}, 0,
    mkIssues (by decide +kernel), by decide +kernel⟩⟩

/-- States and operands that meet the hypotheses of each clause of Obligations.QueueInstructions. -/
theorem wit_QueueInstructions :
  (∃ (s : State) (f : Fetch) (e : Entry) (l : Loc), isRm (s.qidOf f.rake.val) = false ∧ l.holds 256 ∧
    e.locate e.ctx f.op.toNat 0 256 false = Sum.inr l ∧ e.va e.ctx f.op.toNat % 256 = 0 ∧ e.ctx.poi f.ra.val = false ∧ e.ctx.reg f.ra.val < 2 ^ 19 ∧
    (s.queue (e.ctx.reg f.ra.val)).st ≠ QState.free ∧ (s.queue (e.ctx.reg f.ra.val)).pan = s.panOf f.rake.val ∧
    (s.queue (e.ctx.reg f.ra.val)).occupied < (s.queue (e.ctx.reg f.ra.val)).depth ∧
    ((s.queue (e.ctx.reg f.ra.val)).body + 256 * ((s.queue (e.ctx.reg f.ra.val)).tail % (s.queue (e.ctx.reg f.ra.val)).depth)) % 128 = 0 ∧
    s.outsideCarve ((s.queue (e.ctx.reg f.ra.val)).body + 256 * ((s.queue (e.ctx.reg f.ra.val)).tail % (s.queue (e.ctx.reg f.ra.val)).depth)) 256 = true ∧
    (s.seenBy e).lineFree (((s.queue (e.ctx.reg f.ra.val)).body + 256 * ((s.queue (e.ctx.reg f.ra.val)).tail % (s.queue (e.ctx.reg f.ra.val)).depth)) / 128) ∧
    ((s.seenBy e).putBytes ((s.queue (e.ctx.reg f.ra.val)).body + 256 * ((s.queue (e.ctx.reg f.ra.val)).tail % (s.queue (e.ctx.reg f.ra.val)).depth))
    (List.take 128 (plain (setBits ((s.bytesOf l.segs).headD 0) 0 1 (lapBit (s.queue (e.ctx.reg f.ra.val)).tail (s.queue (e.ctx.reg
    f.ra.val)).depthLog) :: (s.bytesOf l.segs).tail)))).lineFree (((s.queue (e.ctx.reg f.ra.val)).body + 256 * ((s.queue (e.ctx.reg f.ra.val)).tail %
    (s.queue (e.ctx.reg f.ra.val)).depth)) / 128 + 1) ∧
    Performs s 128 f e [l]) ∧
  (∃ (s : State) (f : Fetch) (e : Entry) (l : Loc), isRm (s.qidOf f.rake.val) = false ∧ l.holds 256 ∧
    e.locate e.ctx f.op.toNat 0 256 false = Sum.inr l ∧ e.va e.ctx f.op.toNat % 256 = 0 ∧ e.ctx.poi f.ra.val = false ∧ e.ctx.reg f.ra.val < 2 ^ 19 ∧
    (s.queue (e.ctx.reg f.ra.val)).st ≠ QState.free ∧ (s.queue (e.ctx.reg f.ra.val)).pan = s.panOf f.rake.val ∧
    (s.queue (e.ctx.reg f.ra.val)).occupied < (s.queue (e.ctx.reg f.ra.val)).depth ∧
    ((s.queue (e.ctx.reg f.ra.val)).body + 256 * ((s.queue (e.ctx.reg f.ra.val)).tail % (s.queue (e.ctx.reg f.ra.val)).depth)) % 128 = 0 ∧
    s.outsideCarve ((s.queue (e.ctx.reg f.ra.val)).body + 256 * ((s.queue (e.ctx.reg f.ra.val)).tail % (s.queue (e.ctx.reg f.ra.val)).depth)) 256 = true ∧
    (s.seenBy e).lineFree (((s.queue (e.ctx.reg f.ra.val)).body + 256 * ((s.queue (e.ctx.reg f.ra.val)).tail % (s.queue (e.ctx.reg f.ra.val)).depth)) / 128) ∧
    ((s.seenBy e).putBytes ((s.queue (e.ctx.reg f.ra.val)).body + 256 * ((s.queue (e.ctx.reg f.ra.val)).tail % (s.queue (e.ctx.reg f.ra.val)).depth))
    (List.take 128 (plain (setBits ((s.bytesOf l.segs).headD 0) 0 1 (lapBit (s.queue (e.ctx.reg f.ra.val)).tail (s.queue (e.ctx.reg
    f.ra.val)).depthLog) :: (s.bytesOf l.segs).tail)))).lineFree (((s.queue (e.ctx.reg f.ra.val)).body + 256 * ((s.queue (e.ctx.reg f.ra.val)).tail %
    (s.queue (e.ctx.reg f.ra.val)).depth)) / 128 + 1) ∧
    Performs s 128 f e [l]) ∧
  (∃ (s : State) (f : Fetch) (e : Entry) (l : Loc), isRm (s.qidOf f.rake.val) = false ∧ l.holds 256 ∧
    e.locate e.ctx f.op.toNat 0 256 false = Sum.inr l ∧ e.va e.ctx f.op.toNat % 256 = 0 ∧ e.ctx.poi f.ra.val = false ∧ e.ctx.reg f.ra.val < 2 ^ 19 ∧
    (s.queue (e.ctx.reg f.ra.val)).st ≠ QState.free ∧ (s.queue (e.ctx.reg f.ra.val)).pan = s.panOf f.rake.val ∧
    (s.queue (e.ctx.reg f.ra.val)).occupied < (s.queue (e.ctx.reg f.ra.val)).depth ∧
    ((s.queue (e.ctx.reg f.ra.val)).body + 256 * ((s.queue (e.ctx.reg f.ra.val)).tail % (s.queue (e.ctx.reg f.ra.val)).depth)) % 128 = 0 ∧
    s.outsideCarve ((s.queue (e.ctx.reg f.ra.val)).body + 256 * ((s.queue (e.ctx.reg f.ra.val)).tail % (s.queue (e.ctx.reg f.ra.val)).depth)) 256 = true ∧
    (s.seenBy e).lineFree (((s.queue (e.ctx.reg f.ra.val)).body + 256 * ((s.queue (e.ctx.reg f.ra.val)).tail % (s.queue (e.ctx.reg f.ra.val)).depth)) / 128) ∧
    ((s.seenBy e).putBytes ((s.queue (e.ctx.reg f.ra.val)).body + 256 * ((s.queue (e.ctx.reg f.ra.val)).tail % (s.queue (e.ctx.reg f.ra.val)).depth))
    (List.take 128 (plain (setBits ((s.bytesOf l.segs).headD 0) 0 1 (lapBit (s.queue (e.ctx.reg f.ra.val)).tail (s.queue (e.ctx.reg
    f.ra.val)).depthLog) :: (s.bytesOf l.segs).tail)))).lineFree (((s.queue (e.ctx.reg f.ra.val)).body + 256 * ((s.queue (e.ctx.reg f.ra.val)).tail %
    (s.queue (e.ctx.reg f.ra.val)).depth)) / 128 + 1) ∧
    Performs (s.freed f.rake.val) 128 f e [l] ∧ (s.rake f.rake.val).instr = some (Instr.submit f) ∧ (s.rake f.rake.val).wait = RakeWait.slot ∧
    s.answered) ∧
  (∃ (s : State) (f : Fetch) (e : Entry) (p : Nat), isRm (s.qidOf f.rake.val) = false ∧ Issues s 129 f e ∧
    (bitOf f.mod.toNat 0 = true → e.ctx.poi f.ra.val = false ∧ e.ctx.reg f.ra.val < 8) ∧
    (bitOf f.mod.toNat 0 = false → e.port / 8 = (s.seenBy e).nodeId) ∧
    (s.seenBy e).notifyDenied (s.seenBy e).nodeId (if bitOf f.mod.toNat 0 = true then e.ctx.reg f.ra.val else e.port % 8) = false ∧
    List.find? (s.seenBy e).linkUp ((s.seenBy e).pairOf (if bitOf f.mod.toNat 0 = true then e.ctx.reg f.ra.val else e.port % 8)) = some p ∧
    (s.seenBy e).ringPort p = false) ∧
  (∃ (s : State) (f : Fetch) (e : Entry), isRm (s.qidOf f.rake.val) = false ∧ Issues s 130 f e ∧ e.ctx.poi f.rb.val = false ∧
    e.ctx.reg f.rb.val < 2 ^ 19 ∧ (s.queue (e.ctx.reg f.rb.val)).st ≠ QState.free ∧ (s.queue (e.ctx.reg f.rb.val)).pan = s.panOf f.rake.val) ∧
  (∃ (s : State) (f : Fetch) (e : Entry), isRm (s.qidOf f.rake.val) = false ∧ Issues s 13 f e) :=
  ⟨⟨two (run (big (ctx0.setReg 4 9 false))), {fet with ra := 4, rb := 6}, big (ctx0.setReg 4 9 false), far 0 256 false, by decide +kernel,
    by unfold Loc.holds; decide +kernel, by decide +kernel, by decide +kernel, by decide +kernel, (by decide +kernel), by decide +kernel, by decide +kernel,
    by decide +kernel, (by decide +kernel), by decide +kernel, by unfold State.lineFree; decide +kernel, by unfold State.lineFree; decide +kernel,
    mkPerforms (mkIssues (by decide +kernel)) (by decide +kernel) (mkDirect (by decide +kernel))⟩,
   ⟨two (run (big (ctx0.setReg 4 9 false))), {fet with ra := 4, rb := 6}, big (ctx0.setReg 4 9 false), far 0 256 false, by decide +kernel,
    by unfold Loc.holds; decide +kernel, by decide +kernel, by decide +kernel, by decide +kernel, (by decide +kernel), by decide +kernel, by decide +kernel,
    by decide +kernel, (by decide +kernel), by decide +kernel, by unfold State.lineFree; decide +kernel, by unfold State.lineFree; decide +kernel,
    mkPerforms (mkIssues (by decide +kernel)) (by decide +kernel) (mkDirect (by decide +kernel))⟩,
   ⟨two (stuck (big (ctx0.setReg 4 9 false)) .slot (.submit {fet with ra := 4, rb := 6})), {fet with ra := 4, rb := 6}, big (ctx0.setReg 4 9 false),
    far 0 256 false, by decide +kernel, by unfold Loc.holds; decide +kernel, by decide +kernel, by decide +kernel, by decide +kernel, (by decide +kernel),
    by decide +kernel, by decide +kernel, by decide +kernel, (by decide +kernel), by decide +kernel, by unfold State.lineFree; decide +kernel,
    by unfold State.lineFree; decide +kernel, mkPerforms (mkIssues (by decide +kernel)) (by decide +kernel) (mkDirect (by decide +kernel)),
    by decide +kernel, by decide +kernel, by unfold State.answered; decide +kernel⟩,
   ⟨linked (run (ent (ctx0.setReg 4 3 false))), {fet with mod := 1, ra := 4, rb := 6}, ent (ctx0.setReg 4 3 false), 3, by decide +kernel,
    mkIssues (by decide +kernel), by decide +kernel⟩,
   ⟨two (run (ent (ctx0.setReg 6 9 false))), {fet with ra := 4, rb := 6}, ent (ctx0.setReg 6 9 false), by decide +kernel, mkIssues (by decide +kernel),
    by decide +kernel⟩,
   ⟨run (ent ctx0), {fet with ra := 4, imm := 6}, ent ctx0, by decide +kernel, mkIssues (by decide +kernel)⟩⟩

/-- States and operands that meet the hypotheses of each clause of Obligations.CarveMapUnmap. -/
theorem wit_CarveMapUnmap :
  (∃ (s : State) (f : Fetch) (e : Entry) (n : Nat) (b : List Nat), s.holder f ∧ s.Sound ∧ e.ctx.poi f.ra.val = false ∧ e.ctx.reg f.ra.val = n ∧
    n < 64 ∧ Issues s 192 f e ∧ s.sysHolds e f.op.toNat 256 b ∧ (s.isSealed = true → s.on (Csr.PANKEY_valid n) = true) ∧ s.shadowOpen = true ∧
    s.claimOf s.rmHolder = s.latched 0) ∧
  (∃ (s : State) (f : Fetch) (e : Entry) (n : Nat) (b : List Nat) (addr : Nat) (table : Nat), s.holder f ∧ s.Sound ∧ e.ctx.poi f.ra.val = false ∧
    e.ctx.reg f.ra.val = n ∧ n < 64 ∧ Issues s 196 f e ∧ bitOf f.mod.toNat 2 = false ∧ f.imm = 1 ∧ s.sysHolds e f.op.toNat 8 b ∧
    addr = ofLeBytes (List.take 8 b) ∧ bitsOf f.mod.toNat 0 2 < 3 ∧ e.ctx.poi f.rb.val = false ∧
    e.ctx.reg f.rb.val % span (bitsOf f.mod.toNat 0 2) = 0 ∧ e.ctx.reg f.rb.val + span (bitsOf f.mod.toNat 0 2) ≤ 2 ^ 56 ∧
    (s.panDurable n = true → bitsOf f.mod.toNat 0 2 ≠ 0) ∧ s.panActive n = true ∧ s.addrFits (bitsOf f.mod.toNat 0 2) addr = true ∧
    s.addrOwned n (bitsOf f.mod.toNat 0 2) addr = true ∧ s.mapClash n (e.ctx.reg f.rb.val) (bitsOf f.mod.toNat 0 2) = false ∧
    s.twinFollows n = false ∧
    s.tableFor n (e.ctx.reg f.rb.val) (bitsOf f.mod.toNat 0 2) 4 (s.ptRoot n) = some (table, pteIndex (e.ctx.reg f.rb.val) (bitsOf f.mod.toNat 0 2)) ∧
    s.outsideCarve (table + 8 * pteIndex (e.ctx.reg f.rb.val) (bitsOf f.mod.toNat 0 2)) 8 = true) ∧
  (∃ (s : State) (f : Fetch) (e : Entry) (n : Nat) (table : Nat) (e0 : Nat), s.holder f ∧ s.Sound ∧ e.ctx.poi f.ra.val = false ∧
    e.ctx.reg f.ra.val = n ∧ n < 64 ∧ Issues s 197 f e ∧ f.imm = 1 ∧ bitsOf f.mod.toNat 0 2 < 3 ∧ e.ctx.poi f.rb.val = false ∧
    e.ctx.reg f.rb.val % span (bitsOf f.mod.toNat 0 2) = 0 ∧ e.ctx.reg f.rb.val + span (bitsOf f.mod.toNat 0 2) ≤ 2 ^ 56 ∧ s.panActive n = true ∧
    s.leafAt n (e.ctx.reg f.rb.val) = some (bitsOf f.mod.toNat 0 2, table, pteIndex (e.ctx.reg f.rb.val) (bitsOf f.mod.toNat 0 2), e0) ∧
    s.outsideCarve (table + 8 * pteIndex (e.ctx.reg f.rb.val) (bitsOf f.mod.toNat 0 2)) 8 = true ∧ s.twinFollows n = false) :=
  ⟨⟨opened (roomy (runRm (sysEnt ctx0))), fet, sysEnt ctx0, 0, List.replicate 256 0, by unfold State.holder; decide +kernel, mkSound (by decide +kernel),
    by decide +kernel, by decide +kernel, by decide +kernel, mkIssues (by decide +kernel), mkSysHolds (g := ⟨0x700000000, 256, 0x700000000,
    false⟩) (by decide +kernel) (by decide +kernel) (by decide +kernel) (by decide +kernel) (by decide +kernel), by decide +kernel⟩,
   ⟨{roomy (paged 0 (runRm (sysEnt ((ctx0.setReg 4 2 false).setReg 6 0x200000 false)))) with mem := (paged 0 lit).mem ++ [(0x700000002, 0x60)], grans := [(3, {Granule.fresh with st := .owned, owner := 2})]},
    {fet with mod := 1, imm := 1, ra := 4, rb := 6, xw := 1, x0 := 12}, sysEnt ((ctx0.setReg 4 2 false).setReg 6 0x200000 false), 2, [0,0,0x60,0,0,0,0,0],
    0x600000, 0x53000, by unfold State.holder; decide +kernel, mkSound (by decide +kernel), by decide +kernel, by decide +kernel, by decide +kernel,
    mkIssues (by decide +kernel), by decide +kernel, by decide +kernel, mkSysHolds (g := ⟨0x700000000, 8, 0x700000000,
    false⟩) (by decide +kernel) (by decide +kernel) (by decide +kernel) (by decide +kernel) (by decide +kernel), by decide +kernel⟩,
   ⟨roomy (paged 0x60004F (runRm (sysEnt ((ctx0.setReg 4 2 false).setReg 6 0x200000 false)))), {fet with mod := 1, imm := 1, ra := 4, rb := 6},
    sysEnt ((ctx0.setReg 4 2 false).setReg 6 0x200000 false), 2, 0x53000, 0x60004F, by unfold State.holder; decide +kernel, mkSound (by decide +kernel),
    by decide +kernel, by decide +kernel, by decide +kernel, mkIssues (by decide +kernel), by decide +kernel⟩⟩

/-- States and operands that meet the hypotheses of each clause of Obligations.Keys. -/
theorem wit_Keys :
  (∃ (s : State) (f : Fetch) (e : Entry) (n : Nat) (b : List Nat), Issues s 208 f e ∧ s.holder f ∧ e.ctx.poi f.ra.val = false ∧
    e.ctx.reg f.ra.val = n ∧ n < 64 ∧ bitsOf f.mod.toNat 0 3 = 0 ∧ s.Sound ∧ e.va e.ctx f.op.toNat % 16 = 0 ∧ s.sysHolds e f.op.toNat 176 b ∧
    s.blobGood n b = true ∧ (s.isSealed = true → blobField b 1 1 = 2) ∧ s.on (Csr.PANKEY_valid n) = false) ∧
  (∃ (s : State) (f : Fetch) (e : Entry) (n : Nat), Issues s 208 f e ∧ s.holder f ∧ e.ctx.poi f.ra.val = false ∧ e.ctx.reg f.ra.val = n ∧ n < 64 ∧
    bitsOf f.mod.toNat 0 3 = 1 ∧ s.panFree n = true) ∧
  (∃ (s : State) (f : Fetch) (e : Entry) (n : Nat), Issues s 208 f e ∧ s.holder f ∧ e.ctx.poi f.ra.val = false ∧ e.ctx.reg f.ra.val = n ∧ n < 8 ∧
    bitsOf f.mod.toNat 0 3 = 2 ∧ s.on (Csr.PORTSEC_secured n) = true) ∧
  (∃ (s : State) (f : Fetch) (e : Entry) (n : Nat), Issues s 208 f e ∧ s.holder f ∧ e.ctx.poi f.ra.val = false ∧ e.ctx.reg f.ra.val = n ∧ n < 8 ∧
    bitsOf f.mod.toNat 0 3 = 3 ∧ s.link n ≠ 0) :=
  ⟨⟨{roomy (runRm (sysEnt (ctx0.setReg 4 2 false))) with mem := [(0x700000000, 1), (0x700000002, 2), (0x700000008, 5)]}, {fet with ra := 4},
    sysEnt (ctx0.setReg 4 2 false), 2, [1, 0, 2, 0, 0, 0, 0, 0, 5] ++ List.replicate 167 0, mkIssues (by decide +kernel),
    by unfold State.holder; decide +kernel, by decide +kernel, by decide +kernel, by decide +kernel, by decide +kernel, mkSound (by decide +kernel),
    by decide +kernel, mkSysHolds (g := ⟨0x700000000, 176, 0x700000000,
    false⟩) (by decide +kernel) (by decide +kernel) (by decide +kernel) (by decide +kernel) (by decide +kernel), by decide +kernel⟩,
   ⟨runRm (sysEnt (ctx0.setReg 4 2 false)), {fet with mod := 1, ra := 4}, sysEnt (ctx0.setReg 4 2 false), 2, mkIssues (by decide +kernel),
    by unfold State.holder; decide +kernel, by decide +kernel⟩,
   ⟨linked ((runRm (sysEnt (ctx0.setReg 4 3 false))).wr (Csr.PORTSEC_secured 3) 1), {fet with mod := 2, ra := 4}, sysEnt (ctx0.setReg 4 3 false), 3,
    mkIssues (by decide +kernel), by unfold State.holder; decide +kernel, by decide +kernel⟩,
   ⟨linked (runRm (sysEnt (ctx0.setReg 4 3 false))), {fet with mod := 3, ra := 4}, sysEnt (ctx0.setReg 4 3 false), 3, mkIssues (by decide +kernel),
    by unfold State.holder; decide +kernel, by decide +kernel⟩⟩

/-- States and operands that meet the hypotheses of each clause of Obligations.CommitClaimScrub. -/
theorem wit_CommitClaimScrub :
  (∃ (s : State) (f : Fetch) (e : Entry), e.ctx.poi f.ra.val = false ∧ Issues s 224 f e ∧ s.holder f ∧ s.epochNow < 2 ^ 17 ∧
    e.ctx.reg f.ra.val = s.epochNow ∧ s.shadowOpen = true ∧ s.refusals s.flipped = [] ∧ bitOf f.mod.toNat 0 = true) ∧
  (∃ (s : State) (f : Fetch) (e : Entry), e.ctx.poi f.ra.val = false ∧ Issues s 224 f e ∧ s.holder f ∧ s.epochNow < 2 ^ 17 ∧
    e.ctx.reg f.ra.val = s.epochNow ∧ s.shadowOpen = true ∧ s.refusals s.flipped = [] ∧ bitOf f.mod.toNat 0 = false) ∧
  (∃ (s : State) (f : Fetch) (e : Entry) (n : Nat), e.ctx.poi f.ra.val = false ∧ Issues s 225 f e ∧ e.ctx.poi f.rb.val = false ∧
    e.ctx.reg f.rb.val = n ∧ n < 2 ^ 32 ∧ e.ctx.reg f.ra.val < 2 ^ 32 ∧ isNewer n (e.ctx.reg f.ra.val) 32 = true ∧
    s.rd Csr.CLAIMCUR_claim = e.ctx.reg f.ra.val) ∧
  (∃ (s : State) (f : Fetch) (e : Entry), e.ctx.poi f.ra.val = false ∧ Issues s 240 f e ∧ s.holder f ∧ e.onRake = some f.rake.val ∧
    e.ctx.reg f.ra.val < 2 ^ 32 ∧ s.sec.armed = some (e.ctx.reg f.ra.val) ∧ s.sec.scrubbed = 0 ∧ s.sec.full = false ∧ bitOf f.mod.toNat 0 = false) :=
  ⟨⟨opened (runRm (ent (ctx0.setReg 4 1 false))), {fet with mod := 1, ra := 4, rb := 6}, ent (ctx0.setReg 4 1 false), by decide +kernel,
    mkIssues (by decide +kernel), by unfold State.holder; decide +kernel, by decide +kernel⟩,
   ⟨opened (runRm (ent (ctx0.setReg 4 1 false))), {fet with mod := 0, ra := 4, rb := 6}, ent (ctx0.setReg 4 1 false), by decide +kernel,
    mkIssues (by decide +kernel), by unfold State.holder; decide +kernel, by decide +kernel⟩,
   ⟨runRm (ent ((ctx0.setReg 4 1 false).setReg 6 2 false)), {fet with ra := 4, rb := 6}, ent ((ctx0.setReg 4 1 false).setReg 6 2 false), 2,
    by decide +kernel, mkIssues (by decide +kernel), by decide +kernel⟩,
   ⟨{runRm (ent (ctx0.setReg 4 77 false)) with sec := {Sec.idle with armed := some 77}}, {fet with ra := 4}, ent (ctx0.setReg 4 77 false),
    by decide +kernel, mkIssues (by decide +kernel), by unfold State.holder; decide +kernel, by decide +kernel⟩⟩

/-- States and operands that meet the hypotheses of each clause of Obligations.RegisterWrites. -/
theorem wit_RegisterWrites :
  (∃ (s : State), s.serves = false) ∧
  (∃ (s : State) (w : Writer) (off : Nat) (v : Word), s.serves = true ∧ (s.regWrite w off (BitVec.toNat v)).fst = WriteResult.malformed) ∧
  (∃ (s : State) (w : Writer) (off : Nat) (v : Word), s.serves = true ∧ (s.regWrite w off (BitVec.toNat v)).fst = WriteResult.refused) ∧
  (∃ (s : State) (w : Writer) (off : Nat) (v : Word), s.Reaches w off (BitVec.toNat v) ∧ Csr.find off = none ∧ commandsAt off = false) ∧
  (∃ (s : State) (w : Writer) (off : Nat) (v : Word) (r : RegRow), s.Reaches w off (BitVec.toNat v) ∧ Csr.find off = some r ∧
    commandsAt off = false) ∧
  (∃ (s : State) (w : Writer) (off : Nat) (v : Word) (i : Fin 4), s.Reaches w off (BitVec.toNat v) ∧ s.shadowOpen = true ∧
    off = 44040216 + 8 * i.val) ∧
  (∃ (s : State) (w : Writer) (off : Nat) (v : Word) (c : Fin 16) (i : Fin 4), s.Reaches w off (BitVec.toNat v) ∧ s.shadowOpen = true ∧
    off = 41943096 + 131072 * c.val + 8 * i.val) ∧
  (∃ (s : State) (w : Writer) (off : Nat) (v : Word), s.Reaches w off (BitVec.toNat v) ∧ s.shadowOpen = true ∧ off = 4152) :=
  ⟨⟨State.reset, by decide +kernel⟩,
   ⟨lit, .rm false, 3, 1, by decide +kernel⟩,
   ⟨lit, .mgmt, 0x20000, 1, by decide +kernel⟩,
   ⟨lit, .rm false, 0x1FFFFF8, 1, mkReaches (by decide +kernel), by decide +kernel, by decide +kernel⟩,
   ⟨opened lit, .rm false, 0x20000, 1, (Csr.find 0x20000).get rfl, mkReaches (by decide +kernel), (Option.some_get _).symm, by decide +kernel⟩,
   ⟨opened lit, .rm false, 0x2A00030, 0, 3, mkReaches (by decide +kernel), by decide +kernel⟩,
   ⟨opened lit, .rm false, 0x29E0038, 0, 15, 0, mkReaches (by decide +kernel), by decide +kernel⟩,
   ⟨opened lit, .rm false, 0x1038, 0xFFFFFFFFFFFFFFFF, mkReaches (by decide +kernel), by decide +kernel⟩⟩

/-- States and operands that meet the hypotheses of each clause of Obligations.ConsumersAndDrops. -/
theorem wit_ConsumersAndDrops :
  (∃ (s : State) (w : Writer) (v : Word), s.Reaches w 51380248 (BitVec.toNat v)) ∧
  (∃ (s : State) (w : Writer) (v : Word), s.Reaches w 12312 (BitVec.toNat v)) ∧
  (∃ (s : State) (w : Writer) (v : Word) (n : Fin 64), s.Reaches w (131232 + 256 * n.val) (BitVec.toNat v)) ∧
  (∃ (s : State) (w : Writer) (v : Word), s.Reaches w 1048680 (BitVec.toNat v)) ∧
  (∃ (s : State) (c : Fin 256) (d : DropCount), d ≠ DropCount.zero ∧ SMap.get DropCount.zero c.val s.log.drops = d ∧ s.log.staging.length < 2047) ∧
  (∃ (s : State) (c : Fin 256) (d : DropCount), d ≠ DropCount.zero ∧ SMap.get DropCount.zero c.val s.log.aonDrops = d ∧ s.aonAdmits c.val = true) :=
  ⟨⟨lit.wr Csr.EVPOS_producer 4, .rm false, 0x400000004, mkReaches (by decide +kernel)⟩,
   ⟨lit.wr Csr.ERRLOGPOS_producer 4, .rm false, 0x400000004, mkReaches (by decide +kernel)⟩,
   ⟨lit.wr (Csr.FQPOS_producer 63) 4, .rm false, 0x400000004, 63, mkReaches (by decide +kernel)⟩,
   ⟨lit.wr Csr.AONLOGPOS_producer 4, .rm false, 0x40004, mkReaches (by decide +kernel)⟩,
   ⟨{lit with log := {EventLog.empty with drops := [(255, ⟨2, 7⟩)]}}, 255, ⟨2, 7⟩, by decide +kernel⟩,
   ⟨{lit with log := {EventLog.empty with aonDrops := [(255, ⟨2, 7⟩)]}}, 255, ⟨2, 7⟩, by decide +kernel⟩⟩

/-- States and operands that meet the hypotheses of each clause of Obligations.QueueCommands. -/
theorem wit_QueueCommands :
  (∃ (s : State) (w : Writer) (k : Fin 16) (q : Fin 524288), (s.queue q.val).st = QState.free ∧ 4 ≤ s.rd (Csr.QDESC0_depth_log2 k.val) ∧
    s.rd (Csr.QDESC0_depth_log2 k.val) ≤ 16 ∧ 4 ≤ s.rd (Csr.QDESC1_cq_log2 k.val) ∧ s.rd (Csr.QDESC1_cq_log2 k.val) ≤ 17 ∧
    1 ≤ s.rd (Csr.QDESC2_shadow_pages k.val) ∧ s.paramsOk k.val = true ∧
    (∀ (r : Nat × Nat), r ∈ [(s.rd (Csr.QDESC0_body_base k.val), 256 * 2 ^ s.rd (Csr.QDESC0_depth_log2 k.val)), (s.rd (Csr.QDESC1_cq_base k.val), 32 *
    2 ^ s.rd (Csr.QDESC1_cq_log2 k.val)), (s.rd (Csr.QDESC2_shadow_base k.val), 4096 * s.rd (Csr.QDESC2_shadow_pages k.val))] → r.fst % 4096 = 0) ∧
    List.Pairwise (fun a b => overlaps a.fst a.snd b.fst b.snd = false) [(s.rd (Csr.QDESC0_body_base k.val), 256 * 2 ^ s.rd (Csr.QDESC0_depth_log2
    k.val)), (s.rd (Csr.QDESC1_cq_base k.val), 32 * 2 ^ s.rd (Csr.QDESC1_cq_log2 k.val)), (s.rd (Csr.QDESC2_shadow_base k.val), 4096 * s.rd
    (Csr.QDESC2_shadow_pages k.val))] ∧
    (∀ (r : Nat × Nat), r ∈ [(s.rd (Csr.QDESC0_body_base k.val), 256 * 2 ^ s.rd (Csr.QDESC0_depth_log2 k.val)), (s.rd (Csr.QDESC1_cq_base k.val), 32 *
    2 ^ s.rd (Csr.QDESC1_cq_log2 k.val)), (s.rd (Csr.QDESC2_shadow_base k.val), 4096 * s.rd (Csr.QDESC2_shadow_pages k.val))] → if isRm q.val = true
    then s.region r.fst = Region.system ∧
    s.region (r.fst + r.snd - 1) = Region.system else tierOf r.fst = 1 ∧ tierOf (r.fst + r.snd - 1) = 1 ∧
    s.ownsRange (s.rd (Csr.QDESC0_pan k.val)) r.fst r.snd = true) ∧ s.Commands w k.val 1 q.val 0) ∧
  (∃ (s : State) (w : Writer) (k : Fin 16) (q : Fin 524288), (s.queue q.val).home = k.val ∧
    ((s.queue q.val).st = QState.stopped ∨ (s.queue q.val).st = QState.paused) ∧ s.Commands w k.val 2 q.val 0) ∧
  (∃ (s : State) (w : Writer) (k : Fin 16) (q : Fin 524288), (s.queue q.val).home = k.val ∧ (s.queue q.val).st = QState.enabled ∧
    s.Commands w k.val 3 q.val 0) ∧
  (∃ (s : State) (w : Writer) (k : Fin 16) (q : Fin 524288), (s.queue q.val).home = k.val ∧
    ((s.queue q.val).st = QState.enabled ∨ (s.queue q.val).st = QState.paused) ∧ s.Commands w k.val 4 q.val 0) ∧
  (∃ (s : State) (w : Writer) (k : Fin 16) (q : Fin 524288), (s.queue q.val).home = k.val ∧ (s.queue q.val).st = QState.stopped ∧
    (s.queue q.val).ents = [] ∧ s.Commands w k.val 5 q.val 0) ∧
  (∃ (s : State) (w : Writer) (k : Fin 16) (q : Fin 524288) (j : Fin 16), (s.queue q.val).home = k.val ∧ (s.queue q.val).st ≠ QState.free ∧
    (s.queue q.val).moving = none ∧ s.Commands w k.val 6 q.val j.val) ∧
  (∃ (s : State) (w : Writer) (k : Fin 16) (q : Fin 524288), (s.queue q.val).home = k.val ∧ (s.queue q.val).st ≠ QState.free ∧
    s.paramsOk k.val = true ∧ s.Commands w k.val 7 q.val 0) ∧
  (∃ (s : State) (w : Writer) (k : Fin 16) (q : Fin 524288), s.Commands w k.val 8 q.val 0) ∧
  (∃ (s : State) (w : Writer) (k : Fin 16) (q : Fin 524288) (op : Nat) (c : Instr), (op, c) ∈ [(2, Instr.enable w k q), (3, Instr.pause w k q), (4,
    Instr.stop w k q), (5, Instr.destroy w k q), (7, Instr.setparam w k q)] ∧
    (s.queue q.val).st = QState.free ∧ s.Commands w k.val op q.val 0) :=
  ⟨⟨described lit, .rm false, 1, 9, by decide +kernel, by decide +kernel, by decide +kernel, (by decide +kernel), by decide +kernel, by decide +kernel,
    by decide +kernel, (by decide +kernel), by decide +kernel, by decide +kernel, mkCommands (by decide +kernel)⟩,
   ⟨two' .stopped, .rm false, 0, 9, by decide +kernel, by decide +kernel, mkCommands (by decide +kernel)⟩,
   ⟨two' .enabled, .rm false, 0, 9, by decide +kernel, by decide +kernel, mkCommands (by decide +kernel)⟩,
   ⟨two' .enabled, .rm false, 0, 9, by decide +kernel, by decide +kernel, mkCommands (by decide +kernel)⟩,
   ⟨two' .stopped, .rm false, 0, 9, by decide +kernel, by decide +kernel, by decide +kernel, mkCommands (by decide +kernel)⟩,
   ⟨two' .stopped, .rm false, 0, 9, 15, by decide +kernel, by decide +kernel, by decide +kernel, mkCommands (by decide +kernel)⟩,
   ⟨((two' .stopped).wr (Csr.QDESC3_concurrency 0) 16).wr (Csr.QDESC4_quantum 0) 1, .rm false, 0, 9, by decide +kernel, by decide +kernel,
    by decide +kernel, mkCommands (by decide +kernel)⟩,
   ⟨two' .stopped, .rm false, 0, 9, mkCommands (by decide +kernel)⟩,
   ⟨two' .stopped, .rm false, 0, 10, 7, .setparam (.rm false) 0 10, by decide +kernel, by decide +kernel, mkCommands (by decide +kernel)⟩⟩

/-- States and operands that meet the hypotheses of each clause of Obligations.QueueEvents. -/
theorem wit_QueueEvents :
  (∃ (s : State) (q : Fin 524288) (j : Nat), (s.queue q.val).moving = some j ∧
    (∀ (e : Entry), e ∈ (s.queue q.val).ents → ∀ (r : Nat), e.onRake = some r → r / 16 = (s.queue q.val).home → j = (s.queue q.val).home)) ∧
  (∃ (s : State) (q : Fin 524288) (j : Nat), (s.queue q.val).moving = some j ∧
    (∀ (e : Entry), e ∈ (s.queue q.val).ents → ∀ (r : Nat), e.onRake = some r → r / 16 = (s.queue q.val).home → j = (s.queue q.val).home) ∧
    (∀ (e : Entry), e ∈ (s.queue q.val).ents → e.st ≠ EntState.cut)) ∧
  (∃ (s : State) (q : Fin 524288), (s.queue q.val).st ≠ QState.free ∧ (s.queue q.val).tbRate ≠ 0) ∧
  (∃ (s : State) (q : Fin 524288) (p : Nat) (e : Entry), (s.queue q.val).ent p = some e ∧ e.done = true ∧ s.entryDurable q.val e = true) ∧
  (∃ (s : State) (r : Fin 256) (e : Entry), (s.rake r.val).busy = true ∧ s.inHand r.val = some e ∧ e.onRake = some r.val ∧ e.limit ≠ 0) :=
  ⟨⟨lit.setQueue 9 (fun _ => { Queue.blank with st := .enabled, moving := some 4 }), 9, 4, by decide +kernel⟩,
   ⟨lit.setQueue 9 (fun _ => { Queue.blank with st := .enabled, moving := some 4 }), 9, 4, by decide +kernel⟩,
   ⟨lit.setQueue 9 (fun _ => { Queue.blank with st := .enabled, tbRate := 4 }), 9, by decide +kernel⟩,
   ⟨lit.setQueue 9 (fun _ => que {ent ctx0 with done := true, durPos := some 0}), 9, 0, {ent ctx0 with done := true, durPos := some 0},
    by decide +kernel⟩,
   ⟨run {ent ctx0 with limit := 5}, 3, {ent ctx0 with limit := 5}, by decide +kernel⟩⟩

/-- States and operands that meet the hypotheses of each clause of Obligations.Admission. -/
theorem wit_Admission :
  (∃ (s : State) (q : Fin 524288), s.Sound ∧ (s.queue q.val).freed = [] ∧ (s.queue q.val).st = QState.enabled ∧ (s.queue q.val).stale = false ∧
    (s.queue q.val).admPos ≠ (s.queue q.val).tail ∧ (s.queue q.val).ent (s.queue q.val).admPos = none ∧ (s.queue q.val).resolving = none ∧
    s.unresolved q.val = none ∧ (∀ (d : Nat), d ∈ s.admitLines q.val → s.conflicts false d = false) ∧
    ofLeBytes (s.bytes ((s.queue q.val).body + 256 * ((s.queue q.val).admPos % (s.queue q.val).depth)) 256) % 2 ≠ lapBit (s.queue q.val).admPos
    (s.queue q.val).depthLog) ∧
  (∃ (s : State) (q : Fin 524288) (st : Nat), s.Sound ∧ (s.queue q.val).freed = [] ∧ (s.queue q.val).st = QState.enabled ∧
    (s.queue q.val).stale = false ∧ (s.queue q.val).admPos ≠ (s.queue q.val).tail ∧ (s.queue q.val).ent (s.queue q.val).admPos = none ∧
    (s.queue q.val).resolving = none ∧ s.unresolved q.val = none ∧ (∀ (d : Nat), d ∈ s.admitLines q.val → s.conflicts false d = false) ∧
    ofLeBytes (s.bytes ((s.queue q.val).body + 256 * ((s.queue q.val).admPos % (s.queue q.val).depth)) 256) % 2 = lapBit (s.queue q.val).admPos
    (s.queue q.val).depthLog ∧
    parseEntry (ofLeBytes (s.bytes ((s.queue q.val).body + 256 * ((s.queue q.val).admPos % (s.queue q.val).depth)) 256)) (s.queue q.val).admPos
    ((s.queue q.val).doorPort (s.queue q.val).admPos) q.val = Sum.inl st ∧
    (s.queue q.val).cqFree ≠ 0) ∧
  (∃ (s : State) (q : Fin 524288) (far : List (Nat × Bool)) (e : Entry) (e' : Entry) (hits : Nat) (v : State), s.Sound ∧ (s.queue q.val).freed = [] ∧
    (s.queue q.val).st = QState.enabled ∧ (s.queue q.val).stale = false ∧ (s.queue q.val).admPos ≠ (s.queue q.val).tail ∧
    (s.queue q.val).ent (s.queue q.val).admPos = none ∧ (s.queue q.val).resolving = none ∧ s.unresolved q.val = none ∧
    (∀ (d : Nat), d ∈ s.admitLines q.val → s.conflicts false d = false) ∧
    ofLeBytes (s.bytes ((s.queue q.val).body + 256 * ((s.queue q.val).admPos % (s.queue q.val).depth)) 256) % 2 = lapBit (s.queue q.val).admPos
    (s.queue q.val).depthLog ∧
    parseEntry (ofLeBytes (s.bytes ((s.queue q.val).body + 256 * ((s.queue q.val).admPos % (s.queue q.val).depth)) 256)) (s.queue q.val).admPos
    ((s.queue q.val).doorPort (s.queue q.val).admPos) q.val = Sum.inr e ∧
    (((s.readMem Acc.sys ((s.queue q.val).body + 256 * ((s.queue q.val).admPos % (s.queue q.val).depth)) 256).snd.flushCode q.val (ofLeBytes (s.bytes
    ((s.queue q.val).body + 256 * ((s.queue q.val).admPos % (s.queue q.val).depth)) 256))).setQueue q.val fun y =>
    {y with resolving := some (s.stamp, 0)}).resolveEntry q.val e far = (Resolved.ok e' hits, v) ∧
    (isRm q.val = true ∨ v.remapped s.stamp (v.runGrans e'.allRuns) = false) ∧
    (s.queue q.val).shUsed + e'.shadowBytes ≤ 4096 * (s.queue q.val).shPages ∧
    (if (!e.waitDur && (v.panDurable (s.queue q.val).pan || e'.allRuns.any fun r => !r.zero && r.addr / 2 ^ 52 != v.nodeId) && !isRm q.val) = true
    then 2 else 1) ≤ (s.queue q.val).cqFree) ∧
  (∃ (s : State) (q : Fin 524288) (e : Entry), s.Sound ∧ (s.queue q.val).freed = [] ∧ (s.queue q.val).st = QState.enabled ∧
    (s.queue q.val).stale = false ∧ (s.queue q.val).admPos ≠ (s.queue q.val).tail ∧ (s.queue q.val).ent (s.queue q.val).admPos = none ∧
    (s.queue q.val).resolving = none ∧ s.unresolved q.val = none ∧ (∀ (d : Nat), d ∈ s.admitLines q.val → s.conflicts false d = false) ∧
    ofLeBytes (s.bytes ((s.queue q.val).body + 256 * ((s.queue q.val).admPos % (s.queue q.val).depth)) 256) % 2 = lapBit (s.queue q.val).admPos
    (s.queue q.val).depthLog ∧
    parseEntry (ofLeBytes (s.bytes ((s.queue q.val).body + 256 * ((s.queue q.val).admPos % (s.queue q.val).depth)) 256)) (s.queue q.val).admPos
    ((s.queue q.val).doorPort (s.queue q.val).admPos) q.val = Sum.inr e ∧
    e.inl = true ∧ (∀ (y : Win), y ∈ e.wins → y.kind = 0) ∧ (s.queue q.val).shUsed + 64 ≤ 4096 * (s.queue q.val).shPages ∧
    (if (!e.waitDur && s.panDurable (s.queue q.val).pan && !isRm q.val) = true then 2 else 1) ≤ (s.queue q.val).cqFree) :=
  ⟨⟨lit.setQueue 9 (fun _ => {que (ent ctx0) with ents := [], tail := 2}), 9, mkSound (by decide +kernel), by decide +kernel⟩,
   ⟨{lit.setQueue 9 (fun _ => {que (ent ctx0) with ents := [], tail := 2}) with mem := [(0x10100, 1), (0x10101, 0xFF)]}, 9, 24,
    mkSound (by decide +kernel), by decide +kernel⟩,
   ⟨written, 9, [], nopEnt, match resolved.1 with | .ok e _ => e | _ => nopEnt, match resolved.1 with | .ok _ h => h | _ => 0, resolved.2,
    mkSound (by decide +kernel), by decide +kernel⟩,
   ⟨written, 9, nopEnt, mkSound (by decide +kernel), by decide +kernel⟩⟩

/-- States and operands that meet the hypotheses of each clause of Obligations.Dispatching. -/
theorem wit_Dispatching :
  (∃ (s : State) (r : Fin 256) (q : Nat) (pos : Nat) (l : List Nat) (e : Entry), (s.rake r.val).busy = false ∧ (s.rake r.val).helps = 0 ∧
    s.stallFailed (r.val / 16) = false ∧ s.bit Csr.STALLPWR_gated (r.val / 16) = false ∧ s.bit Csr.STALLPWR_waking (r.val / 16) = false ∧
    s.rakesHeld (r.val / 16) = false ∧ s.carMasked (16805888 + 1048576 * (r.val / 16)) 0 = false ∧ s.relist = s ∧ s.actList (r.val / 16) = q :: l ∧
    s.eligible q = true ∧ (s.queue q).fresh = false ∧ 0 < (s.queue q).deficit ∧ (s.queue q).next = some pos ∧ (s.queue q).ent pos = some e) :=
  ⟨{lit.setQueue 0x7FF00 (fun _ => {que {ent ctx0 with st := .admitted} with deficit := 1}) with lists := [(0, [0x7FF00])]}, 3, 0x7FF00, 0, [], {ent ctx0 with st := .admitted}, by decide +kernel⟩

/-- States and operands that meet the hypotheses of each clause of Obligations.Translation. -/
theorem wit_Translation :
  (∃ (s : State) (key : Nat) (va : Nat) (x : Walk), List.find? (fun y => y.key == key && y.va == va && y.found.isNone && !y.waits) s.walks = some x) ∧
  (∃ (s : State) (n : Fin 64) (bs : List Batch) (b : Batch), (s.pan n.val).batches = bs ++ [b] ∧ b.close = none) ∧
  (∃ (s : State) (n : Fin 64) (b : Batch) (bs : List Batch) (cause : Nat), (s.pan n.val).batches = b :: bs ∧ b.close = some cause ∧
    wholeEntries (b.recs.length + 1) [] b.recs (4096 - subMod (s.rd (Csr.FQPOS_producer n.val)) (s.rd (Csr.FQPOS_consumer n.val)) 32 - 1) ≠ []) ∧
  (∃ (s : State) (n : Fin 64) (b : Batch) (bs : List Batch) (cause : Nat), (s.pan n.val).batches = b :: bs ∧ b.close = some cause ∧
    wholeEntries (b.recs.length + 1) [] b.recs (4096 - subMod (s.rd (Csr.FQPOS_producer n.val)) (s.rd (Csr.FQPOS_consumer n.val)) 32 - 1) = []) ∧
  (∃ (s : State) (w : Writer) (n : Fin 64) (q : Fin 524288) (i : BitVec 16) (g : BitVec 16) (e : Entry), List.find? (fun e => e.pos % (s.queue
    q.val).depth == i.toNat && e.gen == some g.toNat && !e.done) (s.queue q.val).ents = some e ∧
    (s.queue q.val).pan = n.val ∧ (s.queue q.val).st ≠ QState.free ∧ isRm q.val = false ∧ e.st = EntState.held ∧
    s.Reaches w 8256 (q.val + i.toNat * 2 ^ 19 + g.toNat * 2 ^ 35 + n.val * 2 ^ 51)) ∧
  (∃ (s : State) (w : Writer) (n : Fin 64) (q : Fin 524288) (i : BitVec 16) (g : BitVec 16) (e : Entry), List.find? (fun e => e.pos % (s.queue
    q.val).depth == i.toNat && e.gen == some g.toNat && !e.done) (s.queue q.val).ents = some e ∧
    (s.queue q.val).pan = n.val ∧ (s.queue q.val).st ≠ QState.free ∧ isRm q.val = false ∧ e.st = EntState.held ∧
    s.Reaches w 8256 (q.val + i.toNat * 2 ^ 19 + g.toNat * 2 ^ 35 + n.val * 2 ^ 51 + 2 ^ 57)) ∧
  (∃ (s : State) (w : Writer), s.Reaches w 8192 (setBits (s.readWord 8192) 9 1 1)) :=
  ⟨⟨{paged 0x60004F lit with walks := [⟨9, 2, 0x200000, none, false⟩]}, 9, 0x200000, ⟨9, 2, 0x200000, none, false⟩, by decide +kernel⟩,
   ⟨lit.setPan 2 (fun p => {p with batches := [⟨[frec], none⟩]}), 2, [], ⟨[frec], none⟩, by decide +kernel⟩,
   ⟨lit.setPan 2 (fun p => {p with batches := [⟨[frec], some 1⟩]}), 2, ⟨[frec], some 1⟩, [], 1, by decide +kernel⟩,
   ⟨(lit.setPan 2 (fun p => {p with batches := [⟨[frec], some 1⟩]})).wr (Csr.FQPOS_producer 2) 4096, 2, ⟨[frec], some 1⟩, [], 1, by decide +kernel⟩,
   ⟨lit.setQueue 9 (fun _ => {que heldEnt with admPos := 0}), .rm false, 2, 9, 0, 9, heldEnt, by decide +kernel, by decide +kernel, by decide +kernel,
    by decide +kernel, by decide +kernel, mkReaches (by decide +kernel)⟩,
   ⟨lit.setQueue 9 (fun _ => {que heldEnt with admPos := 0}), .rm false, 2, 9, 0, 9, heldEnt, by decide +kernel, by decide +kernel, by decide +kernel,
    by decide +kernel, by decide +kernel, mkReaches (by decide +kernel)⟩,
   ⟨{lit with runCache := [⟨2, 0, 0, 1, 0, true, true, false, 1⟩]}, .rm false, mkReaches (by decide +kernel)⟩⟩

/-- States and operands that meet the hypotheses of each clause of Obligations.Doorbells. -/
theorem wit_Doorbells :
  (∃ (s : State) (p : Fin 8) (m : Msg) (u : Nat) (p' : Nat), s.Takes p.val (msgAs m 8) u p' ∧ (s.queue (bitsOf m.q2 0 19)).st ≠ QState.free ∧
    s.bit Csr.STALLPWR_gated (s.queue (bitsOf m.q2 0 19)).home = false ∧ s.doorAllowed (s.queue (bitsOf m.q2 0 19)) (msgAs m 8) = true ∧
    bitsOf m.q2 32 32 ≠ (s.queue (bitsOf m.q2 0 19)).tail ∧ isNewer (bitsOf m.q2 32 32) (s.queue (bitsOf m.q2 0 19)).tail 32 = true ∧
    subMod (bitsOf m.q2 32 32) (s.queue (bitsOf m.q2 0 19)).head 32 ≤ (s.queue (bitsOf m.q2 0 19)).depth) ∧
  (∃ (s : State) (p : Fin 8) (m : Msg) (u : Nat) (p' : Nat), s.Takes p.val (msgAs m 8) u p' ∧ (s.queue (bitsOf m.q2 0 19)).st ≠ QState.free ∧
    (¬s.bit Csr.STALLPWR_gated (s.queue (bitsOf m.q2 0 19)).home = false) ∧ s.bit Csr.STALLPWR_waking (s.queue (bitsOf m.q2 0 19)).home = false ∧
    s.stallFailed (s.queue (bitsOf m.q2 0 19)).home = false ∧ (s.queue (bitsOf m.q2 0 19)).home < 16 ∧ s.inDeep = false) ∧
  (∃ (s : State) (p : Fin 8) (m : Msg) (u : Nat) (p' : Nat), s.Takes p.val (msgAs m 9) u p' ∧ (s.queue (bitsOf m.q2 0 19)).st ≠ QState.free ∧
    s.bit Csr.STALLPWR_gated (s.queue (bitsOf m.q2 0 19)).home = false ∧ s.doorAllowed (s.queue (bitsOf m.q2 0 19)) (msgAs m 9) = true ∧
    isNewer (bitsOf m.q2 32 32) (s.queue (bitsOf m.q2 0 19)).cqCons 32 = true ∧
    isNewer (bitsOf m.q2 32 32) (s.queue (bitsOf m.q2 0 19)).cqProd 32 = false) ∧
  (∃ (s : State) (p : Fin 8) (m : Msg) (u : Nat) (p' : Nat), s.Takes p.val (msgAs m 10) u p' ∧ s.maySubmit (msgAs m 10) = true ∧
    isNewer (bitsOf m.q2 0 32) (s.rd (Csr.FQPOS_consumer m.pan)) 32 = true ∧
    isNewer (bitsOf m.q2 0 32) (s.rd (Csr.FQPOS_producer m.pan)) 32 = false) ∧
  (∃ (s : State) (p : Fin 8) (m : Msg) (u : Nat) (p' : Nat) (e : Entry), s.Takes p.val (msgAs m 11) u p' ∧ s.maySubmit (msgAs m 11) = true ∧
    bitsOf m.q2 57 1 = 0 ∧
    List.find? (fun e => e.pos % (s.queue (bitsOf m.q2 0 19)).depth == bitsOf m.q2 19 16 && e.gen == some (bitsOf m.q2 35 16) && !e.done) (s.queue
    (bitsOf m.q2 0 19)).ents = some e ∧
    (s.queue (bitsOf m.q2 0 19)).pan = bitsOf m.q2 51 6 ∧ (s.queue (bitsOf m.q2 0 19)).st ≠ QState.free ∧ isRm (bitsOf m.q2 0 19) = false ∧
    e.st = EntState.held) :=
  ⟨⟨served (linked lit), 3, {req 8 with q2 := 9 + 2 * 2 ^ 32}, 0, 3, mkTakes (by decide +kernel), by decide +kernel⟩,
   ⟨(served (linked lit)).setFld Csr.STALLPWR_gated 0, 3, {req 8 with q2 := 9 + 2 * 2 ^ 32}, 0, 3, mkTakes (by decide +kernel), by decide +kernel⟩,
   ⟨served (linked lit), 3, {req 9 with q2 := 9 + 2 * 2 ^ 32}, 0, 3, mkTakes (by decide +kernel), by decide +kernel⟩,
   ⟨(served (linked lit)).wr (Csr.FQPOS_producer 2) 7, 3, {req 10 with q2 := 7}, 0, 3, mkTakes (by decide +kernel), by decide +kernel⟩,
   ⟨(served (linked lit)).setQueue 9 (fun _ => {que heldEnt with admPos := 0}), 3, {req 11 with q2 := 9 + 9 * 2 ^ 35 + 2 * 2 ^ 51}, 0, 3, heldEnt,
    mkTakes (by decide +kernel), by decide +kernel⟩⟩

/-- States and operands that meet the hypotheses of each clause of Obligations.GranulesAndPans. -/
theorem wit_GranulesAndPans :
  (∃ (s : State) (g : Nat), s.quiet = true ∧ s.beingZeroed g = true ∧ (tierOf (g * granSize) = 3 → g ∈ s.fab.zeroing ∧ s.moveWaits 64 g = false)) ∧
  (∃ (s : State) (g : Nat), s.quiet = true ∧ s.beingZeroed g = true ∧ tierOf (g * granSize) = 3 ∧ (¬g ∈ s.fab.zeroing) ∧
    s.lentPath ((g - tierBase 3) / 4194304) = 0) ∧
  (∃ (s : State) (n : Fin 64), s.quiet = true ∧ s.rd (Csr.PANSTAT_state n.val) = 2 ∧ s.panQuiet n.val = true ∧
    (∀ (g : Nat), g ∈ s.pansGrans n.val → s.heldIn (g * granSize) granSize = []) ∧
    (∀ (x : Txn), x ∈ s.coh.txns → ¬x.line * 128 / granSize ∈ s.pansGrans n.val)) ∧
  (∃ (s : State) (k : Fin 239), s.bit (Csr.STKSEGSTAT_seg (k.val / 64)) (k.val % 64) = true) :=
  ⟨⟨{lit with grans := [(7, {Granule.fresh with st := .zeroing})], zeroQ := [7], mem := [(0xE00000, 5), (0x1000000, 6)]}, 7, by decide +kernel⟩,
   ⟨{lending 2 with grans := [(tierBase 3 + 2 * 4194304, {Granule.fresh with st := .zeroing})], zeroQ := [tierBase 3 + 2 * 4194304]}, tierBase 3 + 2 * 4194304, by decide +kernel⟩,
   ⟨{lit.wr (Csr.PANSTAT_state 2) 2 with grans := [(7, {Granule.fresh with st := .owned, owner := 2})]}, 2, by decide +kernel⟩,
   ⟨lit.wr (Csr.STKSEGSTAT_seg 3) (2 ^ 46), 238, by decide +kernel⟩⟩

/-- States and operands that meet the hypotheses of each clause of Obligations.LentExtents. -/
theorem wit_LentExtents :
  (∃ (s : State) (p : Fin 8) (m : Msg) (u : Nat) (p' : Nat) (k : Fin 64) (i : Nat), s.Takes p.val (msgAs m 12) u p' ∧ i < 1024 ∧
    s.on (Csr.MEMBER_valid i) = true ∧ s.on (Csr.MEMBER_lend i) = true ∧ s.rd (Csr.MEMBER_src_node i) = m.srcNode ∧
    s.rd (Csr.MEMBER_src_port i) = m.srcPort ∧ bitsOf m.q2 0 48 % granSize = 0 ∧ bitsOf m.q3 0 23 ≤ 4194304 ∧ s.rd (Csr.LENTSTAT_state k.val) = 0 ∧
    (∀ (j : Nat), j < k.val → s.rd (Csr.LENTSTAT_state j) ≠ 0)) ∧
  (∃ (s : State) (k : Fin 64), s.rd (Csr.LENTSTAT_state k.val) = 1) ∧
  (∃ (s : State) (p : Fin 8) (m : Msg) (u : Nat) (p' : Nat) (k : Fin 64), s.Takes p.val (msgAs m 13) u p' ∧ s.rd (Csr.LENTSTAT_state k.val) = 2 ∧
    s.rd (Csr.LENTSRC_lender_base k.val) = bitsOf m.q2 0 48 ∧ s.rd (Csr.LENTSRC_lender_node k.val) = m.srcNode ∧
    s.rd (Csr.LENTSRC_lender_port k.val) = m.srcPort ∧
    (∀ (j : Nat), j < k.val → s.rd (Csr.LENTSTAT_state j) ≠ 2 ∨ s.rd (Csr.LENTSRC_lender_base j) ≠ bitsOf m.q2 0 48)) ∧
  (∃ (s : State) (k : Fin 64), s.rd (Csr.LENTSTAT_state k.val) = 3 ∧ s.rd (Csr.LENTSTAT_owned_granules k.val) = 0) ∧
  (∃ (s : State) (k : Fin 64), s.quiet = true ∧ (s.rd (Csr.LENTSTAT_state k.val) = 2 ∨ s.rd (Csr.LENTSTAT_state k.val) = 3)) ∧
  (∃ (s : State) (k : Fin 64), s.rd (Csr.LENTSTAT_state k.val) = 4 ∧ (∀ (x : Txn), x ∈ s.coh.txns → slotHas k.val (x.line * 128) = false) ∧
    (∀ (w : Wait), w ∈ s.waits → ∀ (d : Nat), d ∈ w.lines → slotHas k.val (d * 128) = false) ∧
    (∀ (q : OutReq), q ∈ s.fab.reqs → s.toLender k.val q = true → q.hold = true)) :=
  ⟨⟨lending 1, 3, {req 12 with q2 := 0x400000, q3 := 4194304}, 0, 3, 3, 0, mkTakes (by decide +kernel), by decide +kernel⟩,
   ⟨lending 1, 2, by decide +kernel⟩,
   ⟨lending 2, 3, {req 13 with q2 := 0x200000}, 0, 3, 2, mkTakes (by decide +kernel), by decide +kernel⟩,
   ⟨lending 3, 2, by decide +kernel⟩,
   ⟨lending 2, 2, by decide +kernel⟩,
   ⟨lending 4, 2, by decide +kernel⟩⟩

/-- States and operands that meet the hypotheses of each clause of Obligations.Carousels. -/
theorem wit_Carousels :
  (∃ (s : State) (c : Car) (reqs : BitVec 16) (barred : List Nat) (w : Nat), s.on (Csr.CARSTATE_preempted (carBase c)) = false ∧
    s.carPaused c = false ∧ (w < 16 ∧ bitOf reqs.toNat w = true ∧ s.carMasked (carBase c) w = false ∧ w ≠ s.rd (Csr.CARINFO_pre_idx (carBase c)) ∧
    w < s.rd (Csr.CARINFO_nreq (carBase c)) ∧ s.hasLegal c barred w = true) ∧
    (s.on (Csr.CARSTATE_parked (carBase c)) = false ∨ w ≠ s.rd (Csr.CARSTATE_owner (carBase c)) ∨ ∃ r, (r < 16 ∧ bitOf reqs.toNat r = true ∧
    s.carMasked (carBase c) r = false ∧ r ≠ s.rd (Csr.CARINFO_pre_idx (carBase c)) ∧ r < s.rd (Csr.CARINFO_nreq (carBase c)) ∧
    s.hasLegal c barred r = true) ∧ r ≠ s.rd (Csr.CARSTATE_owner (carBase c))) ∧ w ∈ s.rankOrder (carBase c) ∧ (∀ (r : Nat), r < 16 ∧
    bitOf reqs.toNat r = true ∧ s.carMasked (carBase c) r = false ∧ r ≠ s.rd (Csr.CARINFO_pre_idx (carBase c)) ∧
    r < s.rd (Csr.CARINFO_nreq (carBase c)) ∧
    s.hasLegal c barred r = true → s.carClassOf c r < s.carClassOf c w ∨ s.carClassOf c r = s.carClassOf c w ∧
    List.idxOf w (s.rankOrder (carBase c)) ≤ List.idxOf r (s.rankOrder (carBase c)))) ∧
  (∃ (s : State) (c : Car) (reqs : BitVec 16) (barred : List Nat), s.on (Csr.CARSTATE_preempted (carBase c)) = false ∧ s.carPaused c = false ∧
    (∀ (r : Nat), ¬(r < 16 ∧ bitOf reqs.toNat r = true ∧ s.carMasked (carBase c) r = false ∧ r ≠ s.rd (Csr.CARINFO_pre_idx (carBase c)) ∧
    r < s.rd (Csr.CARINFO_nreq (carBase c)) ∧ s.hasLegal c barred r = true))) ∧
  (∃ (s : State) (c : Car), s.on (Csr.CARSTATE_preempted (carBase c)) = false ∧
    s.carMasked (carBase c) (s.rd (Csr.CARINFO_pre_idx (carBase c))) = false ∧
    ((match c with | Car.rake k => True | Car.midway plane stop => True | x => False) → s.debugLevel ≠ 0)) :=
  ⟨⟨lit, .rake 3, 6, [], 1, by decide +kernel, by decide +kernel, by decide +kernel, .inl (by decide +kernel), by decide +kernel,
    mkBelow (by decide +kernel)⟩,
   ⟨lit, .rake 3, 0, [], by decide +kernel, by decide +kernel, mkNone (by decide +kernel)⟩,
   ⟨{lit with debugLevel := 2}, .rake 3, by decide +kernel⟩⟩

/-- States and operands that meet the hypotheses of each clause of Obligations.DramChannels. -/
theorem wit_DramChannels :
  (∃ (s : State) (w : Writer) (c : Fin 16), s.Reaches w (41943056 + 131072 * c.val) 1 ∧ s.rd (Csr.DDRSTAT_state c.val) = 0) ∧
  (∃ (s : State) (c : Fin 16), s.on (Csr.DDRSTAT_train_fail c.val) = true ∧ (s.chan c.val).trainFails = 1 ∧ s.rd (Csr.DDRSTAT_state c.val) = 0) ∧
  (∃ (s : State) (c : Fin 16), s.rd (Csr.DDRSTAT_state c.val) = 1 ∧ s.cfgOk c.val = true) ∧
  (∃ (s : State) (c : Fin 16) (ok : Bool), s.rd (Csr.DDRSTAT_state c.val) = 1 ∧ (ok = false ∨ s.cfgOk c.val = false)) ∧
  (∃ (s : State) (w : Writer) (c : Fin 16) (k : Fin 8), s.Reaches w (41943056 + 131072 * c.val) (2 + 16 * k.val) ∧
    s.rd (Csr.DDRSTAT_state c.val) = 2 ∧ s.hasSpare c.val = true ∧ s.on (Csr.DDRSTAT_spare_used c.val) = false ∧
    k.val < s.rd (Csr.DDRGEO_data_ranks c.val)) ∧
  (∃ (s : State) (c : Fin 16), s.rd (Csr.DDRSTAT_state c.val) = 3 ∧
    (¬s.lineAt c.val (s.rd (Csr.DDRSTAT_mig_slot c.val) * s.rankLines c.val + s.rd (Csr.DDRSPARE_mig_ptr c.val)) ∈ (s.chan c.val).locked) ∧
    s.dram.faults = []) ∧
  (∃ (s : State) (c : Fin 16) (ok : Bool), s.on (Csr.DDRSTAT_paused c.val) = true ∧ (ok = true ∨ (s.chan c.val).periodic = true)) ∧
  (∃ (s : State) (c : Fin 16), s.on (Csr.DDRSTAT_paused c.val) = true ∧ (s.chan c.val).periodic = false) ∧
  (∃ (s : State) (o : Car) (y : ReadReq), (∀ (k : Fin 16), o ≠ Car.rake k) ∧ (∀ (b : Fin 2) (k : Fin 36), o ≠ Car.midway b k) ∧
    List.find? (fun z => !z.overdue && decide (toSigned 64 (subMod z.deadline s.stamp 64) ≤ 0)) (s.chan (carChan o)).rq = some y ∧
    s.bit (match o with | Car.ddr k => ddrCtr k.val 5 | x => stkCtr 7).ovf (match o with | Car.ddr k => ddrCtr k.val 5 | x => stkCtr 7).bit = false ∧
    s.rd (match o with | Car.ddr k => ddrCtr k.val 5 | x => stkCtr 7).cnt + 1 < cntMax) ∧
  (∃ (s : State) (c : Fin 16), s.on (Csr.DDRSTAT_batching c.val) = false ∧ (s.chan c.val).rq = [] ∧
    s.rd (Csr.DDRWM_wq_idle c.val) ≤ (s.chan c.val).wq.length ∧ (s.chan c.val).wq ≠ []) ∧
  (∃ (s : State) (g : Fin 64), (s.chan (16 + g.val)).batch = false ∧ ((s.chan (stkChan g.val)).rq.all fun y => linePc y.line != g.val) = true ∧
    s.rd Csr.STKWM_wq_idle ≤ (List.filter (fun d => linePc d == g.val) (s.chan (stkChan g.val)).wq).length ∧
    List.filter (fun d => linePc d == g.val) (s.chan (stkChan g.val)).wq ≠ []) ∧
  (∃ (s : State) (o : Car) (rank : Nat), (∀ (k : Fin 16), o ≠ Car.rake k) ∧ (∀ (b : Fin 2) (k : Fin 36), o ≠ Car.midway b k) ∧ s.refreshEvery o ≠ 0 ∧
    isNewer (s.rankState o rank).due s.stamp 64 = true) ∧
  (∃ (s : State) (o : Car) (rank : Nat), (∀ (k : Fin 16), o ≠ Car.rake k) ∧ (∀ (b : Fin 2) (k : Fin 36), o ≠ Car.midway b k) ∧
    (s.refreshEvery o = 0 ∨ isNewer (s.rankState o rank).due s.stamp 64 = false)) ∧
  (∃ (s : State) (o : Car) (rank : Nat), (∀ (k : Fin 16), o ≠ Car.rake k) ∧ (∀ (b : Fin 2) (k : Fin 36), o ≠ Car.midway b k) ∧
    (s.refreshEvery o = 0 ∨ isNewer (s.rankState o rank).due s.stamp 64 = false) ∧
    (s.rankState o rank).postponed < match o with | Car.ddr k => s.rd (Csr.DDRCFG_ref_postpone k.val) | x => s.rd Csr.STKCFG_ref_postpone) ∧
  (∃ (s : State) (o : Car) (rank : Nat), (∀ (k : Fin 16), o ≠ Car.rake k) ∧ (∀ (b : Fin 2) (k : Fin 36), o ≠ Car.midway b k) ∧
    (s.refreshEvery o = 0 ∨ isNewer (s.rankState o rank).due s.stamp 64 = false) ∧
    (match o with | Car.ddr k => s.rd (Csr.DDRCFG_ref_postpone k.val) | x => s.rd Csr.STKCFG_ref_postpone) ≤ (s.rankState o rank).postponed ∧
    s.carMasked (carBase o) (s.rd (Csr.CARINFO_pre_idx (carBase o))) = false) ∧
  (∃ (s : State) (c : Fin 16), s.on (Csr.DDRTRN_en c.val) = true ∧ (s.rd (Csr.DDRSTAT_state c.val) = 2 ∨ s.rd (Csr.DDRSTAT_state c.val) = 3) ∧
    (s.chan c.val).low ≠ 2 ∧ s.board.selfRefresh = false ∧ s.on (Csr.DDRSTAT_paused c.val) = false ∧
    s.on (Csr.CARSTATE_preempted (carBase (Car.ddr c))) = false ∧ c.val * 1250000 ≤ s.stamp % 2 ^ 64 % 20000000 ∧
    s.stamp % 2 ^ 64 % 20000000 < (c.val + 1) * 1250000 ∧ (s.chan c.val).period ≠ s.stamp % 2 ^ 64 / 20000000 + 1) ∧
  (∃ (s : State) (c : Fin 16), s.on (Csr.DDRTRN_en c.val) = true ∧ (s.rd (Csr.DDRSTAT_state c.val) = 2 ∨ s.rd (Csr.DDRSTAT_state c.val) = 3) ∧
    (s.chan c.val).low ≠ 2 ∧ s.board.selfRefresh = false ∧ s.on (Csr.DDRSTAT_paused c.val) = false ∧
    s.on (Csr.CARSTATE_preempted (carBase (Car.ddr c))) = false ∧ (s.chan c.val).period = s.stamp % 2 ^ 64 / 20000000 + 1) ∧
  (∃ (s : State) (c : Fin 16), (s.chan c.val).wq = [] ∧ (s.chan c.val).rq = [] ∧ (s.chan c.val).low = 0) :=
  ⟨⟨lit, .rm false, 15, mkReaches (by decide +kernel), by decide +kernel⟩,
   ⟨(lit.wr (Csr.DDRSTAT_train_fail 15) 1).setChan 15 (fun c => {c with trainFails := 1}), 15, by decide +kernel⟩,
   ⟨ddr 1 lit, 15, by decide +kernel⟩,
   ⟨ddr 1 lit, 15, false, by decide +kernel⟩,
   ⟨(ddr 2 lit).wr (Csr.DDRCFG_spare_en 15) 1, .rm false, 15, 0, mkReaches (by decide +kernel), by decide +kernel⟩,
   ⟨ddr 3 lit, 15, by decide +kernel⟩,
   ⟨(ddr 2 lit).wr (Csr.DDRSTAT_paused 15) 1, 15, true, by decide +kernel⟩,
   ⟨(ddr 2 lit).wr (Csr.DDRSTAT_paused 15) 1, 15, by decide +kernel⟩,
   ⟨lit.setChan 15 (fun c => {c with rq := [⟨0, 7, 0, false⟩]}), .ddr 15, ⟨0, 7, 0, false⟩, no_rake, no_midway, by decide +kernel⟩,
   ⟨(lit.setChan 15 (fun c => {c with wq := [7, 8]})).wr (Csr.DDRWM_wq_idle 15) 2, 15, by decide +kernel⟩,
   ⟨(lit.setChan 78 (fun c => {c with wq := [0x2000000000 + 62, 0x2000000000 + 127]})).wr Csr.STKWM_wq_idle 1, 62, by decide +kernel⟩,
   ⟨(lit.setChan 15 (fun c => {c with trefi := 3900})).setRank (.ddr 15) 0 (fun x => {x with due := 5}), .ddr 15, 0, no_rake, no_midway,
    by decide +kernel⟩,
   ⟨lit, .ddr 15, 0, no_rake, no_midway, by decide +kernel⟩,
   ⟨lit.wr (Csr.DDRCFG_ref_postpone 15) 1, .ddr 15, 0, no_rake, no_midway, by decide +kernel⟩,
   ⟨lit.wr (Csr.DDRCFG_ref_postpone 15) 0, .ddr 15, 0, no_rake, no_midway, by decide +kernel⟩,
   ⟨{(ddr 3 lit).wr (Csr.DDRTRN_en 15) 1 with stamp := 19999999}, 15, by decide +kernel⟩,
   ⟨((ddr 3 lit).wr (Csr.DDRTRN_en 15) 1).setChan 15 (fun c => {c with period := 1}), 15, by decide +kernel⟩,
   ⟨ddr 2 lit, 15, by decide +kernel⟩⟩

/-- States and operands that meet the hypotheses of each clause of Obligations.StackedDram. -/
theorem wit_StackedDram :
  (∃ (s : State) (n : Fin 64), n.val ∈ s.dram.sweeps) ∧
  (∃ (s : State) (w : Writer), s.Reaches w 44040464 1 ∧ s.on Csr.STKTRNSTAT_busy = false ∧
    s.bit (Csr.STKCHSTAT_hold (s.rd Csr.STKTRNSEL_pc / 2)) (s.rd Csr.STKTRNSEL_pc % 2) = true) ∧
  (∃ (s : State) (w : Writer), s.Reaches w 44040464 1 ∧
    (s.on Csr.STKTRNSTAT_busy = true ∨ s.bit (Csr.STKCHSTAT_hold (s.rd Csr.STKTRNSEL_pc / 2)) (s.rd Csr.STKTRNSEL_pc % 2) = false)) ∧
  (∃ (s : State), s.on Csr.STKTRNSTAT_busy = true) ∧
  (∃ (s : State) (w : Writer), s.Reaches w 44040464 2) ∧
  (∃ (s : State) (g : Fin 64), s.bit (Csr.STKCHSTAT_hold (g.val / 2)) (g.val % 2) = true ∧ (s.chan (16 + g.val)).holdLong = false) :=
  ⟨⟨{lit.wr Csr.STKSTAT_sweeping 1 with dram := {Dram.empty with sweeps := [63], cache := [(5, [⟨1, 9, 63, true⟩, ⟨2, 10, 1, false⟩])]}}, 63,
    by decide +kernel⟩,
   ⟨(lit.wr (Csr.STKCHSTAT_hold 0) 1).wr Csr.STKTRNSEL_mode 1, .rm false, mkReaches (by decide +kernel), by decide +kernel, by decide +kernel⟩,
   ⟨lit, .rm false, mkReaches (by decide +kernel), by decide +kernel⟩,
   ⟨lit.wr Csr.STKTRNSTAT_busy 1, by decide +kernel⟩,
   ⟨lit.wr (Csr.STKTRNERR_errs 4) 7, .rm false, mkReaches (by decide +kernel)⟩,
   ⟨lit.wr (Csr.STKCHSTAT_hold 31) 2, 63, by decide +kernel⟩⟩

/-- States and operands that meet the hypotheses of each clause of Obligations.ScrubAndRetire. -/
theorem wit_ScrubAndRetire :
  (∃ (s : State) (st : Fin 16), s.on (Csr.ECCCTL_patrol_en st.val) = true ∧ s.rd (Csr.DDRSTAT_state st.val) = 2 ∧ (s.chan st.val).low ≠ 2 ∧
    (¬s.lineAt st.val (s.rd (Csr.PATROLPOS_line st.val)) ∈ (s.chan st.val).locked) ∧ s.board.selfRefresh = false ∧ s.dram.faults = []) ∧
  (∃ (s : State), s.on Csr.ERRCTL_sram_patrol_en = true ∧ s.dram.upsets = [] ∧ (∀ (b : BrineLine), b ∈ s.dram.brine → b.pois = 0)) ∧
  (∃ (s : State) (i : Nat), s.on Csr.ERRCTL_sram_patrol_en = true ∧ s.dram.upsets = [] ∧ s.sramBrine s.dram.sramPos = none ∧ i < 32 ∧
    s.bit (sramCtr 1).ovf (sramCtr 1).bit = false ∧ s.rd (sramCtr 1).cnt + 1 < cntMax) ∧
  (∃ (s : State) (w : Writer), s.on Csr.RETIRESTAT_busy = false ∧ s.Reaches w 12352 1 ∧
    s.rd Csr.RETIREADDR_granule < s.rd Csr.DDR5TOP_granules - ddrCarve ∧ s.rd Csr.RETIREADDR_granule * granSize < stkBase ∧
    (s.gran (s.rd Csr.RETIREADDR_granule)).st = GranState.owned) ∧
  (∃ (s : State) (w : Writer), s.on Csr.RETIRESTAT_busy = false ∧ s.Reaches w 12352 1 ∧
    s.rd Csr.RETIREADDR_granule < s.rd Csr.DDR5TOP_granules - ddrCarve ∧ s.rd Csr.RETIREADDR_granule * granSize < stkBase ∧
    ((s.gran (s.rd Csr.RETIREADDR_granule)).st = GranState.free ∨ (s.gran (s.rd Csr.RETIREADDR_granule)).st = GranState.zeroing)) ∧
  (∃ (s : State) (w : Writer) (c : Fin 16) (k : Fin 8), s.on Csr.RETIRESTAT_busy = false ∧ s.Reaches w 12352 (2 + c.val * 2 ^ 5 + k.val * 2 ^ 9) ∧
    k.val < s.rd (Csr.DDRGEO_data_ranks c.val)) ∧
  (∃ (s : State) (w : Writer) (c : Fin 16) (k : Fin 8) (sub : Fin 2) (bg : Fin 8) (bank : Fin 4) (row : BitVec 18), s.on Csr.RETIRESTAT_busy = false ∧
    s.Reaches w 12352 (3 + c.val * 2 ^ 5 + k.val * 2 ^ 9 + sub.val * 2 ^ 12 + bg.val * 2 ^ 13 + bank.val * 2 ^ 16 + row.toNat * 2 ^ 18) ∧
    s.rd (Csr.DDRSTAT_state c.val) = 2 ∧ k.val < s.rd (Csr.DDRGEO_data_ranks c.val) ∧ row.toNat < s.rd (Csr.DDRGEO_rows c.val)) ∧
  (∃ (s : State) (c : Nat) (k : Nat) (sub : Nat) (bg : Nat) (bank : Nat) (row : Nat) (devs : Nat), s.quiet = true ∧
    s.dram.repair = some [c, k, sub, bg, bank, row, devs]) :=
  ⟨⟨(ddr 2 lit).wr (Csr.ECCCTL_patrol_en 15) 1, 15, by decide +kernel⟩,
   ⟨lit.wr Csr.ERRCTL_sram_patrol_en 1, by decide +kernel⟩,
   ⟨lit.wr Csr.ERRCTL_sram_patrol_en 1, 31, by decide +kernel⟩,
   ⟨{(ddr 2 lit).wr Csr.RETIREADDR_granule 14335 with grans := [(14335, {Granule.fresh with st := .owned, owner := 2})]}, .rm false, by decide +kernel,
    mkReaches (by decide +kernel), by decide +kernel⟩,
   ⟨(ddr 2 lit).wr Csr.RETIREADDR_granule 14335, .rm false, by decide +kernel, mkReaches (by decide +kernel), by decide +kernel⟩,
   ⟨(ddr 2 lit).wr Csr.DDR5TOP_granules 2049, .rm false, 15, 0, by decide +kernel, mkReaches (by decide +kernel), by decide +kernel⟩,
   ⟨ddr 2 lit, .rm false, 15, 0, 1, 7, 3, 65535, by decide +kernel, mkReaches (by decide +kernel), by decide +kernel⟩,
   ⟨{lit.wr Csr.RETIRESTAT_busy 1 with dram := {Dram.empty with repair := some [15, 0, 1, 7, 3, 65535, 2]}}, 15, 0, 1, 7, 3, 65535, 2, by decide +kernel⟩⟩

/-- States and operands that meet the hypotheses of each clause of Obligations.HeapDrives. -/
theorem wit_HeapDrives :
  (∃ (s : State) (ds : List Drive) (c : Nat), s.heap.label = [] ∧ (List.filterMap (s.foundAt ds) (List.range 8) = [] → c = 0) ∧
    (∀ (d : Found), d ∈ List.filterMap (s.foundAt ds) (List.range 8) → c ≤ d.cap) ∧
    (List.filterMap (s.foundAt ds) (List.range 8) ≠ [] → ∃ d, d ∈ List.filterMap (s.foundAt ds) (List.range 8) ∧ d.cap = c)) ∧
  (∃ (s : State) (w : Writer) (c : Nat), s.Reaches w 46137360 1 ∧ (∀ (n : Nat), n < 64 → s.panDurable n = true → s.panFree n = true) ∧
    (List.map (fun x => x.port) s.heap.found).Nodup ∧ (∀ (d : Found), d ∈ s.heap.found → d.port < 8) ∧
    (∀ (p : Nat), p < 8 → s.rd (Csr.HEAPPORT_state p) = 3 → ∃ d, d ∈ s.heap.found ∧ d.port = p) ∧ (s.heap.found = [] → c = 0) ∧
    (∀ (d : Found), d ∈ s.heap.found → c ≤ d.cap) ∧ (s.heap.found ≠ [] → ∃ d, d ∈ s.heap.found ∧ d.cap = c)) ∧
  (∃ (s : State) (p : Fin 8) (i : Instr), i ∈ [Instr.heapCmdTimeout p, Instr.heapCtrlNotReady p, Instr.heapLinkDown p] ∧
    (s.rd (Csr.HEAPPORT_state p.val) = 1 ∨ s.rd (Csr.HEAPPORT_state p.val) = 2)) ∧
  (∃ (s : State) (n : Fin 64) (x : Nat × Nat × Nat) (v : State), s.on (Csr.PANHEAP_auto_demote n.val) = true ∧ s.panActive n.val = true ∧
    s.rd (Csr.PANHEAP_dem_high n.val) < s.rd (Csr.PANUSE_used n.val 1) ∧ s.rd (Csr.PANHEAP_dem_low n.val) < s.rd (Csr.PANUSE_used n.val 1) ∧
    s.shoots = [] ∧ List.filter (fun y => y.snd.fst != 0 && !bitOf y.snd.snd 4) (s.leavesWhere n.val fun a => tierOf a == 1) = [x] ∧
    (∀ (g : Nat), g ∈ pageGrans x.snd.fst (pteAddr x.snd.snd) → SMap.get false g s.dram.refs = false) ∧
    ({s with dram := {s.dram with hand := SMap.put 0 n.val (x.fst + 1) s.dram.hand}} : State).startMoves none n.val 2
    [{ va := x.fst, k := x.snd.fst, addr := pteAddr x.snd.snd }] [] = some v) :=
  ⟨⟨lit.wr Csr.HEAPCFG_en_mask 255, [⟨7, 6, true, [⟨1, 1024, true, true, true⟩], 128, 16, 256, 99⟩], 1024, by decide +kernel⟩,
   ⟨{lit with heap := {Heap.blank with found := [⟨7, 1, 0, 1024, 99⟩]}}, .rm false, 1024, mkReaches (by decide +kernel), by decide +kernel⟩,
   ⟨lit.wr (Csr.HEAPPORT_state 7) 2, 7, .heapLinkDown 7, by decide +kernel⟩,
   (by
    obtain ⟨v, h⟩ := Option.isSome_iff_exists.1 (show ({ falling with dram := { falling.dram with hand := SMap.put 0 (2 : Fin 64).val (0x200000 + 1) falling.dram.hand } }.startMoves none (2 : Fin 64).val 2 [⟨0x200000, 1, pteAddr 0x60004F⟩] []).isSome = true by decide +kernel)
    exact ⟨falling, 2, (0x200000, 1, 0x60004F), v, by decide +kernel, by decide +kernel, by decide +kernel, by decide +kernel, by decide +kernel,
      by decide +kernel, by decide +kernel, h⟩)⟩

/-- States and operands that meet the hypotheses of each clause of Obligations.DurabilityAndPowerFail. -/
theorem wit_DurabilityAndPowerFail :
  (∃ (s : State) (n : Fin 64), (s.pan n.val).openLines ≠ []) ∧
  (∃ (s : State) (n : Fin 64) (b : LogBlock), List.find? (fun b => !b.written) (s.pan n.val).ring = some b) ∧
  (∃ (s : State) (n : Fin 64), s.panDurable n.val = true ∧ s.panActive n.val = true ∧ (s.pan n.val).round = none) ∧
  (∃ (s : State) (n : Fin 64) (sq : Nat) (bs : List (Nat × Nat)), (s.pan n.val).round = some (sq, bs)) ∧
  (∃ (s : State), s.board.flush = 0 ∧ s.board.main = true) ∧
  (∃ (s : State), s.board.flush = 1 ∧ s.heap.cat = []) ∧
  (∃ (s : State), s.board.flush = 1 ∧ s.heap.lastFlush ≠ 2) ∧
  (∃ (s : State), s.heap.cat = []) ∧
  (∃ (s : State) (c : CatPan), s.heap.cat = [c] ∧ c.pan < 64 ∧ s.recoverable c = true) ∧
  (∃ (s : State) (c : CatPan), s.heap.cat = [c] ∧ c.pan < 64 ∧ s.recoverable c = false) :=
  ⟨⟨lit.setPan 63 (fun p => {p with openLines := [⟨0, 0, [], 1⟩]}), 63, by decide +kernel⟩,
   ⟨lit.setPan 63 (fun p => {p with ring := [⟨1, [⟨0, 0, [], 1⟩], false⟩], undur := [⟨1, 0, .other⟩]}), 63, ⟨1, [⟨0, 0, [], 1⟩], false⟩,
    by decide +kernel⟩,
   ⟨((lit.wr (Csr.PANCTL_durable 63) 1).wr (Csr.PANSTAT_state 63) 1).setPan 63 (fun p => {p with dirty := [(5, true)]}), 63, by decide +kernel⟩,
   ⟨lit.setPan 63 (fun p => {p with round := some (2, [(5, 1)]), dirty := [], undur := [⟨1, 20480, .other⟩]}), 63, 2, [(5, 1)], by decide +kernel⟩,
   ⟨run (ent ctx0), by decide +kernel⟩,
   ⟨{lit with board := {lit.board with flush := 1}}, by decide +kernel⟩,
   ⟨{lit with board := {lit.board with flush := 1}}, by decide +kernel⟩,
   ⟨lit.wr Csr.DURSTAT_recovering 1, by decide +kernel⟩,
   ⟨{lit with heap := {Heap.blank with cat := [⟨63, [], [], 0, 0⟩]}}, ⟨63, [], [], 0, 0⟩, by decide +kernel⟩,
   ⟨{lit.wr Csr.SECSTAT_state 3 with heap := {Heap.blank with cat := [⟨63, [], [], 5, 0⟩]}}, ⟨63, [], [], 5, 0⟩, by decide +kernel⟩⟩

/-- States and operands that meet the hypotheses of each clause of Obligations.Metering. -/
theorem wit_Metering :
  (∃ (s : State), SMap.wf Bucket.full s.sluice = true ∧ (∀ (kv : Nat × Bucket), kv ∈ s.sluice → kv.fst < 512)) ∧
  (∃ (s : State) (ports : BitVec 8) (n : Fin 64) (all : Bool) (us : BitVec 32) (rate : BitVec 32) (i : Instr) (c : SlCmd) (x : Nat × List Nat), (i, c)
    ∈ [(Instr.sluiceStop ports n all us, { act := 0, ports := ports.toNat, pan := n.val, all := all, rate := 0, us := us.toNat }),
    (Instr.sluiceThrottle ports n all rate us, { act := 1, ports := ports.toNat, pan := n.val, all := all, rate := rate.toNat, us := us.toNat }),
    (Instr.sluiceRelease ports n all, { act := 2, ports := ports.toNat, pan := n.val, all := all, rate := 0, us := 0 })] ∧
    List.find? (fun y => y.fst == 1) s.dropBad.mgmt.down = some x ∧ slParse x.snd = some c ∧ s.mgmt.waiting = none) ∧
  (∃ (s : State) (ports : BitVec 8) (n : Fin 64) (all : Bool) (us : BitVec 32) (rate : BitVec 32) (i : Instr) (c : SlCmd), (i, c) ∈ [(Instr.sluiceStop
    ports n all us, { act := 0, ports := ports.toNat, pan := n.val, all := all, rate := 0, us := us.toNat }), (Instr.sluiceThrottle ports n all rate
    us, { act := 1, ports := ports.toNat, pan := n.val, all := all, rate := rate.toNat, us := us.toNat }), (Instr.sluiceRelease ports n all,
    { act := 2, ports := ports.toNat, pan := n.val, all := all, rate := 0, us := 0 })] ∧
    (∀ (x : Nat × List Nat), List.find? (fun y => y.fst == 1) s.dropBad.mgmt.down = some x → slParse x.snd ≠ some c)) ∧
  (∃ (s : State) (p : Fin 8) (n : Fin 64), s.rd (Csr.SLSTAT_cmd p.val n.val) ≠ 0 ∧ s.rd (Csr.SLSTAT_cmd_left_us p.val n.val) ≠ 4294967295) ∧
  (∃ (s : State) (p : Fin 8) (b : List Nat) (c : SlCmd), s.portHears p.val = true ∧ s.quiet = true ∧ s.on (Csr.PORTCTL_sluice_cmd_en p.val) = true ∧
    slParse (List.take 23 (List.drop 1 b)) = some c) :=
  ⟨⟨{lit with sluice := [(64 * 7 + 63, ⟨500, 600, 7, 3⟩)]}, by decide +kernel⟩,
   ⟨{lit with mgmt := {lit.mgmt with down := [(1, [1, 8, 2] ++ leBytes 4 7 ++ leBytes 4 5 ++ List.replicate 12 0)]}}, 8, 2, false, 7, 5, .sluiceThrottle 8 2 false 5 7, ⟨1, 8, 2, false, 5, 7⟩,
    (1, [1, 8, 2] ++ leBytes 4 7 ++ leBytes 4 5 ++ List.replicate 12 0), by simp, by decide +kernel⟩,
   ⟨{lit with mgmt := {lit.mgmt with down := [(1, [0, 8, 2] ++ List.replicate 20 0)]}}, 8, 2, false, 7, 5, .sluiceThrottle 8 2 false 5 7, ⟨1, 8, 2, false, 5, 7⟩,
    by simp, fun x h => by rcases Option.some.inj h with rfl; decide +kernel⟩,
   ⟨(lit.wr (Csr.SLSTAT_cmd 7 63) 2), 7, 63, by decide +kernel⟩,
   ⟨(linked lit).wr (Csr.PORTCTL_sluice_cmd_en 3) 1, 3, [0, 1, 8, 2], ⟨1, 8, 2, false, 0, 0⟩, by decide +kernel⟩⟩

/-- States and operands that meet the hypotheses of each clause of Obligations.CoherentRequests. -/
theorem wit_CoherentRequests :
  (∃ (s : State) (p : Fin 8) (m : Msg) (u : Nat) (p' : Nat) (r : Nat), s.TakesLine p.val (msgAs m 64) u p' r ∧ (s.dirEnt (lineOf m) = 0 ∧
    ∃ x, x ∈ s.dirWays (lineOf m) ∧ entSt x = 0)) ∧
  (∃ (s : State) (p : Fin 8) (m : Msg) (u : Nat) (p' : Nat) (r : Nat), s.TakesLine p.val (msgAs m 65) u p' r ∧ (s.dirEnt (lineOf m) = 0 ∧
    ∃ x, x ∈ s.dirWays (lineOf m) ∧ entSt x = 0)) ∧
  (∃ (s : State) (p : Fin 8) (m : Msg) (u : Nat) (p' : Nat) (r : Nat), s.TakesLine p.val (msgAs m 66) u p' r ∧ entSt (s.dirEnt (lineOf m)) = 1 ∧
    entNames (s.dirEnt (lineOf m)) r = true ∧ s.sharers (s.dirEnt (lineOf m)) (some r) = []) ∧
  (∃ (s : State) (p : Fin 8) (m : Msg) (u : Nat) (p' : Nat) (r : Nat), s.TakesLine p.val (msgAs m 67) u p' r ∧ s.dirEnt (lineOf m) = 0) ∧
  (∃ (s : State) (p : Fin 8) (m : Msg) (u : Nat) (p' : Nat) (r : Nat), s.TakesLine p.val (msgAs m 68) u p' r ∧ s.dirEnt (lineOf m) = 0 ∧
    cwPoison m = 0) ∧
  (∃ (s : State) (p : Fin 8) (m : Msg) (u : Nat) (p' : Nat) (r : Nat), s.TakesLine p.val (msgAs m 69) u p' r ∧ entSt (s.dirEnt (lineOf m)) = 2 ∧
    entOwner (s.dirEnt (lineOf m)) = r ∧ cwPoison m = 0) ∧
  (∃ (s : State) (p : Fin 8) (m : Msg) (u : Nat) (p' : Nat) (r : Nat), s.TakesLine p.val (msgAs m 70) u p' r ∧ entSt (s.dirEnt (lineOf m)) = 2 ∧
    entOwner (s.dirEnt (lineOf m)) = r) ∧
  (∃ (s : State) (p : Fin 8) (m : Msg) (u : Nat) (p' : Nat) (r : Nat), s.TakesLine p.val (msgAs m 71) u p' r ∧ s.dirEnt (lineOf m) = 0 ∧
    s.runsFar (msgAs m 71) = false) :=
  ⟨⟨home, 3, coh 64 0 0, 0, 3, 0, mkTakesLine (mkTakes (by decide +kernel)) (mkSound (by decide +kernel)) (by decide +kernel), by decide +kernel,
    by decide +kernel⟩,
   ⟨home, 3, coh 65 0 0, 0, 3, 0, mkTakesLine (mkTakes (by decide +kernel)) (mkSound (by decide +kernel)) (by decide +kernel), by decide +kernel,
    by decide +kernel⟩,
   ⟨home.setDir line (entAdd (entNew line 1 2 0) 0), 3, coh 66 0 0, 0, 3, 0,
    mkTakesLine (mkTakes (by decide +kernel)) (mkSound (by decide +kernel)) (by decide +kernel), by decide +kernel⟩,
   ⟨home, 3, coh 67 0 0, 0, 3, 0, mkTakesLine (mkTakes (by decide +kernel)) (mkSound (by decide +kernel)) (by decide +kernel), by decide +kernel⟩,
   ⟨home, 3, coh 68 0 144, 0, 3, 0, mkTakesLine (mkTakes (by decide +kernel)) (mkSound (by decide +kernel)) (by decide +kernel), by decide +kernel,
    by decide +kernel⟩,
   ⟨home.setDir line (entNew line 2 2 0), 3, coh 69 0x300 128, 0, 3, 0,
    mkTakesLine (mkTakes (by decide +kernel)) (mkSound (by decide +kernel)) (by decide +kernel), by decide +kernel⟩,
   ⟨home.setDir line (entNew line 2 2 0), 3, coh 70 0x200 0, 0, 3, 0,
    mkTakesLine (mkTakes (by decide +kernel)) (mkSound (by decide +kernel)) (by decide +kernel), by decide +kernel, by decide +kernel⟩,
   ⟨home, 3, coh 71 (0x8000 + 0x300000 + 2 ^ 24 + 120 * 2 ^ 25) 16, 0, 3, 0,
    mkTakesLine (mkTakes (by decide +kernel)) (mkSound (by decide +kernel)) (by decide +kernel), by decide +kernel, by decide +kernel⟩⟩

/-- States and operands that meet the hypotheses of each clause of Obligations.CoherentAnswers. -/
theorem wit_CoherentAnswers :
  (∃ (s : State) (p : Fin 8) (m : Msg) (x : Txn) (y : Snoop) (q : Nat) (r : Nat) (p' : Nat) (z : Msg), (s.Gets p.val (msgAs m 99) ∧ s.quiet = true ∧
    s.Sound ∧ List.find? (fun t => t.snoops.any fun z => z.tag == m.tag && z.epoch == m.tagEpoch) s.coh.txns = some x ∧ s.txn x.line = some x ∧
    x.snoops = [y] ∧ x.fetch = false ∧ x.goAck = false ∧ x.lost = false ∧ x.back = none ∧ x.mem = none ∧ entSt x.ent = 2 ∧ entOwner x.ent = y.member ∧
    s.dirEnt x.line = x.ent ∧ s.moving (x.line * 128) = false ∧ s.lineSlot x.line = none ∧ x.line < 2 ^ 45) ∧ x.who = TxnWho.req q z r ∧ z.code = 64 ∧
    x.msi = false ∧ y.code = 80 ∧ y.member ≠ r ∧ r < 1024 ∧ z.pan < 64 ∧ (cwState m = 3 ∨ cwState m = 4) ∧
    s.hop (s.respond z 97 0) = Hop.port p' 0 false ∧ s.ringPort p' = false) ∧
  (∃ (s : State) (p : Fin 8) (m : Msg) (x : Txn) (y : Snoop), (s.Gets p.val (msgAs m 100) ∧ s.quiet = true ∧ s.Sound ∧
    List.find? (fun t => t.snoops.any fun z => z.tag == m.tag && z.epoch == m.tagEpoch) s.coh.txns = some x ∧ s.txn x.line = some x ∧ x.snoops = [y] ∧
    x.fetch = false ∧ x.goAck = false ∧ x.lost = false ∧ x.back = none ∧ x.mem = none ∧ entSt x.ent = 2 ∧ entOwner x.ent = y.member ∧
    s.dirEnt x.line = x.ent ∧ s.moving (x.line * 128) = false ∧ s.lineSlot x.line = none ∧ x.line < 2 ^ 45) ∧ x.who = TxnWho.own ∧ x.out = [] ∧
    y.code = 84 ∧ cwPoison m = 0 ∧ s.panMirrored (entPan x.ent) = false ∧ s.region (x.line * 128) ≠ Region.system ∧
    (List.filter (fun e => entSt e != 0 && entLine e == x.line) (s.dirWays x.line)).length ≤ 1) ∧
  (∃ (s : State) (p : Fin 8) (m : Msg) (x : Txn) (q : Nat) (r : Nat) (z : Msg), s.Gets p.val (msgAs m 98) ∧ s.quiet = true ∧
    x.who = TxnWho.req q z r ∧ x.goAck = true ∧ reqKey z = reqKey m ∧ s.coh.txns = [x]) ∧
  (∃ (s : State) (p : Fin 8) (m : Msg) (u : Nat) (c : Instr) (code : Nat), (c, code) ∈ [(Instr.data p m u false, 96), (Instr.go p m u false, 97),
    (Instr.wbAck p m u false, 102)] ∧
    s.Gets p.val (msgAs m code) ∧ s.quiet = true ∧ s.bit Csr.FABSTAT_cnt_ovf 9 = false ∧ s.rd (fabCtr 9).cnt + 1 < cntMax) ∧
  (∃ (s : State) (p : Fin 8) (m : Msg) (q : OutReq), s.outReq m.tag m.tagEpoch = some q ∧ q.msg.code = 71 ∧ s.Gets p.val (msgAs m 101) ∧
    s.quiet = true ∧ q.hold = false ∧ q.naks + 1 < s.rd Csr.COHCTL_nak_limit) ∧
  (∃ (s : State) (p : Fin 8) (m : Msg) (q : OutReq) (id : Nat) (lo : Nat) (n : Nat) (wr : Bool), s.outReq m.tag m.tagEpoch = some q ∧
    q.msg.code = 71 ∧ q.use = ReqFor.wait id lo n wr ∧ m.status ≠ Sts.okDurable ∧ s.Gets p.val (msgAs m 103) ∧ m.status ≠ Sts.ok) ∧
  (∃ (s : State) (p : Fin 8) (m : Msg) (q : OutReq) (id : Nat) (lo : Nat) (n : Nat) (wr : Bool), s.outReq m.tag m.tagEpoch = some q ∧
    q.msg.code = 71 ∧ q.use = ReqFor.wait id lo n wr ∧ m.status ≠ Sts.okDurable ∧ s.Gets p.val (msgAs m 104)) ∧
  (∃ (s : State) (tag : Nat) (ep : Nat) (p' : Nat) (q : OutReq), s.outReq tag ep = some q ∧ q.hold = true ∧ 0 < q.naks ∧ s.quiet = true ∧
    s.hop ({q.msg with life := s.lifeInit, q3 := setBits q.msg.q3 4 4 (min 15 q.naks)}) = Hop.port p'
    ({q.msg with life := s.lifeInit, q3 := setBits q.msg.q3 4 4 (min 15 q.naks)}).route false ∧
    s.ringPort p' = false) ∧
  (∃ (s : State) (x : Txn) (y : Snoop), s.quiet = true ∧ s.txn x.line = some x ∧ y ∈ x.snoops ∧ y.member < 1024) ∧
  (∃ (s : State) (i : Fin 1024), s.quiet = true ∧
    List.find? (fun v => v.member == i.val) s.coh.sweeps = some { member := i.val, revoke := false, left := [] } ∧
    (∀ (t : Txn), t ∈ s.coh.txns → t.who ≠ TxnWho.revoke i.val)) ∧
  (∃ (s : State) (l : Nat) (v : Resv), v ∈ s.coh.resv ∧ v.line = l) :=
  ⟨⟨busyAt (busy (.req 3 (coh 64 0 0) 0) 1 80), 3, {req 99 with q3 := 0x400}, busy (.req 3 (coh 64 0 0) 0) 1 80, ⟨5, 0, 1, 80⟩, 3, 0, 3, coh 64 0 0,
    ⟨mkGets (by decide +kernel), by decide +kernel, mkSound (by decide +kernel), by decide +kernel⟩, by decide +kernel⟩,
   ⟨busyAt (busy .own 0 84), 3, {req 100 with q3 := 0x300, data := List.replicate 128 7}, busy .own 0 84, ⟨5, 0, 0, 84⟩,
    ⟨mkGets (by decide +kernel), by decide +kernel, mkSound (by decide +kernel), by decide +kernel⟩, by decide +kernel⟩,
   ⟨{home with coh := {home.coh with txns := [{busy (.req 3 (coh 64 0 0) 0) 1 80 with snoops := [], goAck := true}]}}, 3, req 98,
    {busy (.req 3 (coh 64 0 0) 0) 1 80 with snoops := [], goAck := true}, 3, 0, coh 64 0 0, mkGets (by decide +kernel), by decide +kernel⟩,
   ⟨home, 3, req 97, 0, .go 3 (req 97) 0 false, 97, by decide +kernel, mkGets (by decide +kernel), by decide +kernel⟩,
   ⟨asked (out8 71 (.wait 1 0 8 true)) home, 3, req 101, out8 71 (.wait 1 0 8 true), by decide +kernel, by decide +kernel, mkGets (by decide +kernel),
    by decide +kernel⟩,
   ⟨asked (out8 71 (.wait 1 0 8 true)) home, 3, {req 103 with status := 0x13}, out8 71 (.wait 1 0 8 true), 1, 0, 8, true, by decide +kernel,
    by decide +kernel, by decide +kernel, by decide +kernel, mkGets (by decide +kernel), by decide +kernel⟩,
   ⟨asked (out8 71 (.wait 1 0 8 true)) home, 3, {req 104 with data := List.replicate 16 7}, out8 71 (.wait 1 0 8 true), 1, 0, 8, true, by decide +kernel,
    by decide +kernel, by decide +kernel, by decide +kernel, mkGets (by decide +kernel)⟩,
   ⟨asked {out8 71 (.wait 1 0 8 true) with naks := 1, hold := true} home, 5, 0, 3, {out8 71 (.wait 1 0 8 true) with naks := 1, hold := true},
    by decide +kernel⟩,
   ⟨busyAt (busy .own 0 84), busy .own 0 84, ⟨5, 0, 0, 84⟩, by decide +kernel⟩,
   ⟨{home.wr Csr.COHSTAT_sweeping 1 with coh := {home.coh with sweeps := [⟨1023, false, []⟩]}}, 1023, by decide +kernel⟩,
   ⟨{home with coh := {home.coh with resv := [⟨line, 9, 4⟩]}}, line, ⟨line, 9, 4⟩, by decide +kernel⟩⟩

/-- States and operands that meet the hypotheses of each clause of Obligations.MemoryRequests. -/
theorem wit_MemoryRequests :
  (∃ (s : State) (p : Fin 8) (m : Msg) (u : Nat) (p' : Nat), (s.Takes p.val (msgAs m 1) u p' ∧ s.Sound ∧ s.shoots = [] ∧
    s.isLocal { addr := m.q2, len := m.length, va := 0, zero := false } = true ∧ s.outsideCarve (m.q2 % 2 ^ 52) m.length = true ∧
    s.nxOwned (msgAs m 1) = true ∧ (s.rightHolder (msgAs m 1)).isSome = true ∧
    (∀ (d : Nat), d ∈ s.homeLines { addr := m.q2, len := m.length, va := 0, zero := false } → s.conflicts false d = false) ∧
    ∀ (x : Nat × Nat), x ∈ s.fab.live → x.fst ≠ reqKey m)) ∧
  (∃ (s : State) (p : Fin 8) (m : Msg) (u : Nat) (p' : Nat), (s.Takes p.val (msgAs m 2) u p' ∧ s.Sound ∧ s.shoots = [] ∧
    s.isLocal { addr := m.q2, len := m.length, va := 0, zero := false } = true ∧ s.outsideCarve (m.q2 % 2 ^ 52) m.length = true ∧
    s.nxOwned (msgAs m 2) = true ∧ (s.rightHolder (msgAs m 2)).isSome = true ∧
    (∀ (d : Nat), d ∈ s.homeLines { addr := m.q2, len := m.length, va := 0, zero := false } → s.conflicts true d = false) ∧
    ∀ (x : Nat × Nat), x ∈ s.fab.live → x.fst ≠ reqKey m) ∧ m.q3 = 0 ∧ s.panMirrored m.pan = false ∧ s.panDurable m.pan = false ∧
    (∀ (kv : Nat × Pan), kv ∈ s.pans → ∀ (v : Undur), v ∈ kv.snd.undur → v.owner ≠ DurOwner.nx s.fab.nextId)) ∧
  (∃ (s : State) (p : Fin 8) (m : Msg) (u : Nat) (p' : Nat), s.Arrives p.val (msgAs m 16) u p' ∧
    List.find? s.linkUp (s.pairOf (s.rd Csr.TWINCTL_port)) = some p' ∧ s.Sound ∧ s.outsideCarve (m.q2 % 2 ^ 52) m.length = true ∧ m.q3 = 0) ∧
  (∃ (s : State) (p : Fin 8) (m : Msg) (p' : Nat) (q : OutReq) (id : Nat) (w : MirrorWait) (r : Msg), s.outReq m.tag m.tagEpoch = some q ∧
    s.Gets p.val (msgAs m 48) ∧ s.quiet = true ∧ q.use = ReqFor.mirror id ∧ m.status = Sts.ok ∧
    List.find? (fun x => x.id == id) s.fab.mirrors = some w ∧ w = { id := id, left := 1, rsp := some r, wait := 0 } ∧
    s.hop r = Hop.port p' r.route false ∧ s.ringPort p' = false ∧ vcOf r.code = 2) ∧
  (∃ (s : State) (p : Fin 8) (m : Msg) (q : OutReq) (id : Nat) (lo : Nat) (n : Nat), s.outReq m.tag m.tagEpoch = some q ∧ s.Gets p.val (msgAs m 49) ∧
    q.use = ReqFor.wait id lo n false ∧ m.status ≠ Sts.okDurable ∧ m.accepted = false) ∧
  (∃ (s : State) (p : Fin 8) (m : Msg) (q : OutReq) (qid : Nat) (pos : Nat) (e : Entry), s.outReq m.tag m.tagEpoch = some q ∧
    s.Gets p.val (msgAs m 50) ∧ s.quiet = true ∧ q.use = ReqFor.durable qid pos ∧ (s.queue qid).ent pos = some e) ∧
  (∃ (s : State) (tag : Nat) (ep : Nat) (id : Nat) (lo : Nat) (n : Nat) (wr : Bool) (q : OutReq), s.outReq tag ep = some q ∧
    q.use = ReqFor.wait id lo n wr ∧ s.lattice = false) ∧
  (∃ (s : State), s.quiet = true) ∧
  (∃ (s : State) (h : CcHeld) (l : List CcHeld) (z : Msg), s.fab.ccWait = h :: l ∧
    s.charge h.port h.msg (h.waited + subMod s.stamp h.since 64) = some z ∧ isCached h.msg.code = true ∧
    (∀ (e : CcEntry), e ∈ s.fab.cc → e.key ≠ reqKey h.msg)) :=
  ⟨⟨home, 3, {req 1 with q2 := 0x600FFF, length := 1}, 0, 3, mkTakes (by decide +kernel), mkSound (by decide +kernel), by decide +kernel⟩,
   ⟨home, 3, {req 2 with q2 := 0x600FFE, length := 2, data := [7, 8]}, 0, 3,
    ⟨mkTakes (by decide +kernel), mkSound (by decide +kernel), by decide +kernel⟩, by decide +kernel⟩,
   ⟨(home.wr (Csr.PORTCTL_role 3) 1).wr Csr.TWINCTL_port 3, 3, {req 16 with q2 := 0x600FFE, length := 2, data := [7, 8]}, 0, 3,
    mkArrives (by decide +kernel), by decide +kernel, mkSound (by decide +kernel), by decide +kernel⟩,
   ⟨asked (out8 16 (.mirror 1)) {home with fab := {home.fab with mirrors := [⟨1, 1, some {req 48 with dstPartner := true, dstPort := 3}, 0⟩]}}, 3,
    req 48, 3, out8 16 (.mirror 1), 1, ⟨1, 1, some {req 48 with dstPartner := true, dstPort := 3}, 0⟩, {req 48 with dstPartner := true, dstPort := 3},
    by decide +kernel, mkGets (by decide +kernel), by decide +kernel⟩,
   ⟨asked (out8 1 (.wait 1 0 8 false)) home, 3, {req 49 with length := 8, data := List.replicate 8 7}, out8 1 (.wait 1 0 8 false), 1, 0, 8,
    by decide +kernel, mkGets (by decide +kernel), by decide +kernel⟩,
   ⟨asked (out8 2 (.durable 9 0)) home, 3, req 50, out8 2 (.durable 9 0), 9, 0, ent ctx0, by decide +kernel, mkGets (by decide +kernel),
    by decide +kernel⟩,
   ⟨asked (out8 2 (.wait 1 0 8 true)) home, 5, 0, 1, 0, 8, true, out8 2 (.wait 1 0 8 true), by decide +kernel⟩,
   ⟨{home with fab := {home.fab with cc := [⟨9, some (req 48)⟩, ⟨10, none⟩]}}, by decide +kernel⟩,
   ⟨{home with fab := {home.fab with ccWait := [⟨3, 5, 0, 0, {req 2 with length := 1, data := [7]}⟩]}}, ⟨3, 5, 0, 0, {req 2 with length := 1, data := [7]}⟩,
    [], (home.charge 3 {req 2 with length := 1, data := [7]} 5).getD (req 2), by decide +kernel⟩⟩

/-- States and operands that meet the hypotheses of each clause of Obligations.FabricRouting. -/
theorem wit_FabricRouting :
  (∃ (s : State) (p : Fin 8) (i : Instr) (m : Msg) (u : Nat) (q : Nat) (r : Nat) (x : Nat), i ∈ [Instr.messageForward p m u false,
    Instr.partnerMessageForward p m u false] ∧
    s.portHears p.val = true ∧ s.quiet = true ∧ (m.dstNode = s.nodeId → m.dstPartner = true) ∧ (m.dstPartner = true → vcOf m.code ≠ 1) ∧
    (if s.lattice = true then s.nodeNamed m.dstNode = true else m.dstNode = s.nodeId) ∧ s.hop m = Hop.port q r false ∧
    lifeAfter m.life (u + s.flight p.val m + s.rd (Csr.LINKRTT_rtt_ns q) / 2) 1 = some x ∧ (s.ringPort q = true → m.srcNode ≠ s.nodeId ∧
    s.ringRoom q (vcOf m.code) false m = true ∧ (m.isReq = false ∨ m.mark = true))) ∧
  (∃ (s : State) (p : Fin 8) (b : List Nat), (s.portHears p.val = true ∧ s.quiet = true ∧ s.twinPort p.val = false ∧ s.fmPort p.val = true ∧
    ctrlField b 1 2 < 2 ^ 16)) ∧
  (∃ (s : State) (p : Fin 8) (b : List Nat), (s.portHears p.val = true ∧ s.quiet = true ∧ s.twinPort p.val = false ∧ s.fmPort p.val = true ∧
    ctrlField b 1 2 < 2 ^ 16) ∧ s.on Csr.FABSTAT_held = true ∧ s.rd Csr.FABSTAT_drain_id = ctrlField b 1 2) ∧
  (∃ (s : State) (w : Writer) (id : BitVec 16), s.Reaches w 20504 (1 + id.toNat * 2 ^ 16)) ∧
  (∃ (s : State) (w : Writer), s.Reaches w 20504 2 ∧ s.on Csr.FABSTAT_held = true) ∧
  (∃ (s : State), s.on Csr.FABSTAT_held = true) ∧
  (∃ (s : State), s.on Csr.FABSTAT_held = true ∧ s.on Csr.FABSTAT_drained = false ∧ s.fabEmpty = true) ∧
  (∃ (s : State) (p : Fin 8) (b : List Nat), (s.portHears p.val = true ∧ s.quiet = true ∧ s.twinPort p.val = false ∧ s.fmPort p.val = true ∧
    ctrlField b 1 2 < 2 ^ 16)) ∧
  (∃ (s : State) (w : Writer) (n : Fin 4096) (down : Bool), s.Reaches w (262144 + 8 * n.val) (setBits (s.readWord (262144 + 8 * n.val)) 9 1 (if down =
    true then 1 else 0))) :=
  ⟨⟨linked lit, 3, .messageForward 3 {req 48 with dstPartner := true, dstPort := 3} 0 false, {req 48 with dstPartner := true, dstPort := 3}, 0, 3, 0,
    (lifeAfter 4 (0 + (linked lit).flight 3 (req 48) + (linked lit).rd (Csr.LINKRTT_rtt_ns 3) / 2) 1).getD 0, by decide +kernel⟩,
   ⟨(linked lit).wr Csr.FABCTL_fm_port_mask 8, 3, [0x40, 0xFF, 0xFF], by decide +kernel⟩,
   ⟨(((linked lit).wr Csr.FABCTL_fm_port_mask 8).wr Csr.FABSTAT_held 1).wr Csr.FABSTAT_drain_id 0xFFFF, 3, [0x40, 0xFF, 0xFF], by decide +kernel⟩,
   ⟨linked lit, .rm false, 0xFFFF, mkReaches (by decide +kernel)⟩,
   ⟨(linked lit).wr Csr.FABSTAT_held 1, .rm false, mkReaches (by decide +kernel), by decide +kernel⟩,
   ⟨(linked lit).wr Csr.FABSTAT_held 1, by decide +kernel⟩,
   ⟨(linked lit).wr Csr.FABSTAT_held 1, by decide +kernel⟩,
   ⟨(linked lit).wr Csr.FABCTL_fm_port_mask 8, 3, [0x42, 0xFF, 0x0F, 1], by decide +kernel⟩,
   ⟨opened lit, .rm false, 4095, true, mkReaches (by decide +kernel)⟩⟩

/-- States and operands that meet the hypotheses of each clause of Obligations.LinkStates. -/
theorem wit_LinkStates :
  (∃ (s : State) (w : Writer) (p : Fin 8), s.Reaches w (33554432 + 524288 * p.val) (setBits (s.readWord (33554432 + 524288 * p.val)) 0 1 1) ∧
    s.on (Csr.PORTCTL_enable p.val) = false ∧ s.link p.val = 0 ∧ s.on (Csr.PEERINFO_valid p.val) = false ∧ (¬p.val ∈ s.board.unwatched) ∧
    (¬8 + p.val ∈ s.board.unwatched)) ∧
  (∃ (s : State) (w : Writer) (p : Fin 8), s.Reaches w (33554432 + 524288 * p.val) (setBits (s.readWord (33554432 + 524288 * p.val)) 0 1 0) ∧
    s.on (Csr.PORTCTL_enable p.val) = true) ∧
  (∃ (s : State) (p : Fin 8), s.quiet = true ∧ s.link p.val = 1) ∧
  (∃ (s : State) (w : Writer) (p : Fin 8), s.Reaches w (33554432 + 524288 * p.val + 16) 2 ∧ s.link p.val = 1) ∧
  (∃ (s : State) (p : Fin 8), s.quiet = true ∧ s.link p.val = 1) ∧
  (∃ (s : State) (p : Fin 8), s.quiet = true ∧ s.link p.val = 2) ∧
  (∃ (s : State) (p : Fin 8), s.quiet = true ∧ s.link p.val = 2 ∧ s.on (Csr.PEERINFO_valid p.val) = false) ∧
  (∃ (s : State) (p : Fin 8), s.quiet = true ∧ s.link p.val = 3 ∧ s.mate p.val = none) ∧
  (∃ (s : State) (p : Fin 8), s.quiet = true ∧ s.link p.val = 3 ∧ (s.mate p.val).isSome = true) ∧
  (∃ (s : State) (w : Writer) (p : Fin 8), s.Reaches w (33554432 + 524288 * p.val + 16) 1 ∧ s.link p.val = 3 ∧ (s.mate p.val).isSome = true) ∧
  (∃ (s : State) (w : Writer) (p : Fin 8), s.Reaches w (33554432 + 524288 * p.val + 16) 1 ∧ s.link p.val = 3 ∧ s.mate p.val = none) ∧
  (∃ (s : State) (p : Fin 8), s.quiet = true ∧ s.link p.val = 3) ∧
  (∃ (s : State) (p : Fin 8), s.quiet = true ∧ s.link p.val ≠ 3) ∧
  (∃ (s : State) (p : Fin 8) (tx : BitVec 8) (rx : BitVec 8), s.quiet = true ∧ s.link p.val = 6 ∧ s.on (Csr.PEERINFO_valid p.val) = true ∧
    (s.laneWidth p.val tx.toNat rx.toNat).isSome = true) ∧
  (∃ (s : State) (p : Fin 8) (tx : BitVec 8) (rx : BitVec 8), s.quiet = true ∧ s.link p.val = 6 ∧ s.on (Csr.PEERINFO_valid p.val) = false ∧
    (s.laneWidth p.val tx.toNat rx.toNat).isSome = true) ∧
  (∃ (s : State) (p : Fin 8) (tx : BitVec 8) (rx : BitVec 8), s.quiet = true ∧ s.link p.val = 6 ∧ s.laneWidth p.val tx.toNat rx.toNat = none) ∧
  (∃ (s : State) (p : Fin 8), s.quiet = true ∧ s.link p.val = 6) ∧
  (∃ (s : State) (p : Fin 8), s.quiet = true ∧ s.link p.val = 5) ∧
  (∃ (s : State) (p : Fin 8), s.quiet = true ∧ (s.link p.val = 4 ∨ s.link p.val = 5)) ∧
  (∃ (s : State) (p : Fin 8), s.quiet = true ∧ s.on (Csr.PORTSTAT_failover p.val) = true ∧
    (∀ (k : Bool × TxFlit), k ∈ (s.lnk p.val).drain.flits → ∀ (m : Msg), m ∈ k.snd.msgs → s.ownReq m = false) ∧
    (∀ (h : Nat × List Msg), h ∈ (s.lnk p.val).drain.waiting → ∀ (m : Msg), m ∈ h.snd → s.ownReq m = false)) :=
  ⟨⟨(port 0 0 lit).wr (Csr.PORTCTL_enable 3) 0, .rm false, 3, mkReaches (by decide +kernel), by decide +kernel⟩,
   ⟨(port 3 1 lit).wr (Csr.PORTCTL_enable 3) 1, .rm false, 3, mkReaches (by decide +kernel), by decide +kernel⟩,
   ⟨port 1 0 lit, 3, by decide +kernel⟩,
   ⟨port 1 0 lit, .rm false, 3, mkReaches (by decide +kernel), by decide +kernel⟩,
   ⟨port 1 0 lit, 3, by decide +kernel⟩,
   ⟨port 2 1 lit, 3, by decide +kernel⟩,
   ⟨port 2 0 lit, 3, by decide +kernel⟩,
   ⟨port 3 1 lit, 3, by decide +kernel⟩,
   ⟨((port 3 1 lit).wr (Csr.PORTCTL_pair 2) 1), 3, by decide +kernel⟩,
   ⟨((port 3 1 lit).wr (Csr.PORTCTL_pair 2) 1), .rm false, 3, mkReaches (by decide +kernel), by decide +kernel, by decide +kernel⟩,
   ⟨port 3 1 lit, .rm false, 3, mkReaches (by decide +kernel), by decide +kernel, by decide +kernel⟩,
   ⟨((port 3 1 lit).wr (Csr.PORTCTL_pair 2) 1).wr (Csr.LANESTAT_tx_ok 3) 255, 3, by decide +kernel⟩,
   ⟨(port 4 1 lit).wr (Csr.LANESTAT_tx_ok 3) 255, 3, by decide +kernel⟩,
   ⟨end3 (fun l => {l with kept := [tx0]}) (port 6 1 lit), 3, 255, 255, by decide +kernel⟩,
   ⟨port 6 0 lit, 3, 255, 255, by decide +kernel⟩,
   ⟨port 6 1 lit, 3, 0xEF, 0xFE, by decide +kernel⟩,
   ⟨port 6 1 lit, 3, by decide +kernel⟩,
   ⟨port 5 1 lit, 3, by decide +kernel⟩,
   ⟨port 5 1 lit, 3, by decide +kernel⟩,
   ⟨end3 (fun l => {l with drain := ⟨[(true, tx0)], []⟩}) ((port 1 0 lit).wr (Csr.PORTSTAT_failover 3) 1), 3, by decide +kernel⟩⟩

/-- States and operands that meet the hypotheses of each clause of Obligations.LinkMessages. -/
theorem wit_LinkMessages :
  (∃ (s : State) (p : Fin 8), s.quiet = true ∧ s.link p.val = 3 ∧ s.linkUp p.val = true ∧ s.linkIdle p.val = true ∧ s.lpiOn p.val = true ∧
    (s.lnk p.val).lpiReq = false) ∧
  (∃ (s : State) (p : Fin 8), s.quiet = true ∧ s.link p.val = 4 ∧ s.linkUp p.val = true ∧ s.linkIdle p.val = true ∧ s.sleepOn p.val = true ∧
    (s.lnk p.val).kept = [] ∧ (s.lnk p.val).sleepReq = false) ∧
  (∃ (s : State) (p : Fin 8), s.quiet = true ∧ s.link p.val = 4 ∧ s.nothingWaits p.val = true ∧ s.sleepOn p.val = true ∧ (s.lnk p.val).kept ≠ [] ∧
    (s.lnk p.val).sleepReq = false) ∧
  (∃ (s : State) (p : Fin 8), (s.portHears p.val = true ∧ s.quiet = true) ∧ (s.lnk p.val).lpiReq = false) ∧
  (∃ (s : State) (p : Fin 8), (s.portHears p.val = true ∧ s.quiet = true) ∧ (s.lnk p.val).lpiReq = true) ∧
  (∃ (s : State) (p : Fin 8), (s.portHears p.val = true ∧ s.quiet = true) ∧ (s.lnk p.val).sleepReq = false) ∧
  (∃ (s : State) (p : Fin 8), (s.portHears p.val = true ∧ s.quiet = true) ∧ (s.lnk p.val).sleepReq = true) ∧
  (∃ (s : State), s.quiet = true) ∧
  (∃ (s : State) (p : Fin 8), (s.portHears p.val = true ∧ s.quiet = true)) ∧
  (∃ (s : State) (p : Fin 8), s.quiet = true ∧ s.link p.val = 3 ∧ s.linkUp p.val = true) ∧
  (∃ (s : State) (p : Fin 8), (s.portHears p.val = true ∧ s.quiet = true)) ∧
  (∃ (s : State) (p : Fin 8), (s.portHears p.val = true ∧ s.quiet = true)) ∧
  (∃ (s : State), s.quiet = true) ∧
  (∃ (s : State) (p : Fin 8), s.quiet = true ∧ s.linkUp p.val = true ∧ s.on (Csr.PORTSEC_secured p.val) = true ∧
    (s.lnk p.val).genStart + 2 ^ 34 ≤ (s.lnk p.val).txNext) ∧
  (∃ (s : State) (p : Fin 8), (s.portHears p.val = true ∧ s.quiet = true) ∧ s.rd (Csr.PORTSEC_spdm p.val) = 2) ∧
  (∃ (s : State) (p : Fin 8) (b : List Nat), (s.portHears p.val = true ∧ s.quiet = true) ∧ s.on (Csr.PORTSEC_secured p.val) = true ∧
    ctrlField b 1 1 = ((s.lnk p.val).rxGen + 1) % 256) ∧
  (∃ (s : State) (p : Fin 8) (b : List Nat), (s.portHears p.val = true ∧ s.quiet = true) ∧ 1 ≤ ctrlField b 4 2 ∧ ctrlField b 4 2 ≤ 232 ∧
    bitOf (ctrlField b 1 1) 1 = false) :=
  ⟨⟨(port 3 1 lit).wr (Csr.LINKPWR_lpi_en 3) 1, 3, by decide +kernel⟩,
   ⟨(port 4 1 lit).wr (Csr.LINKPWR_sleep_en 3) 1, 3, by decide +kernel⟩,
   ⟨end3 (fun l => {l with kept := [tx0]}) ((port 4 1 lit).wr (Csr.LINKPWR_sleep_en 3) 1), 3, by decide +kernel⟩,
   ⟨(port 3 1 lit).wr (Csr.LINKPWR_lpi_en 3) 1, 3, by decide +kernel⟩,
   ⟨end3 (fun l => {l with lpiReq := true}) (port 3 1 lit), 3, by decide +kernel⟩,
   ⟨(port 3 1 lit).wr (Csr.LINKPWR_sleep_en 3) 1, 3, by decide +kernel⟩,
   ⟨end3 (fun l => {l with sleepReq := true}) (port 3 1 lit), 3, by decide +kernel⟩,
   ⟨end3 (fun l => {l with sleepReq := true}) (port 3 1 lit), by decide +kernel⟩,
   ⟨port 3 1 lit, 3, by decide +kernel⟩,
   ⟨port 3 1 {lit with stamp := 99}, 3, by decide +kernel⟩,
   ⟨port 3 1 {lit with stamp := 99}, 3, by decide +kernel⟩,
   ⟨port 3 1 {lit with stamp := 99}, 3, by decide +kernel⟩,
   ⟨end3 (fun l => {l with uncovered := [4]}) (port 3 1 lit), by decide +kernel⟩,
   ⟨end3 (fun l => {l with txNext := 2^34}) ((port 3 1 lit).wr (Csr.PORTSEC_secured 3) 1), 3, by decide +kernel⟩,
   ⟨end3 (fun l => {l with encTx := some 0}) ((port 3 1 lit).wr (Csr.PORTSEC_spdm 3) 2), 3, by decide +kernel⟩,
   ⟨((port 3 1 lit).wr (Csr.PORTSEC_secured 3) 1), 3, [0x52,1,0,0,0,0,0,0,5], by decide +kernel⟩,
   ⟨port 3 1 lit, 3, [0x50,1,0,0,2,0,0,0,5,6], by decide +kernel⟩⟩

set_option maxRecDepth 100000 in
/-- States and operands that meet the hypotheses of each clause of Obligations.Flits. -/
theorem wit_Flits :
  (∃ (s : State) (p : Fin 8), s.quiet = true ∧ s.link p.val = 2) ∧
  (∃ (s : State) (p : Fin 8) (b : List Nat) (fec : Bool), s.quiet = true ∧ s.link p.val = 2 ∧ s.flitOk p.val 5 b fec = true ∧
    ctrlField (flitBody b) 0 1 = 1 ∧ bitsOf (ctrlField (flitBody b) 1 1) 1 2 = bitsOf (s.initFlags p.val) 1 2 ∧
    (s.on (Csr.PORTCTL_enc_req p.val) = false ∧ s.rd Csr.SECSTAT_state ≠ 3 ∨ bitOf (ctrlField (flitBody b) 1 1) 0 = true) ∧ (s.lnk p.val).nonce ≠ 0) ∧
  (∃ (s : State) (p : Fin 8) (b : List Nat) (fec : Bool) (u : TxFlit), (s.quiet = true ∧ s.link p.val = 3 ∧ s.flitOk p.val 0 b fec = true ∧
    bitsOf (flitHdr b) 8 12 = s.rxExpect p.val) ∧ (s.lnk p.val).rxWait = false ∧ bitOf (flitHdr b) 6 = true ∧ (s.lnk p.val).oldest = some u ∧
    subMod (bitsOf (flitHdr b) 20 12) u.ext 12 < (List.filter (fun k => !k.acked) (s.lnk p.val).kept).length) ∧
  (∃ (s : State) (p : Fin 8) (b : List Nat) (fec : Bool), (s.quiet = true ∧ s.link p.val = 3 ∧ s.flitOk p.val 1 b fec = true ∧
    bitsOf (flitHdr b) 8 12 = s.rxExpect p.val) ∧ bitOf (flitHdr b) 5 = false ∧ s.slotFor p.val (bitsOf (flitHdr b) 3 2) = true) ∧
  (∃ (s : State) (p : Fin 8) (b : List Nat) (fec : Bool), (s.quiet = true ∧ s.link p.val = 3 ∧ s.flitOk p.val 1 b fec = true ∧
    bitsOf (flitHdr b) 8 12 = s.rxExpect p.val) ∧ bitOf (flitHdr b) 5 = true ∧ s.slotFor p.val (bitsOf (flitHdr b) 3 2) = true) ∧
  (∃ (s : State) (p : Fin 8) (b : List Nat) (fec : Bool), (s.quiet = true ∧ s.link p.val = 3 ∧ s.flitOk p.val 2 b fec = true ∧
    bitsOf (flitHdr b) 8 12 = s.rxExpect p.val) ∧ bitOf (flitHdr b) 5 = false ∧ ctrlField (flitBody b) 0 1 = 7 ∧ s.linkUp p.val = true) ∧
  (∃ (s : State) (p : Fin 8) (b : List Nat) (fec : Bool), (s.quiet = true ∧ s.link p.val = 3 ∧ s.flitOk p.val 3 b fec = true ∧
    bitsOf (flitHdr b) 8 12 = s.rxExpect p.val) ∧ (s.lnk p.val).held ≠ [] ∧ (∀ (f : RxFlit), f ∈ (s.lnk p.val).held → f.vc ≠ 0) ∧
    (s.lnk p.val).tagFail.snd = 0 ∧ (s.flitPlain p.val ((s.lnk p.val).rxNext + (s.lnk p.val).held.length) b).getD 2 0 = (s.lnk p.val).held.length ∧
    Option.map (fun x => x.seq) (s.lnk p.val).held.head? = some (bitsOf (ofLeBytes (List.take 2 (s.flitPlain p.val ((s.lnk p.val).rxNext + (s.lnk
    p.val).held.length) b))) 0 12)) ∧
  (∃ (s : State) (p : Fin 8) (b : List Nat) (fec : Bool) (ser : List Nat) (u : TxFlit), (s.quiet = true ∧ s.link p.val = 3 ∧
    s.flitOk p.val 4 b fec = true ∧ bitsOf (flitHdr b) 8 12 = s.rxExpect p.val) ∧
    (((s.fecCounts p.val fec ser).flitFields p.val (flitHdr b)).lnk p.val).oldest = some u ∧
    (((s.fecCounts p.val fec ser).flitFields p.val (flitHdr b)).lnk p.val).replay = none ∧
    (((s.fecCounts p.val fec ser).flitFields p.val (flitHdr b)).lnk p.val).k + 1 ≤ s.rd (Csr.LINKTMR_replay_limit p.val)) ∧
  (∃ (s : State) (p : Fin 8) (u : TxFlit), s.quiet = true ∧ s.link p.val = 3 ∧ (s.lnk p.val).oldest = some u ∧ (s.lnk p.val).replay = none ∧
    (s.lnk p.val).k + 1 ≤ s.rd (Csr.LINKTMR_replay_limit p.val)) ∧
  (∃ (s : State) (p : Fin 8), (s.quiet = true ∧ s.link p.val = 3 ∧ (s.lnk p.val).replay = none ∧ (s.lnk p.val).rrDue = false ∧
    (s.lnk p.val).uncovered = [] ∧ (List.filter (fun k => !k.acked) (s.lnk p.val).kept).length < 2048) ∧ (s.lnk p.val).ctrlq = [] ∧
    s.nextVc p.val = none) ∧
  (∃ (s : State) (p : Fin 8) (c : List Nat) (cs : List (List Nat)), (s.quiet = true ∧ s.link p.val = 3 ∧ (s.lnk p.val).replay = none ∧
    (s.lnk p.val).rrDue = false ∧ (s.lnk p.val).uncovered = [] ∧ (List.filter (fun k => !k.acked) (s.lnk p.val).kept).length < 2048) ∧
    (s.lnk p.val).ctrlq = c :: cs ∧
    (List.filter (fun k => k.vc == 0 && !k.delivered) (s.lnk p.val).kept).length < s.rd (Csr.PEERINFO_vc0_slots p.val) ∧
    (s.lnk p.val).kept.length - s.spilledKept p.val < 4096) ∧
  (∃ (s : State) (p : Fin 8) (n : Nat), (s.quiet = true ∧ s.link p.val = 3 ∧ (s.lnk p.val).replay = none ∧ (s.lnk p.val).rrDue = false ∧
    (s.lnk p.val).uncovered = [] ∧ (List.filter (fun k => !k.acked) (s.lnk p.val).kept).length < 2048) ∧ (s.lnk p.val).ctrlq = [] ∧
    s.on (Csr.PORTSTAT_stalled p.val) = false ∧ s.dataHeld p.val = false ∧ s.nextVc p.val = some n) :=
  ⟨⟨port 2 0 lit, 3, by decide +kernel⟩,
   ⟨end3 (fun l => {l with nonce := 7}) (port 2 0 lit), 3, flit 5 [1,1,3,0,9,0,0,0,7,0,0,0,8] none, false, by decide +kernel⟩,
   ⟨end3 (fun l => {l with kept := [tx0, {tx0 with ext := 1}]}) (port 3 1 lit), 3, flit (0x40 + 5 * 2^32) [] (some 0), false, tx0, by decide +kernel⟩,
   ⟨(port 3 1 lit).wr (Csr.RXCAP_min 3 0) 5, 3, flit (1+8) [] (some 0), false, by decide +kernel⟩,
   ⟨(port 3 1 lit).wr (Csr.RXCAP_min 3 0) 5, 3, flit (1+8+32) [] (some 0), false, by decide +kernel⟩,
   ⟨port 3 1 lit, 3, flit 2 [7] (some 0), false, by decide +kernel⟩,
   ⟨end3 (fun l => {l with held := [⟨0, 1, [], 0, false⟩]}) (port 3 1 lit), 3, flit (3 + 256) [0,0,1] (some 0), false, by decide +kernel⟩,
   ⟨(end3 (fun l => {l with kept := [tx0]}) (port 3 1 lit)).wr (Csr.LINKTMR_replay_limit 3) 3, 3, flit 4 [] (some 0), false, [], tx0, by decide +kernel⟩,
   ⟨(end3 (fun l => {l with kept := [tx0]}) (port 3 1 lit)).wr (Csr.LINKTMR_replay_limit 3) 3, 3, tx0, by decide +kernel⟩,
   ⟨port 3 1 lit, 3, by decide +kernel⟩,
   ⟨(end3 (fun l => {l with ctrlq := [[7]]}) (port 3 1 lit)).wr (Csr.PEERINFO_vc0_slots 3) 64, 3, [7], [], by decide +kernel⟩,
   ⟨end3 (fun l => {l with hand := [(1,[req 1])]}) (port 3 1 lit), 3, 1, by decide +kernel⟩⟩

/-- States and operands that meet the hypotheses of each clause of Obligations.EpochsAndStalls. -/
theorem wit_EpochsAndStalls :
  (∃ (s : State), s.quiet = true ∧ s.rd Csr.EPOCHSTAT_shadow = 2 ∧ s.rm.reissue = [] ∧ s.twin.later = [] ∧ s.activeSet < 2 ∧
    List.Pairwise (fun x1 x2 => x1 < x2) (List.map (fun x => x.fst) s.regs)) ∧
  (∃ (s : State), s.quiet = true ∧ s.rd Csr.EPOCHSTAT_shadow = 1 ∧ s.rd Csr.EPOCHINFL_previous = 0) ∧
  (∃ (s : State), s.rd Csr.EPOCHSTAT_shadow = 1 ∧ s.rd Csr.EPOCHINFL_previous ≠ 0 ∧ s.rm.slow = false) ∧
  (∃ (s : State) (a : Bool) (k : Fin 16), s.rmActive = some a ∧ s.stallFailed k.val = false) ∧
  (∃ (s : State) (a : Bool) (k : Fin 16), s.rmActive = some a ∧ s.stallFailed k.val = false) ∧
  (∃ (s : State) (a : Bool) (k : Fin 16), s.rmActive = some a ∧ s.stallFailed k.val = false) ∧
  (∃ (s : State), s.rm.moving ≠ [] ∧ (∀ (q : Nat), q ∈ s.rm.moving → (s.queue q).moving = none)) :=
  ⟨⟨lit.wr Csr.EPOCHSTAT_shadow 2, by decide +kernel⟩,
   ⟨lit.wr Csr.EPOCHSTAT_shadow 1, by decide +kernel⟩,
   ⟨(lit.wr Csr.EPOCHSTAT_shadow 1).wr Csr.EPOCHINFL_previous 3, by decide +kernel⟩,
   ⟨leads 3 (opened lit), false, 5, by decide +kernel⟩,
   ⟨leads 3 (opened lit), false, 5, by decide +kernel⟩,
   ⟨leads 3 (opened lit), false, 5, by decide +kernel⟩,
   ⟨{lit with rm := {lit.rm with moving := [9]}}, by decide +kernel⟩⟩

/-- States and operands that meet the hypotheses of each clause of Obligations.RingmasterPair. -/
theorem wit_RingmasterPair :
  (∃ (s : State) (a : Bool), s.rmActive = some a ∧ s.rmStandby a = some !a ∧ s.rm.writing = none) ∧
  (∃ (s : State) (a : Bool) (n : Nat) (j : Nat) (i : Nat), s.rmActive = some a ∧ s.rmStandby a = some !a ∧ s.rm.writing = some (n, j, i)) ∧
  (∃ (s : State) (a : Bool), s.rmActive = some a ∧ s.rmStandby a = some !a) ∧
  (∃ (s : State) (a : Bool) (snap : Snap), s.rmActive = some a ∧ (s.rmState !a) = 3 ∧ (s.newest !a) = some snap ∧ s.tailOf (!a) snap.jrnl = [] ∧
    s.rmQueues a = []) ∧
  (∃ (s : State) (a : Bool) (snap : Snap), s.rmActive = some a ∧ (s.rmState !a) = 3 ∧ (s.newest !a) = some snap ∧ s.tailOf (!a) snap.jrnl = [] ∧
    s.rmQueues a = []) ∧
  (∃ (s : State) (a : Bool) (w : Writer), s.rmActive = some a ∧ s.Reaches w 5242880 (setBits (s.readWord 5242880) 33 1 1) ∧ (s.rmState !a) = 3 ∧
    s.rm.jrnl = [] ∧ s.rmQueues a = []) ∧
  (∃ (s : State) (a : Bool) (b : Bool), s.rmActive = some a ∧ s.rmState b = 5) ∧
  (∃ (s : State) (a : Bool) (b : Bool), s.rmActive = some a ∧ s.rmState b = 5) :=
  ⟨⟨leads 3 lit, false, by decide +kernel⟩,
   ⟨let s := leads 3 lit; {s with rm := {s.rm with writing := some (1, 0, 2)}}, false, 1, 0, 2, by decide +kernel⟩,
   ⟨leads 3 lit, false, by decide +kernel⟩,
   ⟨let s := leads 3 lit; {s with rm := {s.rm with bufs := [(2, some ⟨1, 0, 0, 1⟩)]}}, false, ⟨1, 0, 0, 1⟩, by decide +kernel⟩,
   ⟨let s := leads 3 lit; {s with rm := {s.rm with bufs := [(2, some ⟨1, 0, 0, 1⟩)]}}, false, ⟨1, 0, 0, 1⟩, by decide +kernel⟩,
   ⟨leads 3 (opened lit), false, .rm false, by decide +kernel, mkReaches (by decide +kernel), by decide +kernel⟩,
   ⟨leads 5 lit, false, true, by decide +kernel⟩,
   ⟨leads 5 lit, false, true, by decide +kernel⟩⟩

/-- States and operands that meet the hypotheses of each clause of Obligations.Twin. -/
theorem wit_Twin :
  (∃ (s : State) (p : Fin 8), (s.portHears p.val = true ∧ s.quiet = true ∧ s.twinPort p.val = true) ∧ s.rd Csr.TWINSTAT_state = 0) ∧
  (∃ (s : State) (p : Fin 8) (b : List Nat), (s.portHears p.val = true ∧ s.quiet = true ∧ s.twinPort p.val = true) ∧ s.rd Csr.TWINSTAT_state = 1 ∧
    s.twin.greeted = true ∧ s.twinLeads b = false) ∧
  (∃ (s : State), s.twinUp = true ∧ s.linkUp (s.rd Csr.TWINCTL_port) = true) ∧
  (∃ (s : State) (p : Fin 8), (s.portHears p.val = true ∧ s.quiet = true ∧ s.twinPort p.val = true) ∧ s.isSecond = true) ∧
  (∃ (s : State) (p : Fin 8) (b : List Nat), ((s.portHears p.val = true ∧ s.quiet = true ∧ s.twinPort p.val = true) ∧ s.isSecond = true ∧
    s.twin.later = [] ∧ ¬ctrlField b 16 8 ∈ s.twin.seen ∧ s.linkUp (s.rd Csr.TWINCTL_port) = true) ∧ ctrlField b 1 1 = 0 ∧
    (∀ (g : Nat), g ∈ rangeFrom (ctrlField b 4 4) (ctrlField b 8 4) → (s.gran g).st = GranState.free)) ∧
  (∃ (s : State) (p : Fin 8) (b : List Nat), ((s.portHears p.val = true ∧ s.quiet = true ∧ s.twinPort p.val = true) ∧ s.isSecond = true ∧
    s.twin.later = [] ∧ ¬ctrlField b 16 8 ∈ s.twin.seen ∧ s.linkUp (s.rd Csr.TWINCTL_port) = true) ∧ ctrlField b 1 1 = 0 ∧
    (∃ g, g ∈ rangeFrom (ctrlField b 4 4) (ctrlField b 8 4) ∧ (s.gran g).st ≠ GranState.free)) ∧
  (∃ (s : State) (p : Fin 8) (b : List Nat) (u : State), ((s.portHears p.val = true ∧ s.quiet = true ∧ s.twinPort p.val = true) ∧ s.isSecond = true ∧
    s.twin.later = [] ∧ ¬ctrlField b 16 8 ∈ s.twin.seen ∧ s.linkUp (s.rd Csr.TWINCTL_port) = true) ∧ ctrlField b 1 1 = 1 ∧
    ({s with twin := {s.twin with seen := s.twin.seen ++ [ctrlField b 16 8]}} : State).twinMapMsg (100 :: List.drop 1 b) = (true, u)) ∧
  (∃ (s : State) (p : Fin 8) (b : List Nat), ((s.portHears p.val = true ∧ s.quiet = true ∧ s.twinPort p.val = true) ∧ s.isSecond = true ∧
    s.twin.later = [] ∧ ¬ctrlField b 16 8 ∈ s.twin.seen ∧ s.linkUp (s.rd Csr.TWINCTL_port) = true) ∧ ctrlField b 1 1 = 0 ∧
    s.panLeaves (ctrlField b 2 1 % 64) = []) ∧
  (∃ (s : State) (p : Fin 8) (b : List Nat), ((s.portHears p.val = true ∧ s.quiet = true ∧ s.twinPort p.val = true) ∧ s.isSecond = true ∧
    s.twin.later = [] ∧ ¬ctrlField b 16 8 ∈ s.twin.seen ∧ s.linkUp (s.rd Csr.TWINCTL_port) = true) ∧ ctrlField b 1 1 ≠ 0) ∧
  (∃ (s : State) (p : Fin 8) (b : List Nat), ((s.portHears p.val = true ∧ s.quiet = true ∧ s.twinPort p.val = true) ∧ s.isSecond = true ∧
    s.twin.later = [] ∧ ¬ctrlField b 16 8 ∈ s.twin.seen ∧ s.linkUp (s.rd Csr.TWINCTL_port) = true)) ∧
  (∃ (s : State) (p : Fin 8) (b : List Nat) (v : Nat × List Nat), (s.portHears p.val = true ∧ s.quiet = true ∧ s.twinPort p.val = true) ∧
    List.find? (fun v => v.fst == ctrlField b 16 8) s.twin.wait = some v ∧ ctrlField b 1 1 = 0 ∧ (¬(ctrlField v.snd 0 1 = 101 ∧
    ctrlField v.snd 1 1 = 1))) ∧
  (∃ (s : State), s.quiet = true ∧ s.rd Csr.TWINSTAT_state = 1) ∧
  (∃ (s : State), s.quiet = true ∧ s.isSecond = true ∧ s.on Csr.TWINCTL_auto_takeover = false ∧ s.fab.mirrors = []) ∧
  (∃ (s : State) (w : Writer), s.Reaches w 5243160 1 ∧ s.rd Csr.TWINSTAT_state = 4 ∧ s.on Csr.TWINSTAT_role = true) ∧
  (∃ (s : State) (w : Writer), s.Reaches w 5243160 2 ∧ s.rd Csr.TWINSTAT_state = 2 ∧ s.on Csr.TWINSTAT_role = false) ∧
  (∃ (s : State) (w : Writer), s.Reaches w 5243160 3 ∧ (s.rd Csr.TWINSTAT_state = 2 ∨ s.rd Csr.TWINSTAT_state = 3) ∧ s.fab.mirrors = []) :=
  ⟨⟨twin3 0 0 lit, 3, by decide +kernel⟩,
   ⟨let s := twin3 1 0 lit; {s with twin := {s.twin with greeted := true}}, 3, [0x60, 0, 5, 0, 9], by decide +kernel⟩,
   ⟨twin3 2 0 lit, by decide +kernel⟩,
   ⟨twin3 2 1 lit, 3, by decide +kernel⟩,
   ⟨twin3 2 1 ((lit.wr (Csr.PANSTAT_state 2) 1).wr Csr.DDR5TOP_granules 16384), 3, ctrlBytes [(0,1,0x62),(2,1,2),(4,4,7),(8,4,3),(16,8,5)],
    by decide +kernel⟩,
   ⟨twin3 2 1 (described lit), 3, ctrlBytes [(0,1,0x62),(2,1,2),(4,4,3),(8,4,3),(16,8,5)], by decide +kernel⟩,
   ⟨twin3 2 1 (roomy (paged 0x60004F lit)), 3, ctrlBytes [(0,1,0x65),(1,1,1),(2,1,2),(16,8,5),(24,1,1),(25,7,0x400000),(40,8,12),(48,8,0x800000)],
    (({ twin3 2 1 (roomy (paged 0x60004F lit)) with twin := { Twin.none with seen := [5] } }).twinMapMsg (0x64 :: (ctrlBytes [(0,1,0x65),(1,1,1),(2,1,2),(16,8,5),(24,1,1),(25,7,0x400000),(40,8,12),(48,8,0x800000)]).drop 1)).2,
    by decide +kernel⟩,
   ⟨twin3 2 1 lit, 3, ctrlBytes [(0,1,0x66),(2,1,2),(16,8,5)], by decide +kernel⟩,
   ⟨twin3 3 1 lit, 3, ctrlBytes [(0,1,0x66),(1,1,1),(2,1,2),(16,8,5)], by decide +kernel⟩,
   ⟨twin3 2 1 lit, 3, ctrlBytes [(0,1,0x67),(4,4,9),(16,8,5)], by decide +kernel⟩,
   ⟨let s := twin3 2 0 lit; {s with twin := {s.twin with wait := [(5, [0x62])]}}, 3, ctrlBytes [(0,1,0x63),(16,8,5)], (5, [0x62]), by decide +kernel⟩,
   ⟨twin3 1 0 lit, by decide +kernel⟩,
   ⟨((twin3 2 1 lit).wr (Csr.PANSTAT_state 2) 1).wr (Csr.PANCTL_mirrored 2) 1, by decide +kernel⟩,
   ⟨opened ((twin3 4 1 lit).wr Csr.TWINSTAT_peer_claim 9), .rm false, mkReaches (by decide +kernel), by decide +kernel, by decide +kernel⟩,
   ⟨opened (((twin3 2 0 lit).wr (Csr.PANSTAT_state 2) 1).wr (Csr.PANCTL_mirrored 2) 1), .rm false, mkReaches (by decide +kernel), by decide +kernel,
    by decide +kernel⟩,
   ⟨opened (((twin3 3 0 lit).wr (Csr.PANSTAT_state 2) 1).wr (Csr.PANCTL_mirrored 2) 1), .rm false, mkReaches (by decide +kernel), by decide +kernel,
    by decide +kernel⟩⟩

/-- States and operands that meet the hypotheses of each clause of Obligations.SessionsAndTenancy. -/
theorem wit_SessionsAndTenancy :
  (∃ (s : State) (port : Fin 9), s.heldInReset = false ∧ (port.val < 8 → s.linkUp port.val = true) ∧ s.rd (secCtr 0).cnt + 1 < cntMax ∧
    s.bit (secCtr 0).ovf 0 = false) ∧
  (∃ (s : State) (port : Fin 9), s.heldInReset = false ∧ (port.val < 8 → s.linkUp port.val = true)) ∧
  (∃ (s : State) (id : Nat) (port : Fin 9), s.heldInReset = false ∧ (port.val < 8 → s.linkUp port.val = true) ∧ s.sessionRoom port.val id = true) ∧
  (∃ (s : State) (id : Nat) (port : Fin 9), s.heldInReset = false ∧ (port.val < 8 → s.linkUp port.val = true) ∧ s.sessionRoom port.val id = false) ∧
  (∃ (s : State) (id : Nat) (port : Fin 9) (x : Session), s.heldInReset = false ∧ (port.val < 8 → s.linkUp port.val = true) ∧ s.session id = some x ∧
    x.port = port.val) ∧
  (∃ (s : State) (id : Nat) (x : Session), s.session id = some x) ∧
  (∃ (s : State) (id : Nat) (policy : List Nat), s.rd Csr.SECSTAT_state = 1 ∧ s.tenantAt id s.sec.offered = true ∧ policyOk policy = true) ∧
  (∃ (s : State) (id : Nat) (policy : List Nat), (s.rd Csr.SECSTAT_state ≠ 1 ∨ s.tenantAt id s.sec.offered = false ∨ policyOk policy = false)) ∧
  (∃ (s : State) (id : Nat), (s.rd Csr.SECSTAT_state = 3 ∨ s.rd Csr.SECSTAT_state = 4) ∧ s.tenantAt id s.sec.tenant = true) ∧
  (∃ (s : State) (id : Nat), s.tenantAt id s.sec.tenant = false) ∧
  (∃ (s : State) (id : Nat), s.rd Csr.SECSTAT_state = 4 ∧ s.tenantAt id s.sec.tenant = true) ∧
  (∃ (s : State) (b : Bool) (x : Nat × List Nat), s.rmActive = some b ∧ List.find? (fun y => y.fst == 2) s.mgmt.down = some x ∧ s.sec.armed ≠ none ∧
    s.sec.armed = x.snd.head? ∧ s.sec.scrubbed = 0 ∧ s.sec.full = false) ∧
  (∃ (s : State) (b : Bool) (x : Nat × List Nat), s.rmActive = some b ∧ List.find? (fun y => y.fst == 2) s.mgmt.down = some x ∧
    s.sec.armed ≠ x.snd.head?) ∧
  (∃ (s : State), s.quiet = true ∧ s.zeroing = false ∧ s.sec.scrubbed = 1) ∧
  (∃ (s : State), s.quiet = true ∧ s.zeroing = false ∧ s.sec.scrubbed ≠ 1 ∧ s.on Csr.SWITCHSTAT_zeroing = true) :=
  ⟨⟨sealed 0, 3, by decide +kernel⟩,
   ⟨sealed 0, 3, by decide +kernel⟩,
   ⟨port 3 1 lit, 5, 3, by decide +kernel⟩,
   ⟨sealed 0, 5, 3, by decide +kernel⟩,
   ⟨sealed 3, 5, 3, ⟨5, 3, true, 6, 21⟩, by decide +kernel⟩,
   ⟨sealed 3, 5, ⟨5, 3, true, 6, 21⟩, by decide +kernel⟩,
   ⟨sealed 1, 5, (1 :: List.replicate 63 0), by decide +kernel⟩,
   ⟨sealed 1, 9, (1 :: List.replicate 63 0), by decide +kernel⟩,
   ⟨sealed 4, 5, by decide +kernel⟩,
   ⟨sealed 4, 9, by decide +kernel⟩,
   ⟨sealed 4, 5, by decide +kernel⟩,
   ⟨let s := leads 3 (sealed 2); {s with sec := {s.sec with armed := some 11, after := 3}, mgmt := {s.mgmt with down := [(2, [11])]}}, false, (2, [11]),
    by decide +kernel⟩,
   ⟨let s := leads 3 (sealed 2); {s with sec := {s.sec with armed := some 11, after := 3}, mgmt := {s.mgmt with down := [(2, [12])]}}, false, (2, [12]),
    by decide +kernel⟩,
   ⟨let s := (sealed 2).wr Csr.SWITCHSTAT_zeroing 1; {s with sec := {s.sec with armed := some 11, scrubbed := 1}}, by decide +kernel⟩,
   ⟨(sealed 2).wr Csr.SWITCHSTAT_zeroing 1, by decide +kernel⟩⟩

/-- States and operands that meet the hypotheses of each clause of Obligations.OwnerCommandsAndPresence. -/
theorem wit_OwnerCommandsAndPresence :
  (∃ (s : State), s.heldInReset = false ∧ (s.board.reset ≠ none ∨ s.rd Csr.SECSTAT_state = 2 ∧ 4 ≤ s.sec.after)) ∧
  (∃ (s : State) (o : Owner), s.heldInReset = false ∧ (¬(s.board.reset ≠ none ∨ s.rd Csr.SECSTAT_state = 2 ∧ 4 ≤ s.sec.after)) ∧
    (¬(false = true → s.present (!false || o.pin) = true) ∨ ¬s.rd Csr.SECSTAT_state = 0)) ∧
  (∃ (s : State) (o : Owner), s.heldInReset = false ∧ (¬(s.board.reset ≠ none ∨ s.rd Csr.SECSTAT_state = 2 ∧ 4 ≤ s.sec.after)) ∧
    (false = true → s.present (!false || o.pin) = true) ∧ s.rd Csr.SECSTAT_state = 0) ∧
  (∃ (s : State), s.heldInReset = false ∧ (s.board.reset ≠ none ∨ s.rd Csr.SECSTAT_state = 2 ∧ 4 ≤ s.sec.after)) ∧
  (∃ (s : State) (o : Owner), s.heldInReset = false ∧ (¬(s.board.reset ≠ none ∨ s.rd Csr.SECSTAT_state = 2 ∧ 4 ≤ s.sec.after)) ∧
    (¬(false = true → s.present (!false || o.pin) = true) ∨ ¬s.rd Csr.SECSTAT_state = 1)) ∧
  (∃ (s : State) (o : Owner), s.heldInReset = false ∧ (¬(s.board.reset ≠ none ∨ s.rd Csr.SECSTAT_state = 2 ∧ 4 ≤ s.sec.after)) ∧
    (false = true → s.present (!false || o.pin) = true) ∧ s.rd Csr.SECSTAT_state = 1) ∧
  (∃ (s : State), s.heldInReset = false ∧ (s.board.reset ≠ none ∨ s.rd Csr.SECSTAT_state = 2 ∧ 4 ≤ s.sec.after)) ∧
  (∃ (s : State) (o : Owner), s.heldInReset = false ∧ (¬(s.board.reset ≠ none ∨ s.rd Csr.SECSTAT_state = 2 ∧ 4 ≤ s.sec.after)) ∧
    (¬(false = true → s.present (!false || o.pin) = true) ∨ ¬(s.rd Csr.SECSTAT_state = 3 ∨ s.rd Csr.SECSTAT_state = 4))) ∧
  (∃ (s : State) (o : Owner), s.heldInReset = false ∧ (¬(s.board.reset ≠ none ∨ s.rd Csr.SECSTAT_state = 2 ∧ 4 ≤ s.sec.after)) ∧
    (false = true → s.present (!false || o.pin) = true) ∧ (s.rd Csr.SECSTAT_state = 3 ∨ s.rd Csr.SECSTAT_state = 4)) ∧
  (∃ (s : State), s.heldInReset = false ∧ (s.board.reset ≠ none ∨ s.rd Csr.SECSTAT_state = 2 ∧ 4 ≤ s.sec.after)) ∧
  (∃ (s : State) (o : Owner) (v : BitVec 16), s.heldInReset = false ∧ (¬(s.board.reset ≠ none ∨ s.rd Csr.SECSTAT_state = 2 ∧ 4 ≤ s.sec.after)) ∧
    (¬(false = true → s.present (!false || o.pin) = true) ∨ ¬s.flash.floor ≤ v.toNat)) ∧
  (∃ (s : State) (o : Owner) (v : BitVec 16), s.heldInReset = false ∧ (¬(s.board.reset ≠ none ∨ s.rd Csr.SECSTAT_state = 2 ∧ 4 ≤ s.sec.after)) ∧
    (false = true → s.present (!false || o.pin) = true) ∧ s.flash.floor ≤ v.toNat) ∧
  (∃ (s : State), s.heldInReset = false ∧ (s.board.reset ≠ none ∨ s.rd Csr.SECSTAT_state = 2 ∧ 4 ≤ s.sec.after)) ∧
  (∃ (s : State) (o : Owner) (v : BitVec 16), s.heldInReset = false ∧ (¬(s.board.reset ≠ none ∨ s.rd Csr.SECSTAT_state = 2 ∧ 4 ≤ s.sec.after)) ∧
    (¬(true = true → s.present (!false || o.pin) = true) ∨ ¬(v.toNat ≤ s.flash.floor ∧ Config.minFloor.toNat ≤ v.toNat))) ∧
  (∃ (s : State) (o : Owner) (v : BitVec 16), s.heldInReset = false ∧ (¬(s.board.reset ≠ none ∨ s.rd Csr.SECSTAT_state = 2 ∧ 4 ≤ s.sec.after)) ∧
    (true = true → s.present (!false || o.pin) = true) ∧ (v.toNat ≤ s.flash.floor ∧ Config.minFloor.toNat ≤ v.toNat)) ∧
  (∃ (s : State), s.heldInReset = false ∧ (s.board.reset ≠ none ∨ s.rd Csr.SECSTAT_state = 2 ∧ 4 ≤ s.sec.after)) ∧
  (∃ (s : State) (o : Owner) (slot : Fin 2), s.heldInReset = false ∧ (¬(s.board.reset ≠ none ∨ s.rd Csr.SECSTAT_state = 2 ∧ 4 ≤ s.sec.after)) ∧
    (¬(true = true → s.present (!false || o.pin) = true) ∨ ¬s.slotBoots slot.val = true)) ∧
  (∃ (s : State) (o : Owner) (slot : Fin 2), s.heldInReset = false ∧ (¬(s.board.reset ≠ none ∨ s.rd Csr.SECSTAT_state = 2 ∧ 4 ≤ s.sec.after)) ∧
    (true = true → s.present (!false || o.pin) = true) ∧ s.slotBoots slot.val = true) ∧
  (∃ (s : State), s.heldInReset = false ∧ (s.board.reset ≠ none ∨ s.rd Csr.SECSTAT_state = 2 ∧ 4 ≤ s.sec.after)) ∧
  (∃ (s : State) (o : Owner), s.heldInReset = false ∧ (¬(s.board.reset ≠ none ∨ s.rd Csr.SECSTAT_state = 2 ∧ 4 ≤ s.sec.after)) ∧
    (¬(true = true → s.present (!false || o.pin) = true) ∨ ¬True)) ∧
  (∃ (s : State) (o : Owner), s.heldInReset = false ∧ (¬(s.board.reset ≠ none ∨ s.rd Csr.SECSTAT_state = 2 ∧ 4 ≤ s.sec.after)) ∧
    (true = true → s.present (!false || o.pin) = true) ∧ True) ∧
  (∃ (s : State), s.heldInReset = false ∧ (s.board.reset ≠ none ∨ s.rd Csr.SECSTAT_state = 2 ∧ 4 ≤ s.sec.after)) ∧
  (∃ (s : State) (o : Owner), s.heldInReset = false ∧ (¬(s.board.reset ≠ none ∨ s.rd Csr.SECSTAT_state = 2 ∧ 4 ≤ s.sec.after)) ∧
    (¬(true = true → s.present (!true || o.pin) = true) ∨ ¬True)) ∧
  (∃ (s : State) (o : Owner), s.heldInReset = false ∧ (¬(s.board.reset ≠ none ∨ s.rd Csr.SECSTAT_state = 2 ∧ 4 ≤ s.sec.after)) ∧
    (true = true → s.present (!true || o.pin) = true) ∧ True) ∧
  (∃ (s : State), s.heldInReset = false ∧ (s.board.reset ≠ none ∨ s.rd Csr.SECSTAT_state = 2 ∧ 4 ≤ s.sec.after)) ∧
  (∃ (s : State) (o : Owner), s.heldInReset = false ∧ (¬(s.board.reset ≠ none ∨ s.rd Csr.SECSTAT_state = 2 ∧ 4 ≤ s.sec.after)) ∧
    (¬(true = true → s.present (!false || o.pin) = true) ∨ ¬s.debugGrant ≠ 0)) ∧
  (∃ (s : State) (o : Owner), s.heldInReset = false ∧ (¬(s.board.reset ≠ none ∨ s.rd Csr.SECSTAT_state = 2 ∧ 4 ≤ s.sec.after)) ∧
    (true = true → s.present (!false || o.pin) = true) ∧ s.debugGrant ≠ 0) ∧
  (∃ (s : State), s.heldInReset = false ∧ (s.board.reset ≠ none ∨ s.rd Csr.SECSTAT_state = 2 ∧ 4 ≤ s.sec.after)) ∧
  (∃ (s : State) (o : Owner) (tamper : Bool), s.heldInReset = false ∧ (¬(s.board.reset ≠ none ∨ s.rd Csr.SECSTAT_state = 2 ∧ 4 ≤ s.sec.after)) ∧
    (¬(false = true → s.present (!false || o.pin) = true) ∨ ¬(tamper = false ∧ (s.sec.owner.isSome = true ∨ o.pin = true)))) ∧
  (∃ (s : State) (o : Owner) (tamper : Bool), s.heldInReset = false ∧ (¬(s.board.reset ≠ none ∨ s.rd Csr.SECSTAT_state = 2 ∧ 4 ≤ s.sec.after)) ∧
    (false = true → s.present (!false || o.pin) = true) ∧ (tamper = false ∧ (s.sec.owner.isSome = true ∨ o.pin = true))) ∧
  (∃ (s : State) (rearmed : Bool), s.board.main = true ∧ (s.on Csr.SECSTAT_pres_stuck = false ∨ rearmed = true)) ∧
  (∃ (s : State), s.on Csr.SECSTAT_pres_stuck = true) ∧
  (∃ (s : State), s.board.main = true ∧ s.on Csr.SECSTAT_pres_stuck = false) ∧
  (∃ (s : State), (s.board.main = true ∨ s.board.vaon = true ∨ s.board.vbat = true)) ∧
  (∃ (s : State), s.board.main = false ∧ s.board.vaon = false ∧ s.board.vbat = false) :=
  ⟨⟨onBoard (fun b => {b with reset := some .warm}) (owned 0), by decide +kernel⟩,
   ⟨owned 1, order, by decide +kernel⟩,
   ⟨owned 0, order, by decide +kernel⟩,
   ⟨onBoard (fun b => {b with reset := some .warm}) (owned 1), by decide +kernel⟩,
   ⟨owned 0, order, by decide +kernel⟩,
   ⟨owned 1, order, by decide +kernel⟩,
   ⟨onBoard (fun b => {b with reset := some .warm}) (owned 3), by decide +kernel⟩,
   ⟨owned 0, order, by decide +kernel⟩,
   ⟨owned 3, order, by decide +kernel⟩,
   ⟨onBoard (fun b => {b with reset := some .warm}) (owned 0), by decide +kernel⟩,
   ⟨{owned 0 with flash := {(owned 0).flash with floor := 5}}, order, 4, by decide +kernel⟩,
   ⟨owned 0, order, 4, by decide +kernel⟩,
   ⟨onBoard (fun b => {b with reset := some .warm}) (owned 0), by decide +kernel⟩,
   ⟨owned 0, order, 0, by decide +kernel⟩,
   ⟨shown {owned 0 with flash := {(owned 0).flash with floor := 0xFFFF}}, order, 0xFFFF, by decide +kernel, by decide +kernel, by decide +kernel, by decide +kernel,
    Nat.le_of_lt_succ Config.minFloor.isLt⟩,
   ⟨onBoard (fun b => {b with reset := some .warm}) (owned 0), by decide +kernel⟩,
   ⟨owned 0, order, 1, by decide +kernel⟩,
   ⟨shown {owned 0 with flash := {(owned 0).flash with whole := [1]}}, order, 1, by decide +kernel⟩,
   ⟨onBoard (fun b => {b with reset := some .warm}) (owned 0), by decide +kernel⟩,
   ⟨owned 0, order, by decide +kernel⟩,
   ⟨shown {owned 0 with sec := {met with nonces := [7]}}, order, by decide +kernel⟩,
   ⟨onBoard (fun b => {b with reset := some .warm}) (owned 3), by decide +kernel⟩,
   ⟨owned 3, order, by decide +kernel⟩,
   ⟨shown (owned 3), order, by decide +kernel⟩,
   ⟨onBoard (fun b => {b with reset := some .warm}) (owned 0), by decide +kernel⟩,
   ⟨owned 0, order, by decide +kernel⟩,
   ⟨shown (owned 0), order, by decide +kernel⟩,
   ⟨onBoard (fun b => {b with reset := some .warm}) (owned 0), by decide +kernel⟩,
   ⟨owned 0, order, true, by decide +kernel⟩,
   ⟨({owned 0 with sec := {met with nonces := [7]}}).wr Csr.SECSTAT_tamper_latched 1, order, false, by decide +kernel⟩,
   ⟨lit.wr Csr.SECSTAT_pres_stuck 1, true, by decide +kernel⟩,
   ⟨lit.wr Csr.SECSTAT_pres_stuck 1, by decide +kernel⟩,
   ⟨lit, by decide +kernel⟩,
   ⟨(sealed 3).wr Csr.TAMPERREC_valid 0, by decide +kernel⟩,
   ⟨onBoard (fun b => {b with main := false, vaon := false, vbat := false}) lit, by decide +kernel⟩⟩

end Witnesses

end Sys2Proof.Tests
end

section
/-!
PROOFS. What a register write that is performed does, journaled or not; the position registers of the four rings (R581); the reports of
dropped records (R13).
-/
namespace Sys2Proof.Machine
open Sys2Proof Host

/-! ### The journal of the Ringmasters (R416) -/

/-- From `s` to `t` nothing changed but the Ringmasters' own data and the positions of their journals. -/
structure State.JournalStep (s t : State) : Prop where
  frame : t = { s with regs := t.regs, rm := t.rm }
  rdSet : ∀ f : Fld, f.lo < 64 → f.off ∉ [0x400008, 0x480008] → ∀ a, t.rdSet a f = s.rdSet a f

theorem State.JournalStep.refl (s : State) : s.JournalStep s := ⟨rfl, fun _ _ _ _ => rfl⟩

theorem State.JournalStep.trans {s t u : State} (h : s.JournalStep t) (g : t.JournalStep u) : s.JournalStep u where
  frame := by rw [g.frame, h.frame]
  rdSet f hl ho a := (g.rdSet f hl ho a).trans (h.rdSet f hl ho a)

theorem State.JournalStep.mem {s t : State} (h : s.JournalStep t) : t.mem = s.mem := by rw [h.frame]

theorem State.JournalStep.latched {s t : State} (h : s.JournalStep t) (k : Nat) : t.latched k = s.latched k := by rw [h.frame]; rfl

theorem State.JournalStep.activeSet {s t : State} (h : s.JournalStep t) : t.activeSet = s.activeSet :=
  h.rdSet Csr.EPOCHCUR_set (by decide) (by decide) 0

theorem State.JournalStep.rd {s t : State} (h : s.JournalStep t) {f : Fld} (hl : f.lo < 64) (ho : f.off ∉ [0x400008, 0x480008]) :
    t.rd f = s.rd f := by
  unfold State.rd
  rw [h.activeSet, h.rdSet f hl ho]

theorem State.JournalStep.rdShadow {s t : State} (h : s.JournalStep t) {f : Fld} (hl : f.lo < 64) (ho : f.off ∉ [0x400008, 0x480008]) :
    t.rdShadow f = s.rdShadow f := by
  unfold State.rdShadow
  rw [h.activeSet, h.rdSet f hl ho]

theorem State.JournalStep.claimOf {s t : State} (h : s.JournalStep t) (b : Bool) : t.claimOf b = s.claimOf b := by
  cases b <;> exact h.rd (by decide) (by decide)

theorem State.journalStep_jSlot (s : State) (b : Bool) (r : JRec) : s.JournalStep (s.jSlot b r) where
  frame := rfl
  rdSet f hl ho a := by
    have hb : f.apart (Csr.RMJRNL_producer (rmNum b)) := Or.inl (by cases b <;> simp_all [Csr.RMJRNL_producer, rmNum])
    exact State.rdSet_wr_ne _ _ a hl (show 0 < 64 by decide) hb

theorem State.journalStep_jSlots (r : JRec) (l : List Bool) : ∀ s : State, s.JournalStep (l.foldl (fun s b => s.jSlot b r) s) := by
  induction l with
  | nil => exact State.JournalStep.refl
  | cons b l ih => exact fun s => (s.journalStep_jSlot b r).trans (ih _)

theorem State.journalStep_jPut (s : State) (b : Bool) (kind cmd status ref : Nat) (args : List Nat) :
    s.JournalStep (s.jPut b kind cmd status ref args).2 := by
  have number : s.JournalStep { s with rm := { s.rm with seq := s.rm.seq + 1 } } := ⟨rfl, fun _ _ _ _ => rfl⟩
  exact number.trans (State.journalStep_jSlots _ _ _)

/-! ### Register writes that are performed (R410, R537) -/

theorem Csr.find_lo {o : Nat} {r : RegRow} (h : Csr.find o = some r) {f : FieldRow} (hf : f ∈ r.fields) : f.lo < 64 := by
  have hall : Csr.table.all (fun r => r.fields.all (fun f => decide (f.lo < 64))) = true := by decide +kernel
  simp only [List.all_eq_true, decide_eq_true_eq] at hall
  exact hall r (List.mem_of_find?_eq_some h) f hf

/-- No gate stands before the Ringmaster blocks (Table 19-1). -/
theorem gateOf_outside_rm {o k : Nat} (h : gateOf o = some k) : o < 0x400000 ∨ 0x500000 ≤ o := by
  by_contra hc
  have hn : gateOf o = none := by
    unfold gateOf
    rw [if_neg (by omega), if_neg (by omega), if_neg (by omega), if_pos (by omega)]
  simp [hn] at h

theorem not_journal_of_gate {o k : Nat} (h : gateOf o = some k) : o ∉ [0x400008, 0x480008] := by
  have := gateOf_outside_rm h
  simp only [List.mem_cons, List.not_mem_nil, or_false]
  omega

theorem rmBlockOf_of_gate {o k : Nat} (h : gateOf o = some k) : rmBlockOf o = none := by
  have := gateOf_outside_rm h
  unfold rmBlockOf
  rw [if_neg (by omega), if_neg (by omega)]

theorem eq_done_of_ite {c : Prop} [Decidable c] {t u : State}
    (h : (if c then (WriteResult.done, t) else (.refused, u)).1 = .done) : (if c then (WriteResult.done, t) else (.refused, u)) = (.done, t) := by
  by_cases hc : c
  · exact if_pos hc
  · simp [hc] at h

/-- Whatever path performs a write of a register behind a gate, the register takes the word. -/
theorem State.regWrite_of_done {s : State} {w : Writer} {o v k : Nat} {r : RegRow} (hk : gateOf o = some k) (hr : Csr.find o = some r)
    (h : (s.regWrite w o v).1 = .done) : s.regWrite w o v = (.done, s.writeWord o v) := by
  unfold State.regWrite at h ⊢
  simp only [rmBlockOf_of_gate hk, hk, hr] at h ⊢
  by_cases hword : o % 8 ≠ 0 ∨ 0x4000000 ≤ o
  · simp [hword] at h
  rw [if_neg hword] at h ⊢
  cases w with
  | rm b | power | booth => exact eq_done_of_ite h
  | debug =>
    by_cases hopen : s.debugLevel = 2 ∧ k ≠ 47
    · simp only [if_pos hopen] at h ⊢
      exact eq_done_of_ite h
    · simp [hopen] at h
  | mgmt =>
    simp only [Option.isNone_some, Bool.false_eq_true, if_false] at h ⊢
    exact eq_done_of_ite h

/-- What becomes of a Ringmaster's write at a gate. -/
theorem State.regWrite_rm_result (s : State) (b : Bool) {o k : Nat} (v : Nat) {r : RegRow} (hk : gateOf o = some k)
    (hr : Csr.find o = some r) : (s.regWrite (.rm b) o v).1 =
      if o % 8 ≠ 0 ∨ 0x4000000 ≤ o then .malformed
      else if (s.claimOf b == s.latched k) && s.rwsAllowed o r v && (k != 47 || decide (0x3000400 ≤ o)) then .done else .refused := by
  unfold State.regWrite
  simp only [rmBlockOf_of_gate hk, hk, hr]
  split
  · rfl
  · split <;> rfl

theorem State.JournalStep.rwsAllowed {s t : State} (h : s.JournalStep t) {o k : Nat} {r : RegRow} (v : Nat) (hk : gateOf o = some k)
    (hr : Csr.find o = some r) : t.rwsAllowed o r v = s.rwsAllowed o r v := by
  have hopen : t.shadowOpen = s.shadowOpen := congrArg (· == 0) (h.rd (by decide) (by decide))
  have hshadow : ∀ f ∈ r.fields, t.rdShadow (f.fld o) = s.rdShadow (f.fld o) := fun f hf =>
    h.rdShadow (show (f.fld o).lo < 64 from Csr.find_lo hr hf) (not_journal_of_gate hk)
  unfold State.rwsAllowed
  rw [hopen, Bool.eq_iff_iff]
  simp only [Bool.or_eq_true, List.all_eq_true]
  exact or_congr_right (forall₂_congr fun f hf => by rw [hshadow f hf])

/-- A journal record changes nothing at the gates. -/
theorem State.JournalStep.regWrite_rm {s t : State} (h : s.JournalStep t) (b : Bool) {o k : Nat} (v : Nat) {r : RegRow}
    (hk : gateOf o = some k) (hr : Csr.find o = some r) : (t.regWrite (.rm b) o v).1 = (s.regWrite (.rm b) o v).1 := by
  rw [State.regWrite_rm_result t b v hk hr, State.regWrite_rm_result s b v hk hr, h.claimOf, h.latched, h.rwsAllowed v hk hr]

/-- The register takes the word, unless its block discards it, and what the write starts is done. -/
def State.performed (s : State) (w : Writer) (o v : Nat) : State :=
  if s.writeDiscarded o v then s else State.regEffect s (s.writeWord o v) w o v

theorem State.writeEff_of_done {s : State} {w : Writer} {o v k : Nat} {r : RegRow} (hk : gateOf o = some k) (hr : Csr.find o = some r)
    (h : (s.regWrite w o v).1 = .done) : s.writeEff w o v = (.done, s.performed w o v) := by
  unfold State.writeEff
  rw [State.regWrite_of_done hk hr h]
  rfl

/-- The write of the active Ringmaster stands between two journal records (R416). -/
theorem State.writeJournaled_performs {s : State} {b : Bool} {o v k : Nat} {r : RegRow} (hk : gateOf o = some k) (hr : Csr.find o = some r)
    (hrst : o ≠ 0x200200) (h : (s.regWrite (.rm b) o v).1 = .done) :
    ∃ u, s.JournalStep u ∧ (u.performed (.rm b) o v).JournalStep (s.writeJournaled b o v) := by
  have hstart : s.JournalStep (s.jStart b (journalOf o v).1 (journalOf o v).2).2 := s.journalStep_jPut ..
  refine ⟨_, hstart, ?_⟩
  have hdone := (hstart.regWrite_rm b v hk hr).trans h
  unfold State.writeJournaled
  simp only [State.writeEff_of_done hk hr hdone, beq_eq_false_iff_ne.mpr hrst, Bool.and_false, Bool.false_eq_true, if_false]
  exact State.journalStep_jPut ..

/-- A write that is performed, of a register behind a gate other than TRPCTL and RSTCMD: it takes effect, with journal records around it
or without. -/
theorem State.csrWrite_performs {s : State} {w : Writer} {o v k : Nat} {r : RegRow} (hk : gateOf o = some k) (hr : Csr.find o = some r)
    (htrp : o ≠ 0x500000) (hrst : o ≠ 0x200200) (h : s.Reaches w o v) :
    ∃ u, s.JournalStep u ∧ (u.performed w o v).JournalStep (s.csrWrite w o v).2 := by
  obtain ⟨hs, hd⟩ := h
  simp only [State.serves, Bool.and_eq_true, Bool.not_eq_true'] at hs
  obtain ⟨hlit, hheld⟩ := hs
  have plain : ∃ u, s.JournalStep u ∧ (u.performed w o v).JournalStep (s.performed w o v) := ⟨s, .refl s, .refl _⟩
  have heff := State.writeEff_of_done hk hr hd
  unfold State.csrWrite
  simp only [hlit, hheld, htrp, Bool.not_true, Bool.or_self, Bool.false_eq_true, if_false, false_and, and_false]
  cases w with
  | rm b =>
    by_cases hact : s.rmState b = 4
    · simpa [hd, hk, hact] using State.writeJournaled_performs hk hr hrst hd
    · simpa [hact, heff] using plain
  | debug | mgmt | power | booth => simpa only [heff] using plain

/-! ### The position registers of rings (R581) -/

/-- The row of a ring's position register: a producer count and a consumer count of `w` bits each. -/
def ringRow (name : String) (base : Nat) (dims : List (Nat × Nat)) (w : Nat) (others : List FieldRow) : RegRow :=
  ⟨name, base, dims, ⟨"producer", 0, w, .ro, fun _ => 0⟩ :: ⟨"consumer", w, w, .rw, fun _ => 0⟩ :: others⟩

/-- The producer count of the ring whose position register is at `o`. -/
def ringProducer (o w : Nat) : Fld := ⟨o, 0, w, 0, false⟩

/-- The consumer count of the ring whose position register is at `o`. -/
def ringConsumer (o w : Nat) : Fld := ⟨o, w, w, 0, false⟩

theorem State.writeField_ro (s : State) (r : RegRow) (o v : Nat) {f : FieldRow} (h : f.acc = .ro) : s.writeField r o v f = s := by
  simp [State.writeField, h]

theorem State.foldl_writeField_ro (s : State) (r : RegRow) (o v : Nat) (l : List FieldRow) (h : ∀ f ∈ l, f.acc = .ro) :
    l.foldl (fun s f => s.writeField r o v f) s = s := by
  induction l with
  | nil => rfl
  | cons f l ih =>
    rw [List.foldl_cons, s.writeField_ro r o v (h f (by simp))]
    exact ih fun g hg => h g (by simp [hg])

theorem State.markDirty_of_no_rws (s : State) (o : Nat) (r : RegRow) (h : ∀ f ∈ r.fields, f.acc ≠ .rws) : s.markDirty o r = s := by
  have hany : r.fields.any (fun f => f.acc == .rws) = false := by simpa using h
  simp [State.markDirty, hany]

/-- What a ring's position register makes of a written word: its consumer count is taken when the ring can have it. -/
theorem State.writeWord_ring (s : State) {o : Nat} (v : Nat) {name : String} {base w n : Nat} {dims : List (Nat × Nat)}
    {others : List FieldRow} (hrow : Csr.find o = some (ringRow name base dims w others)) (hring : ringOf name = some (w, n))
    (hro : ∀ f ∈ others, f.acc = .ro) :
    s.writeWord o v = if subMod (s.rd (ringProducer o w)) (bitsOf v w w) w ≤ n then s.wr (ringConsumer o w) (bitsOf v w w) else s := by
  have hprod : s.writeField (ringRow name base dims w others) o v ⟨"producer", 0, w, .ro, fun _ => 0⟩ = s := s.writeField_ro _ _ _ rfl
  have hcons : s.writeField (ringRow name base dims w others) o v ⟨"consumer", w, w, .rw, fun _ => 0⟩
      = if subMod (s.rd (ringProducer o w)) (bitsOf v w w) w ≤ n then s.wr (ringConsumer o w) (bitsOf v w w) else s := by
    have hname : (ringRow name base dims w others).name = name := rfl
    have hp : producerOf (ringRow name base dims w others) o = ringProducer o w := rfl
    simp only [State.writeField, hname, hring, hp, consumerOk, BEq.rfl, Bool.true_and, Bool.not_eq_true', decide_eq_false_iff_not]
    exact ite_not ..
  have hrws : ∀ f ∈ (ringRow name base dims w others).fields, f.acc ≠ .rws := by
    intro f hf
    simp only [ringRow, List.mem_cons] at hf
    obtain rfl | rfl | hf := hf
    · exact nofun
    · exact nofun
    · simp [hro f hf]
  unfold State.writeWord
  rw [hrow]
  show State.markDirty (List.foldl _ s (_ :: _ :: others)) o _ = _
  rw [List.foldl_cons, List.foldl_cons, hprod, hcons, State.foldl_writeField_ro _ _ _ _ _ hro, State.markDirty_of_no_rws _ _ _ hrws]

/-- The position register of a ring of `n` records with counts of `w` bits stands at `o` behind a gate, its block discards no write of it,
and what such a write starts leaves memory and the two counts alone. -/
structure RingAt (o w n : Nat) : Prop where
  row : ∃ name base dims others, Csr.find o = some (ringRow name base dims w others) ∧ ringOf name = some (w, n) ∧
    ∀ f ∈ others, f.acc = .ro
  gate : ∃ k, gateOf o = some k
  width : 0 < w ∧ w < 64
  apart : o ≠ 0x500000 ∧ o ≠ 0x200200 ∧ o ≠ Csr.EPOCHCUR_set.off
  kept : ∀ (s : State) (v : Nat), s.writeDiscarded o v = false
  effect : ∀ (old s : State) (x : Writer) (v : Nat),
    (State.regEffect old s x o v).rd (ringConsumer o w) = s.rd (ringConsumer o w) ∧
    (State.regEffect old s x o v).rd (ringProducer o w) = s.rd (ringProducer o w) ∧ (State.regEffect old s x o v).mem = s.mem

/-- R581: of a word written to a ring's position register the consumer count is taken when the ring can have it, and is as before
otherwise; the producer count and memory stay. -/
theorem RingAt.csrWrite {o w n : Nat} (hring : RingAt o w n) {s : State} {x : Writer} {v : Nat} (h : s.Reaches x o v) :
    let t := (s.csrWrite x o v).2
    t.rd (ringConsumer o w) = (if subMod (s.rd (ringProducer o w)) (bitsOf v w w) w ≤ n then bitsOf v w w else s.rd (ringConsumer o w)) ∧
    t.rd (ringProducer o w) = s.rd (ringProducer o w) ∧ t.mem = s.mem := by
  obtain ⟨⟨name, base, dims, others, hrow, hname, hro⟩, ⟨k, hk⟩, ⟨hw0, hw⟩, ⟨htrp, hrst, hset⟩, hkept, heffect⟩ := hring
  have hj := not_journal_of_gate hk
  obtain ⟨u, hsu, hut⟩ := State.csrWrite_performs hk hrow htrp hrst h
  obtain ⟨hcons, hprod, hmem⟩ := heffect u (u.writeWord o v) x v
  have hperf : u.performed x o v = State.regEffect u (u.writeWord o v) x o v := by simp [State.performed, hkept]
  rw [hperf] at hut
  have pstep : u.rd (ringProducer o w) = s.rd (ringProducer o w) := hsu.rd (show 0 < 64 by decide) hj
  have cstep : u.rd (ringConsumer o w) = s.rd (ringConsumer o w) := hsu.rd hw hj
  have hcset : Csr.EPOCHCUR_set.apart (ringConsumer o w) := Or.inl (Ne.symm hset)
  have hx : bitsOf v w w % 2 ^ w = bitsOf v w w := Nat.mod_eq_of_lt (Nat.mod_lt _ (by positivity))
  have hpc : (ringProducer o w).apart (ringConsumer o w) := Or.inr (Nat.ne_of_lt hw0)
  have word := u.writeWord_ring v hrow hname hro
  rw [pstep] at word
  refine ⟨?_, ?_, ?_⟩
  · rw [hut.rd hw hj, hcons, word]
    split
    · exact (u.rd_wr_same _ hw hcset).trans hx
    · exact cstep
  · rw [hut.rd (show 0 < 64 by decide) hj, hprod, word]
    split
    · exact (u.rd_wr_ne _ (show 0 < 64 by decide) hw hpc hcset).trans pstep
    · exact pstep
  · rw [hut.mem, hmem, word]
    split <;> exact hsu.mem

/-! ### The four rings -/

/-- The register at an offset is the first row of the table that covers it. -/
theorem Csr.find_of_index {o i : Nat} {r : RegRow}
    (hi : Csr.table.findIdx? (fun r => decide (r.base ≤ o) && Csr.inDims r.dims (o - r.base)) = some i) (hr : Csr.table[i]? = some r) :
    Csr.find o = some r := by
  unfold Csr.find
  rw [List.find?_eq_bind_findIdx?_getElem?, hi]
  exact hr

theorem ringAt_evpos : RingAt 0x3100018 32 32768 where
  row := ⟨"EVPOS", 0x3100018, [], [], Csr.find_of_index (i := 293) (by decide +kernel) rfl, rfl, by simp⟩
  gate := ⟨48, rfl⟩
  width := by decide
  apart := by decide
  kept _ _ := rfl
  effect _ _ _ _ := ⟨rfl, rfl, rfl⟩

theorem State.rd_errLogLevel (s : State) {f : Fld} (hl : f.lo < 64) (ho : f.off ≠ 0x3008) : s.errLogLevel.rd f = s.rd f := by
  unfold State.errLogLevel
  exact s.rd_wr_ne _ hl (by decide) (Or.inl ho) (Or.inl (by decide))

theorem State.errLogLevel_mem (s : State) : s.errLogLevel.mem = s.mem := by
  unfold State.errLogLevel
  exact s.wr_mem ..

/-- ERRSTAT.log_full follows a write of ERRLOGPOS (Table 09-10). -/
theorem ringAt_errlogpos : RingAt 0x3018 32 8192 where
  row := ⟨"ERRLOGPOS", 0x3018, [], [], Csr.find_of_index (i := 22) (by decide +kernel) rfl, rfl, by simp⟩
  gate := ⟨0, rfl⟩
  width := by decide
  apart := by decide
  kept _ _ := rfl
  effect old s x v := by
    have level : State.regEffect old s x 0x3018 v = s.errLogLevel := by
      simp [State.regEffect, State.blockEffect]
    rw [level]
    exact ⟨s.rd_errLogLevel (by decide) (by decide), s.rd_errLogLevel (by decide) (by decide), s.errLogLevel_mem⟩

theorem ringAt_fqpos (n : Fin 64) : RingAt (0x200A0 + 0x100 * n.val) 32 4096 where
  row := ⟨"FQPOS", 0x200A0, [(0x100, 64)], [], Csr.find_of_index (i := 65) (by revert n; decide +kernel) rfl, rfl, by simp⟩
  gate := ⟨0, if_pos (by omega)⟩
  width := by decide
  apart := by simp only [Csr.EPOCHCUR_set]; omega
  kept s v := if_neg (by omega)
  effect old s x v := by
    have nothing : State.regEffect old s x (0x200A0 + 0x100 * n.val) v = s := by
      unfold State.regEffect State.blockEffect
      simp (disch := omega) only [if_neg]
    rw [nothing]
    exact ⟨rfl, rfl, rfl⟩

/-- AONLOGPOS.reserve ends with a write that leaves 64 records free (R520). -/
theorem ringAt_aonlogpos : RingAt 0x100068 16 2048 where
  row := ⟨"AONLOGPOS", 0x100068, [], [⟨"copied", 32, 16, .ro, fun _ => 0⟩, ⟨"reserve", 48, 1, .ro, fun _ => 0⟩],
    Csr.find_of_index (i := 85) (by decide +kernel) rfl, rfl, by simp⟩
  gate := ⟨1, rfl⟩
  width := by decide
  apart := by decide
  kept _ _ := rfl
  effect old s x v := by
    have level : State.regEffect old s x 0x100068 v = if 64 ≤ 2048 - s.aonBacklog then s.wr Csr.AONLOGPOS_reserve 0 else s := rfl
    have other (f : Fld) (hl : f.lo < 48) : (s.wr Csr.AONLOGPOS_reserve 0).rd f = s.rd f :=
      s.rd_wr_ne _ (by omega) (by decide) (Or.inr (Nat.ne_of_lt hl)) (Or.inl (by decide))
    rw [level]
    split
    · exact ⟨other _ (by decide), other _ (by decide), rfl⟩
    · exact ⟨rfl, rfl, rfl⟩

/-! ### Drop records (R13) -/

/-- The drops of a class enter the staging queue as one record, which leaves it room for another. -/
theorem State.dropReport_staging {s : State} {c : Nat} (hd : SMap.get DropCount.zero c s.log.drops ≠ DropCount.zero)
    (hroom : s.log.staging.length < 2047) :
    s.dropReport false c = { s with log := { s.log with
      staging := s.log.staging ++ [dropRecord c s.stamp (SMap.get DropCount.zero c s.log.drops)],
      drops := SMap.put DropCount.zero c DropCount.zero s.log.drops } } := by
  have h1 : s.log.staging.length < 2048 := by omega
  have h2 : ¬ 2047 ≤ s.log.staging.length := by omega
  simp [State.dropReport, State.pushRing, hd, h1, h2]

/-- No drops of class `c` wait to be reported to the always-on log. -/
def State.clearAonDrops (s : State) (c : Nat) : State :=
  { s with log := { s.log with aonDrops := SMap.put DropCount.zero c DropCount.zero s.log.aonDrops } }

/-- The drops of a class that the always-on log admits enter it as one record. -/
theorem State.dropReport_aon {s : State} {c : Nat} (hd : SMap.get DropCount.zero c s.log.aonDrops ≠ DropCount.zero)
    (hadmit : s.aonAdmits c = true) :
    s.dropReport true c = (s.aonWrite (dropRecord c s.stamp (SMap.get DropCount.zero c s.log.aonDrops))).clearAonDrops c := by
  simp [State.dropReport, State.clearAonDrops, hd, hadmit]

/-- A record of the always-on log moves its producer count and no other register field. -/
theorem State.rd_aonWrite_ne (s : State) (e : EventRec) {f : Fld} (hl : f.lo < 64) (ho : f.off ≠ 0x100068) : (s.aonWrite e).rd f = s.rd f :=
  (State.rd_wr_ne _ _ hl (by decide) (Or.inl ho) (Or.inl (by decide))).trans rfl

theorem State.rd_producer_aonWrite (s : State) (e : EventRec) :
    (s.aonWrite e).rd Csr.AONLOGPOS_producer = (s.rd Csr.AONLOGPOS_producer + 1) % 2 ^ 16 :=
  State.rd_wr_same _ _ (by decide) (Or.inl (by decide))

theorem State.aon_aonWrite (s : State) (e : EventRec) :
    SMap.get EventRec.zero (s.rd Csr.AONLOGPOS_producer % 2048) (s.aonWrite e).log.aon = { e with seq := s.log.aonSeq } :=
  SMap.get_put_same ..

/-- Settles O33: the write of each position register is a performed write of a ring's row, and a report of drops is one record in its
log. -/
theorem consumersAndDrops : Obligations.ConsumersAndDrops := by
  unfold Obligations.ConsumersAndDrops
  intro s w v
  refine ⟨fun h => ⟨_, rfl, ringAt_evpos.csrWrite h⟩, fun h => ⟨_, rfl, ringAt_errlogpos.csrWrite h⟩,
    fun n h => ⟨_, rfl, (ringAt_fqpos n).csrWrite h⟩, fun h => ⟨_, rfl, ringAt_aonlogpos.csrWrite h⟩, ?_, ?_⟩
  · rintro c d hd rfl hroom
    refine ⟨_, rfl, ?_⟩
    rw [State.dropReport_staging hd hroom]
    exact ⟨rfl, SMap.get_put_same DropCount.zero c.val DropCount.zero s.log.drops, fun _ _ _ _ => rfl, rfl⟩
  · rintro c d hd rfl hadmit
    refine ⟨_, rfl, ?_⟩
    rw [State.dropReport_aon hd hadmit]
    have cleared := SMap.get_put_same DropCount.zero c.val DropCount.zero s.log.aonDrops
    refine ⟨s.aon_aonWrite (dropRecord c.val s.stamp _), s.rd_producer_aonWrite _, cleared, fun f hl ho _ => s.rd_aonWrite_ne _ hl ?_, rfl⟩
    exact fun he => ho (by simp [he])

end Sys2Proof.Machine
end

section
/-!
PROOFS. The parameters of the check kinds and their check values (R275, Table 09-6).
-/
namespace Sys2Proof.Machine

/-! ### The polynomials -/

/-- The step shifts bit 0, the only one set, out of a reflected CRC: what remains is the polynomial. -/
theorem crcShiftR_one_one (poly : Nat) : crcShiftR poly 1 1 = poly := by
  simp [crcShiftR]

/-- Kind 1 holds the polynomial of CRC-32C in the opposite order of bits. -/
theorem bitOf_crcRpoly_one : ∀ i < 32, bitOf (crcRpoly 1) i = bitOf 0x1EDC6F41 (31 - i) := by decide

/-- Kind 2 holds the polynomial of the NVMe CRC-64 in the opposite order of bits. -/
theorem bitOf_crcRpoly_two : ∀ i < 64, bitOf (crcRpoly 2) i = bitOf 0xAD93D23594C93659 (63 - i) := by decide

/-! ### The check values -/

/-- The message of the check values, as the bytes of the text that R275 names. -/
def checkMessage : List Nat := "123456789".toList.map Char.toNat

theorem checkMessage_eq : checkMessage = [0x31, 0x32, 0x33, 0x34, 0x35, 0x36, 0x37, 0x38, 0x39] := by decide

/-- The check value of a kind: the CRC of the message with no fold. -/
def checkValue (kind : Nat) : Nat := crcFinal kind (crcUpdate kind (crcSeed kind (crcInit kind) none) checkMessage)

theorem checkValue_crc32c : checkValue 1 = 0xE3069283 := by decide +kernel

theorem checkValue_crc64 : checkValue 2 = 0xAE8B14860A799888 := by decide +kernel

theorem checkValue_crc16 : checkValue 3 = 0xD0DB := by decide +kernel

/-- Settles O8: widths, initial values and final XORs stand in the model's definitions; a polynomial is what one step makes of a single set
bit, compared bit by bit with its unreflected form; the check values are computed. -/
theorem checkValuesOfTable : Obligations.CheckValuesOfTable := by
  unfold Obligations.CheckValuesOfTable
  rw [← checkMessage_eq, crcShiftR_one_one, crcShiftR_one_one]
  have finals (raw : Nat) : crcFinal 1 raw = raw ^^^ 0xFFFFFFFF ∧ crcFinal 2 raw = raw ^^^ 0xFFFFFFFFFFFFFFFF ∧ crcFinal 3 raw = raw ^^^ 0 :=
    ⟨rfl, rfl, rfl⟩
  exact ⟨rfl, rfl, rfl, rfl, rfl, rfl, finals, bitOf_crcRpoly_one, bitOf_crcRpoly_two, rfl, rfl, rfl,
    checkValue_crc32c, checkValue_crc64, checkValue_crc16⟩

end Sys2Proof.Machine
end
